-- ==== Sys2Proof/Word.lean ====
section
/-! DEFINITION. The word types of the EYX-1280 (R6, R70): bytes, 64-bit words and 2,048-bit vector registers. -/

namespace Sys2Proof

/-- One byte of storage (R6). -/
abbrev Byte := BitVec 8

/-- A 64-bit register word (R70). -/
abbrev Word := BitVec 64

/-- A 2,048-bit vector register (R70). -/
abbrev VReg := BitVec 2048

/-- The five IEEE flags NV, DZ, OF, UF, NX in bits 0 to 4 (R36, R42). -/
abbrev Flags := BitVec 5

end Sys2Proof
end

