-- ==== Sys2Proof/Config.lean ====
section
/-! DEFINITION. What the hardware fixes (capacities, R2, R10, R12) and the values the spec leaves open
(opaque constants without a body: nothing can be proved of their values). -/

namespace Sys2Proof.Config

/-- Bytes of a tile's scratchpad (R152). -/
def spadBytes : Nat := 0x200000

/-- Bytes of a tile's instruction memory (R63). -/
def imemBytes : Nat := 0x20000

/-- Basin entries of a tile (R26). -/
def basinEntries : Nat := 64

/-- Inbound skid entries of a tile (R27). -/
def skidEntries : Nat := 64

/-- Lines of 256 bytes in a tile's far-read buffer of 64 KiB (R12). -/
def bufferLines : Nat := 256

/-- Entries of a tile's translation cache (R333). -/
def tileTlbEntries : Nat := 64

/-- Entries of a die's shared translation cache (R333). -/
def dieTlbEntries : Nat := 8192

/-- Entries of the hub translation cache (R333). -/
def hubTlbEntries : Nat := 64

/-- Cycles of the 50 ms freeze bound at 980 MHz (R29, R3). -/
def deadlockCycles : Nat := 49000000

/-- Cycles of the 10 ms bound on page requests, parked queues and remote paths (R335, R318, R358). -/
def tenMsCycles : Nat := 9800000

/-- Cycles of 1 ms (R379). -/
def oneMsCycles : Nat := 980000

/-- Cycles between two duty updates, 10 microseconds (R387). -/
def dutyCycles : Nat := 9800

/-- Cycles of one microsecond (R370). -/
def usCycles : Nat := 980

/-- Bytes of one HBM stack, 64 x 10^9 (R330). -/
def stackBytes : Nat := 64000000000

/-- Which of n enabled untimed events happens next; n itself stands for the next main-clock cycle.
The spec fixes no arrival time of untimed traffic (R22, R137, R161); assumption log entry 4. -/
opaque choose : Nat → Nat → Nat

/-- Bytes of an ML-DSA-65 signature with the device identity key (hedged, R367, R375): free, by the message digest and the context
string signed, the signing number and the byte index; entry 8. -/
opaque signature : List Byte → List Byte → Nat → Nat → Byte

/-- Bytes of the public identity key derived from the fused device secret (R391); entry 8. -/
opaque identityKey : Nat → Byte

/-- Bytes of the certificate of the identity key (R367); entry 8. -/
opaque certificate : Nat → Byte

/-- Length of the certificate of the identity key (R367); entry 8. -/
opaque certificateLength : Nat

/-- Bytes of a tile's save area that are laid out privately (R343): free, by the number of the save or shard, the logical id and the
byte's offset; entry 13. -/
opaque savePrivate : Nat → Nat → Nat → Byte

/-- The physical address of a context's checkpoint store (R369), which the spec does not give; entry 13. -/
opaque storeBase : Nat → Nat

/-- Key K of a context's save area (R344), by context creation number and byte index; entry 8. -/
opaque saveKey : Nat → Nat → Byte

/-- Whether an ML-DSA-65 signature that the model's device has not made verifies: by the public key, the message, its context string
and the signature (R378, R389); entry 8. -/
opaque verifies : List Byte → List Byte → List Byte → List Byte → Bool

/-- Allowed duty of a die at an update (R387), in steps of 1/64; entry 11. -/
opaque duty : Nat → Nat → Nat

/-- In what order the 64 cycles of a period are given up to a duty, by domain, duty and place (R28): free; the share of the cycles that is
swallowed is not, over any 64 of them; entry 11. -/
opaque swallowKey : Nat → Nat → Nat → Nat

/-- The challenge that the module gives to a peer that connects (R389): free bytes, by the number of the challenge and the byte index;
entry 8. -/
opaque challenge : Nat → Nat → Byte

/-- The security version that a firmware image carries (R392): free, by the image's bytes, since the spec does not say where they hold it;
entry 8. -/
opaque imageVersion : List Byte → Nat

/-- Main-clock cycles from power good, or a module reset, to the end of bring-up (R391): free; entry 12. -/
opaque bootCycles : Nat → Nat

/-- A byte of the cistern dump after its header, whose layout is private (R379); entry 24. -/
opaque dumpByte : Nat → Nat → Byte

/-- Whether a staged firmware image's signature verifies over its digest under the fused key (R392); entry 8. -/
opaque firmwareSigned : List Byte → List Byte → Bool

/-- A telemetry word (R390): temperature, power and duty readings; entry 11. -/
opaque telemetry : Nat → Nat → Word

/-- Whether an arming cannot place every tile before the absolute start (SLIP, R323); entry 12. -/
opaque slips : Nat → Bool

/-- The skew measured against the other modules of a scale-up group at an arming (R323); entry 14. -/
opaque skew : Nat → Nat

/-- Whether another module of the group aborted the arming (R323); entry 14. -/
opaque groupAborts : Nat → Bool

/-- Free bytes, by number of the draw and byte index: what a remote module returns (R357); entry 14. -/
opaque remoteByte : Nat → Nat → Byte

/-- Whether another module position belongs to the scale-up group that runs the image (R330, R349); entry 14. -/
opaque inGroup : Nat → Bool

/-- The format of values the spec gives no result for; a free value by draw number (entry 16). -/
opaque freeWord : Nat → Word

end Sys2Proof.Config
end

