-- ==== Sys2Proof/Syntax.lean ====
section
/-! DEFINITION. The syntax of the EYX-1280: operand forms (R64, R65) and Instr, one constructor per row of the
opcode table. -/

namespace Sys2Proof

/-- Header of a syllable: E ends the bundle, G names the guard predicate (R61). -/
structure Hdr where
  e : Bool
  g : Nat
deriving DecidableEq, Repr

/-- An own source (R65): a register of the slot's file or a bypass latch. -/
inductive Src where
  | reg (n : Nat)
  | latch (n : Nat)
deriving DecidableEq, Repr

/-- An own destination (R65, R66): a register, or suppressed by W = 1. -/
inductive Dest where
  | reg (n : Nat)
  | suppressed
deriving DecidableEq, Repr

/-- A matrix source (R65): m0 to m15 or an M latch. -/
inductive MSrc where
  | reg (n : Nat)
  | latch (n : Nat)
deriving DecidableEq, Repr

/-- The vector file that F names (R64). -/
inductive VFile where
  | va
  | vb
deriving DecidableEq, Repr

/-- The sixteen legal format codes (R31). -/
inductive Fmt where
  | fp64 | fp32 | fp16 | bf16 | e4m3 | e5m2 | mxfp4 | mxfp8
  | g8 | g6 | i32 | i16 | ni | ps32 | ui32 | i64
deriving DecidableEq, Repr

/-- Rounding modes (R38). -/
inductive Rnd where
  | rne | rtz | rup | rdn | rna
deriving DecidableEq, Repr

/-- The rounding override of a conversion (R40). -/
inductive RndOvr where
  | slot
  | mode (r : Rnd)
deriving DecidableEq, Repr

/-- Access sizes of SLD and SST (R138). -/
inductive MemSize where
  | b1 | b2 | b4 | b8
deriving DecidableEq, Repr

/-- Scopes (R277). -/
inductive Scope where
  | tile | gang | quad | die | pkg | sys
deriving DecidableEq, Repr

/-- Cascade entry formats (R207). -/
inductive CFmt where
  | fp32 | bf16 | ps32
deriving DecidableEq, Repr

/-- The CSRs of R94. -/
inductive Csr where
  | fpcr | fpsr | trapcause | trappc | trapinfo | tvec
  | tileid | ntiles | gangpos | gangsize | rillpos | ltime
  | vfmta | vfmtb | nif | atdue
  | ftab (n : Nat)
  | ftsel
  | seed (n : Nat)
  | zero (n : Nat)
  | stepcnt | crgdepth
  | lstate (n : Nat)
  | lactive | prebound | stopflag | maxk | detmode
deriving DecidableEq, Repr

/-- The configuration fields of the matrix engine (R194). -/
inductive MField where
  | ophdr
  | level (n : Nat)
  | drain
  | stacks
  | ring (r : Nat)
  | rctl (r : Nat)
deriving DecidableEq, Repr

/-- A tile of a context: PASID and logical tile id (R13, R337). -/
structure TileKey where
  pasid : Nat
  id : Nat
deriving DecidableEq, Repr

/-- A launch of a context: PASID and launch number (R366). -/
structure LaunchKey where
  pasid : Nat
  seq : Nat
deriving DecidableEq, Repr

/-- A physical tile: die, row, column (R14). -/
structure PhysTile where
  die : Nat
  row : Nat
  col : Nat
deriving DecidableEq, Repr

/-- Kinds of access of a page request (R335). -/
inductive AccKind where
  | read | write | atomic
deriving DecidableEq, Repr

/-- Agents of a page request (R335). -/
inductive Agent where
  | farPath (tile : Nat)
  | copyEngine (tile : Nat)
  | hubCopy
  | frontEnd
deriving DecidableEq, Repr

/-- A management request (R390): its connection, and of its 16-byte header the tag, the `OP`, the length of its body in words of eight
bytes, and the target. -/
structure MgmtHdr where
  conn : Nat
  tag : Nat
  op : Nat
  length : Nat
  target : Nat
deriving DecidableEq, Repr

/-- What operation 0x000A sets (R390). -/
inductive CkptSetting where
  | storeSize (mib : Nat)
  | key (kc : List Byte)
  | target (handle : Nat)
  | trusted (key : List Byte)
deriving DecidableEq, Repr

/-- The two copy register files (R70). -/
inductive CFile where
  | xa | xb
deriving DecidableEq, Repr

/-- A register by its file and number (R70). -/
inductive RegName where
  | s (n : Nat)
  | v (f : VFile) (n : Nat)
  | x (f : CFile) (n : Nat)
  | m (n : Nat)
  | p (n : Nat)
deriving DecidableEq, Repr

/-- A word of protected storage that a scrub visits (R380, R381), by its 8-byte granule where the storage is larger: of a scratchpad, a
Cascade bank, a Rill slot or HBM; of a register; of instruction memory; a message in the Basin or the skid buffer, by its place there; a
datum that waits in the Basin, by its landing's number; a word of the far-read buffer, by its address; a far store in the write combiner,
by its number; idle: in the SRAM of a physical tile that holds none of a context's. -/
inductive Place where
  | spad (k : TileKey) (granule : Nat)
  | bank (k : TileKey) (entry : Nat)
  | slot (l : LaunchKey) (slot : Nat)
  | hbm (granule : Nat)
  | reg (k : TileKey) (r : RegName) (granule : Nat)
  | imem (k : TileKey) (granule : Nat)
  | message (k : TileKey) (skid : Bool) (n : Nat)
  | landing (k : TileKey) (n : Nat)
  | line (k : TileKey) (granule : Nat)
  | combiner (k : TileKey) (n : Nat)
  | idle (p : PhysTile)
deriving DecidableEq, Repr

/-- The 64-bit atomic requests that travel over UALink (R358). -/
inductive AtomOp where
  | add | incw | faab | cas | xchg | mins | maxu | orb
deriving DecidableEq, Repr

/-- A request between modules: a read, write or atomic performed at the physical address (R357), and what the reduction switches of a
launch tell one another (R351, R353, R358), which goes to the module named: a peer's ready write with its descriptor, and the partial
results of hop 1 of the peers of the module from, with their flags and whether a contribution faulted. -/
inductive RemoteReq where
  | read (pa len : Nat)
  | write (pa : Nat) (bytes : List Byte)
  | atomic (pa : Nat) (op : AtomOp) (v v2 : Word)
  | ready (module : Nat) (l : LaunchKey) (entry peer desc : Nat)
  | part (module : Nat) (l : LaunchKey) (entry origin : Nat) (bytes : List Byte) (flags : Nat) (fault : Bool)
deriving DecidableEq, Repr

/-- The reasons of an illegal encoding (R75), in the order in which they are reported. -/
inductive Illegal where
  | classOrder | noEnd | badMajor | badCode | badSource | badRegister | mustBeZero | zeroLength | destP0 | badTarget
  | badCsrValue
deriving DecidableEq, Repr

/-- The reason number of R75. -/
def Illegal.code : Illegal → Nat
  | .classOrder => 1 | .noEnd => 2 | .badMajor => 3 | .badCode => 4 | .badSource => 5 | .badRegister => 6
  | .mustBeZero => 7 | .zeroLength => 8 | .destP0 => 9 | .badTarget => 10 | .badCsrValue => 11


/-- Every step of spec/opcode_table.json: the 235 syllables (R73), each with its header, and the 94 events that
have no encoding, each with what it acts on. -/
inductive Instr where
  /-- SNOP (R82). -/
  | snop (e : Bool)
  /-- ADD (R83). -/
  | add (h : Hdr) (d : Dest) (a : Src) (b : Src)
  /-- SUB (R83). -/
  | sub (h : Hdr) (d : Dest) (a : Src) (b : Src)
  /-- AND (R83). -/
  | and (h : Hdr) (d : Dest) (a : Src) (b : Src)
  /-- OR (R83). -/
  | or (h : Hdr) (d : Dest) (a : Src) (b : Src)
  /-- XOR (R83). -/
  | xor (h : Hdr) (d : Dest) (a : Src) (b : Src)
  /-- SHL (R83). -/
  | shl (h : Hdr) (d : Dest) (a : Src) (b : Src)
  /-- SHR (R83). -/
  | shr (h : Hdr) (d : Dest) (a : Src) (b : Src)
  /-- SRA (R83). -/
  | sra (h : Hdr) (d : Dest) (a : Src) (b : Src)
  /-- MUL (R83). -/
  | mul (h : Hdr) (d : Dest) (a : Src) (b : Src)
  /-- MULH (R83). -/
  | mulh (h : Hdr) (d : Dest) (a : Src) (b : Src)
  /-- MULHU (R83). -/
  | mulhu (h : Hdr) (d : Dest) (a : Src) (b : Src)
  /-- DIV (R84). -/
  | div (h : Hdr) (d : Dest) (a : Src) (b : Src)
  /-- DIVU (R84). -/
  | divu (h : Hdr) (d : Dest) (a : Src) (b : Src)
  /-- REM (R84). -/
  | rem (h : Hdr) (d : Dest) (a : Src) (b : Src)
  /-- REMU (R84). -/
  | remu (h : Hdr) (d : Dest) (a : Src) (b : Src)
  /-- CLZ (R83). -/
  | clz (h : Hdr) (d : Dest) (a : Src)
  /-- MIN (R83). -/
  | min (h : Hdr) (d : Dest) (a : Src) (b : Src)
  /-- MAX (R83). -/
  | max (h : Hdr) (d : Dest) (a : Src) (b : Src)
  /-- MINU (R83). -/
  | minu (h : Hdr) (d : Dest) (a : Src) (b : Src)
  /-- MAXU (R83). -/
  | maxu (h : Hdr) (d : Dest) (a : Src) (b : Src)
  /-- ROTL (R83). -/
  | rotl (h : Hdr) (d : Dest) (a : Src) (b : Src)
  /-- POPC (R83). -/
  | popc (h : Hdr) (d : Dest) (a : Src)
  /-- CTZ (R83). -/
  | ctz (h : Hdr) (d : Dest) (a : Src)
  /-- BSWAP (R83). -/
  | bswap (h : Hdr) (d : Dest) (a : Src)
  /-- ADDI (R85). -/
  | addi (h : Hdr) (d : Dest) (a : Src) (imm : Int)
  /-- ANDI (R85). -/
  | andi (h : Hdr) (d : Dest) (a : Src) (imm : Int)
  /-- ORI (R85). -/
  | ori (h : Hdr) (d : Dest) (a : Src) (imm : Int)
  /-- XORI (R85). -/
  | xori (h : Hdr) (d : Dest) (a : Src) (imm : Int)
  /-- SHLI (R86). -/
  | shli (h : Hdr) (d : Dest) (a : Src) (n : Nat)
  /-- SHRI (R86). -/
  | shri (h : Hdr) (d : Dest) (a : Src) (n : Nat)
  /-- SRAI (R86). -/
  | srai (h : Hdr) (d : Dest) (a : Src) (n : Nat)
  /-- ROTLI (R86). -/
  | rotli (h : Hdr) (d : Dest) (a : Src) (n : Nat)
  /-- LIS (R87). -/
  | lis (h : Hdr) (d : Nat) (imm : Nat)
  /-- INS1 (R87). -/
  | ins1 (h : Hdr) (d : Nat) (imm : Nat)
  /-- INS2 (R87). -/
  | ins2 (h : Hdr) (d : Nat) (imm : Nat)
  /-- INS3 (R87). -/
  | ins3 (h : Hdr) (d : Nat) (imm : Nat)
  /-- CMPEQ (R88). -/
  | cmpeq (h : Hdr) (d : Nat) (a : Src) (b : Src)
  /-- CMPNE (R88). -/
  | cmpne (h : Hdr) (d : Nat) (a : Src) (b : Src)
  /-- CMPLT (R88). -/
  | cmplt (h : Hdr) (d : Nat) (a : Src) (b : Src)
  /-- CMPLTU (R88). -/
  | cmpltu (h : Hdr) (d : Nat) (a : Src) (b : Src)
  /-- CMPLE (R88). -/
  | cmple (h : Hdr) (d : Nat) (a : Src) (b : Src)
  /-- CMPLEU (R88). -/
  | cmpleu (h : Hdr) (d : Nat) (a : Src) (b : Src)
  /-- CMPTST (R88). -/
  | cmptst (h : Hdr) (d : Nat) (a : Src) (b : Src)
  /-- PAND (R89). -/
  | pand (h : Hdr) (d : Nat) (a : Nat) (b : Nat)
  /-- POR (R89). -/
  | por (h : Hdr) (d : Nat) (a : Nat) (b : Nat)
  /-- PXOR (R89). -/
  | pxor (h : Hdr) (d : Nat) (a : Nat) (b : Nat)
  /-- PANDN (R89). -/
  | pandn (h : Hdr) (d : Nat) (a : Nat) (b : Nat)
  /-- PNOT (R89). -/
  | pnot (h : Hdr) (d : Nat) (a : Nat)
  /-- PMOV (R89). -/
  | pmov (h : Hdr) (d : Nat) (a : Nat)
  /-- PSET (R89). -/
  | pset (h : Hdr) (d : Nat)
  /-- PCLR (R89). -/
  | pclr (h : Hdr) (d : Nat)
  /-- CSRR (R92). -/
  | csrr (h : Hdr) (d : Nat) (c : Csr)
  /-- CSRW (R92). -/
  | csrw (h : Hdr) (d : Nat) (c : Csr)
  /-- CSRS (R92). -/
  | csrs (h : Hdr) (d : Nat) (c : Csr)
  /-- CSRC (R92). -/
  | csrc (h : Hdr) (d : Nat) (c : Csr)
  /-- SEL (R90). -/
  | sel (h : Hdr) (d : Dest) (a : Src) (b : Src)
  /-- MOVP (R90). -/
  | movp (h : Hdr) (d : Dest) (a : Nat)
  /-- MOVTP (R90). -/
  | movtp (h : Hdr) (d : Nat) (a : Src)
  /-- BR (R95). -/
  | br (h : Hdr) (o : Int)
  /-- CALL (R95). -/
  | call (h : Hdr) (o : Int)
  /-- JMPR (R96). -/
  | jmpr (h : Hdr) (a : Src)
  /-- CALLR (R96). -/
  | callr (h : Hdr) (a : Src)
  /-- LOOPR (R99). -/
  | loopr (h : Hdr) (l : Nat) (a : Src) (b : Src)
  /-- TRAP (R306). -/
  | trap (h : Hdr) (a : Src)
  /-- TRET (R306). -/
  | tret (h : Hdr)
  /-- TFENCE (R307). -/
  | tfence (h : Hdr)
  /-- EXIT (R308). -/
  | exit (h : Hdr)
  /-- WAITT (R302). -/
  | waitt (h : Hdr) (a : Src)
  /-- LOOP (R99). -/
  | loop (h : Hdr) (l : Nat) (a : Src) (len : Nat)
  /-- SLD (R138). -/
  | sld (h : Hdr) (d : Dest) (a : Src) (size : MemSize) (sx : Bool) (o : Int)
  /-- SST (R138). -/
  | sst (h : Hdr) (d : Nat) (a : Src) (size : MemSize) (o : Int)
  /-- VADD (R108). -/
  | vadd (h : Hdr) (d : Dest) (a : Src) (b : Src)
  /-- VSUB (R108). -/
  | vsub (h : Hdr) (d : Dest) (a : Src) (b : Src)
  /-- VMUL (R108). -/
  | vmul (h : Hdr) (d : Dest) (a : Src) (b : Src)
  /-- VMIN (R109). -/
  | vmin (h : Hdr) (d : Dest) (a : Src) (b : Src)
  /-- VMAX (R109). -/
  | vmax (h : Hdr) (d : Dest) (a : Src) (b : Src)
  /-- VABS (R108). -/
  | vabs (h : Hdr) (d : Dest) (a : Src)
  /-- VNEG (R108). -/
  | vneg (h : Hdr) (d : Dest) (a : Src)
  /-- VCPS (R108). -/
  | vcps (h : Hdr) (d : Dest) (a : Src) (b : Src)
  /-- VFMA (R110). -/
  | vfma (h : Hdr) (d : Nat) (a : Src) (b : Src)
  /-- VFMS (R110). -/
  | vfms (h : Hdr) (d : Nat) (a : Src) (b : Src)
  /-- VFNMA (R110). -/
  | vfnma (h : Hdr) (d : Nat) (a : Src) (b : Src)
  /-- VFNMS (R110). -/
  | vfnms (h : Hdr) (d : Nat) (a : Src) (b : Src)
  /-- VDIV (R110). -/
  | vdiv (h : Hdr) (d : Nat) (a : Src) (b : Src)
  /-- VSQRT (R111). -/
  | vsqrt (h : Hdr) (d : Nat) (a : Src)
  /-- VRCP (R111). -/
  | vrcp (h : Hdr) (d : Nat) (a : Src)
  /-- VRSQ (R111). -/
  | vrsq (h : Hdr) (d : Nat) (a : Src)
  /-- VEXP2 (R112). -/
  | vexp2 (h : Hdr) (d : Dest) (a : Src)
  /-- VLOG2 (R112). -/
  | vlog2 (h : Hdr) (d : Dest) (a : Src)
  /-- VRINT (R112). -/
  | vrint (h : Hdr) (d : Dest) (a : Src)
  /-- VRINTZ (R112). -/
  | vrintz (h : Hdr) (d : Dest) (a : Src)
  /-- VCLASS (R113). -/
  | vclass (h : Hdr) (d : Dest) (a : Src)
  /-- VSCALE (R112). -/
  | vscale (h : Hdr) (d : Dest) (a : Src) (b : Src)
  /-- VGETEXP (R112). -/
  | vgetexp (h : Hdr) (d : Dest) (a : Src)
  /-- VMINNUM (R112). -/
  | vminnum (h : Hdr) (d : Dest) (a : Src) (b : Src)
  /-- VFCEQ (R114). -/
  | vfceq (h : Hdr) (d : Nat) (a : Src) (b : Src)
  /-- VFCNE (R114). -/
  | vfcne (h : Hdr) (d : Nat) (a : Src) (b : Src)
  /-- VFCLT (R114). -/
  | vfclt (h : Hdr) (d : Nat) (a : Src) (b : Src)
  /-- VFCLE (R114). -/
  | vfcle (h : Hdr) (d : Nat) (a : Src) (b : Src)
  /-- VFCGT (R114). -/
  | vfcgt (h : Hdr) (d : Nat) (a : Src) (b : Src)
  /-- VFCGE (R114). -/
  | vfcge (h : Hdr) (d : Nat) (a : Src) (b : Src)
  /-- VFCUNORD (R114). -/
  | vfcunord (h : Hdr) (d : Nat) (a : Src) (b : Src)
  /-- VFCORD (R114). -/
  | vfcord (h : Hdr) (d : Nat) (a : Src) (b : Src)
  /-- VIADD (R117). -/
  | viadd (h : Hdr) (d : Dest) (a : Src) (b : Src)
  /-- VISUB (R117). -/
  | visub (h : Hdr) (d : Dest) (a : Src) (b : Src)
  /-- VIMUL (R117). -/
  | vimul (h : Hdr) (d : Dest) (a : Src) (b : Src)
  /-- VIMULH (R117). -/
  | vimulh (h : Hdr) (d : Dest) (a : Src) (b : Src)
  /-- VIMIN (R117). -/
  | vimin (h : Hdr) (d : Dest) (a : Src) (b : Src)
  /-- VIMAX (R117). -/
  | vimax (h : Hdr) (d : Dest) (a : Src) (b : Src)
  /-- VIMINU (R117). -/
  | viminu (h : Hdr) (d : Dest) (a : Src) (b : Src)
  /-- VIMAXU (R117). -/
  | vimaxu (h : Hdr) (d : Dest) (a : Src) (b : Src)
  /-- VIADDS (R118). -/
  | viadds (h : Hdr) (d : Dest) (a : Src) (b : Src)
  /-- VIADDSU (R118). -/
  | viaddsu (h : Hdr) (d : Dest) (a : Src) (b : Src)
  /-- VISUBS (R118). -/
  | visubs (h : Hdr) (d : Dest) (a : Src) (b : Src)
  /-- VISUBSU (R118). -/
  | visubsu (h : Hdr) (d : Dest) (a : Src) (b : Src)
  /-- VIABS (R118). -/
  | viabs (h : Hdr) (d : Dest) (a : Src)
  /-- VINEG (R118). -/
  | vineg (h : Hdr) (d : Dest) (a : Src)
  /-- VIAVG (R118). -/
  | viavg (h : Hdr) (d : Dest) (a : Src) (b : Src)
  /-- VIAVGU (R118). -/
  | viavgu (h : Hdr) (d : Dest) (a : Src) (b : Src)
  /-- VAND (R119). -/
  | vand (h : Hdr) (d : Dest) (a : Src) (b : Src)
  /-- VOR (R119). -/
  | vor (h : Hdr) (d : Dest) (a : Src) (b : Src)
  /-- VXOR (R119). -/
  | vxor (h : Hdr) (d : Dest) (a : Src) (b : Src)
  /-- VANDN (R119). -/
  | vandn (h : Hdr) (d : Dest) (a : Src) (b : Src)
  /-- VSHL (R119). -/
  | vshl (h : Hdr) (d : Dest) (a : Src) (b : Src)
  /-- VSHR (R119). -/
  | vshr (h : Hdr) (d : Dest) (a : Src) (b : Src)
  /-- VSRA (R119). -/
  | vsra (h : Hdr) (d : Dest) (a : Src) (b : Src)
  /-- VNOT (R119). -/
  | vnot (h : Hdr) (d : Dest) (a : Src)
  /-- VICEQ (R120). -/
  | viceq (h : Hdr) (d : Nat) (a : Src) (b : Src)
  /-- VICNE (R120). -/
  | vicne (h : Hdr) (d : Nat) (a : Src) (b : Src)
  /-- VICLT (R120). -/
  | viclt (h : Hdr) (d : Nat) (a : Src) (b : Src)
  /-- VICLTU (R120). -/
  | vicltu (h : Hdr) (d : Nat) (a : Src) (b : Src)
  /-- VICLE (R120). -/
  | vicle (h : Hdr) (d : Nat) (a : Src) (b : Src)
  /-- VICLEU (R120). -/
  | vicleu (h : Hdr) (d : Nat) (a : Src) (b : Src)
  /-- VICTST (R120). -/
  | victst (h : Hdr) (d : Nat) (a : Src) (b : Src)
  /-- VCVT (R121). -/
  | vcvt (h : Hdr) (d : Dest) (a : Src) (t : Fmt) (r : RndOvr) (sat : Bool)
  /-- VPERM (R124). -/
  | vperm (h : Hdr) (d : Dest) (a : Src) (b : Src)
  /-- VZIP (R124). -/
  | vzip (h : Hdr) (d : Dest) (a : Src) (b : Src)
  /-- VUNZIP (R124). -/
  | vunzip (h : Hdr) (d : Dest) (a : Src) (b : Src)
  /-- VREV (R124). -/
  | vrev (h : Hdr) (d : Dest) (a : Src)
  /-- VROT (R124). -/
  | vrot (h : Hdr) (d : Dest) (a : Src) (b : Src)
  /-- VSEL (R124). -/
  | vsel (h : Hdr) (d : Dest) (a : Src) (b : Src)
  /-- VCMPRS (R125). -/
  | vcmprs (h : Hdr) (d : Dest) (a : Src) (b : Nat)
  /-- VEXPND (R125). -/
  | vexpnd (h : Hdr) (d : Dest) (a : Src) (b : Nat)
  /-- VRSUM (R127). -/
  | vrsum (h : Hdr) (d : Dest) (a : Src) (b : Nat)
  /-- VRMAX (R126). -/
  | vrmax (h : Hdr) (d : Dest) (a : Src) (b : Nat)
  /-- VRMIN (R126). -/
  | vrmin (h : Hdr) (d : Dest) (a : Src) (b : Nat)
  /-- VRISUM (R126). -/
  | vrisum (h : Hdr) (d : Dest) (a : Src) (b : Nat)
  /-- VSCAN (R128). -/
  | vscan (h : Hdr) (d : Dest) (a : Src) (b : Nat)
  /-- VRAND (R126). -/
  | vrand (h : Hdr) (d : Dest) (a : Src) (b : Nat)
  /-- VROR (R126). -/
  | vror (h : Hdr) (d : Dest) (a : Src) (b : Nat)
  /-- VRXOR (R126). -/
  | vrxor (h : Hdr) (d : Dest) (a : Src) (b : Nat)
  /-- VSPLI (R130). -/
  | vspli (h : Hdr) (d : Nat) (imm : Nat)
  /-- VIOTA (R131). -/
  | viota (h : Hdr) (d : Dest)
  /-- VSPLAT (R131). -/
  | vsplat (h : Hdr) (d : Dest) (a : Src) (b : Src)
  /-- VMOVP (R131). -/
  | vmovp (h : Hdr) (d : Dest) (a : Nat)
  /-- VPOPC (R131). -/
  | vpopc (h : Hdr) (d : Dest) (a : Nat)
  /-- VRNG (R132). -/
  | vrng (h : Hdr) (d : Dest) (a : Src)
  /-- VFMTS (R133). -/
  | vfmts (h : Hdr) (a : Src)
  /-- VFMT (R133). -/
  | vfmt (h : Hdr) (bind : Bool) (f : Fmt)
  /-- VNOP (R134). -/
  | vnop (e : Bool)
  /-- VDOT4S (R129). -/
  | vdot4s (h : Hdr) (d : Nat) (a : Src) (b : Src)
  /-- VDOT4U (R129). -/
  | vdot4u (h : Hdr) (d : Nat) (a : Src) (b : Src)
  /-- VDOT2BF (R129). -/
  | vdot2bf (h : Hdr) (d : Nat) (a : Src) (b : Src)
  /-- VDOT2H (R129). -/
  | vdot2h (h : Hdr) (d : Nat) (a : Src) (b : Src)
  /-- CLD (R139). -/
  | cld (h : Hdr) (f : VFile) (d : Nat) (a : Src) (imm : Int)
  /-- CST (R139). -/
  | cst (h : Hdr) (f : VFile) (d : Nat) (a : Src) (imm : Int)
  /-- CGATH (R140). -/
  | cgath (h : Hdr) (f : VFile) (d : Nat) (a : Src) (wide : Bool) (x : Nat)
  /-- CSCAT (R140). -/
  | cscat (h : Hdr) (f : VFile) (d : Nat) (a : Src) (wide : Bool) (x : Nat)
  /-- XCPSX (R74). -/
  | xcpsx (h : Hdr) (d : Dest) (a : Src)
  /-- XCPXS (R74). -/
  | xcpxs (h : Hdr) (d : Dest) (a : Src)
  /-- XCPMX (R74). -/
  | xcpmx (h : Hdr) (d : Dest) (a : Nat)
  /-- XCPXM (R74). -/
  | xcpxm (h : Hdr) (d : Dest) (a : Src)
  /-- XCPVAX (R74). -/
  | xcpvax (h : Hdr) (d : Dest) (a : Nat) (lane : Nat)
  /-- XCPVBX (R74). -/
  | xcpvbx (h : Hdr) (d : Dest) (a : Nat) (lane : Nat)
  /-- XCPXVA (R74). -/
  | xcpxva (h : Hdr) (d : Dest) (a : Src) (lane : Nat)
  /-- XCPXVB (R74). -/
  | xcpxvb (h : Hdr) (d : Dest) (a : Src) (lane : Nat)
  /-- FLD (R143). -/
  | fld (h : Hdr) (d : Nat) (a : Src) (n : Nat)
  /-- FLDV (R143). -/
  | fldv (h : Hdr) (f : VFile) (d : Nat) (a : Src) (n : Nat)
  /-- FST (R144). -/
  | fst (h : Hdr) (d : Nat) (a : Src)
  /-- FSTV (R144). -/
  | fstv (h : Hdr) (f : VFile) (d : Nat) (a : Src)
  /-- SEND (R147). -/
  | send (h : Hdr) (f : VFile) (v : Nat) (x : Nat)
  /-- RECV (R148). -/
  | recv (h : Hdr) (f : VFile) (v : Nat) (x : Nat) (n : Nat)
  /-- PUSH (R257). -/
  | push (h : Hdr) (q : Nat) (hi : Bool) (p : Nat)
  /-- POP (R258). -/
  | pop (h : Hdr) (q : Nat) (d : Nat) (p : Nat)
  /-- POP_STALL (R258). -/
  | popStall (h : Hdr) (q : Nat) (d : Nat) (n : Nat)
  /-- RCAP (R238). -/
  | rcap (h : Hdr) (d : Bool) (a : Src)
  /-- RPUT (R238). -/
  | rput (h : Hdr) (a : Src) (b : Bool)
  /-- RADD (R239). -/
  | radd (h : Hdr) (d : Dest) (a : Src) (b : Src)
  /-- RCAS (R239). -/
  | rcas (h : Hdr) (d : Dest) (a : Src) (b : Nat)
  /-- RMAXU (R239). -/
  | rmaxu (h : Hdr) (d : Dest) (a : Src) (b : Src)
  /-- ROR (R239). -/
  | ror (h : Hdr) (d : Dest) (a : Src) (b : Src)
  /-- BOARD (R232). -/
  | board (h : Hdr)
  /-- ALIGHT (R233). -/
  | alight (h : Hdr)
  /-- ALIGHT_FREE (R233). -/
  | alightFree (h : Hdr)
  /-- AADD (R159). -/
  | aadd (h : Hdr) (d : Dest) (a : Src) (b : Src)
  /-- AINCW (R159). -/
  | aincw (h : Hdr) (d : Dest) (a : Src) (b : Src)
  /-- AFAAB (R159). -/
  | afaab (h : Hdr) (d : Nat) (a : Src) (b : Nat)
  /-- ACAS (R159). -/
  | acas (h : Hdr) (d : Dest) (a : Src) (b : Nat)
  /-- AXCHG (R159). -/
  | axchg (h : Hdr) (d : Dest) (a : Src) (b : Src)
  /-- AMINS (R159). -/
  | amins (h : Hdr) (d : Dest) (a : Src) (b : Src)
  /-- AMAXU (R159). -/
  | amaxu (h : Hdr) (d : Dest) (a : Src) (b : Src)
  /-- AORB (R159). -/
  | aorb (h : Hdr) (d : Dest) (a : Src) (b : Src)
  /-- ACQ (R297). -/
  | acq (h : Hdr) (k : Nat) (a : Src) (b : Nat)
  /-- REL (R297). -/
  | rel (h : Hdr) (b : Nat)
  /-- BAR (R299). -/
  | bar (h : Hdr) (k : Nat) (a : Src) (b : Src)
  /-- FENCE (R298). -/
  | fence (h : Hdr) (k : Nat) (s : Scope)
  /-- TRIG (R300). -/
  | trig (h : Hdr)
  /-- STEP (R301). -/
  | step (h : Hdr) (k : Nat)
  /-- CRGO (R309). -/
  | crgo (h : Hdr) (a : Src)
  /-- CRGC (R309). -/
  | crgc (h : Hdr)
  /-- CNOP (R150). -/
  | cnop (e : Bool)
  /-- LTIME (R150). -/
  | ltime (h : Hdr) (d : Dest)
  /-- SEEDR (R150). -/
  | seedr (h : Hdr) (d : Dest) (k : Nat)
  /-- GANG (R151). -/
  | gang (h : Hdr) (a : Src) (b : Src)
  /-- MCFG (R194). -/
  | mcfg (h : Hdr) (a : MSrc) (b : MSrc) (i : MField)
  /-- MGO (R197). -/
  | mgo (h : Hdr)
  /-- MGOG (R198). -/
  | mgog (h : Hdr)
  /-- MDRN (R199). -/
  | mdrn (h : Hdr) (c : Nat)
  /-- MCLR (R200). -/
  | mclr (h : Hdr) (mask : Nat)
  /-- MSTAT (R203). -/
  | mstat (h : Hdr) (d : Nat) (i : Nat)
  /-- MLDW (R201). -/
  | mldw (h : Hdr) (a : MSrc) (w : Nat) (c : Nat)
  /-- MMIRR (R202). -/
  | mmirr (h : Hdr) (on : Bool)
  /-- MSTOP (R204). -/
  | mstop (h : Hdr)
  /-- MFMT (R193). -/
  | mfmt (h : Hdr) (bind : Bool) (fb : Fmt) (fa : Fmt)
  /-- SPUP (R216). -/
  | spup (h : Hdr) (a : MSrc)
  /-- SPDN (R217). -/
  | spdn (h : Hdr) (a : MSrc)
  /-- SPLD (R218). -/
  | spld (h : Hdr) (a : MSrc) (b : MSrc)
  /-- SPST (R218). -/
  | spst (h : Hdr) (a : MSrc) (b : MSrc)
  /-- SPSCL (R219). -/
  | spscl (h : Hdr) (a : MSrc) (n : Int)
  /-- SPMODE (R220). -/
  | spmode (h : Hdr) (dx : Nat) (f : CFmt)
  /-- SPCLR (R218). -/
  | spclr (h : Hdr) (a : MSrc)
  /-- SPSTAT (R221). -/
  | spstat (h : Hdr) (d : Nat) (i : Nat)
  /-- MLI (R192). -/
  | mli (h : Hdr) (d : Nat) (imm : Nat)
  /-- MNOP (R192). -/
  | mnop (e : Bool)
  /-- LANDING_ARRIVAL (R22). -/
  | landingArrival (k : TileKey) (n : Nat) (buffered : Bool)
  /-- LANDING_DUE (R22). -/
  | landingDue (k : TileKey)
  /-- MESSAGE_ARRIVAL (R27). -/
  | messageArrival (k : TileKey) (src : Nat) (chan : Nat)
  /-- WAIT_DUE_TICK (R292). -/
  | waitDueTick (k : TileKey)
  /-- WAIT_CONDITION_MET (R24). -/
  | waitConditionMet (k : TileKey)
  /-- ACQ_PASS_LIMIT (R297). -/
  | acqPassLimit (k : TileKey)
  /-- DEADLOCK (R29). -/
  | deadlock (k : TileKey)
  /-- FAR_STORE_PERFORM (R278). -/
  | farStorePerform (k : TileKey) (n : Nat)
  /-- REMOTE_ACCESS_APPLY (R161). -/
  | remoteAccessApply (k : TileKey) (n : Nat)
  /-- REL_INCREMENT (R283). -/
  | relIncrement (k : TileKey) (n : Nat)
  /-- MATRIX_OP_BEGIN (R187). -/
  | matrixOpBegin (k : TileKey)
  /-- MATRIX_STEP_START (R171). -/
  | matrixStepStart (k : TileKey)
  /-- MATRIX_STEP_RETIRE (R181). -/
  | matrixStepRetire (k : TileKey)
  /-- MATRIX_STEP_REPLAY (R184). -/
  | matrixStepReplay (k : TileKey)
  /-- MATRIX_STEP_COMPLETE (R173). -/
  | matrixStepComplete (k : TileKey)
  /-- MDRN_COMPLETE (R199). -/
  | mdrnComplete (k : TileKey)
  /-- MCLR_COMPLETE (R200). -/
  | mclrComplete (k : TileKey)
  /-- MLDW_COMPLETE (R201). -/
  | mldwComplete (k : TileKey)
  /-- CASCADE_READ_STAGE (R213). -/
  | cascadeReadStage (k : TileKey)
  /-- CASCADE_SUBTREE_WRITE (R214). -/
  | cascadeSubtreeWrite (k : TileKey)
  /-- CASCADE_ROW_MOVE (R218). -/
  | cascadeRowMove (k : TileKey)
  /-- CASCADE_ROW_WRITE (R218). -/
  | cascadeRowWrite (k : TileKey)
  /-- RILL_PASS (R229). -/
  | rillPass (l : LaunchKey)
  /-- COPY_COMMAND_COMPLETE (R254). -/
  | copyCommandComplete (k : TileKey) (q : Nat)
  /-- COPY_COMPLETION_DUE (R254). -/
  | copyCompletionDue (k : TileKey)
  /-- COPY_COMMAND_STOP (R260). -/
  | copyCommandStop (k : TileKey) (q : Nat)
  /-- TRANSLATION_WALK (R331). -/
  | translationWalk (pasid : Nat) (va : Nat) (kind : AccKind) (agent : Agent)
  /-- PAGE_REQUEST_TIMEOUT (R335). -/
  | pageRequestTimeout (pasid : Nat) (req : Nat)
  /-- REMOTE_PATH_TIMEOUT (R358). -/
  | remotePathTimeout (k : TileKey) (n : Nat)
  /-- INVALIDATION_COMPLETE (R334). -/
  | invalidationComplete (pasid : Nat)
  /-- TEARDOWN_COMPLETE (R339). -/
  | teardownComplete (pasid : Nat)
  /-- CONTEXT_SAVE_COMPLETE (R340). -/
  | contextSaveComplete (pasid : Nat)
  /-- QUEUE_POLL (R313). -/
  | queuePoll (q : Nat)
  /-- TIMETABLE (R316). -/
  | timetable (q : Nat) (n : Nat)
  /-- TIMETABLE_INDIRECT (R325). -/
  | timetableIndirect (q : Nat) (n : Nat)
  /-- WAIT (R316). -/
  | wait (q : Nat) (n : Nat)
  /-- SIGNAL (R316). -/
  | signal (q : Nat) (n : Nat)
  /-- COPY (R316). -/
  | copy (q : Nat) (n : Nat)
  /-- SEED_PUSH (R326). -/
  | seedPush (q : Nat) (n : Nat)
  /-- SEED_POP (R326). -/
  | seedPop (q : Nat) (n : Nat)
  /-- SEED_FORK (R326). -/
  | seedFork (q : Nat) (n : Nat)
  /-- CHECKPOINT_POLICY (R370). -/
  | checkpointPolicy (q : Nat) (n : Nat)
  /-- BARRIER_AND (R316). -/
  | barrierAnd (q : Nat) (n : Nat)
  /-- NOP (R316). -/
  | nop (q : Nat) (n : Nat)
  /-- LAUNCH_ARM (R323). -/
  | launchArm (l : LaunchKey)
  /-- LAUNCH_START (R323). -/
  | launchStart (l : LaunchKey)
  /-- TILE_START (R323). -/
  | tileStart (k : TileKey)
  /-- LAUNCH_TRIGGER (R300). -/
  | launchTrigger (l : LaunchKey)
  /-- LAUNCH_RETIRE (R308). -/
  | launchRetire (l : LaunchKey)
  /-- QUEUE_RESTART (R318). -/
  | queueRestart (q : Nat)
  /-- QUEUE_DESTROY (R318). -/
  | queueDestroy (q : Nat)
  /-- QUEUE_DESTROYED (R318). -/
  | queueDestroyed (q : Nat)
  /-- QUEUE_PARK_TIMEOUT (R318). -/
  | queueParkTimeout (q : Nat)
  /-- WATCHDOG_RESTART (R329). -/
  | watchdogRestart (core : Nat)
  /-- FATAL_ERROR (R379). -/
  | fatalError (code : Nat) (unit : Nat)
  /-- COLLECTIVE_TABLE_WRITE (R349). -/
  | collectiveTableWrite (k : TileKey) (n : Nat)
  /-- COLLECTIVE_READY_WRITE (R351). -/
  | collectiveReadyWrite (k : TileKey) (n : Nat)
  /-- COLLECTIVE_ROUND_FIRE (R353). -/
  | collectiveRoundFire (l : LaunchKey) (n : Nat)
  /-- COLLECTIVE_ROUND_COMPLETE (R354). -/
  | collectiveRoundComplete (l : LaunchKey) (n : Nat)
  /-- CHECKPOINT_TIMER (R371). -/
  | checkpointTimer (pasid : Nat)
  /-- CHECKPOINT_SHARD_TAKE (R372). -/
  | checkpointShardTake (l : LaunchKey)
  /-- CHECKPOINT_SHARD_TAKEN (R372). -/
  | checkpointShardTaken (l : LaunchKey)
  /-- SCRUB (R381). -/
  | scrub (place : Place) (uncor : Bool)
  /-- DUTY_UPDATE (R387). -/
  | dutyUpdate
  /-- THERMAL_TRIP (R388). -/
  | thermalTrip
  /-- POWER_GOOD (R391). -/
  | powerGood
  /-- POWER_OFF (R385). -/
  | powerOff
  /-- MANAGEMENT_CONNECT (R389). -/
  | managementConnect (key : List Byte) (challenge : List Byte) (sig : List Byte)
  /-- REGISTER_QUEUE (R312). -/
  | registerQueue (h : MgmtHdr) (pasid : Nat) (va : Nat)
  /-- UNREGISTER_QUEUE (R312). -/
  | unregisterQueue (h : MgmtHdr) (q : Nat)
  /-- INVALIDATE_TRANSLATIONS (R334). -/
  | invalidateTranslations (h : MgmtHdr) (pasid : Nat) (range : Option (Nat × Nat))
  /-- ANSWER_PAGE_REQUEST (R335). -/
  | answerPageRequest (h : MgmtHdr) (pasid : Nat) (req : Nat) (resolved : Bool)
  /-- CREATE_CONTEXT (R337). -/
  | createContext (h : MgmtHdr) (block : List Word)
  /-- TEARDOWN_CONTEXT (R339). -/
  | teardownContext (h : MgmtHdr) (pasid : Nat)
  /-- PREEMPT_CONTEXT (R340). -/
  | preemptContext (h : MgmtHdr) (pasid : Nat)
  /-- RESTORE_CONTEXT (R345). -/
  | restoreContext (h : MgmtHdr) (pasid : Nat) (part : Nat)
  /-- READ_LAUNCH_RECORD (R368). -/
  | readLaunchRecord (h : MgmtHdr) (pasid : Nat) (seq : Nat)
  /-- READ_IDENTITY_KEY (R367). -/
  | readIdentityKey (h : MgmtHdr)
  /-- SET_CHECKPOINT_CONFIG (R369). -/
  | setCheckpointConfig (h : MgmtHdr) (pasid : Nat) (c : CkptSetting)
  /-- RESTORE_CHECKPOINT (R378). -/
  | restoreCheckpoint (h : MgmtHdr) (pasid : Nat) (slot : Bool) (key : List Byte)
  /-- READ_LATEST_SHARD (R375). -/
  | readLatestShard (h : MgmtHdr) (pasid : Nat)
  /-- READ_SOFT_ERROR_BLOCK (R382). -/
  | readSoftErrorBlock (h : MgmtHdr) (t : PhysTile)
  /-- CLEAR_SOFT_ERROR_BLOCK (R382). -/
  | clearSoftErrorBlock (h : MgmtHdr) (t : PhysTile)
  /-- WRITE_FIELD_REPAIR (R383). -/
  | writeFieldRepair (h : MgmtHdr) (t : PhysTile)
  /-- READ_REMAP (R14). -/
  | readRemap (h : MgmtHdr) (die : Nat)
  /-- READ_CISTERN (R379). -/
  | readCistern (h : MgmtHdr) (off : Nat) (len : Nat)
  /-- SET_POWER_CAP (R386). -/
  | setPowerCap (h : MgmtHdr) (watts : Nat)
  /-- READ_TELEMETRY (R387). -/
  | readTelemetry (h : MgmtHdr)
  /-- SET_MODULE_POSITION (R338). -/
  | setModulePosition (h : MgmtHdr) (pos : Nat) (parts : List (Nat × Nat))
  /-- STAGE_FIRMWARE (R392): the version that the request names, the image, which carries its own, and its signature. -/
  | stageFirmware (h : MgmtHdr) (version : Nat) (image : List Byte) (sig : List Byte)
  /-- RESET_MODULE (R391). -/
  | resetModule (h : MgmtHdr)
  /-- UALINK_REMOTE_REQUEST (R357). -/
  | ualinkRemoteRequest (r : RemoteReq)
  /-- FRONT_END_CORE_RESTARTED (R329). -/
  | frontEndCoreRestarted (core : Nat)
  /-- SIGNAL_CONDITION_MET (R316). -/
  | signalConditionMet (q : Nat) (n : Nat)
deriving DecidableEq, Repr

/-- What a word decodes to: an instruction, or the reason it is rejected for. -/
inductive Decoded where
  | ok (i : Instr)
  | illegal (r : Illegal)
deriving DecidableEq, Repr

end Sys2Proof
end

