-- ==== Sys2Proof/WellFormed.lean ====
section
/-! DEFINITION. Well-formed instructions: the operand ranges of R65 and of the encoding tables. -/

namespace Sys2Proof

/-- G names p0 to p15 (R61). -/
def Hdr.ok (h : Hdr) : Bool := decide (h.g < 16)

/-- An own source of a file of n registers (R65). -/
def Src.ok (n : Nat) : Src → Bool
  | .reg r => decide (r < n)
  | .latch b => decide (b < 8)

/-- An own destination of a file of n registers (R65). -/
def Dest.ok (n : Nat) : Dest → Bool
  | .reg r => decide (r < n)
  | .suppressed => true

/-- A matrix source (R65). -/
def MSrc.ok : MSrc → Bool
  | .reg r => decide (r < 16)
  | .latch b => decide (b < 8)

/-- A CSR of R94. -/
def Csr.ok : Csr → Bool
  | .ftab n => decide (n < 16)
  | .seed n => decide (n < 4)
  | .zero n => decide (n < 4)
  | .lstate n => decide (n < 6)
  | _ => true

/-- A configuration field of R194. -/
def MField.ok : MField → Bool
  | .level n => decide (n < 6)
  | .ring r => decide (r < 4)
  | .rctl r => decide (r < 4)
  | _ => true

/-- An operand of two's complement in n bits. -/
def fits (n : Nat) (x : Int) : Bool := decide (-(2 ^ (n - 1) : Int) ≤ x) && decide (x < (2 ^ (n - 1) : Int))

/-- An MSTAT item of R203. -/
def mstatItem (i : Nat) : Bool :=
  decide (i < 10) || (decide (16 ≤ i) && decide (i < 22)) || (decide (24 ≤ i) && decide (i < 30))

/-- A tile of a declared grid of at most 1,280 tiles and a 20-bit PASID (R13, R337). -/
def TileKey.ok (k : TileKey) : Bool := decide (k.pasid < 1048576) && decide (k.id < 1280)

/-- A launch of a context with a 20-bit PASID (R337). -/
def LaunchKey.ok (l : LaunchKey) : Bool := decide (l.pasid < 1048576)


/-- A syllable is well formed when every operand is one its encoding admits (R65, R75); an event when the
numbers that name its tile or launch are in range. -/
def Instr.wf : Instr → Bool
  | .snop _ => true
  | .add h d a b => h.ok && d.ok 32 && a.ok 32 && b.ok 32
  | .sub h d a b => h.ok && d.ok 32 && a.ok 32 && b.ok 32
  | .and h d a b => h.ok && d.ok 32 && a.ok 32 && b.ok 32
  | .or h d a b => h.ok && d.ok 32 && a.ok 32 && b.ok 32
  | .xor h d a b => h.ok && d.ok 32 && a.ok 32 && b.ok 32
  | .shl h d a b => h.ok && d.ok 32 && a.ok 32 && b.ok 32
  | .shr h d a b => h.ok && d.ok 32 && a.ok 32 && b.ok 32
  | .sra h d a b => h.ok && d.ok 32 && a.ok 32 && b.ok 32
  | .mul h d a b => h.ok && d.ok 32 && a.ok 32 && b.ok 32
  | .mulh h d a b => h.ok && d.ok 32 && a.ok 32 && b.ok 32
  | .mulhu h d a b => h.ok && d.ok 32 && a.ok 32 && b.ok 32
  | .div h d a b => h.ok && d.ok 32 && a.ok 32 && b.ok 32
  | .divu h d a b => h.ok && d.ok 32 && a.ok 32 && b.ok 32
  | .rem h d a b => h.ok && d.ok 32 && a.ok 32 && b.ok 32
  | .remu h d a b => h.ok && d.ok 32 && a.ok 32 && b.ok 32
  | .clz h d a => h.ok && d.ok 32 && a.ok 32
  | .min h d a b => h.ok && d.ok 32 && a.ok 32 && b.ok 32
  | .max h d a b => h.ok && d.ok 32 && a.ok 32 && b.ok 32
  | .minu h d a b => h.ok && d.ok 32 && a.ok 32 && b.ok 32
  | .maxu h d a b => h.ok && d.ok 32 && a.ok 32 && b.ok 32
  | .rotl h d a b => h.ok && d.ok 32 && a.ok 32 && b.ok 32
  | .popc h d a => h.ok && d.ok 32 && a.ok 32
  | .ctz h d a => h.ok && d.ok 32 && a.ok 32
  | .bswap h d a => h.ok && d.ok 32 && a.ok 32
  | .addi h d a imm => h.ok && d.ok 32 && a.ok 32 && fits 9 imm
  | .andi h d a imm => h.ok && d.ok 32 && a.ok 32 && fits 9 imm
  | .ori h d a imm => h.ok && d.ok 32 && a.ok 32 && fits 9 imm
  | .xori h d a imm => h.ok && d.ok 32 && a.ok 32 && fits 9 imm
  | .shli h d a n => h.ok && d.ok 32 && a.ok 32 && decide (n < 64)
  | .shri h d a n => h.ok && d.ok 32 && a.ok 32 && decide (n < 64)
  | .srai h d a n => h.ok && d.ok 32 && a.ok 32 && decide (n < 64)
  | .rotli h d a n => h.ok && d.ok 32 && a.ok 32 && decide (n < 64)
  | .lis h d imm => h.ok && decide (d < 32) && decide (imm < 65536)
  | .ins1 h d imm => h.ok && decide (d < 32) && decide (imm < 65536)
  | .ins2 h d imm => h.ok && decide (d < 32) && decide (imm < 65536)
  | .ins3 h d imm => h.ok && decide (d < 32) && decide (imm < 65536)
  | .cmpeq h d a b => h.ok && decide (0 < d) && decide (d < 16) && a.ok 32 && b.ok 32
  | .cmpne h d a b => h.ok && decide (0 < d) && decide (d < 16) && a.ok 32 && b.ok 32
  | .cmplt h d a b => h.ok && decide (0 < d) && decide (d < 16) && a.ok 32 && b.ok 32
  | .cmpltu h d a b => h.ok && decide (0 < d) && decide (d < 16) && a.ok 32 && b.ok 32
  | .cmple h d a b => h.ok && decide (0 < d) && decide (d < 16) && a.ok 32 && b.ok 32
  | .cmpleu h d a b => h.ok && decide (0 < d) && decide (d < 16) && a.ok 32 && b.ok 32
  | .cmptst h d a b => h.ok && decide (0 < d) && decide (d < 16) && a.ok 32 && b.ok 32
  | .pand h d a b => h.ok && decide (0 < d) && decide (d < 16) && decide (a < 16) && decide (b < 16)
  | .por h d a b => h.ok && decide (0 < d) && decide (d < 16) && decide (a < 16) && decide (b < 16)
  | .pxor h d a b => h.ok && decide (0 < d) && decide (d < 16) && decide (a < 16) && decide (b < 16)
  | .pandn h d a b => h.ok && decide (0 < d) && decide (d < 16) && decide (a < 16) && decide (b < 16)
  | .pnot h d a => h.ok && decide (0 < d) && decide (d < 16) && decide (a < 16)
  | .pmov h d a => h.ok && decide (0 < d) && decide (d < 16) && decide (a < 16)
  | .pset h d => h.ok && decide (0 < d) && decide (d < 16)
  | .pclr h d => h.ok && decide (0 < d) && decide (d < 16)
  | .csrr h d c => h.ok && decide (d < 32) && c.ok
  | .csrw h d c => h.ok && decide (d < 32) && c.ok
  | .csrs h d c => h.ok && decide (d < 32) && c.ok
  | .csrc h d c => h.ok && decide (d < 32) && c.ok
  | .sel h d a b => h.ok && d.ok 32 && a.ok 32 && b.ok 32
  | .movp h d a => h.ok && d.ok 32 && decide (a < 16)
  | .movtp h d a => h.ok && decide (0 < d) && decide (d < 16) && a.ok 32
  | .br h o => h.ok && fits 21 o
  | .call h o => h.ok && fits 21 o
  | .jmpr h a => h.ok && a.ok 32
  | .callr h a => h.ok && a.ok 32
  | .loopr h l a b => h.ok && decide (l < 6) && a.ok 32 && b.ok 32
  | .trap h a => h.ok && a.ok 32
  | .tret h => h.ok
  | .tfence h => h.ok
  | .exit h => h.ok
  | .waitt h a => h.ok && a.ok 32
  | .loop h l a len => h.ok && decide (l < 6) && a.ok 32 && decide (0 < len) && decide (len < 512)
  | .sld h d a size sx o => h.ok && d.ok 32 && a.ok 32 && fits 6 o && !(size == .b8 && sx)
  | .sst h d a _ o => h.ok && decide (d < 32) && a.ok 32 && fits 6 o
  | .vadd h d a b => h.ok && d.ok 32 && a.ok 32 && b.ok 32
  | .vsub h d a b => h.ok && d.ok 32 && a.ok 32 && b.ok 32
  | .vmul h d a b => h.ok && d.ok 32 && a.ok 32 && b.ok 32
  | .vmin h d a b => h.ok && d.ok 32 && a.ok 32 && b.ok 32
  | .vmax h d a b => h.ok && d.ok 32 && a.ok 32 && b.ok 32
  | .vabs h d a => h.ok && d.ok 32 && a.ok 32
  | .vneg h d a => h.ok && d.ok 32 && a.ok 32
  | .vcps h d a b => h.ok && d.ok 32 && a.ok 32 && b.ok 32
  | .vfma h d a b => h.ok && decide (d < 32) && a.ok 32 && b.ok 32
  | .vfms h d a b => h.ok && decide (d < 32) && a.ok 32 && b.ok 32
  | .vfnma h d a b => h.ok && decide (d < 32) && a.ok 32 && b.ok 32
  | .vfnms h d a b => h.ok && decide (d < 32) && a.ok 32 && b.ok 32
  | .vdiv h d a b => h.ok && decide (d < 32) && a.ok 32 && b.ok 32
  | .vsqrt h d a => h.ok && decide (d < 32) && a.ok 32
  | .vrcp h d a => h.ok && decide (d < 32) && a.ok 32
  | .vrsq h d a => h.ok && decide (d < 32) && a.ok 32
  | .vexp2 h d a => h.ok && d.ok 32 && a.ok 32
  | .vlog2 h d a => h.ok && d.ok 32 && a.ok 32
  | .vrint h d a => h.ok && d.ok 32 && a.ok 32
  | .vrintz h d a => h.ok && d.ok 32 && a.ok 32
  | .vclass h d a => h.ok && d.ok 32 && a.ok 32
  | .vscale h d a b => h.ok && d.ok 32 && a.ok 32 && b.ok 32
  | .vgetexp h d a => h.ok && d.ok 32 && a.ok 32
  | .vminnum h d a b => h.ok && d.ok 32 && a.ok 32 && b.ok 32
  | .vfceq h d a b => h.ok && decide (0 < d) && decide (d < 16) && a.ok 32 && b.ok 32
  | .vfcne h d a b => h.ok && decide (0 < d) && decide (d < 16) && a.ok 32 && b.ok 32
  | .vfclt h d a b => h.ok && decide (0 < d) && decide (d < 16) && a.ok 32 && b.ok 32
  | .vfcle h d a b => h.ok && decide (0 < d) && decide (d < 16) && a.ok 32 && b.ok 32
  | .vfcgt h d a b => h.ok && decide (0 < d) && decide (d < 16) && a.ok 32 && b.ok 32
  | .vfcge h d a b => h.ok && decide (0 < d) && decide (d < 16) && a.ok 32 && b.ok 32
  | .vfcunord h d a b => h.ok && decide (0 < d) && decide (d < 16) && a.ok 32 && b.ok 32
  | .vfcord h d a b => h.ok && decide (0 < d) && decide (d < 16) && a.ok 32 && b.ok 32
  | .viadd h d a b => h.ok && d.ok 32 && a.ok 32 && b.ok 32
  | .visub h d a b => h.ok && d.ok 32 && a.ok 32 && b.ok 32
  | .vimul h d a b => h.ok && d.ok 32 && a.ok 32 && b.ok 32
  | .vimulh h d a b => h.ok && d.ok 32 && a.ok 32 && b.ok 32
  | .vimin h d a b => h.ok && d.ok 32 && a.ok 32 && b.ok 32
  | .vimax h d a b => h.ok && d.ok 32 && a.ok 32 && b.ok 32
  | .viminu h d a b => h.ok && d.ok 32 && a.ok 32 && b.ok 32
  | .vimaxu h d a b => h.ok && d.ok 32 && a.ok 32 && b.ok 32
  | .viadds h d a b => h.ok && d.ok 32 && a.ok 32 && b.ok 32
  | .viaddsu h d a b => h.ok && d.ok 32 && a.ok 32 && b.ok 32
  | .visubs h d a b => h.ok && d.ok 32 && a.ok 32 && b.ok 32
  | .visubsu h d a b => h.ok && d.ok 32 && a.ok 32 && b.ok 32
  | .viabs h d a => h.ok && d.ok 32 && a.ok 32
  | .vineg h d a => h.ok && d.ok 32 && a.ok 32
  | .viavg h d a b => h.ok && d.ok 32 && a.ok 32 && b.ok 32
  | .viavgu h d a b => h.ok && d.ok 32 && a.ok 32 && b.ok 32
  | .vand h d a b => h.ok && d.ok 32 && a.ok 32 && b.ok 32
  | .vor h d a b => h.ok && d.ok 32 && a.ok 32 && b.ok 32
  | .vxor h d a b => h.ok && d.ok 32 && a.ok 32 && b.ok 32
  | .vandn h d a b => h.ok && d.ok 32 && a.ok 32 && b.ok 32
  | .vshl h d a b => h.ok && d.ok 32 && a.ok 32 && b.ok 32
  | .vshr h d a b => h.ok && d.ok 32 && a.ok 32 && b.ok 32
  | .vsra h d a b => h.ok && d.ok 32 && a.ok 32 && b.ok 32
  | .vnot h d a => h.ok && d.ok 32 && a.ok 32
  | .viceq h d a b => h.ok && decide (0 < d) && decide (d < 16) && a.ok 32 && b.ok 32
  | .vicne h d a b => h.ok && decide (0 < d) && decide (d < 16) && a.ok 32 && b.ok 32
  | .viclt h d a b => h.ok && decide (0 < d) && decide (d < 16) && a.ok 32 && b.ok 32
  | .vicltu h d a b => h.ok && decide (0 < d) && decide (d < 16) && a.ok 32 && b.ok 32
  | .vicle h d a b => h.ok && decide (0 < d) && decide (d < 16) && a.ok 32 && b.ok 32
  | .vicleu h d a b => h.ok && decide (0 < d) && decide (d < 16) && a.ok 32 && b.ok 32
  | .victst h d a b => h.ok && decide (0 < d) && decide (d < 16) && a.ok 32 && b.ok 32
  | .vcvt h d a _ _ _ => h.ok && d.ok 32 && a.ok 32
  | .vperm h d a b => h.ok && d.ok 32 && a.ok 32 && b.ok 32
  | .vzip h d a b => h.ok && d.ok 32 && a.ok 32 && b.ok 32
  | .vunzip h d a b => h.ok && d.ok 32 && a.ok 32 && b.ok 32
  | .vrev h d a => h.ok && d.ok 32 && a.ok 32
  | .vrot h d a b => h.ok && d.ok 32 && a.ok 32 && b.ok 32
  | .vsel h d a b => h.ok && d.ok 32 && a.ok 32 && b.ok 32
  | .vcmprs h d a b => h.ok && d.ok 32 && a.ok 32 && decide (b < 16)
  | .vexpnd h d a b => h.ok && d.ok 32 && a.ok 32 && decide (b < 16)
  | .vrsum h d a b => h.ok && d.ok 32 && a.ok 32 && decide (b < 16)
  | .vrmax h d a b => h.ok && d.ok 32 && a.ok 32 && decide (b < 16)
  | .vrmin h d a b => h.ok && d.ok 32 && a.ok 32 && decide (b < 16)
  | .vrisum h d a b => h.ok && d.ok 32 && a.ok 32 && decide (b < 16)
  | .vscan h d a b => h.ok && d.ok 32 && a.ok 32 && decide (b < 16)
  | .vrand h d a b => h.ok && d.ok 32 && a.ok 32 && decide (b < 16)
  | .vror h d a b => h.ok && d.ok 32 && a.ok 32 && decide (b < 16)
  | .vrxor h d a b => h.ok && d.ok 32 && a.ok 32 && decide (b < 16)
  | .vspli h d imm => h.ok && decide (d < 32) && decide (imm < 65536)
  | .viota h d => h.ok && d.ok 32
  | .vsplat h d a b => h.ok && d.ok 32 && a.ok 32 && b.ok 32
  | .vmovp h d a => h.ok && d.ok 32 && decide (a < 16)
  | .vpopc h d a => h.ok && d.ok 32 && decide (a < 16)
  | .vrng h d a => h.ok && d.ok 32 && a.ok 32
  | .vfmts h a => h.ok && a.ok 32
  | .vfmt h _ _ => h.ok
  | .vnop _ => true
  | .vdot4s h d a b => h.ok && decide (d < 32) && a.ok 32 && b.ok 32
  | .vdot4u h d a b => h.ok && decide (d < 32) && a.ok 32 && b.ok 32
  | .vdot2bf h d a b => h.ok && decide (d < 32) && a.ok 32 && b.ok 32
  | .vdot2h h d a b => h.ok && decide (d < 32) && a.ok 32 && b.ok 32
  | .cld h _ d a imm => h.ok && decide (d < 32) && a.ok 16 && fits 9 imm
  | .cst h _ d a imm => h.ok && decide (d < 32) && a.ok 16 && fits 9 imm
  | .cgath h _ d a _ x => h.ok && decide (d < 32) && a.ok 16 && decide (x < 32)
  | .cscat h _ d a _ x => h.ok && decide (d < 32) && a.ok 16 && decide (x < 32)
  | .xcpsx h d a => h.ok && d.ok 16 && a.ok 32
  | .xcpxs h d a => h.ok && d.ok 32 && a.ok 16
  | .xcpmx h d a => h.ok && d.ok 16 && decide (a < 16)
  | .xcpxm h d a => h.ok && d.ok 16 && a.ok 16
  | .xcpvax h d a lane => h.ok && d.ok 16 && decide (a < 32) && decide (lane < 32)
  | .xcpvbx h d a lane => h.ok && d.ok 16 && decide (a < 32) && decide (lane < 32)
  | .xcpxva h d a lane => h.ok && d.ok 32 && a.ok 16 && decide (lane < 32)
  | .xcpxvb h d a lane => h.ok && d.ok 32 && a.ok 16 && decide (lane < 32)
  | .fld h d a n => h.ok && decide (d < 16) && a.ok 16 && decide (0 < n) && decide (n < 512)
  | .fldv h _ d a n => h.ok && decide (d < 32) && a.ok 16 && decide (0 < n) && decide (n < 512)
  | .fst h d a => h.ok && decide (d < 16) && a.ok 16
  | .fstv h _ d a => h.ok && decide (d < 32) && a.ok 16
  | .send h _ v x => h.ok && decide (v < 32) && decide (x < 16)
  | .recv h _ v x n => h.ok && decide (v < 32) && decide (x < 16) && decide (0 < n) && decide (n < 2048)
  | .push h q _ p => h.ok && decide (q < 32) && decide (0 < p) && decide (p < 16)
  | .pop h q d p => h.ok && decide (q < 32) && decide (d < 16) && decide (0 < p) && decide (p < 16)
  | .popStall h q d n => h.ok && decide (q < 32) && decide (d < 16) && decide (0 < n) && decide (n < 128)
  | .rcap h _ a => h.ok && a.ok 16
  | .rput h a _ => h.ok && a.ok 16
  | .radd h d a b => h.ok && d.ok 16 && a.ok 16 && b.ok 16
  | .rcas h d a b => h.ok && d.ok 16 && a.ok 16 && decide (b < 16) && (b % 2 == 0)
  | .rmaxu h d a b => h.ok && d.ok 16 && a.ok 16 && b.ok 16
  | .ror h d a b => h.ok && d.ok 16 && a.ok 16 && b.ok 16
  | .board h => h.ok
  | .alight h => h.ok
  | .alightFree h => h.ok
  | .aadd h d a b => h.ok && d.ok 16 && a.ok 16 && b.ok 16
  | .aincw h d a b => h.ok && d.ok 16 && a.ok 16 && b.ok 16
  | .afaab h d a b => h.ok && decide (0 < d) && decide (d < 16) && a.ok 16 && decide (b < 16) && (b % 2 == 0)
  | .acas h d a b => h.ok && d.ok 16 && a.ok 16 && decide (b < 16) && (b % 2 == 0)
  | .axchg h d a b => h.ok && d.ok 16 && a.ok 16 && b.ok 16
  | .amins h d a b => h.ok && d.ok 16 && a.ok 16 && b.ok 16
  | .amaxu h d a b => h.ok && d.ok 16 && a.ok 16 && b.ok 16
  | .aorb h d a b => h.ok && d.ok 16 && a.ok 16 && b.ok 16
  | .acq h k a b => h.ok && decide (k < 32) && a.ok 16 && decide (b < 64)
  | .rel h b => h.ok && decide (b < 64)
  | .bar h k a b => h.ok && decide (k < 32) && a.ok 16 && b.ok 16
  | .fence h k _ => h.ok && decide (k < 32)
  | .trig h => h.ok
  | .step h k => h.ok && decide (k < 32)
  | .crgo h a => h.ok && a.ok 16
  | .crgc h => h.ok
  | .cnop _ => true
  | .ltime h d => h.ok && d.ok 16
  | .seedr h d k => h.ok && d.ok 16 && decide (k < 4)
  | .gang h a b => h.ok && a.ok 16 && b.ok 16
  | .mcfg h a b i => h.ok && a.ok && b.ok && i.ok
  | .mgo h => h.ok
  | .mgog h => h.ok
  | .mdrn h c => h.ok && decide (c < 4)
  | .mclr h mask => h.ok && decide (0 < mask) && decide (mask < 16)
  | .mstat h d i => h.ok && decide (d < 16) && mstatItem i
  | .mldw h a w c => h.ok && a.ok && decide (w < 8) && decide (c < 4)
  | .mmirr h _ => h.ok
  | .mstop h => h.ok
  | .mfmt h _ _ _ => h.ok
  | .spup h a => h.ok && a.ok
  | .spdn h a => h.ok && a.ok
  | .spld h a b => h.ok && a.ok && b.ok
  | .spst h a b => h.ok && a.ok && b.ok
  | .spscl h a n => h.ok && a.ok && fits 8 n
  | .spmode h dx _ => h.ok && decide (dx < 32)
  | .spclr h a => h.ok && a.ok
  | .spstat h d i => h.ok && decide (d < 16) && decide (i < 3)
  | .mli h d imm => h.ok && decide (d < 16) && decide (imm < 65536)
  | .mnop _ => true
  | .landingArrival k _ _ => k.ok
  | .landingDue k => k.ok
  | .messageArrival k _ _ => k.ok
  | .waitDueTick k => k.ok
  | .waitConditionMet k => k.ok
  | .acqPassLimit k => k.ok
  | .deadlock k => k.ok
  | .farStorePerform k _ => k.ok
  | .remoteAccessApply k _ => k.ok
  | .relIncrement k _ => k.ok
  | .matrixOpBegin k => k.ok
  | .matrixStepStart k => k.ok
  | .matrixStepRetire k => k.ok
  | .matrixStepReplay k => k.ok
  | .matrixStepComplete k => k.ok
  | .mdrnComplete k => k.ok
  | .mclrComplete k => k.ok
  | .mldwComplete k => k.ok
  | .cascadeReadStage k => k.ok
  | .cascadeSubtreeWrite k => k.ok
  | .cascadeRowMove k => k.ok
  | .cascadeRowWrite k => k.ok
  | .rillPass l => l.ok
  | .copyCommandComplete k _ => k.ok
  | .copyCompletionDue k => k.ok
  | .copyCommandStop k _ => k.ok
  | .translationWalk pasid _ _ _ => decide (pasid < 1048576)
  | .pageRequestTimeout pasid _ => decide (pasid < 1048576)
  | .remotePathTimeout k _ => k.ok
  | .invalidationComplete pasid => decide (pasid < 1048576)
  | .teardownComplete pasid => decide (pasid < 1048576)
  | .contextSaveComplete pasid => decide (pasid < 1048576)
  | .queuePoll _ => true
  | .timetable _ _ => true
  | .timetableIndirect _ _ => true
  | .wait _ _ => true
  | .signal _ _ => true
  | .copy _ _ => true
  | .seedPush _ _ => true
  | .seedPop _ _ => true
  | .seedFork _ _ => true
  | .checkpointPolicy _ _ => true
  | .barrierAnd _ _ => true
  | .nop _ _ => true
  | .launchArm l => l.ok
  | .launchStart l => l.ok
  | .tileStart k => k.ok
  | .launchTrigger l => l.ok
  | .launchRetire l => l.ok
  | .queueRestart _ => true
  | .queueDestroy _ => true
  | .queueDestroyed _ => true
  | .queueParkTimeout _ => true
  | .watchdogRestart _ => true
  | .fatalError _ _ => true
  | .collectiveTableWrite k _ => k.ok
  | .collectiveReadyWrite k _ => k.ok
  | .collectiveRoundFire l _ => l.ok
  | .collectiveRoundComplete l _ => l.ok
  | .checkpointTimer pasid => decide (pasid < 1048576)
  | .checkpointShardTake l => l.ok
  | .checkpointShardTaken l => l.ok
  | .scrub _ _ => true
  | .dutyUpdate => true
  | .thermalTrip => true
  | .powerGood => true
  | .powerOff => true
  | .managementConnect _ _ _ => true
  | .registerQueue _ pasid _ => decide (pasid < 1048576)
  | .unregisterQueue _ _ => true
  | .invalidateTranslations _ pasid _ => decide (pasid < 1048576)
  | .answerPageRequest _ pasid _ _ => decide (pasid < 1048576)
  | .createContext _ _ => true
  | .teardownContext _ pasid => decide (pasid < 1048576)
  | .preemptContext _ pasid => decide (pasid < 1048576)
  | .restoreContext _ pasid _ => decide (pasid < 1048576)
  | .readLaunchRecord _ pasid _ => decide (pasid < 1048576)
  | .readIdentityKey _ => true
  | .setCheckpointConfig _ pasid _ => decide (pasid < 1048576)
  | .restoreCheckpoint _ pasid _ _ => decide (pasid < 1048576)
  | .readLatestShard _ pasid => decide (pasid < 1048576)
  | .readSoftErrorBlock _ _ => true
  | .clearSoftErrorBlock _ _ => true
  | .writeFieldRepair _ _ => true
  | .readRemap _ _ => true
  | .readCistern _ _ _ => true
  | .setPowerCap _ _ => true
  | .readTelemetry _ => true
  | .setModulePosition _ _ _ => true
  | .stageFirmware _ _ _ _ => true
  | .resetModule _ => true
  | .ualinkRemoteRequest _ => true
  | .frontEndCoreRestarted _ => true
  | .signalConditionMet _ _ => true

end Sys2Proof
end

