-- ==== Sys2Proof/Decode.lean ====
section
/-! DEFINITION. The decoder of 32-bit syllables, total and rejecting by the reason of R75, and the encoder,
both written from the encoding tables (R61 to R66, R73). -/

namespace Sys2Proof

/-- Bits [lo + n - 1 : lo] of a word (R6). -/
def fld (w lo n : Nat) : Nat := w / 2 ^ lo % 2 ^ n

/-- A two's complement value of n bits. -/
def signed (n x : Nat) : Int := if x < 2 ^ (n - 1) then (x : Int) else (x : Int) - (2 ^ n : Nat)

/-- A signed field. -/
def sfld (w lo n : Nat) : Int := signed n (fld w lo n)

/-- The low n bits of an integer in two's complement. -/
def enc2 (n : Nat) (x : Int) : Nat := (x % ((2 ^ n : Nat) : Int)).toNat

/-- The header of a syllable (R61). -/
def hdrOf (w : Nat) : Hdr := ⟨fld w 31 1 == 1, fld w 21 4⟩

def Hdr.field (h : Hdr) : Nat := h.e.toNat * 2147483648 + h.g * 2097152

/-- Source codes (R65): 0 to 31 a register, 32 to 39 a latch. -/
def srcOf (n : Nat) : Src := if n < 32 then .reg n else .latch (n - 32)

def Src.code : Src → Nat
  | .reg n => n
  | .latch n => n + 32

/-- The destination of a W form (R66). -/
def destOf (w : Nat) : Dest := if fld w 20 1 = 1 then .suppressed else .reg (fld w 15 5)

def Dest.field : Dest → Nat
  | .reg n => n * 32768
  | .suppressed => 1048576

/-- Matrix source codes (R65): 0 to 15 a register, 16 to 23 an M latch. -/
def msrcOf (n : Nat) : MSrc := if n < 16 then .reg n else .latch (n - 16)

def MSrc.code : MSrc → Nat
  | .reg n => n
  | .latch n => n + 16

def vfileOf (n : Nat) : VFile := if n = 0 then .va else .vb

def VFile.code : VFile → Nat
  | .va => 0
  | .vb => 1

/-- Format codes (R31). -/
def fmtOf (n : Nat) : Fmt :=
  match n with
  | 0 => .fp64 | 1 => .fp32 | 2 => .fp16 | 3 => .bf16 | 4 => .e4m3 | 5 => .e5m2 | 6 => .mxfp4 | 7 => .mxfp8
  | 8 => .g8 | 9 => .g6 | 10 => .i32 | 11 => .i16 | 12 => .ni | 13 => .ps32 | 14 => .ui32 | _ => .i64

def Fmt.code : Fmt → Nat
  | .fp64 => 0 | .fp32 => 1 | .fp16 => 2 | .bf16 => 3 | .e4m3 => 4 | .e5m2 => 5 | .mxfp4 => 6 | .mxfp8 => 7
  | .g8 => 8 | .g6 => 9 | .i32 => 10 | .i16 => 11 | .ni => 12 | .ps32 => 13 | .ui32 => 14 | .i64 => 15

/-- Rounding overrides (R40). -/
def rndOf (n : Nat) : RndOvr :=
  match n with
  | 0 => .slot | 1 => .mode .rne | 2 => .mode .rtz | 3 => .mode .rup | 4 => .mode .rdn | _ => .mode .rna

def RndOvr.code : RndOvr → Nat
  | .slot => 0
  | .mode .rne => 1
  | .mode .rtz => 2
  | .mode .rup => 3
  | .mode .rdn => 4
  | .mode .rna => 5

def sizeOf (n : Nat) : MemSize :=
  match n with
  | 0 => .b1 | 1 => .b2 | 2 => .b4 | _ => .b8

def MemSize.code : MemSize → Nat
  | .b1 => 0 | .b2 => 1 | .b4 => 2 | .b8 => 3

/-- Scope codes (R277). -/
def scopeOf (n : Nat) : Scope :=
  match n with
  | 0 => .tile | 1 => .gang | 2 => .quad | 3 => .die | 4 => .pkg | _ => .sys

def Scope.code : Scope → Nat
  | .tile => 0 | .gang => 1 | .quad => 2 | .die => 3 | .pkg => 4 | .sys => 5

def cfmtOf (n : Nat) : CFmt :=
  match n with
  | 0 => .fp32 | 1 => .bf16 | _ => .ps32

def CFmt.code : CFmt → Nat
  | .fp32 => 0 | .bf16 => 1 | .ps32 => 2

/-- CSR numbers (R94). -/
def Csr.number : Csr → Nat
  | .fpcr => 0x000 | .fpsr => 0x001 | .trapcause => 0x002 | .trappc => 0x003 | .trapinfo => 0x004 | .tvec => 0x005
  | .tileid => 0x010 | .ntiles => 0x011 | .gangpos => 0x012 | .gangsize => 0x013 | .rillpos => 0x014
  | .ltime => 0x018 | .vfmta => 0x020 | .vfmtb => 0x021 | .nif => 0x022 | .atdue => 0x023
  | .ftab n => 0x028 + n
  | .ftsel => 0x038
  | .seed n => 0x040 + n
  | .zero n => 0x044 + n
  | .stepcnt => 0x050 | .crgdepth => 0x060
  | .lstate n => 0x070 + n
  | .lactive => 0x076 | .prebound => 0x100 | .stopflag => 0x101 | .maxk => 0x102 | .detmode => 0x103

/-- The CSR of a number, none when the number is absent from R94. -/
def csrOfNumber (n : Nat) : Option Csr :=
  match n with
  | 0x000 => some .fpcr | 0x001 => some .fpsr | 0x002 => some .trapcause | 0x003 => some .trappc
  | 0x004 => some .trapinfo | 0x005 => some .tvec
  | 0x010 => some .tileid | 0x011 => some .ntiles | 0x012 => some .gangpos | 0x013 => some .gangsize
  | 0x014 => some .rillpos | 0x018 => some .ltime
  | 0x020 => some .vfmta | 0x021 => some .vfmtb | 0x022 => some .nif | 0x023 => some .atdue
  | 0x038 => some .ftsel | 0x050 => some .stepcnt | 0x060 => some .crgdepth | 0x076 => some .lactive
  | 0x100 => some .prebound | 0x101 => some .stopflag | 0x102 => some .maxk | 0x103 => some .detmode
  | n =>
    if 0x028 ≤ n ∧ n < 0x038 then some (.ftab (n - 0x028))
    else if 0x040 ≤ n ∧ n < 0x044 then some (.seed (n - 0x040))
    else if 0x044 ≤ n ∧ n < 0x048 then some (.zero (n - 0x044))
    else if 0x070 ≤ n ∧ n < 0x076 then some (.lstate (n - 0x070))
    else none

def csrOf (n : Nat) : Csr := (csrOfNumber n).getD .fpcr

/-- Indices of configuration fields (R194). -/
def MField.index : MField → Nat
  | .ophdr => 0
  | .level n => 1 + n
  | .drain => 7
  | .stacks => 8
  | .ring r => 0x010 + r
  | .rctl r => 0x018 + r

def mfieldOfIndex (n : Nat) : Option MField :=
  if n = 0 then some .ophdr
  else if n < 7 then some (.level (n - 1))
  else if n = 7 then some .drain
  else if n = 8 then some .stacks
  else if 0x010 ≤ n ∧ n < 0x014 then some (.ring (n - 0x010))
  else if 0x018 ≤ n ∧ n < 0x01C then some (.rctl (n - 0x018))
  else none

def mfieldOf (n : Nat) : MField := (mfieldOfIndex n).getD .ophdr

/-- A must-be-zero field (R75, reason 7). -/
def chkZero (n : Nat) : Option Illegal := if n = 0 then none else some .mustBeZero

/-- An own source of S, VA or VB (R65, R75). -/
def chkSrc32 (n : Nat) : Option Illegal := if n < 40 then none else some .badSource

/-- An own source of CA or CB: registers 16 to 31 lie beyond the file (R65; log entry 6). -/
def chkSrc16 (n : Nat) : Option Illegal :=
  if n < 16 then none else if n < 32 then some .badRegister else if n < 40 then none else some .badSource

/-- A suppressed destination has D = 0 (R66). -/
def chkDest32 (w : Nat) : Option Illegal :=
  if fld w 20 1 = 1 ∧ fld w 15 5 ≠ 0 then some .mustBeZero else none

def chkDest16 (w : Nat) : Option Illegal :=
  if 16 ≤ fld w 15 5 then some .badRegister else chkDest32 w

/-- A predicate source (R65): 16 to 31 lie beyond the file, 32 to 63 are no code of the kind (log entry 6). -/
def chkPsrc (n : Nat) : Option Illegal :=
  if n < 16 then none else if n < 32 then some .badRegister else some .badSource

/-- A predicate destination (R65, R75): p0 is reason 9. -/
def chkPdest (n : Nat) : Option Illegal :=
  if n = 0 then some .destP0 else if n < 16 then none else some .badRegister

/-- A register of a file of sixteen (R65). -/
def chkReg16 (n : Nat) : Option Illegal := if n < 16 then none else some .badRegister

def chkCsr (n : Nat) : Option Illegal := if (csrOfNumber n).isSome then none else some .badCode

/-- LOOP and LOOPR D: level 0 to 5 in [2:0], [4:3] zero (R75, reason 4). -/
def chkLevel (n : Nat) : Option Illegal := if n < 6 then none else some .badCode

/-- A zero due distance or body length (R75, reason 8). -/
def chkNonzero (n : Nat) : Option Illegal := if n = 0 then some .zeroLength else none

/-- SLD of 8 bytes with sign-extend 1 (R138). -/
def chkSx (z x : Nat) : Option Illegal := if z = 3 ∧ x = 1 then some .badCode else none

/-- PUSH XD [13:11] makes an octet base other than 0 or 8 (R256). -/
def chkOct3 (n : Nat) : Option Illegal := if n = 0 then none else some .badRegister

/-- A reserved format code (R32). -/
def chkFmt (n : Nat) : Option Illegal := if n < 16 then none else some .badCode

/-- Rounding overrides 6 and 7 (R40). -/
def chkRnd (n : Nat) : Option Illegal := if n < 6 then none else some .badCode

/-- The m register of an XCP (R74). -/
def chkMreg6 (n : Nat) : Option Illegal :=
  if n < 16 then none else if n < 32 then some .badRegister else some .badSource

/-- The vector register of an XCP (R74). -/
def chkVreg6 (n : Nat) : Option Illegal := if n < 32 then none else some .badSource

/-- A flag predicate of the Q form (R256). -/
def chkFlag (n : Nat) : Option Illegal := if n = 0 then some .destP0 else none

/-- An octet base in D (R235). -/
def chkOctD (n : Nat) : Option Illegal := if n = 0 ∨ n = 8 then none else some .badRegister

/-- An octet base in B: a latch or source code is reason 5 (R235). -/
def chkOctB (n : Nat) : Option Illegal :=
  if n = 0 ∨ n = 8 then none else if n < 32 then some .badRegister else some .badSource

/-- An even pair in B (R158, R235). -/
def chkPair (n : Nat) : Option Illegal :=
  if 32 ≤ n then some .badSource else if 16 ≤ n ∨ n % 2 = 1 then some .badRegister else none

/-- Scope codes 6 and 7 (R295). -/
def chkScope (n : Nat) : Option Illegal := if n < 6 then none else some .badCode

/-- A matrix source (R65; 24 to 31 lie beyond the file, log entry 6). -/
def chkMsrc (n : Nat) : Option Illegal := if n < 24 then none else some .badRegister

def chkMfield (n : Nat) : Option Illegal := if (mfieldOfIndex n).isSome then none else some .badCode

/-- MCLR with a mask of 0 (R200). -/
def chkMask (n : Nat) : Option Illegal := if n = 0 then some .badCode else none

def chkMitem (n : Nat) : Option Illegal := if mstatItem n then none else some .badCode

def chkSpitem (n : Nat) : Option Illegal := if n < 3 then none else some .badCode

/-- SPMODE with FMT 3 (R211). -/
def chkCfmt (n : Nat) : Option Illegal := if n < 3 then none else some .badCode

/-- The lesser of two reasons (R75). -/
def Illegal.worse (a : Option Illegal) (b : Option Illegal) : Option Illegal :=
  match a, b with
  | none, b => b
  | a, none => a
  | some x, some y => if x.code ≤ y.code then some x else some y

/-- The instruction, or the lowest reason its fields meet (R75). -/
def judge (rs : List (Option Illegal)) (i : Instr) : Decoded :=
  match rs.foldr Illegal.worse none with
  | none => .ok i
  | some r => .illegal r


/-- Major 0 (R73): SNOP. -/
def decodeMaj0 (w : Nat) : Decoded :=
  judge [chkZero (fld w 0 25)] (.snop (fld w 31 1 == 1))

/-- Major 1 (R73): ADD SUB AND OR XOR SHL SHR SRA. -/
def decodeMaj1 (w : Nat) : Decoded :=
  match fld w 0 3 with
  | 0 => judge [chkDest32 w, chkSrc32 (fld w 9 6), chkSrc32 (fld w 3 6)] (.add (hdrOf w) (destOf w) (srcOf (fld w 9 6)) (srcOf (fld w 3 6)))
  | 1 => judge [chkDest32 w, chkSrc32 (fld w 9 6), chkSrc32 (fld w 3 6)] (.sub (hdrOf w) (destOf w) (srcOf (fld w 9 6)) (srcOf (fld w 3 6)))
  | 2 => judge [chkDest32 w, chkSrc32 (fld w 9 6), chkSrc32 (fld w 3 6)] (.and (hdrOf w) (destOf w) (srcOf (fld w 9 6)) (srcOf (fld w 3 6)))
  | 3 => judge [chkDest32 w, chkSrc32 (fld w 9 6), chkSrc32 (fld w 3 6)] (.or (hdrOf w) (destOf w) (srcOf (fld w 9 6)) (srcOf (fld w 3 6)))
  | 4 => judge [chkDest32 w, chkSrc32 (fld w 9 6), chkSrc32 (fld w 3 6)] (.xor (hdrOf w) (destOf w) (srcOf (fld w 9 6)) (srcOf (fld w 3 6)))
  | 5 => judge [chkDest32 w, chkSrc32 (fld w 9 6), chkSrc32 (fld w 3 6)] (.shl (hdrOf w) (destOf w) (srcOf (fld w 9 6)) (srcOf (fld w 3 6)))
  | 6 => judge [chkDest32 w, chkSrc32 (fld w 9 6), chkSrc32 (fld w 3 6)] (.shr (hdrOf w) (destOf w) (srcOf (fld w 9 6)) (srcOf (fld w 3 6)))
  | _ => judge [chkDest32 w, chkSrc32 (fld w 9 6), chkSrc32 (fld w 3 6)] (.sra (hdrOf w) (destOf w) (srcOf (fld w 9 6)) (srcOf (fld w 3 6)))

/-- Major 2 (R73): MUL MULH MULHU DIV DIVU REM REMU CLZ. -/
def decodeMaj2 (w : Nat) : Decoded :=
  match fld w 0 3 with
  | 0 => judge [chkDest32 w, chkSrc32 (fld w 9 6), chkSrc32 (fld w 3 6)] (.mul (hdrOf w) (destOf w) (srcOf (fld w 9 6)) (srcOf (fld w 3 6)))
  | 1 => judge [chkDest32 w, chkSrc32 (fld w 9 6), chkSrc32 (fld w 3 6)] (.mulh (hdrOf w) (destOf w) (srcOf (fld w 9 6)) (srcOf (fld w 3 6)))
  | 2 => judge [chkDest32 w, chkSrc32 (fld w 9 6), chkSrc32 (fld w 3 6)] (.mulhu (hdrOf w) (destOf w) (srcOf (fld w 9 6)) (srcOf (fld w 3 6)))
  | 3 => judge [chkDest32 w, chkSrc32 (fld w 9 6), chkSrc32 (fld w 3 6)] (.div (hdrOf w) (destOf w) (srcOf (fld w 9 6)) (srcOf (fld w 3 6)))
  | 4 => judge [chkDest32 w, chkSrc32 (fld w 9 6), chkSrc32 (fld w 3 6)] (.divu (hdrOf w) (destOf w) (srcOf (fld w 9 6)) (srcOf (fld w 3 6)))
  | 5 => judge [chkDest32 w, chkSrc32 (fld w 9 6), chkSrc32 (fld w 3 6)] (.rem (hdrOf w) (destOf w) (srcOf (fld w 9 6)) (srcOf (fld w 3 6)))
  | 6 => judge [chkDest32 w, chkSrc32 (fld w 9 6), chkSrc32 (fld w 3 6)] (.remu (hdrOf w) (destOf w) (srcOf (fld w 9 6)) (srcOf (fld w 3 6)))
  | _ => judge [chkZero (fld w 3 6), chkDest32 w, chkSrc32 (fld w 9 6)] (.clz (hdrOf w) (destOf w) (srcOf (fld w 9 6)))

/-- Major 3 (R73): MIN MAX MINU MAXU ROTL POPC CTZ BSWAP. -/
def decodeMaj3 (w : Nat) : Decoded :=
  match fld w 0 3 with
  | 0 => judge [chkDest32 w, chkSrc32 (fld w 9 6), chkSrc32 (fld w 3 6)] (.min (hdrOf w) (destOf w) (srcOf (fld w 9 6)) (srcOf (fld w 3 6)))
  | 1 => judge [chkDest32 w, chkSrc32 (fld w 9 6), chkSrc32 (fld w 3 6)] (.max (hdrOf w) (destOf w) (srcOf (fld w 9 6)) (srcOf (fld w 3 6)))
  | 2 => judge [chkDest32 w, chkSrc32 (fld w 9 6), chkSrc32 (fld w 3 6)] (.minu (hdrOf w) (destOf w) (srcOf (fld w 9 6)) (srcOf (fld w 3 6)))
  | 3 => judge [chkDest32 w, chkSrc32 (fld w 9 6), chkSrc32 (fld w 3 6)] (.maxu (hdrOf w) (destOf w) (srcOf (fld w 9 6)) (srcOf (fld w 3 6)))
  | 4 => judge [chkDest32 w, chkSrc32 (fld w 9 6), chkSrc32 (fld w 3 6)] (.rotl (hdrOf w) (destOf w) (srcOf (fld w 9 6)) (srcOf (fld w 3 6)))
  | 5 => judge [chkZero (fld w 3 6), chkDest32 w, chkSrc32 (fld w 9 6)] (.popc (hdrOf w) (destOf w) (srcOf (fld w 9 6)))
  | 6 => judge [chkZero (fld w 3 6), chkDest32 w, chkSrc32 (fld w 9 6)] (.ctz (hdrOf w) (destOf w) (srcOf (fld w 9 6)))
  | _ => judge [chkZero (fld w 3 6), chkDest32 w, chkSrc32 (fld w 9 6)] (.bswap (hdrOf w) (destOf w) (srcOf (fld w 9 6)))

/-- Major 4 (R73): ADDI. -/
def decodeMaj4 (w : Nat) : Decoded :=
  judge [chkDest32 w, chkSrc32 (fld w 9 6)] (.addi (hdrOf w) (destOf w) (srcOf (fld w 9 6)) (sfld w 0 9))

/-- Major 5 (R73): ANDI. -/
def decodeMaj5 (w : Nat) : Decoded :=
  judge [chkDest32 w, chkSrc32 (fld w 9 6)] (.andi (hdrOf w) (destOf w) (srcOf (fld w 9 6)) (sfld w 0 9))

/-- Major 6 (R73): ORI. -/
def decodeMaj6 (w : Nat) : Decoded :=
  judge [chkDest32 w, chkSrc32 (fld w 9 6)] (.ori (hdrOf w) (destOf w) (srcOf (fld w 9 6)) (sfld w 0 9))

/-- Major 7 (R73): XORI. -/
def decodeMaj7 (w : Nat) : Decoded :=
  judge [chkDest32 w, chkSrc32 (fld w 9 6)] (.xori (hdrOf w) (destOf w) (srcOf (fld w 9 6)) (sfld w 0 9))

/-- Major 8 (R73): SHLI SHRI SRAI ROTLI. -/
def decodeMaj8 (w : Nat) : Decoded :=
  if fld w 6 1 = 1 then .illegal .badCode else
  match fld w 7 2 with
  | 0 => judge [chkDest32 w, chkSrc32 (fld w 9 6)] (.shli (hdrOf w) (destOf w) (srcOf (fld w 9 6)) (fld w 0 6))
  | 1 => judge [chkDest32 w, chkSrc32 (fld w 9 6)] (.shri (hdrOf w) (destOf w) (srcOf (fld w 9 6)) (fld w 0 6))
  | 2 => judge [chkDest32 w, chkSrc32 (fld w 9 6)] (.srai (hdrOf w) (destOf w) (srcOf (fld w 9 6)) (fld w 0 6))
  | _ => judge [chkDest32 w, chkSrc32 (fld w 9 6)] (.rotli (hdrOf w) (destOf w) (srcOf (fld w 9 6)) (fld w 0 6))

/-- Major 9 (R73): LIS. -/
def decodeMaj9 (w : Nat) : Decoded :=
  judge [] (.lis (hdrOf w) (fld w 16 5) (fld w 0 16))

/-- Major 10 (R73): INS1. -/
def decodeMaj10 (w : Nat) : Decoded :=
  judge [] (.ins1 (hdrOf w) (fld w 16 5) (fld w 0 16))

/-- Major 11 (R73): INS2. -/
def decodeMaj11 (w : Nat) : Decoded :=
  judge [] (.ins2 (hdrOf w) (fld w 16 5) (fld w 0 16))

/-- Major 12 (R73): INS3. -/
def decodeMaj12 (w : Nat) : Decoded :=
  judge [] (.ins3 (hdrOf w) (fld w 16 5) (fld w 0 16))

/-- Major 13 (R73): CMPEQ CMPNE CMPLT CMPLTU CMPLE CMPLEU CMPTST. -/
def decodeMaj13 (w : Nat) : Decoded :=
  match fld w 0 3 with
  | 0 => judge [chkZero (fld w 20 1), chkPdest (fld w 15 5), chkSrc32 (fld w 9 6), chkSrc32 (fld w 3 6)] (.cmpeq (hdrOf w) (fld w 15 5) (srcOf (fld w 9 6)) (srcOf (fld w 3 6)))
  | 1 => judge [chkZero (fld w 20 1), chkPdest (fld w 15 5), chkSrc32 (fld w 9 6), chkSrc32 (fld w 3 6)] (.cmpne (hdrOf w) (fld w 15 5) (srcOf (fld w 9 6)) (srcOf (fld w 3 6)))
  | 2 => judge [chkZero (fld w 20 1), chkPdest (fld w 15 5), chkSrc32 (fld w 9 6), chkSrc32 (fld w 3 6)] (.cmplt (hdrOf w) (fld w 15 5) (srcOf (fld w 9 6)) (srcOf (fld w 3 6)))
  | 3 => judge [chkZero (fld w 20 1), chkPdest (fld w 15 5), chkSrc32 (fld w 9 6), chkSrc32 (fld w 3 6)] (.cmpltu (hdrOf w) (fld w 15 5) (srcOf (fld w 9 6)) (srcOf (fld w 3 6)))
  | 4 => judge [chkZero (fld w 20 1), chkPdest (fld w 15 5), chkSrc32 (fld w 9 6), chkSrc32 (fld w 3 6)] (.cmple (hdrOf w) (fld w 15 5) (srcOf (fld w 9 6)) (srcOf (fld w 3 6)))
  | 5 => judge [chkZero (fld w 20 1), chkPdest (fld w 15 5), chkSrc32 (fld w 9 6), chkSrc32 (fld w 3 6)] (.cmpleu (hdrOf w) (fld w 15 5) (srcOf (fld w 9 6)) (srcOf (fld w 3 6)))
  | 6 => judge [chkZero (fld w 20 1), chkPdest (fld w 15 5), chkSrc32 (fld w 9 6), chkSrc32 (fld w 3 6)] (.cmptst (hdrOf w) (fld w 15 5) (srcOf (fld w 9 6)) (srcOf (fld w 3 6)))
  | _ => .illegal .badCode

/-- Major 14 (R73): PAND POR PXOR PANDN PNOT PMOV PSET PCLR. -/
def decodeMaj14 (w : Nat) : Decoded :=
  match fld w 0 3 with
  | 0 => judge [chkZero (fld w 20 1), chkPdest (fld w 15 5), chkPsrc (fld w 9 6), chkPsrc (fld w 3 6)] (.pand (hdrOf w) (fld w 15 5) (fld w 9 6) (fld w 3 6))
  | 1 => judge [chkZero (fld w 20 1), chkPdest (fld w 15 5), chkPsrc (fld w 9 6), chkPsrc (fld w 3 6)] (.por (hdrOf w) (fld w 15 5) (fld w 9 6) (fld w 3 6))
  | 2 => judge [chkZero (fld w 20 1), chkPdest (fld w 15 5), chkPsrc (fld w 9 6), chkPsrc (fld w 3 6)] (.pxor (hdrOf w) (fld w 15 5) (fld w 9 6) (fld w 3 6))
  | 3 => judge [chkZero (fld w 20 1), chkPdest (fld w 15 5), chkPsrc (fld w 9 6), chkPsrc (fld w 3 6)] (.pandn (hdrOf w) (fld w 15 5) (fld w 9 6) (fld w 3 6))
  | 4 => judge [chkZero (fld w 20 1), chkZero (fld w 3 6), chkPdest (fld w 15 5), chkPsrc (fld w 9 6)] (.pnot (hdrOf w) (fld w 15 5) (fld w 9 6))
  | 5 => judge [chkZero (fld w 20 1), chkZero (fld w 3 6), chkPdest (fld w 15 5), chkPsrc (fld w 9 6)] (.pmov (hdrOf w) (fld w 15 5) (fld w 9 6))
  | 6 => judge [chkZero (fld w 20 1), chkZero (fld w 9 6), chkZero (fld w 3 6), chkPdest (fld w 15 5)] (.pset (hdrOf w) (fld w 15 5))
  | _ => judge [chkZero (fld w 20 1), chkZero (fld w 9 6), chkZero (fld w 3 6), chkPdest (fld w 15 5)] (.pclr (hdrOf w) (fld w 15 5))

/-- Major 15 (R73): CSRR CSRW CSRS CSRC. -/
def decodeMaj15 (w : Nat) : Decoded :=
  match fld w 12 4 with
  | 0 => judge [chkCsr (fld w 0 12)] (.csrr (hdrOf w) (fld w 16 5) (csrOf (fld w 0 12)))
  | 1 => judge [chkCsr (fld w 0 12)] (.csrw (hdrOf w) (fld w 16 5) (csrOf (fld w 0 12)))
  | 2 => judge [chkCsr (fld w 0 12)] (.csrs (hdrOf w) (fld w 16 5) (csrOf (fld w 0 12)))
  | 3 => judge [chkCsr (fld w 0 12)] (.csrc (hdrOf w) (fld w 16 5) (csrOf (fld w 0 12)))
  | _ => .illegal .badCode

/-- Major 16 (R73): SEL MOVP MOVTP. -/
def decodeMaj16 (w : Nat) : Decoded :=
  match fld w 0 3 with
  | 0 => judge [chkDest32 w, chkSrc32 (fld w 9 6), chkSrc32 (fld w 3 6)] (.sel (hdrOf w) (destOf w) (srcOf (fld w 9 6)) (srcOf (fld w 3 6)))
  | 1 => judge [chkZero (fld w 3 6), chkDest32 w, chkPsrc (fld w 9 6)] (.movp (hdrOf w) (destOf w) (fld w 9 6))
  | 2 => judge [chkZero (fld w 20 1), chkZero (fld w 3 6), chkPdest (fld w 15 5), chkSrc32 (fld w 9 6)] (.movtp (hdrOf w) (fld w 15 5) (srcOf (fld w 9 6)))
  | _ => .illegal .badCode

/-- Major 17 (R73): BR. -/
def decodeMaj17 (w : Nat) : Decoded :=
  judge [] (.br (hdrOf w) (sfld w 0 21))

/-- Major 18 (R73): CALL. -/
def decodeMaj18 (w : Nat) : Decoded :=
  judge [] (.call (hdrOf w) (sfld w 0 21))

/-- Major 19 (R73): JMPR CALLR LOOPR TRAP TRET TFENCE EXIT WAITT. -/
def decodeMaj19 (w : Nat) : Decoded :=
  match fld w 0 3 with
  | 0 => judge [chkZero (fld w 20 1), chkZero (fld w 15 5), chkZero (fld w 3 6), chkSrc32 (fld w 9 6)] (.jmpr (hdrOf w) (srcOf (fld w 9 6)))
  | 1 => judge [chkZero (fld w 20 1), chkZero (fld w 15 5), chkZero (fld w 3 6), chkSrc32 (fld w 9 6)] (.callr (hdrOf w) (srcOf (fld w 9 6)))
  | 2 => judge [chkZero (fld w 20 1), chkLevel (fld w 15 5), chkSrc32 (fld w 9 6), chkSrc32 (fld w 3 6)] (.loopr (hdrOf w) (fld w 15 3) (srcOf (fld w 9 6)) (srcOf (fld w 3 6)))
  | 3 =>
    match fld w 15 5 with
    | 0 => judge [chkZero (fld w 20 1), chkZero (fld w 3 6), chkSrc32 (fld w 9 6)] (.trap (hdrOf w) (srcOf (fld w 9 6)))
    | 1 => judge [chkZero (fld w 20 1), chkZero (fld w 9 6), chkZero (fld w 3 6)] (.tret (hdrOf w))
    | _ => .illegal .badCode
  | 4 => judge [chkZero (fld w 20 1), chkZero (fld w 15 5), chkZero (fld w 9 6), chkZero (fld w 3 6)] (.tfence (hdrOf w))
  | 5 => judge [chkZero (fld w 20 1), chkZero (fld w 15 5), chkZero (fld w 9 6), chkZero (fld w 3 6)] (.exit (hdrOf w))
  | 6 => judge [chkZero (fld w 20 1), chkZero (fld w 15 5), chkZero (fld w 3 6), chkSrc32 (fld w 9 6)] (.waitt (hdrOf w) (srcOf (fld w 9 6)))
  | _ => .illegal .badCode

/-- Major 20 (R73): LOOP. -/
def decodeMaj20 (w : Nat) : Decoded :=
  judge [chkZero (fld w 20 1), chkLevel (fld w 15 5), chkSrc32 (fld w 9 6), chkNonzero (fld w 0 9)] (.loop (hdrOf w) (fld w 15 3) (srcOf (fld w 9 6)) (fld w 0 9))

/-- Major 21 (R73): SLD. -/
def decodeMaj21 (w : Nat) : Decoded :=
  judge [chkDest32 w, chkSrc32 (fld w 9 6), chkSx (fld w 7 2) (fld w 6 1)] (.sld (hdrOf w) (destOf w) (srcOf (fld w 9 6)) (sizeOf (fld w 7 2)) (fld w 6 1 == 1) (sfld w 0 6))

/-- Major 22 (R73): SST. -/
def decodeMaj22 (w : Nat) : Decoded :=
  judge [chkZero (fld w 20 1), chkZero (fld w 6 1), chkSrc32 (fld w 9 6)] (.sst (hdrOf w) (fld w 15 5) (srcOf (fld w 9 6)) (sizeOf (fld w 7 2)) (sfld w 0 6))

/-- Major 23 (R73): VADD VSUB VMUL VMIN VMAX VABS VNEG VCPS. -/
def decodeMaj23 (w : Nat) : Decoded :=
  match fld w 0 3 with
  | 0 => judge [chkDest32 w, chkSrc32 (fld w 9 6), chkSrc32 (fld w 3 6)] (.vadd (hdrOf w) (destOf w) (srcOf (fld w 9 6)) (srcOf (fld w 3 6)))
  | 1 => judge [chkDest32 w, chkSrc32 (fld w 9 6), chkSrc32 (fld w 3 6)] (.vsub (hdrOf w) (destOf w) (srcOf (fld w 9 6)) (srcOf (fld w 3 6)))
  | 2 => judge [chkDest32 w, chkSrc32 (fld w 9 6), chkSrc32 (fld w 3 6)] (.vmul (hdrOf w) (destOf w) (srcOf (fld w 9 6)) (srcOf (fld w 3 6)))
  | 3 => judge [chkDest32 w, chkSrc32 (fld w 9 6), chkSrc32 (fld w 3 6)] (.vmin (hdrOf w) (destOf w) (srcOf (fld w 9 6)) (srcOf (fld w 3 6)))
  | 4 => judge [chkDest32 w, chkSrc32 (fld w 9 6), chkSrc32 (fld w 3 6)] (.vmax (hdrOf w) (destOf w) (srcOf (fld w 9 6)) (srcOf (fld w 3 6)))
  | 5 => judge [chkZero (fld w 3 6), chkDest32 w, chkSrc32 (fld w 9 6)] (.vabs (hdrOf w) (destOf w) (srcOf (fld w 9 6)))
  | 6 => judge [chkZero (fld w 3 6), chkDest32 w, chkSrc32 (fld w 9 6)] (.vneg (hdrOf w) (destOf w) (srcOf (fld w 9 6)))
  | _ => judge [chkDest32 w, chkSrc32 (fld w 9 6), chkSrc32 (fld w 3 6)] (.vcps (hdrOf w) (destOf w) (srcOf (fld w 9 6)) (srcOf (fld w 3 6)))

/-- Major 24 (R73): VFMA VFMS VFNMA VFNMS VDIV VSQRT VRCP VRSQ. -/
def decodeMaj24 (w : Nat) : Decoded :=
  match fld w 0 3 with
  | 0 => judge [chkZero (fld w 20 1), chkSrc32 (fld w 9 6), chkSrc32 (fld w 3 6)] (.vfma (hdrOf w) (fld w 15 5) (srcOf (fld w 9 6)) (srcOf (fld w 3 6)))
  | 1 => judge [chkZero (fld w 20 1), chkSrc32 (fld w 9 6), chkSrc32 (fld w 3 6)] (.vfms (hdrOf w) (fld w 15 5) (srcOf (fld w 9 6)) (srcOf (fld w 3 6)))
  | 2 => judge [chkZero (fld w 20 1), chkSrc32 (fld w 9 6), chkSrc32 (fld w 3 6)] (.vfnma (hdrOf w) (fld w 15 5) (srcOf (fld w 9 6)) (srcOf (fld w 3 6)))
  | 3 => judge [chkZero (fld w 20 1), chkSrc32 (fld w 9 6), chkSrc32 (fld w 3 6)] (.vfnms (hdrOf w) (fld w 15 5) (srcOf (fld w 9 6)) (srcOf (fld w 3 6)))
  | 4 => judge [chkZero (fld w 20 1), chkSrc32 (fld w 9 6), chkSrc32 (fld w 3 6)] (.vdiv (hdrOf w) (fld w 15 5) (srcOf (fld w 9 6)) (srcOf (fld w 3 6)))
  | 5 => judge [chkZero (fld w 20 1), chkZero (fld w 3 6), chkSrc32 (fld w 9 6)] (.vsqrt (hdrOf w) (fld w 15 5) (srcOf (fld w 9 6)))
  | 6 => judge [chkZero (fld w 20 1), chkZero (fld w 3 6), chkSrc32 (fld w 9 6)] (.vrcp (hdrOf w) (fld w 15 5) (srcOf (fld w 9 6)))
  | _ => judge [chkZero (fld w 20 1), chkZero (fld w 3 6), chkSrc32 (fld w 9 6)] (.vrsq (hdrOf w) (fld w 15 5) (srcOf (fld w 9 6)))

/-- Major 25 (R73): VEXP2 VLOG2 VRINT VRINTZ VCLASS VSCALE VGETEXP VMINNUM. -/
def decodeMaj25 (w : Nat) : Decoded :=
  match fld w 0 3 with
  | 0 => judge [chkZero (fld w 3 6), chkDest32 w, chkSrc32 (fld w 9 6)] (.vexp2 (hdrOf w) (destOf w) (srcOf (fld w 9 6)))
  | 1 => judge [chkZero (fld w 3 6), chkDest32 w, chkSrc32 (fld w 9 6)] (.vlog2 (hdrOf w) (destOf w) (srcOf (fld w 9 6)))
  | 2 => judge [chkZero (fld w 3 6), chkDest32 w, chkSrc32 (fld w 9 6)] (.vrint (hdrOf w) (destOf w) (srcOf (fld w 9 6)))
  | 3 => judge [chkZero (fld w 3 6), chkDest32 w, chkSrc32 (fld w 9 6)] (.vrintz (hdrOf w) (destOf w) (srcOf (fld w 9 6)))
  | 4 => judge [chkZero (fld w 3 6), chkDest32 w, chkSrc32 (fld w 9 6)] (.vclass (hdrOf w) (destOf w) (srcOf (fld w 9 6)))
  | 5 => judge [chkDest32 w, chkSrc32 (fld w 9 6), chkSrc32 (fld w 3 6)] (.vscale (hdrOf w) (destOf w) (srcOf (fld w 9 6)) (srcOf (fld w 3 6)))
  | 6 => judge [chkZero (fld w 3 6), chkDest32 w, chkSrc32 (fld w 9 6)] (.vgetexp (hdrOf w) (destOf w) (srcOf (fld w 9 6)))
  | _ => judge [chkDest32 w, chkSrc32 (fld w 9 6), chkSrc32 (fld w 3 6)] (.vminnum (hdrOf w) (destOf w) (srcOf (fld w 9 6)) (srcOf (fld w 3 6)))

/-- Major 26 (R73): VFCEQ VFCNE VFCLT VFCLE VFCGT VFCGE VFCUNORD VFCORD. -/
def decodeMaj26 (w : Nat) : Decoded :=
  match fld w 0 3 with
  | 0 => judge [chkZero (fld w 20 1), chkPdest (fld w 15 5), chkSrc32 (fld w 9 6), chkSrc32 (fld w 3 6)] (.vfceq (hdrOf w) (fld w 15 5) (srcOf (fld w 9 6)) (srcOf (fld w 3 6)))
  | 1 => judge [chkZero (fld w 20 1), chkPdest (fld w 15 5), chkSrc32 (fld w 9 6), chkSrc32 (fld w 3 6)] (.vfcne (hdrOf w) (fld w 15 5) (srcOf (fld w 9 6)) (srcOf (fld w 3 6)))
  | 2 => judge [chkZero (fld w 20 1), chkPdest (fld w 15 5), chkSrc32 (fld w 9 6), chkSrc32 (fld w 3 6)] (.vfclt (hdrOf w) (fld w 15 5) (srcOf (fld w 9 6)) (srcOf (fld w 3 6)))
  | 3 => judge [chkZero (fld w 20 1), chkPdest (fld w 15 5), chkSrc32 (fld w 9 6), chkSrc32 (fld w 3 6)] (.vfcle (hdrOf w) (fld w 15 5) (srcOf (fld w 9 6)) (srcOf (fld w 3 6)))
  | 4 => judge [chkZero (fld w 20 1), chkPdest (fld w 15 5), chkSrc32 (fld w 9 6), chkSrc32 (fld w 3 6)] (.vfcgt (hdrOf w) (fld w 15 5) (srcOf (fld w 9 6)) (srcOf (fld w 3 6)))
  | 5 => judge [chkZero (fld w 20 1), chkPdest (fld w 15 5), chkSrc32 (fld w 9 6), chkSrc32 (fld w 3 6)] (.vfcge (hdrOf w) (fld w 15 5) (srcOf (fld w 9 6)) (srcOf (fld w 3 6)))
  | 6 => judge [chkZero (fld w 20 1), chkPdest (fld w 15 5), chkSrc32 (fld w 9 6), chkSrc32 (fld w 3 6)] (.vfcunord (hdrOf w) (fld w 15 5) (srcOf (fld w 9 6)) (srcOf (fld w 3 6)))
  | _ => judge [chkZero (fld w 20 1), chkPdest (fld w 15 5), chkSrc32 (fld w 9 6), chkSrc32 (fld w 3 6)] (.vfcord (hdrOf w) (fld w 15 5) (srcOf (fld w 9 6)) (srcOf (fld w 3 6)))

/-- Major 27 (R73): VIADD VISUB VIMUL VIMULH VIMIN VIMAX VIMINU VIMAXU. -/
def decodeMaj27 (w : Nat) : Decoded :=
  match fld w 0 3 with
  | 0 => judge [chkDest32 w, chkSrc32 (fld w 9 6), chkSrc32 (fld w 3 6)] (.viadd (hdrOf w) (destOf w) (srcOf (fld w 9 6)) (srcOf (fld w 3 6)))
  | 1 => judge [chkDest32 w, chkSrc32 (fld w 9 6), chkSrc32 (fld w 3 6)] (.visub (hdrOf w) (destOf w) (srcOf (fld w 9 6)) (srcOf (fld w 3 6)))
  | 2 => judge [chkDest32 w, chkSrc32 (fld w 9 6), chkSrc32 (fld w 3 6)] (.vimul (hdrOf w) (destOf w) (srcOf (fld w 9 6)) (srcOf (fld w 3 6)))
  | 3 => judge [chkDest32 w, chkSrc32 (fld w 9 6), chkSrc32 (fld w 3 6)] (.vimulh (hdrOf w) (destOf w) (srcOf (fld w 9 6)) (srcOf (fld w 3 6)))
  | 4 => judge [chkDest32 w, chkSrc32 (fld w 9 6), chkSrc32 (fld w 3 6)] (.vimin (hdrOf w) (destOf w) (srcOf (fld w 9 6)) (srcOf (fld w 3 6)))
  | 5 => judge [chkDest32 w, chkSrc32 (fld w 9 6), chkSrc32 (fld w 3 6)] (.vimax (hdrOf w) (destOf w) (srcOf (fld w 9 6)) (srcOf (fld w 3 6)))
  | 6 => judge [chkDest32 w, chkSrc32 (fld w 9 6), chkSrc32 (fld w 3 6)] (.viminu (hdrOf w) (destOf w) (srcOf (fld w 9 6)) (srcOf (fld w 3 6)))
  | _ => judge [chkDest32 w, chkSrc32 (fld w 9 6), chkSrc32 (fld w 3 6)] (.vimaxu (hdrOf w) (destOf w) (srcOf (fld w 9 6)) (srcOf (fld w 3 6)))

/-- Major 28 (R73): VIADDS VIADDSU VISUBS VISUBSU VIABS VINEG VIAVG VIAVGU. -/
def decodeMaj28 (w : Nat) : Decoded :=
  match fld w 0 3 with
  | 0 => judge [chkDest32 w, chkSrc32 (fld w 9 6), chkSrc32 (fld w 3 6)] (.viadds (hdrOf w) (destOf w) (srcOf (fld w 9 6)) (srcOf (fld w 3 6)))
  | 1 => judge [chkDest32 w, chkSrc32 (fld w 9 6), chkSrc32 (fld w 3 6)] (.viaddsu (hdrOf w) (destOf w) (srcOf (fld w 9 6)) (srcOf (fld w 3 6)))
  | 2 => judge [chkDest32 w, chkSrc32 (fld w 9 6), chkSrc32 (fld w 3 6)] (.visubs (hdrOf w) (destOf w) (srcOf (fld w 9 6)) (srcOf (fld w 3 6)))
  | 3 => judge [chkDest32 w, chkSrc32 (fld w 9 6), chkSrc32 (fld w 3 6)] (.visubsu (hdrOf w) (destOf w) (srcOf (fld w 9 6)) (srcOf (fld w 3 6)))
  | 4 => judge [chkZero (fld w 3 6), chkDest32 w, chkSrc32 (fld w 9 6)] (.viabs (hdrOf w) (destOf w) (srcOf (fld w 9 6)))
  | 5 => judge [chkZero (fld w 3 6), chkDest32 w, chkSrc32 (fld w 9 6)] (.vineg (hdrOf w) (destOf w) (srcOf (fld w 9 6)))
  | 6 => judge [chkDest32 w, chkSrc32 (fld w 9 6), chkSrc32 (fld w 3 6)] (.viavg (hdrOf w) (destOf w) (srcOf (fld w 9 6)) (srcOf (fld w 3 6)))
  | _ => judge [chkDest32 w, chkSrc32 (fld w 9 6), chkSrc32 (fld w 3 6)] (.viavgu (hdrOf w) (destOf w) (srcOf (fld w 9 6)) (srcOf (fld w 3 6)))

/-- Major 29 (R73): VAND VOR VXOR VANDN VSHL VSHR VSRA VNOT. -/
def decodeMaj29 (w : Nat) : Decoded :=
  match fld w 0 3 with
  | 0 => judge [chkDest32 w, chkSrc32 (fld w 9 6), chkSrc32 (fld w 3 6)] (.vand (hdrOf w) (destOf w) (srcOf (fld w 9 6)) (srcOf (fld w 3 6)))
  | 1 => judge [chkDest32 w, chkSrc32 (fld w 9 6), chkSrc32 (fld w 3 6)] (.vor (hdrOf w) (destOf w) (srcOf (fld w 9 6)) (srcOf (fld w 3 6)))
  | 2 => judge [chkDest32 w, chkSrc32 (fld w 9 6), chkSrc32 (fld w 3 6)] (.vxor (hdrOf w) (destOf w) (srcOf (fld w 9 6)) (srcOf (fld w 3 6)))
  | 3 => judge [chkDest32 w, chkSrc32 (fld w 9 6), chkSrc32 (fld w 3 6)] (.vandn (hdrOf w) (destOf w) (srcOf (fld w 9 6)) (srcOf (fld w 3 6)))
  | 4 => judge [chkDest32 w, chkSrc32 (fld w 9 6), chkSrc32 (fld w 3 6)] (.vshl (hdrOf w) (destOf w) (srcOf (fld w 9 6)) (srcOf (fld w 3 6)))
  | 5 => judge [chkDest32 w, chkSrc32 (fld w 9 6), chkSrc32 (fld w 3 6)] (.vshr (hdrOf w) (destOf w) (srcOf (fld w 9 6)) (srcOf (fld w 3 6)))
  | 6 => judge [chkDest32 w, chkSrc32 (fld w 9 6), chkSrc32 (fld w 3 6)] (.vsra (hdrOf w) (destOf w) (srcOf (fld w 9 6)) (srcOf (fld w 3 6)))
  | _ => judge [chkZero (fld w 3 6), chkDest32 w, chkSrc32 (fld w 9 6)] (.vnot (hdrOf w) (destOf w) (srcOf (fld w 9 6)))

/-- Major 30 (R73): VICEQ VICNE VICLT VICLTU VICLE VICLEU VICTST. -/
def decodeMaj30 (w : Nat) : Decoded :=
  match fld w 0 3 with
  | 0 => judge [chkZero (fld w 20 1), chkPdest (fld w 15 5), chkSrc32 (fld w 9 6), chkSrc32 (fld w 3 6)] (.viceq (hdrOf w) (fld w 15 5) (srcOf (fld w 9 6)) (srcOf (fld w 3 6)))
  | 1 => judge [chkZero (fld w 20 1), chkPdest (fld w 15 5), chkSrc32 (fld w 9 6), chkSrc32 (fld w 3 6)] (.vicne (hdrOf w) (fld w 15 5) (srcOf (fld w 9 6)) (srcOf (fld w 3 6)))
  | 2 => judge [chkZero (fld w 20 1), chkPdest (fld w 15 5), chkSrc32 (fld w 9 6), chkSrc32 (fld w 3 6)] (.viclt (hdrOf w) (fld w 15 5) (srcOf (fld w 9 6)) (srcOf (fld w 3 6)))
  | 3 => judge [chkZero (fld w 20 1), chkPdest (fld w 15 5), chkSrc32 (fld w 9 6), chkSrc32 (fld w 3 6)] (.vicltu (hdrOf w) (fld w 15 5) (srcOf (fld w 9 6)) (srcOf (fld w 3 6)))
  | 4 => judge [chkZero (fld w 20 1), chkPdest (fld w 15 5), chkSrc32 (fld w 9 6), chkSrc32 (fld w 3 6)] (.vicle (hdrOf w) (fld w 15 5) (srcOf (fld w 9 6)) (srcOf (fld w 3 6)))
  | 5 => judge [chkZero (fld w 20 1), chkPdest (fld w 15 5), chkSrc32 (fld w 9 6), chkSrc32 (fld w 3 6)] (.vicleu (hdrOf w) (fld w 15 5) (srcOf (fld w 9 6)) (srcOf (fld w 3 6)))
  | 6 => judge [chkZero (fld w 20 1), chkPdest (fld w 15 5), chkSrc32 (fld w 9 6), chkSrc32 (fld w 3 6)] (.victst (hdrOf w) (fld w 15 5) (srcOf (fld w 9 6)) (srcOf (fld w 3 6)))
  | _ => .illegal .badCode

/-- Major 31 (R73): VCVT. -/
def decodeMaj31 (w : Nat) : Decoded :=
  judge [chkDest32 w, chkSrc32 (fld w 9 6), chkFmt (fld w 4 5), chkRnd (fld w 1 3)] (.vcvt (hdrOf w) (destOf w) (srcOf (fld w 9 6)) (fmtOf (fld w 4 5)) (rndOf (fld w 1 3)) (fld w 0 1 == 1))

/-- Major 32 (R73): VPERM VZIP VUNZIP VREV VROT VSEL VCMPRS VEXPND. -/
def decodeMaj32 (w : Nat) : Decoded :=
  match fld w 0 3 with
  | 0 => judge [chkDest32 w, chkSrc32 (fld w 9 6), chkSrc32 (fld w 3 6)] (.vperm (hdrOf w) (destOf w) (srcOf (fld w 9 6)) (srcOf (fld w 3 6)))
  | 1 => judge [chkDest32 w, chkSrc32 (fld w 9 6), chkSrc32 (fld w 3 6)] (.vzip (hdrOf w) (destOf w) (srcOf (fld w 9 6)) (srcOf (fld w 3 6)))
  | 2 => judge [chkDest32 w, chkSrc32 (fld w 9 6), chkSrc32 (fld w 3 6)] (.vunzip (hdrOf w) (destOf w) (srcOf (fld w 9 6)) (srcOf (fld w 3 6)))
  | 3 => judge [chkZero (fld w 3 6), chkDest32 w, chkSrc32 (fld w 9 6)] (.vrev (hdrOf w) (destOf w) (srcOf (fld w 9 6)))
  | 4 => judge [chkDest32 w, chkSrc32 (fld w 9 6), chkSrc32 (fld w 3 6)] (.vrot (hdrOf w) (destOf w) (srcOf (fld w 9 6)) (srcOf (fld w 3 6)))
  | 5 => judge [chkDest32 w, chkSrc32 (fld w 9 6), chkSrc32 (fld w 3 6)] (.vsel (hdrOf w) (destOf w) (srcOf (fld w 9 6)) (srcOf (fld w 3 6)))
  | 6 => judge [chkDest32 w, chkSrc32 (fld w 9 6), chkPsrc (fld w 3 6)] (.vcmprs (hdrOf w) (destOf w) (srcOf (fld w 9 6)) (fld w 3 6))
  | _ => judge [chkDest32 w, chkSrc32 (fld w 9 6), chkPsrc (fld w 3 6)] (.vexpnd (hdrOf w) (destOf w) (srcOf (fld w 9 6)) (fld w 3 6))

/-- Major 33 (R73): VRSUM VRMAX VRMIN VRISUM VSCAN VRAND VROR VRXOR. -/
def decodeMaj33 (w : Nat) : Decoded :=
  match fld w 0 3 with
  | 0 => judge [chkDest32 w, chkSrc32 (fld w 9 6), chkPsrc (fld w 3 6)] (.vrsum (hdrOf w) (destOf w) (srcOf (fld w 9 6)) (fld w 3 6))
  | 1 => judge [chkDest32 w, chkSrc32 (fld w 9 6), chkPsrc (fld w 3 6)] (.vrmax (hdrOf w) (destOf w) (srcOf (fld w 9 6)) (fld w 3 6))
  | 2 => judge [chkDest32 w, chkSrc32 (fld w 9 6), chkPsrc (fld w 3 6)] (.vrmin (hdrOf w) (destOf w) (srcOf (fld w 9 6)) (fld w 3 6))
  | 3 => judge [chkDest32 w, chkSrc32 (fld w 9 6), chkPsrc (fld w 3 6)] (.vrisum (hdrOf w) (destOf w) (srcOf (fld w 9 6)) (fld w 3 6))
  | 4 => judge [chkDest32 w, chkSrc32 (fld w 9 6), chkPsrc (fld w 3 6)] (.vscan (hdrOf w) (destOf w) (srcOf (fld w 9 6)) (fld w 3 6))
  | 5 => judge [chkDest32 w, chkSrc32 (fld w 9 6), chkPsrc (fld w 3 6)] (.vrand (hdrOf w) (destOf w) (srcOf (fld w 9 6)) (fld w 3 6))
  | 6 => judge [chkDest32 w, chkSrc32 (fld w 9 6), chkPsrc (fld w 3 6)] (.vror (hdrOf w) (destOf w) (srcOf (fld w 9 6)) (fld w 3 6))
  | _ => judge [chkDest32 w, chkSrc32 (fld w 9 6), chkPsrc (fld w 3 6)] (.vrxor (hdrOf w) (destOf w) (srcOf (fld w 9 6)) (fld w 3 6))

/-- Major 34 (R73): VSPLI. -/
def decodeMaj34 (w : Nat) : Decoded :=
  judge [] (.vspli (hdrOf w) (fld w 16 5) (fld w 0 16))

/-- Major 35 (R73): VIOTA VSPLAT VMOVP VPOPC VRNG VFMTS. -/
def decodeMaj35 (w : Nat) : Decoded :=
  match fld w 0 3 with
  | 0 => judge [chkZero (fld w 9 6), chkZero (fld w 3 6), chkDest32 w] (.viota (hdrOf w) (destOf w))
  | 1 => judge [chkDest32 w, chkSrc32 (fld w 9 6), chkSrc32 (fld w 3 6)] (.vsplat (hdrOf w) (destOf w) (srcOf (fld w 9 6)) (srcOf (fld w 3 6)))
  | 2 => judge [chkZero (fld w 3 6), chkDest32 w, chkPsrc (fld w 9 6)] (.vmovp (hdrOf w) (destOf w) (fld w 9 6))
  | 3 => judge [chkZero (fld w 3 6), chkDest32 w, chkPsrc (fld w 9 6)] (.vpopc (hdrOf w) (destOf w) (fld w 9 6))
  | 4 => judge [chkZero (fld w 3 6), chkDest32 w, chkSrc32 (fld w 9 6)] (.vrng (hdrOf w) (destOf w) (srcOf (fld w 9 6)))
  | 5 => judge [chkZero (fld w 20 1), chkZero (fld w 15 5), chkZero (fld w 3 6), chkSrc32 (fld w 9 6)] (.vfmts (hdrOf w) (srcOf (fld w 9 6)))
  | _ => .illegal .badCode

/-- Major 36 (R73): VFMT. -/
def decodeMaj36 (w : Nat) : Decoded :=
  judge [chkZero (fld w 16 5), chkZero (fld w 6 10), chkFmt (fld w 0 5)] (.vfmt (hdrOf w) (fld w 5 1 == 1) (fmtOf (fld w 0 5)))

/-- Major 37 (R73): VNOP. -/
def decodeMaj37 (w : Nat) : Decoded :=
  judge [chkZero (fld w 0 25)] (.vnop (fld w 31 1 == 1))

/-- Major 38 (R73): VDOT4S VDOT4U VDOT2BF VDOT2H. -/
def decodeMaj38 (w : Nat) : Decoded :=
  match fld w 0 3 with
  | 0 => judge [chkZero (fld w 20 1), chkSrc32 (fld w 9 6), chkSrc32 (fld w 3 6)] (.vdot4s (hdrOf w) (fld w 15 5) (srcOf (fld w 9 6)) (srcOf (fld w 3 6)))
  | 1 => judge [chkZero (fld w 20 1), chkSrc32 (fld w 9 6), chkSrc32 (fld w 3 6)] (.vdot4u (hdrOf w) (fld w 15 5) (srcOf (fld w 9 6)) (srcOf (fld w 3 6)))
  | 2 => judge [chkZero (fld w 20 1), chkSrc32 (fld w 9 6), chkSrc32 (fld w 3 6)] (.vdot2bf (hdrOf w) (fld w 15 5) (srcOf (fld w 9 6)) (srcOf (fld w 3 6)))
  | 3 => judge [chkZero (fld w 20 1), chkSrc32 (fld w 9 6), chkSrc32 (fld w 3 6)] (.vdot2h (hdrOf w) (fld w 15 5) (srcOf (fld w 9 6)) (srcOf (fld w 3 6)))
  | _ => .illegal .badCode

/-- Major 39 (R73): CLD. -/
def decodeMaj39 (w : Nat) : Decoded :=
  judge [chkSrc16 (fld w 9 6)] (.cld (hdrOf w) (vfileOf (fld w 20 1)) (fld w 15 5) (srcOf (fld w 9 6)) (sfld w 0 9))

/-- Major 40 (R73): CST. -/
def decodeMaj40 (w : Nat) : Decoded :=
  judge [chkSrc16 (fld w 9 6)] (.cst (hdrOf w) (vfileOf (fld w 20 1)) (fld w 15 5) (srcOf (fld w 9 6)) (sfld w 0 9))

/-- Major 41 (R73): CGATH. -/
def decodeMaj41 (w : Nat) : Decoded :=
  judge [chkZero (fld w 5 3), chkSrc16 (fld w 9 6)] (.cgath (hdrOf w) (vfileOf (fld w 20 1)) (fld w 15 5) (srcOf (fld w 9 6)) (fld w 8 1 == 1) (fld w 0 5))

/-- Major 42 (R73): CSCAT. -/
def decodeMaj42 (w : Nat) : Decoded :=
  judge [chkZero (fld w 5 3), chkSrc16 (fld w 9 6)] (.cscat (hdrOf w) (vfileOf (fld w 20 1)) (fld w 15 5) (srcOf (fld w 9 6)) (fld w 8 1 == 1) (fld w 0 5))

/-- Major 43 (R73): XCPSX XCPXS XCPMX XCPXM XCPVAX XCPVBX XCPXVA XCPXVB. -/
def decodeMaj43 (w : Nat) : Decoded :=
  match fld w 0 3 with
  | 0 => judge [chkZero (fld w 3 6), chkDest16 w, chkSrc32 (fld w 9 6)] (.xcpsx (hdrOf w) (destOf w) (srcOf (fld w 9 6)))
  | 1 => judge [chkZero (fld w 3 6), chkDest32 w, chkSrc16 (fld w 9 6)] (.xcpxs (hdrOf w) (destOf w) (srcOf (fld w 9 6)))
  | 2 => judge [chkZero (fld w 3 6), chkDest16 w, chkMreg6 (fld w 9 6)] (.xcpmx (hdrOf w) (destOf w) (fld w 9 6))
  | 3 => judge [chkZero (fld w 3 6), chkDest16 w, chkSrc16 (fld w 9 6)] (.xcpxm (hdrOf w) (destOf w) (srcOf (fld w 9 6)))
  | 4 => judge [chkZero (fld w 8 1), chkDest16 w, chkVreg6 (fld w 9 6)] (.xcpvax (hdrOf w) (destOf w) (fld w 9 6) (fld w 3 5))
  | 5 => judge [chkZero (fld w 8 1), chkDest16 w, chkVreg6 (fld w 9 6)] (.xcpvbx (hdrOf w) (destOf w) (fld w 9 6) (fld w 3 5))
  | 6 => judge [chkZero (fld w 8 1), chkDest32 w, chkSrc16 (fld w 9 6)] (.xcpxva (hdrOf w) (destOf w) (srcOf (fld w 9 6)) (fld w 3 5))
  | _ => judge [chkZero (fld w 8 1), chkDest32 w, chkSrc16 (fld w 9 6)] (.xcpxvb (hdrOf w) (destOf w) (srcOf (fld w 9 6)) (fld w 3 5))

/-- Major 44 (R73): FLD. -/
def decodeMaj44 (w : Nat) : Decoded :=
  judge [chkZero (fld w 20 1), chkReg16 (fld w 15 5), chkSrc16 (fld w 9 6), chkNonzero (fld w 0 9)] (.fld (hdrOf w) (fld w 15 5) (srcOf (fld w 9 6)) (fld w 0 9))

/-- Major 45 (R73): FLDV. -/
def decodeMaj45 (w : Nat) : Decoded :=
  judge [chkSrc16 (fld w 9 6), chkNonzero (fld w 0 9)] (.fldv (hdrOf w) (vfileOf (fld w 20 1)) (fld w 15 5) (srcOf (fld w 9 6)) (fld w 0 9))

/-- Major 46 (R73): FST. -/
def decodeMaj46 (w : Nat) : Decoded :=
  judge [chkZero (fld w 20 1), chkZero (fld w 0 9), chkReg16 (fld w 15 5), chkSrc16 (fld w 9 6)] (.fst (hdrOf w) (fld w 15 5) (srcOf (fld w 9 6)))

/-- Major 47 (R73): FSTV. -/
def decodeMaj47 (w : Nat) : Decoded :=
  judge [chkZero (fld w 0 9), chkSrc16 (fld w 9 6)] (.fstv (hdrOf w) (vfileOf (fld w 20 1)) (fld w 15 5) (srcOf (fld w 9 6)))

/-- Major 48 (R73): SEND. -/
def decodeMaj48 (w : Nat) : Decoded :=
  judge [chkZero (fld w 0 11)] (.send (hdrOf w) (vfileOf (fld w 20 1)) (fld w 15 5) (fld w 11 4))

/-- Major 49 (R73): RECV. -/
def decodeMaj49 (w : Nat) : Decoded :=
  judge [chkNonzero (fld w 0 11)] (.recv (hdrOf w) (vfileOf (fld w 20 1)) (fld w 15 5) (fld w 11 4) (fld w 0 11))

/-- Major 50 (R73): PUSH. -/
def decodeMaj50 (w : Nat) : Decoded :=
  judge [chkZero (fld w 20 1), chkZero (fld w 0 7), chkOct3 (fld w 11 3), chkFlag (fld w 7 4)] (.push (hdrOf w) (fld w 15 5) (fld w 14 1 == 1) (fld w 7 4))

/-- Major 51 (R73): POP POP_STALL. -/
def decodeMaj51 (w : Nat) : Decoded :=
  match fld w 20 1 with
  | 0 => judge [chkZero (fld w 0 7), chkFlag (fld w 7 4)] (.pop (hdrOf w) (fld w 15 5) (fld w 11 4) (fld w 7 4))
  | _ => judge [chkZero (fld w 7 4), chkNonzero (fld w 0 7)] (.popStall (hdrOf w) (fld w 15 5) (fld w 11 4) (fld w 0 7))

/-- Major 52 (R73): RCAP RPUT RADD RCAS RMAXU ROR BOARD ALIGHT ALIGHT_FREE. -/
def decodeMaj52 (w : Nat) : Decoded :=
  match fld w 0 3 with
  | 0 => judge [chkZero (fld w 20 1), chkZero (fld w 3 6), chkOctD (fld w 15 5), chkSrc16 (fld w 9 6)] (.rcap (hdrOf w) (fld w 15 5 == 8) (srcOf (fld w 9 6)))
  | 1 => judge [chkZero (fld w 20 1), chkZero (fld w 15 5), chkSrc16 (fld w 9 6), chkOctB (fld w 3 6)] (.rput (hdrOf w) (srcOf (fld w 9 6)) (fld w 3 6 == 8))
  | 2 => judge [chkDest16 w, chkSrc16 (fld w 9 6), chkSrc16 (fld w 3 6)] (.radd (hdrOf w) (destOf w) (srcOf (fld w 9 6)) (srcOf (fld w 3 6)))
  | 3 => judge [chkDest16 w, chkSrc16 (fld w 9 6), chkPair (fld w 3 6)] (.rcas (hdrOf w) (destOf w) (srcOf (fld w 9 6)) (fld w 3 6))
  | 4 => judge [chkDest16 w, chkSrc16 (fld w 9 6), chkSrc16 (fld w 3 6)] (.rmaxu (hdrOf w) (destOf w) (srcOf (fld w 9 6)) (srcOf (fld w 3 6)))
  | 5 => judge [chkDest16 w, chkSrc16 (fld w 9 6), chkSrc16 (fld w 3 6)] (.ror (hdrOf w) (destOf w) (srcOf (fld w 9 6)) (srcOf (fld w 3 6)))
  | 6 => judge [chkZero (fld w 20 1), chkZero (fld w 15 5), chkZero (fld w 9 6), chkZero (fld w 3 6)] (.board (hdrOf w))
  | _ =>
    match fld w 15 5 with
    | 0 => judge [chkZero (fld w 20 1), chkZero (fld w 9 6), chkZero (fld w 3 6)] (.alight (hdrOf w))
    | 1 => judge [chkZero (fld w 20 1), chkZero (fld w 9 6), chkZero (fld w 3 6)] (.alightFree (hdrOf w))
    | _ => .illegal .badCode

/-- Major 53 (R73): AADD AINCW AFAAB ACAS AXCHG AMINS AMAXU AORB. -/
def decodeMaj53 (w : Nat) : Decoded :=
  match fld w 0 3 with
  | 0 => judge [chkDest16 w, chkSrc16 (fld w 9 6), chkSrc16 (fld w 3 6)] (.aadd (hdrOf w) (destOf w) (srcOf (fld w 9 6)) (srcOf (fld w 3 6)))
  | 1 => judge [chkDest16 w, chkSrc16 (fld w 9 6), chkSrc16 (fld w 3 6)] (.aincw (hdrOf w) (destOf w) (srcOf (fld w 9 6)) (srcOf (fld w 3 6)))
  | 2 => judge [chkZero (fld w 20 1), chkPdest (fld w 15 5), chkSrc16 (fld w 9 6), chkPair (fld w 3 6)] (.afaab (hdrOf w) (fld w 15 5) (srcOf (fld w 9 6)) (fld w 3 6))
  | 3 => judge [chkDest16 w, chkSrc16 (fld w 9 6), chkPair (fld w 3 6)] (.acas (hdrOf w) (destOf w) (srcOf (fld w 9 6)) (fld w 3 6))
  | 4 => judge [chkDest16 w, chkSrc16 (fld w 9 6), chkSrc16 (fld w 3 6)] (.axchg (hdrOf w) (destOf w) (srcOf (fld w 9 6)) (srcOf (fld w 3 6)))
  | 5 => judge [chkDest16 w, chkSrc16 (fld w 9 6), chkSrc16 (fld w 3 6)] (.amins (hdrOf w) (destOf w) (srcOf (fld w 9 6)) (srcOf (fld w 3 6)))
  | 6 => judge [chkDest16 w, chkSrc16 (fld w 9 6), chkSrc16 (fld w 3 6)] (.amaxu (hdrOf w) (destOf w) (srcOf (fld w 9 6)) (srcOf (fld w 3 6)))
  | _ => judge [chkDest16 w, chkSrc16 (fld w 9 6), chkSrc16 (fld w 3 6)] (.aorb (hdrOf w) (destOf w) (srcOf (fld w 9 6)) (srcOf (fld w 3 6)))

/-- Major 54 (R73): ACQ REL BAR FENCE TRIG STEP CRGO CRGC. -/
def decodeMaj54 (w : Nat) : Decoded :=
  match fld w 0 3 with
  | 0 => judge [chkZero (fld w 20 1), chkSrc16 (fld w 9 6)] (.acq (hdrOf w) (fld w 15 5) (srcOf (fld w 9 6)) (fld w 3 6))
  | 1 => judge [chkZero (fld w 20 1), chkZero (fld w 15 5), chkZero (fld w 9 6)] (.rel (hdrOf w) (fld w 3 6))
  | 2 => judge [chkZero (fld w 20 1), chkSrc16 (fld w 9 6), chkSrc16 (fld w 3 6)] (.bar (hdrOf w) (fld w 15 5) (srcOf (fld w 9 6)) (srcOf (fld w 3 6)))
  | 3 => judge [chkZero (fld w 20 1), chkZero (fld w 9 6), chkZero (fld w 6 3), chkScope (fld w 3 3)] (.fence (hdrOf w) (fld w 15 5) (scopeOf (fld w 3 3)))
  | 4 => judge [chkZero (fld w 20 1), chkZero (fld w 15 5), chkZero (fld w 9 6), chkZero (fld w 3 6)] (.trig (hdrOf w))
  | 5 => judge [chkZero (fld w 20 1), chkZero (fld w 9 6), chkZero (fld w 3 6)] (.step (hdrOf w) (fld w 15 5))
  | 6 => judge [chkZero (fld w 20 1), chkZero (fld w 15 5), chkZero (fld w 3 6), chkSrc16 (fld w 9 6)] (.crgo (hdrOf w) (srcOf (fld w 9 6)))
  | _ => judge [chkZero (fld w 20 1), chkZero (fld w 15 5), chkZero (fld w 9 6), chkZero (fld w 3 6)] (.crgc (hdrOf w))

/-- Major 55 (R73): CNOP LTIME SEEDR GANG. -/
def decodeMaj55 (w : Nat) : Decoded :=
  match fld w 0 3 with
  | 0 => judge [chkZero (fld w 3 22)] (.cnop (fld w 31 1 == 1))
  | 1 => judge [chkZero (fld w 9 6), chkZero (fld w 3 6), chkDest16 w] (.ltime (hdrOf w) (destOf w))
  | 2 => judge [chkZero (fld w 9 6), chkZero (fld w 5 4), chkDest16 w] (.seedr (hdrOf w) (destOf w) (fld w 3 2))
  | 3 => judge [chkZero (fld w 20 1), chkZero (fld w 15 5), chkSrc16 (fld w 9 6), chkSrc16 (fld w 3 6)] (.gang (hdrOf w) (srcOf (fld w 9 6)) (srcOf (fld w 3 6)))
  | _ => .illegal .badCode

/-- Major 56 (R73): MCFG. -/
def decodeMaj56 (w : Nat) : Decoded :=
  judge [chkMsrc (fld w 16 5), chkMsrc (fld w 11 5), chkMfield (fld w 0 11)] (.mcfg (hdrOf w) (msrcOf (fld w 16 5)) (msrcOf (fld w 11 5)) (mfieldOf (fld w 0 11)))

/-- Major 57 (R73): MGO MGOG MDRN MCLR MSTAT MLDW MMIRR MSTOP. -/
def decodeMaj57 (w : Nat) : Decoded :=
  match fld w 8 3 with
  | 0 => judge [chkZero (fld w 16 5), chkZero (fld w 11 5), chkZero (fld w 0 8)] (.mgo (hdrOf w))
  | 1 => judge [chkZero (fld w 16 5), chkZero (fld w 11 5), chkZero (fld w 0 8)] (.mgog (hdrOf w))
  | 2 => judge [chkZero (fld w 16 5), chkZero (fld w 11 5), chkZero (fld w 2 6)] (.mdrn (hdrOf w) (fld w 0 2))
  | 3 => judge [chkZero (fld w 16 5), chkZero (fld w 11 5), chkZero (fld w 4 4), chkMask (fld w 0 4)] (.mclr (hdrOf w) (fld w 0 4))
  | 4 => judge [chkZero (fld w 11 5), chkReg16 (fld w 16 5), chkMitem (fld w 0 8)] (.mstat (hdrOf w) (fld w 16 5) (fld w 0 8))
  | 5 => judge [chkZero (fld w 11 5), chkZero (fld w 5 3), chkMsrc (fld w 16 5)] (.mldw (hdrOf w) (msrcOf (fld w 16 5)) (fld w 2 3) (fld w 0 2))
  | 6 => judge [chkZero (fld w 16 5), chkZero (fld w 11 5), chkZero (fld w 1 7)] (.mmirr (hdrOf w) (fld w 0 1 == 1))
  | _ => judge [chkZero (fld w 16 5), chkZero (fld w 11 5), chkZero (fld w 0 8)] (.mstop (hdrOf w))

/-- Major 58 (R73): MFMT. -/
def decodeMaj58 (w : Nat) : Decoded :=
  judge [chkZero (fld w 16 5), chkZero (fld w 11 5), chkFmt (fld w 5 5), chkFmt (fld w 0 5)] (.mfmt (hdrOf w) (fld w 10 1 == 1) (fmtOf (fld w 5 5)) (fmtOf (fld w 0 5)))

/-- Major 59 (R73): SPUP SPDN SPLD SPST SPSCL SPMODE SPCLR SPSTAT. -/
def decodeMaj59 (w : Nat) : Decoded :=
  match fld w 8 3 with
  | 0 => judge [chkZero (fld w 11 5), chkZero (fld w 0 8), chkMsrc (fld w 16 5)] (.spup (hdrOf w) (msrcOf (fld w 16 5)))
  | 1 => judge [chkZero (fld w 11 5), chkZero (fld w 0 8), chkMsrc (fld w 16 5)] (.spdn (hdrOf w) (msrcOf (fld w 16 5)))
  | 2 => judge [chkZero (fld w 0 8), chkMsrc (fld w 16 5), chkMsrc (fld w 11 5)] (.spld (hdrOf w) (msrcOf (fld w 16 5)) (msrcOf (fld w 11 5)))
  | 3 => judge [chkZero (fld w 0 8), chkMsrc (fld w 16 5), chkMsrc (fld w 11 5)] (.spst (hdrOf w) (msrcOf (fld w 16 5)) (msrcOf (fld w 11 5)))
  | 4 => judge [chkZero (fld w 11 5), chkMsrc (fld w 16 5)] (.spscl (hdrOf w) (msrcOf (fld w 16 5)) (sfld w 0 8))
  | 5 => judge [chkZero (fld w 16 5), chkZero (fld w 11 5), chkZero (fld w 7 1), chkCfmt (fld w 0 2)] (.spmode (hdrOf w) (fld w 2 5) (cfmtOf (fld w 0 2)))
  | 6 => judge [chkZero (fld w 11 5), chkZero (fld w 0 8), chkMsrc (fld w 16 5)] (.spclr (hdrOf w) (msrcOf (fld w 16 5)))
  | _ => judge [chkZero (fld w 11 5), chkReg16 (fld w 16 5), chkSpitem (fld w 0 8)] (.spstat (hdrOf w) (fld w 16 5) (fld w 0 8))

/-- Major 60 (R73): MLI. -/
def decodeMaj60 (w : Nat) : Decoded :=
  judge [chkReg16 (fld w 16 5)] (.mli (hdrOf w) (fld w 16 5) (fld w 0 16))

/-- Major 61 (R73): MNOP. -/
def decodeMaj61 (w : Nat) : Decoded :=
  judge [chkZero (fld w 0 25)] (.mnop (fld w 31 1 == 1))

/-- Every 32-bit word is an instruction of R73 with legal fields or is rejected with its lowest reason (R75). -/
def decodeWord (w : Nat) : Decoded :=
  match fld w 25 6 with
  | 0 => decodeMaj0 w
  | 1 => decodeMaj1 w
  | 2 => decodeMaj2 w
  | 3 => decodeMaj3 w
  | 4 => decodeMaj4 w
  | 5 => decodeMaj5 w
  | 6 => decodeMaj6 w
  | 7 => decodeMaj7 w
  | 8 => decodeMaj8 w
  | 9 => decodeMaj9 w
  | 10 => decodeMaj10 w
  | 11 => decodeMaj11 w
  | 12 => decodeMaj12 w
  | 13 => decodeMaj13 w
  | 14 => decodeMaj14 w
  | 15 => decodeMaj15 w
  | 16 => decodeMaj16 w
  | 17 => decodeMaj17 w
  | 18 => decodeMaj18 w
  | 19 => decodeMaj19 w
  | 20 => decodeMaj20 w
  | 21 => decodeMaj21 w
  | 22 => decodeMaj22 w
  | 23 => decodeMaj23 w
  | 24 => decodeMaj24 w
  | 25 => decodeMaj25 w
  | 26 => decodeMaj26 w
  | 27 => decodeMaj27 w
  | 28 => decodeMaj28 w
  | 29 => decodeMaj29 w
  | 30 => decodeMaj30 w
  | 31 => decodeMaj31 w
  | 32 => decodeMaj32 w
  | 33 => decodeMaj33 w
  | 34 => decodeMaj34 w
  | 35 => decodeMaj35 w
  | 36 => decodeMaj36 w
  | 37 => decodeMaj37 w
  | 38 => decodeMaj38 w
  | 39 => decodeMaj39 w
  | 40 => decodeMaj40 w
  | 41 => decodeMaj41 w
  | 42 => decodeMaj42 w
  | 43 => decodeMaj43 w
  | 44 => decodeMaj44 w
  | 45 => decodeMaj45 w
  | 46 => decodeMaj46 w
  | 47 => decodeMaj47 w
  | 48 => decodeMaj48 w
  | 49 => decodeMaj49 w
  | 50 => decodeMaj50 w
  | 51 => decodeMaj51 w
  | 52 => decodeMaj52 w
  | 53 => decodeMaj53 w
  | 54 => decodeMaj54 w
  | 55 => decodeMaj55 w
  | 56 => decodeMaj56 w
  | 57 => decodeMaj57 w
  | 58 => decodeMaj58 w
  | 59 => decodeMaj59 w
  | 60 => decodeMaj60 w
  | 61 => decodeMaj61 w
  | _ => .illegal .badMajor

/-- The little-endian value of bytes (R6). -/
def natOfBytes : List Byte → Nat
  | [] => 0
  | b :: bs => b.toNat + 256 * natOfBytes bs

/-- The n low bytes of a value, lowest first (R6). -/
def bytesOfNat : Nat → Nat → List Byte
  | 0, _ => []
  | n + 1, x => BitVec.ofNat 8 x :: bytesOfNat n (x / 256)

/-- Decode the syllable at the head of a byte sequence (R61): none when fewer than four bytes are left. -/
def decodeBytes (bs : List Byte) : Option (Decoded × List Byte) :=
  match bs with
  | b0 :: b1 :: b2 :: b3 :: rest => some (decodeWord (natOfBytes [b0, b1, b2, b3]), rest)
  | _ => none

/-- The instruction the decoder reads from the word w of the opcode table: a table row has one 32-bit word
(R61), laid out as memory holds it; the bits above nbits are zero. -/
def decodeTableWord (nbits w : Nat) : Option Instr :=
  match decodeBytes (bytesOfNat 4 (w % 2 ^ nbits)) with
  | some (.ok i, _) => some i
  | _ => none


/-- The word of a syllable (R61, R64), from the encoding tables; an event has none. -/
def encode : Instr → Option Nat
  | .snop e => some (e.toNat * 2147483648 + 0)
  | .add h d a b => some (h.field + 33554432 + d.field + a.code * 512 + b.code * 8)
  | .sub h d a b => some (h.field + 33554433 + d.field + a.code * 512 + b.code * 8)
  | .and h d a b => some (h.field + 33554434 + d.field + a.code * 512 + b.code * 8)
  | .or h d a b => some (h.field + 33554435 + d.field + a.code * 512 + b.code * 8)
  | .xor h d a b => some (h.field + 33554436 + d.field + a.code * 512 + b.code * 8)
  | .shl h d a b => some (h.field + 33554437 + d.field + a.code * 512 + b.code * 8)
  | .shr h d a b => some (h.field + 33554438 + d.field + a.code * 512 + b.code * 8)
  | .sra h d a b => some (h.field + 33554439 + d.field + a.code * 512 + b.code * 8)
  | .mul h d a b => some (h.field + 67108864 + d.field + a.code * 512 + b.code * 8)
  | .mulh h d a b => some (h.field + 67108865 + d.field + a.code * 512 + b.code * 8)
  | .mulhu h d a b => some (h.field + 67108866 + d.field + a.code * 512 + b.code * 8)
  | .div h d a b => some (h.field + 67108867 + d.field + a.code * 512 + b.code * 8)
  | .divu h d a b => some (h.field + 67108868 + d.field + a.code * 512 + b.code * 8)
  | .rem h d a b => some (h.field + 67108869 + d.field + a.code * 512 + b.code * 8)
  | .remu h d a b => some (h.field + 67108870 + d.field + a.code * 512 + b.code * 8)
  | .clz h d a => some (h.field + 67108871 + d.field + a.code * 512)
  | .min h d a b => some (h.field + 100663296 + d.field + a.code * 512 + b.code * 8)
  | .max h d a b => some (h.field + 100663297 + d.field + a.code * 512 + b.code * 8)
  | .minu h d a b => some (h.field + 100663298 + d.field + a.code * 512 + b.code * 8)
  | .maxu h d a b => some (h.field + 100663299 + d.field + a.code * 512 + b.code * 8)
  | .rotl h d a b => some (h.field + 100663300 + d.field + a.code * 512 + b.code * 8)
  | .popc h d a => some (h.field + 100663301 + d.field + a.code * 512)
  | .ctz h d a => some (h.field + 100663302 + d.field + a.code * 512)
  | .bswap h d a => some (h.field + 100663303 + d.field + a.code * 512)
  | .addi h d a imm => some (h.field + 134217728 + d.field + a.code * 512 + enc2 9 imm)
  | .andi h d a imm => some (h.field + 167772160 + d.field + a.code * 512 + enc2 9 imm)
  | .ori h d a imm => some (h.field + 201326592 + d.field + a.code * 512 + enc2 9 imm)
  | .xori h d a imm => some (h.field + 234881024 + d.field + a.code * 512 + enc2 9 imm)
  | .shli h d a n => some (h.field + 268435456 + d.field + a.code * 512 + n)
  | .shri h d a n => some (h.field + 268435584 + d.field + a.code * 512 + n)
  | .srai h d a n => some (h.field + 268435712 + d.field + a.code * 512 + n)
  | .rotli h d a n => some (h.field + 268435840 + d.field + a.code * 512 + n)
  | .lis h d imm => some (h.field + 301989888 + d * 65536 + imm)
  | .ins1 h d imm => some (h.field + 335544320 + d * 65536 + imm)
  | .ins2 h d imm => some (h.field + 369098752 + d * 65536 + imm)
  | .ins3 h d imm => some (h.field + 402653184 + d * 65536 + imm)
  | .cmpeq h d a b => some (h.field + 436207616 + d * 32768 + a.code * 512 + b.code * 8)
  | .cmpne h d a b => some (h.field + 436207617 + d * 32768 + a.code * 512 + b.code * 8)
  | .cmplt h d a b => some (h.field + 436207618 + d * 32768 + a.code * 512 + b.code * 8)
  | .cmpltu h d a b => some (h.field + 436207619 + d * 32768 + a.code * 512 + b.code * 8)
  | .cmple h d a b => some (h.field + 436207620 + d * 32768 + a.code * 512 + b.code * 8)
  | .cmpleu h d a b => some (h.field + 436207621 + d * 32768 + a.code * 512 + b.code * 8)
  | .cmptst h d a b => some (h.field + 436207622 + d * 32768 + a.code * 512 + b.code * 8)
  | .pand h d a b => some (h.field + 469762048 + d * 32768 + a * 512 + b * 8)
  | .por h d a b => some (h.field + 469762049 + d * 32768 + a * 512 + b * 8)
  | .pxor h d a b => some (h.field + 469762050 + d * 32768 + a * 512 + b * 8)
  | .pandn h d a b => some (h.field + 469762051 + d * 32768 + a * 512 + b * 8)
  | .pnot h d a => some (h.field + 469762052 + d * 32768 + a * 512)
  | .pmov h d a => some (h.field + 469762053 + d * 32768 + a * 512)
  | .pset h d => some (h.field + 469762054 + d * 32768)
  | .pclr h d => some (h.field + 469762055 + d * 32768)
  | .csrr h d c => some (h.field + 503316480 + d * 65536 + c.number)
  | .csrw h d c => some (h.field + 503320576 + d * 65536 + c.number)
  | .csrs h d c => some (h.field + 503324672 + d * 65536 + c.number)
  | .csrc h d c => some (h.field + 503328768 + d * 65536 + c.number)
  | .sel h d a b => some (h.field + 536870912 + d.field + a.code * 512 + b.code * 8)
  | .movp h d a => some (h.field + 536870913 + d.field + a * 512)
  | .movtp h d a => some (h.field + 536870914 + d * 32768 + a.code * 512)
  | .br h o => some (h.field + 570425344 + enc2 21 o)
  | .call h o => some (h.field + 603979776 + enc2 21 o)
  | .jmpr h a => some (h.field + 637534208 + a.code * 512)
  | .callr h a => some (h.field + 637534209 + a.code * 512)
  | .loopr h l a b => some (h.field + 637534210 + l * 32768 + a.code * 512 + b.code * 8)
  | .trap h a => some (h.field + 637534211 + a.code * 512)
  | .tret h => some (h.field + 637566979)
  | .tfence h => some (h.field + 637534212)
  | .exit h => some (h.field + 637534213)
  | .waitt h a => some (h.field + 637534214 + a.code * 512)
  | .loop h l a len => some (h.field + 671088640 + l * 32768 + a.code * 512 + len)
  | .sld h d a size sx o => some (h.field + 704643072 + d.field + a.code * 512 + size.code * 128 + sx.toNat * 64 + enc2 6 o)
  | .sst h d a size o => some (h.field + 738197504 + d * 32768 + a.code * 512 + size.code * 128 + enc2 6 o)
  | .vadd h d a b => some (h.field + 771751936 + d.field + a.code * 512 + b.code * 8)
  | .vsub h d a b => some (h.field + 771751937 + d.field + a.code * 512 + b.code * 8)
  | .vmul h d a b => some (h.field + 771751938 + d.field + a.code * 512 + b.code * 8)
  | .vmin h d a b => some (h.field + 771751939 + d.field + a.code * 512 + b.code * 8)
  | .vmax h d a b => some (h.field + 771751940 + d.field + a.code * 512 + b.code * 8)
  | .vabs h d a => some (h.field + 771751941 + d.field + a.code * 512)
  | .vneg h d a => some (h.field + 771751942 + d.field + a.code * 512)
  | .vcps h d a b => some (h.field + 771751943 + d.field + a.code * 512 + b.code * 8)
  | .vfma h d a b => some (h.field + 805306368 + d * 32768 + a.code * 512 + b.code * 8)
  | .vfms h d a b => some (h.field + 805306369 + d * 32768 + a.code * 512 + b.code * 8)
  | .vfnma h d a b => some (h.field + 805306370 + d * 32768 + a.code * 512 + b.code * 8)
  | .vfnms h d a b => some (h.field + 805306371 + d * 32768 + a.code * 512 + b.code * 8)
  | .vdiv h d a b => some (h.field + 805306372 + d * 32768 + a.code * 512 + b.code * 8)
  | .vsqrt h d a => some (h.field + 805306373 + d * 32768 + a.code * 512)
  | .vrcp h d a => some (h.field + 805306374 + d * 32768 + a.code * 512)
  | .vrsq h d a => some (h.field + 805306375 + d * 32768 + a.code * 512)
  | .vexp2 h d a => some (h.field + 838860800 + d.field + a.code * 512)
  | .vlog2 h d a => some (h.field + 838860801 + d.field + a.code * 512)
  | .vrint h d a => some (h.field + 838860802 + d.field + a.code * 512)
  | .vrintz h d a => some (h.field + 838860803 + d.field + a.code * 512)
  | .vclass h d a => some (h.field + 838860804 + d.field + a.code * 512)
  | .vscale h d a b => some (h.field + 838860805 + d.field + a.code * 512 + b.code * 8)
  | .vgetexp h d a => some (h.field + 838860806 + d.field + a.code * 512)
  | .vminnum h d a b => some (h.field + 838860807 + d.field + a.code * 512 + b.code * 8)
  | .vfceq h d a b => some (h.field + 872415232 + d * 32768 + a.code * 512 + b.code * 8)
  | .vfcne h d a b => some (h.field + 872415233 + d * 32768 + a.code * 512 + b.code * 8)
  | .vfclt h d a b => some (h.field + 872415234 + d * 32768 + a.code * 512 + b.code * 8)
  | .vfcle h d a b => some (h.field + 872415235 + d * 32768 + a.code * 512 + b.code * 8)
  | .vfcgt h d a b => some (h.field + 872415236 + d * 32768 + a.code * 512 + b.code * 8)
  | .vfcge h d a b => some (h.field + 872415237 + d * 32768 + a.code * 512 + b.code * 8)
  | .vfcunord h d a b => some (h.field + 872415238 + d * 32768 + a.code * 512 + b.code * 8)
  | .vfcord h d a b => some (h.field + 872415239 + d * 32768 + a.code * 512 + b.code * 8)
  | .viadd h d a b => some (h.field + 905969664 + d.field + a.code * 512 + b.code * 8)
  | .visub h d a b => some (h.field + 905969665 + d.field + a.code * 512 + b.code * 8)
  | .vimul h d a b => some (h.field + 905969666 + d.field + a.code * 512 + b.code * 8)
  | .vimulh h d a b => some (h.field + 905969667 + d.field + a.code * 512 + b.code * 8)
  | .vimin h d a b => some (h.field + 905969668 + d.field + a.code * 512 + b.code * 8)
  | .vimax h d a b => some (h.field + 905969669 + d.field + a.code * 512 + b.code * 8)
  | .viminu h d a b => some (h.field + 905969670 + d.field + a.code * 512 + b.code * 8)
  | .vimaxu h d a b => some (h.field + 905969671 + d.field + a.code * 512 + b.code * 8)
  | .viadds h d a b => some (h.field + 939524096 + d.field + a.code * 512 + b.code * 8)
  | .viaddsu h d a b => some (h.field + 939524097 + d.field + a.code * 512 + b.code * 8)
  | .visubs h d a b => some (h.field + 939524098 + d.field + a.code * 512 + b.code * 8)
  | .visubsu h d a b => some (h.field + 939524099 + d.field + a.code * 512 + b.code * 8)
  | .viabs h d a => some (h.field + 939524100 + d.field + a.code * 512)
  | .vineg h d a => some (h.field + 939524101 + d.field + a.code * 512)
  | .viavg h d a b => some (h.field + 939524102 + d.field + a.code * 512 + b.code * 8)
  | .viavgu h d a b => some (h.field + 939524103 + d.field + a.code * 512 + b.code * 8)
  | .vand h d a b => some (h.field + 973078528 + d.field + a.code * 512 + b.code * 8)
  | .vor h d a b => some (h.field + 973078529 + d.field + a.code * 512 + b.code * 8)
  | .vxor h d a b => some (h.field + 973078530 + d.field + a.code * 512 + b.code * 8)
  | .vandn h d a b => some (h.field + 973078531 + d.field + a.code * 512 + b.code * 8)
  | .vshl h d a b => some (h.field + 973078532 + d.field + a.code * 512 + b.code * 8)
  | .vshr h d a b => some (h.field + 973078533 + d.field + a.code * 512 + b.code * 8)
  | .vsra h d a b => some (h.field + 973078534 + d.field + a.code * 512 + b.code * 8)
  | .vnot h d a => some (h.field + 973078535 + d.field + a.code * 512)
  | .viceq h d a b => some (h.field + 1006632960 + d * 32768 + a.code * 512 + b.code * 8)
  | .vicne h d a b => some (h.field + 1006632961 + d * 32768 + a.code * 512 + b.code * 8)
  | .viclt h d a b => some (h.field + 1006632962 + d * 32768 + a.code * 512 + b.code * 8)
  | .vicltu h d a b => some (h.field + 1006632963 + d * 32768 + a.code * 512 + b.code * 8)
  | .vicle h d a b => some (h.field + 1006632964 + d * 32768 + a.code * 512 + b.code * 8)
  | .vicleu h d a b => some (h.field + 1006632965 + d * 32768 + a.code * 512 + b.code * 8)
  | .victst h d a b => some (h.field + 1006632966 + d * 32768 + a.code * 512 + b.code * 8)
  | .vcvt h d a t r sat => some (h.field + 1040187392 + d.field + a.code * 512 + t.code * 16 + r.code * 2 + sat.toNat)
  | .vperm h d a b => some (h.field + 1073741824 + d.field + a.code * 512 + b.code * 8)
  | .vzip h d a b => some (h.field + 1073741825 + d.field + a.code * 512 + b.code * 8)
  | .vunzip h d a b => some (h.field + 1073741826 + d.field + a.code * 512 + b.code * 8)
  | .vrev h d a => some (h.field + 1073741827 + d.field + a.code * 512)
  | .vrot h d a b => some (h.field + 1073741828 + d.field + a.code * 512 + b.code * 8)
  | .vsel h d a b => some (h.field + 1073741829 + d.field + a.code * 512 + b.code * 8)
  | .vcmprs h d a b => some (h.field + 1073741830 + d.field + a.code * 512 + b * 8)
  | .vexpnd h d a b => some (h.field + 1073741831 + d.field + a.code * 512 + b * 8)
  | .vrsum h d a b => some (h.field + 1107296256 + d.field + a.code * 512 + b * 8)
  | .vrmax h d a b => some (h.field + 1107296257 + d.field + a.code * 512 + b * 8)
  | .vrmin h d a b => some (h.field + 1107296258 + d.field + a.code * 512 + b * 8)
  | .vrisum h d a b => some (h.field + 1107296259 + d.field + a.code * 512 + b * 8)
  | .vscan h d a b => some (h.field + 1107296260 + d.field + a.code * 512 + b * 8)
  | .vrand h d a b => some (h.field + 1107296261 + d.field + a.code * 512 + b * 8)
  | .vror h d a b => some (h.field + 1107296262 + d.field + a.code * 512 + b * 8)
  | .vrxor h d a b => some (h.field + 1107296263 + d.field + a.code * 512 + b * 8)
  | .vspli h d imm => some (h.field + 1140850688 + d * 65536 + imm)
  | .viota h d => some (h.field + 1174405120 + d.field)
  | .vsplat h d a b => some (h.field + 1174405121 + d.field + a.code * 512 + b.code * 8)
  | .vmovp h d a => some (h.field + 1174405122 + d.field + a * 512)
  | .vpopc h d a => some (h.field + 1174405123 + d.field + a * 512)
  | .vrng h d a => some (h.field + 1174405124 + d.field + a.code * 512)
  | .vfmts h a => some (h.field + 1174405125 + a.code * 512)
  | .vfmt h bind f => some (h.field + 1207959552 + bind.toNat * 32 + f.code)
  | .vnop e => some (e.toNat * 2147483648 + 1241513984)
  | .vdot4s h d a b => some (h.field + 1275068416 + d * 32768 + a.code * 512 + b.code * 8)
  | .vdot4u h d a b => some (h.field + 1275068417 + d * 32768 + a.code * 512 + b.code * 8)
  | .vdot2bf h d a b => some (h.field + 1275068418 + d * 32768 + a.code * 512 + b.code * 8)
  | .vdot2h h d a b => some (h.field + 1275068419 + d * 32768 + a.code * 512 + b.code * 8)
  | .cld h f d a imm => some (h.field + 1308622848 + f.code * 1048576 + d * 32768 + a.code * 512 + enc2 9 imm)
  | .cst h f d a imm => some (h.field + 1342177280 + f.code * 1048576 + d * 32768 + a.code * 512 + enc2 9 imm)
  | .cgath h f d a wide x => some (h.field + 1375731712 + f.code * 1048576 + d * 32768 + a.code * 512 + wide.toNat * 256 + x)
  | .cscat h f d a wide x => some (h.field + 1409286144 + f.code * 1048576 + d * 32768 + a.code * 512 + wide.toNat * 256 + x)
  | .xcpsx h d a => some (h.field + 1442840576 + d.field + a.code * 512)
  | .xcpxs h d a => some (h.field + 1442840577 + d.field + a.code * 512)
  | .xcpmx h d a => some (h.field + 1442840578 + d.field + a * 512)
  | .xcpxm h d a => some (h.field + 1442840579 + d.field + a.code * 512)
  | .xcpvax h d a lane => some (h.field + 1442840580 + d.field + a * 512 + lane * 8)
  | .xcpvbx h d a lane => some (h.field + 1442840581 + d.field + a * 512 + lane * 8)
  | .xcpxva h d a lane => some (h.field + 1442840582 + d.field + a.code * 512 + lane * 8)
  | .xcpxvb h d a lane => some (h.field + 1442840583 + d.field + a.code * 512 + lane * 8)
  | .fld h d a n => some (h.field + 1476395008 + d * 32768 + a.code * 512 + n)
  | .fldv h f d a n => some (h.field + 1509949440 + f.code * 1048576 + d * 32768 + a.code * 512 + n)
  | .fst h d a => some (h.field + 1543503872 + d * 32768 + a.code * 512)
  | .fstv h f d a => some (h.field + 1577058304 + f.code * 1048576 + d * 32768 + a.code * 512)
  | .send h f v x => some (h.field + 1610612736 + f.code * 1048576 + v * 32768 + x * 2048)
  | .recv h f v x n => some (h.field + 1644167168 + f.code * 1048576 + v * 32768 + x * 2048 + n)
  | .push h q hi p => some (h.field + 1677721600 + q * 32768 + hi.toNat * 16384 + p * 128)
  | .pop h q d p => some (h.field + 1711276032 + q * 32768 + d * 2048 + p * 128)
  | .popStall h q d n => some (h.field + 1712324608 + q * 32768 + d * 2048 + n)
  | .rcap h d a => some (h.field + 1744830464 + d.toNat * 262144 + a.code * 512)
  | .rput h a b => some (h.field + 1744830465 + a.code * 512 + b.toNat * 64)
  | .radd h d a b => some (h.field + 1744830466 + d.field + a.code * 512 + b.code * 8)
  | .rcas h d a b => some (h.field + 1744830467 + d.field + a.code * 512 + b * 8)
  | .rmaxu h d a b => some (h.field + 1744830468 + d.field + a.code * 512 + b.code * 8)
  | .ror h d a b => some (h.field + 1744830469 + d.field + a.code * 512 + b.code * 8)
  | .board h => some (h.field + 1744830470)
  | .alight h => some (h.field + 1744830471)
  | .alightFree h => some (h.field + 1744863239)
  | .aadd h d a b => some (h.field + 1778384896 + d.field + a.code * 512 + b.code * 8)
  | .aincw h d a b => some (h.field + 1778384897 + d.field + a.code * 512 + b.code * 8)
  | .afaab h d a b => some (h.field + 1778384898 + d * 32768 + a.code * 512 + b * 8)
  | .acas h d a b => some (h.field + 1778384899 + d.field + a.code * 512 + b * 8)
  | .axchg h d a b => some (h.field + 1778384900 + d.field + a.code * 512 + b.code * 8)
  | .amins h d a b => some (h.field + 1778384901 + d.field + a.code * 512 + b.code * 8)
  | .amaxu h d a b => some (h.field + 1778384902 + d.field + a.code * 512 + b.code * 8)
  | .aorb h d a b => some (h.field + 1778384903 + d.field + a.code * 512 + b.code * 8)
  | .acq h k a b => some (h.field + 1811939328 + k * 32768 + a.code * 512 + b * 8)
  | .rel h b => some (h.field + 1811939329 + b * 8)
  | .bar h k a b => some (h.field + 1811939330 + k * 32768 + a.code * 512 + b.code * 8)
  | .fence h k s => some (h.field + 1811939331 + k * 32768 + s.code * 8)
  | .trig h => some (h.field + 1811939332)
  | .step h k => some (h.field + 1811939333 + k * 32768)
  | .crgo h a => some (h.field + 1811939334 + a.code * 512)
  | .crgc h => some (h.field + 1811939335)
  | .cnop e => some (e.toNat * 2147483648 + 1845493760)
  | .ltime h d => some (h.field + 1845493761 + d.field)
  | .seedr h d k => some (h.field + 1845493762 + d.field + k * 8)
  | .gang h a b => some (h.field + 1845493763 + a.code * 512 + b.code * 8)
  | .mcfg h a b i => some (h.field + 1879048192 + a.code * 65536 + b.code * 2048 + i.index)
  | .mgo h => some (h.field + 1912602624)
  | .mgog h => some (h.field + 1912602880)
  | .mdrn h c => some (h.field + 1912603136 + c)
  | .mclr h mask => some (h.field + 1912603392 + mask)
  | .mstat h d i => some (h.field + 1912603648 + d * 65536 + i)
  | .mldw h a w c => some (h.field + 1912603904 + a.code * 65536 + w * 4 + c)
  | .mmirr h on => some (h.field + 1912604160 + on.toNat)
  | .mstop h => some (h.field + 1912604416)
  | .mfmt h bind fb fa => some (h.field + 1946157056 + bind.toNat * 1024 + fb.code * 32 + fa.code)
  | .spup h a => some (h.field + 1979711488 + a.code * 65536)
  | .spdn h a => some (h.field + 1979711744 + a.code * 65536)
  | .spld h a b => some (h.field + 1979712000 + a.code * 65536 + b.code * 2048)
  | .spst h a b => some (h.field + 1979712256 + a.code * 65536 + b.code * 2048)
  | .spscl h a n => some (h.field + 1979712512 + a.code * 65536 + enc2 8 n)
  | .spmode h dx f => some (h.field + 1979712768 + dx * 4 + f.code)
  | .spclr h a => some (h.field + 1979713024 + a.code * 65536)
  | .spstat h d i => some (h.field + 1979713280 + d * 65536 + i)
  | .mli h d imm => some (h.field + 2013265920 + d * 65536 + imm)
  | .mnop e => some (e.toNat * 2147483648 + 2046820352)
  | .landingArrival _ _ _ => none
  | .landingDue _ => none
  | .messageArrival _ _ _ => none
  | .waitDueTick _ => none
  | .waitConditionMet _ => none
  | .acqPassLimit _ => none
  | .deadlock _ => none
  | .farStorePerform _ _ => none
  | .remoteAccessApply _ _ => none
  | .relIncrement _ _ => none
  | .matrixOpBegin _ => none
  | .matrixStepStart _ => none
  | .matrixStepRetire _ => none
  | .matrixStepReplay _ => none
  | .matrixStepComplete _ => none
  | .mdrnComplete _ => none
  | .mclrComplete _ => none
  | .mldwComplete _ => none
  | .cascadeReadStage _ => none
  | .cascadeSubtreeWrite _ => none
  | .cascadeRowMove _ => none
  | .cascadeRowWrite _ => none
  | .rillPass _ => none
  | .copyCommandComplete _ _ => none
  | .copyCompletionDue _ => none
  | .copyCommandStop _ _ => none
  | .translationWalk _ _ _ _ => none
  | .pageRequestTimeout _ _ => none
  | .remotePathTimeout _ _ => none
  | .invalidationComplete _ => none
  | .teardownComplete _ => none
  | .contextSaveComplete _ => none
  | .queuePoll _ => none
  | .timetable _ _ => none
  | .timetableIndirect _ _ => none
  | .wait _ _ => none
  | .signal _ _ => none
  | .copy _ _ => none
  | .seedPush _ _ => none
  | .seedPop _ _ => none
  | .seedFork _ _ => none
  | .checkpointPolicy _ _ => none
  | .barrierAnd _ _ => none
  | .nop _ _ => none
  | .launchArm _ => none
  | .launchStart _ => none
  | .tileStart _ => none
  | .launchTrigger _ => none
  | .launchRetire _ => none
  | .queueRestart _ => none
  | .queueDestroy _ => none
  | .queueDestroyed _ => none
  | .queueParkTimeout _ => none
  | .watchdogRestart _ => none
  | .fatalError _ _ => none
  | .collectiveTableWrite _ _ => none
  | .collectiveReadyWrite _ _ => none
  | .collectiveRoundFire _ _ => none
  | .collectiveRoundComplete _ _ => none
  | .checkpointTimer _ => none
  | .checkpointShardTake _ => none
  | .checkpointShardTaken _ => none
  | .scrub _ _ => none
  | .dutyUpdate => none
  | .thermalTrip => none
  | .powerGood => none
  | .powerOff => none
  | .managementConnect _ _ _ => none
  | .registerQueue _ _ _ => none
  | .unregisterQueue _ _ => none
  | .invalidateTranslations _ _ _ => none
  | .answerPageRequest _ _ _ _ => none
  | .createContext _ _ => none
  | .teardownContext _ _ => none
  | .preemptContext _ _ => none
  | .restoreContext _ _ _ => none
  | .readLaunchRecord _ _ _ => none
  | .readIdentityKey _ => none
  | .setCheckpointConfig _ _ _ => none
  | .restoreCheckpoint _ _ _ _ => none
  | .readLatestShard _ _ => none
  | .readSoftErrorBlock _ _ => none
  | .clearSoftErrorBlock _ _ => none
  | .writeFieldRepair _ _ => none
  | .readRemap _ _ => none
  | .readCistern _ _ _ => none
  | .setPowerCap _ _ => none
  | .readTelemetry _ => none
  | .setModulePosition _ _ _ => none
  | .stageFirmware _ _ _ _ => none
  | .resetModule _ => none
  | .ualinkRemoteRequest _ => none
  | .frontEndCoreRestarted _ => none
  | .signalConditionMet _ _ => none

end Sys2Proof
end

