-- ==== Sys2Proof/Machine/State.lean ====
section
/-! DEFINITION. The state of the module as plain data: tiles, launches, contexts, queues and the module itself
(R4: every piece of state lives in one of four spans), the reasons a step can stop, and the state after reset. -/

namespace Sys2Proof.Machine

/-- Byte memory: address and byte pairs, addresses strictly rising, no zero byte listed; an unlisted address reads
zero (SRAM and HBM are written to zero at bring-up, R391 step 5). -/
abbrev Mem := List Host.Cell

/-- Sparse numbered elements: indices strictly rising, no zero value listed; an unlisted element is zero. -/
abbrev Elems := List (Nat × Nat)

/-- A 128-bit configuration field (R169, R172). -/
abbrev Word128 := BitVec 128

/-- The issue slots (R12, R62). -/
inductive Slot where
  | s | va | vb | m | ca | cb
deriving DecidableEq, Repr

/-- Trap causes (R303). -/
inductive Cause where
  | illegal | priv | latchlost | align | xlate | perm | guard | eccue | tsmis | arith | detv | rillnb | combo | qcmd
  | deadlock | contained | slip | timepast | skew | user
deriving DecidableEq, Repr

/-- A trap that a syllable or a due event raises: its cause, its TRAPINFO, the reason of an ILLEGAL and the
position of the syllable, from which the one reported is chosen (R75, R293), and whether it is a recorded fault of a
far store or atomic, which leaves the record when it is raised (R146). -/
structure Trap where
  cause : Cause
  info : Word
  reason : Nat
  pos : Nat
  recorded : Bool
deriving DecidableEq, Repr

/-- Why a bundle is held, in the order of R25: landing, wait, Basin entry, skid entry, arming, checkpoint. -/
inductive FreezeCause where
  | landing | wait | basin | skid | arming | shard
deriving DecidableEq, Repr

/-- The freeze of a domain: its cause, the tile that named the datum, whether a RECV or a skid entry causes it
(first row of R30), and the wall clock at its start (R29). -/
structure Freeze where
  cause : FreezeCause
  tile : Nat
  recv : Bool
  since : Nat
deriving DecidableEq, Repr

/-- What a result does when it is written (R18, R67, R72, R76, R137); xplain is a POP's result, which enters no latch
(R258), and atomOnly a local atomic whose result an unwind or EXIT has discarded (R308, R310). -/
inductive Eff where
  | sreg (n : Nat) (v : Word)
  | vreg (f : VFile) (n : Nat) (v : VReg)
  | xreg (f : CFile) (n : Nat) (v : Word)
  | xplain (f : CFile) (n : Nat) (v : Word)
  | mreg (n : Nat) (v : Word)
  | pred (n : Nat) (v : Word)
  | latchW (slot : Slot) (v : Word)
  | latchV (f : VFile) (v : VReg)
  | flags (slot : Slot) (f : Flags)
  | csr (c : Csr) (v : Word)
  | gov (c : Csr) (mx : Bool) (v : Word)
  | mfr (v : Word)
  | store (agent : Nat) (writes : List (Nat × List Byte))
  | atom (op : AtomOp) (a : Nat) (v v2 : Word) (f : CFile) (d : Option Nat) (p : Option Nat) (pos : Nat)
  | atomOnly (op : AtomOp) (a : Nat) (v v2 : Word) (pos : Nat)
  | arrive (a n : Nat) (wait : Nat)
  | fault (t : Trap)
  | mcfg (f : MField) (v : Word128)
  | mirror (on : Bool)
  | rctl (r : Nat) (v : Word128)
  | cmr (v : Nat)
  | stepInc
  | depth (up : Bool)
deriving DecidableEq, Repr

/-- A result in flight: due tick, the slot that ranks it, its issue tick and its order of issue (R18, R72). -/
structure Pending where
  due : Nat
  slot : Slot
  issue : Nat
  seq : Nat
  eff : Eff
deriving DecidableEq, Repr

/-- What has arrived for a landing (R22). -/
inductive Arrival where
  | bytes (bs : List Byte)
  | word (v : Word) (fail : Option Bool)
  | fault (c : Cause) (info : Word)
deriving DecidableEq, Repr

/-- Where a landing is written (R143, R148, R160, R238, R239, R258). -/
inductive LandDest where
  | far (f : CFile) (n : Nat)
  | farV (f : VFile) (n : Nat)
  | atom (f : CFile) (n : Option Nat) (p : Option Nat)
  | recv (f : VFile) (n : Nat) (src chan num : Nat) (stamp : Nat)
  | octet (f : CFile) (base : Nat)
  | rill (f : CFile) (n : Nat)
  | pop (f : CFile) (n q num : Nat)
deriving DecidableEq, Repr

/-- A landing and its Basin reservation (R22, R26): number in issue order, issue and due tick, position and
address of its bundle. -/
structure Landing where
  num : Nat
  issue : Nat
  due : Nat
  pos : Nat
  addr : Nat
  dest : LandDest
  got : Option Arrival
deriving DecidableEq, Repr

/-- The kinds of far access (R142, R160, R283, R284, R299); a REL keeps the gang, its first id and size, at its issue tick (R265). -/
inductive FarKind where
  | load8
  | loadV
  | store (bs : List Byte)
  | atom (op : AtomOp) (v v2 : Word) (ret : Bool)
  | bar (n : Nat)
  | acq
  | rel (b : Nat) (gang : Nat × Nat)
deriving DecidableEq, Repr

/-- How far an untimed access has come: waiting, performed, or found at fault (R146). -/
inductive FarStage where
  | open
  | done
  | faulted (c : Cause)
deriving DecidableEq, Repr

/-- A far access issued and not yet forgotten: number in issue order, address, kind, issue tick, position and
bundle, the landing or wait it serves, its stage, the single-copy atomic units not yet performed and those read
(R279), the wall clock since which a remote path is missing (R358), and whether an uncorrectable error has struck its data in the write
combiner (R380). -/
structure FarOp where
  num : Nat
  addr : Nat
  kind : FarKind
  issue : Nat
  pos : Nat
  bundle : Nat
  landing : Option Nat
  wait : Option Nat
  stage : FarStage
  left : List Nat
  part : List (Nat × List Byte)
  since : Option Nat
  bad : Bool
deriving DecidableEq, Repr

/-- A fault of a far store or of an atomic that returns nothing, kept in issue order (R146). -/
structure StoreFault where
  num : Nat
  cause : Cause
  info : Word
deriving DecidableEq, Repr

/-- The waits (R292): what ends each; a FENCE keeps the gang, its first id and size, at its issue tick (R265). -/
inductive WaitKind where
  | tick
  | step (n : Nat)
  | fence (scope : Scope) (gang : Nat × Nat) (upto : Nat)
  | bar (local_ : Bool) (a g0 : Nat) (arrived met : Bool)
  | acq (b : Nat) (n : Nat) (met : Bool)
  | acqRill (b : Nat) (n : Nat) (metAt : Option Nat) (passes : Nat)
  | gang (first size b : Nat)
deriving DecidableEq, Repr

/-- A wait in progress: number, issue and due tick, kind, and the address and position of its syllable. -/
structure Wait where
  num : Nat
  issue : Nat
  due : Nat
  kind : WaitKind
  addr : Nat
  pos : Nat
  fault : Option Trap
deriving DecidableEq, Repr

/-- One loop level (R98) and the tick at which it was entered (R310). -/
structure LoopLevel where
  entered : Nat
  start : Nat
  stop : Nat
  remain : Nat
  index : Nat
deriving DecidableEq, Repr

/-- The loop unit: six levels, absent when inactive, and the active ones from the innermost outward (R98). -/
structure LoopUnit where
  levels : List (Option LoopLevel)
  order : List Nat
deriving DecidableEq, Repr

/-- The guard record (R155, R156). -/
structure GuardRec where
  src : Nat
  count : Nat
  agent : Nat
  offset : Nat
deriving DecidableEq, Repr

/-- A scratchpad: bytes, poisoned 8-byte granules (R380), marked 256-byte granules (R154) and the guard record. -/
structure Spad where
  mem : Mem
  poison : List Nat
  marks : List Nat
  touched : Option GuardRec
deriving DecidableEq, Repr

/-- An open containment region (R309): handler and the tick its CRGO issued. -/
structure Region where
  handler : Nat
  opened : Nat
  seq : Nat
deriving DecidableEq, Repr

/-- A timed message in a Basin, a skid buffer or on a link (R147), and whether an uncorrectable error has struck it there (R380). -/
structure Message where
  src : Nat
  dst : Nat
  chan : Nat
  num : Nat
  stamp : Nat
  body : VReg
  bad : Bool
deriving DecidableEq, Repr

/-- The stored CSRs of a tile that are not computed from other state (R94). -/
structure Csrs where
  fpcr : Word
  fpsr : Word
  trapcause : Word
  trappc : Word
  trapinfo : Word
  tvec : Word
  vfmta : Word
  vfmtb : Word
  nif : Word
  atdue : Word
  ftab : List Word
  ftsel : Word
  stepcnt : Word
  depth : Nat
  prebound : Word
  stopflag : Word
  maxk : Word
  detmode : Word
deriving DecidableEq, Repr

/-- The format values that govern syllables now (R41, R50, R57 to R59, R193): writes reach them at their ticks. -/
structure Gov where
  fpcr : Word
  vfmta : Word
  vfmtb : Word
  nif : Word
  ftab : List Word
  ftabMx : List Word
  ftsel : Word
  mfr : Word
deriving DecidableEq, Repr

/-- The register files (R70), and the 8-byte granules of registers that an uncorrectable error has struck, until the register is
written (R380). -/
structure Regs where
  s : Vector Word 32
  va : Vector VReg 32
  vb : Vector VReg 32
  xa : Vector Word 16
  xb : Vector Word 16
  m : Vector Word 16
  p : Vector Word 16
  bad : List (RegName × Nat)
deriving DecidableEq, Repr

/-- The bypass latches of each slot, newest first; none is an invalid latch (R67, R68). -/
structure Latches where
  s : List (Option Word)
  va : List (Option VReg)
  vb : List (Option VReg)
  m : List (Option Word)
  ca : List (Option Word)
  cb : List (Option Word)
deriving DecidableEq, Repr

/-- The working copy of the matrix configuration (R172, R194, R202). -/
structure MxCfg where
  ophdr : Word128
  levels : List Word128
  drain : Word128
  stackArea : Word128
  rings : List Word128
  mirror : Bool
deriving DecidableEq, Repr

/-- The counters of an operand ring (R171). -/
structure Ring where
  head : Nat
  tail : Nat
  rp : Nat
deriving DecidableEq, Repr

/-- The stack descriptor of an accumulator (R177): whether a top is present, log2 of its weight, and log2 of the
weights of the older slots, oldest first. -/
structure StackDesc where
  top : Bool
  wt : Nat
  slots : List Nat
deriving DecidableEq, Repr

/-- A position in the loop nest (R172, R173): iteration index and ring marks of each level, the accumulator, and
whether the nest has ended. -/
structure Nest where
  index : List Nat
  marks : List (List Nat)
  acc : Nat
  ended : Bool
deriving DecidableEq, Repr

/-- A step of an active operation between its start and its completion (R174): its partial and flags, the bytes it has read (rows and
scales of its A tile, rows and scales of its B tile), whether a replay is outstanding, whether it has met an operand error and has
failed its checks (R184, R185), its fault, the elements of its partial and of its mirror that the array has wrong, and whether its checks
have been made (R181 to R183). -/
structure MxStep where
  idx : Nat
  start : Nat
  stop : Nat
  compl : Option Nat
  part : Elems
  flags : Flags
  aTile : Nat
  bTile : Nat
  ops : List (List (List Byte))
  late : Bool
  hit : Bool
  failed : Bool
  fault : Option (Nat × Nat)
  wrong : List (Nat × Nat)
  mirror : List (Nat × Nat)
  judged : Bool
deriving DecidableEq, Repr

/-- The engine operations (R196); an MGOG keeps the gang, its first id and size, that issued it (R198, R273). -/
inductive MxKind where
  | go (gang : Option (Nat × Nat))
  | drn (acc : Nat)
  | clr (mask : Nat)
  | ldw (acc logw p q : Nat)
deriving DecidableEq, Repr

/-- An engine operation: what it captured at issue (R197), its begin tick, its progress (R173, R174). -/
structure MxOp where
  kind : MxKind
  issue : Nat
  seq : Nat
  start : Nat
  begun : Bool
  fa : Fmt
  fb : Fmt
  nif : Word
  rm : Rnd
  fz : Bool
  maxk : Nat
  mirror : Bool
  cfg : MxCfg
  ahead : Nest
  aheadRings : List Ring
  done : Nest
  nextIdx : Nat
  nextStart : Nat
  lastP : Nat
  steps : List MxStep
  completed : Nat
  compl : Option Nat
  loaded : Elems
  flags : Flags
  fault : Option (Nat × Nat)
deriving DecidableEq, Repr

/-- The shadow bank (R187): when it was taken and what it holds. -/
structure Shadow where
  taken : Nat
  accs : List Elems
  stk : List StackDesc
deriving DecidableEq, Repr

/-- An error of the array (R181 to R184): whether it meets the step in hand or the next replay, and the elements of the partial and of
its mirror that hold a wrong word. -/
structure MxUpset where
  replay : Bool
  wrong : List (Nat × Nat)
  mirror : List (Nat × Nat)
deriving DecidableEq, Repr

/-- The matrix engine of a tile (R167 to R204). -/
structure Matrix where
  cfg : MxCfg
  rings : List Ring
  accs : List Elems
  poison : List Bool
  stk : List StackDesc
  active : Option MxOp
  pending : Option MxOp
  freeAt : Nat
  curAcc : Nat
  nlev : Nat
  steps : Nat
  marks : List (List Nat)
  index : List Nat
  mirrorUse : Bool
  shadow : Option Shadow
  restored : Bool
  reloaded : Bool
  upset : Option MxUpset
deriving DecidableEq, Repr

/-- A Cascade subtree between its issue and its write (R213 to R217). -/
structure Subtree where
  issue : Nat
  seq : Nat
  addr : Nat
  record : Nat
  down : Bool
  fmt : CFmt
  dxor : Nat
  rm : Rnd
  fz : Bool
  tree : Nat
  begun : Option Nat
  left : List (Nat × Nat)
  ended : Option Nat
  leaves : List (List Nat)
  trace : List (List Nat)
  adj : List Nat
  fault : Option (Nat × Nat)
deriving DecidableEq, Repr

/-- Kinds of row transfer (R218). -/
inductive XferKind where
  | load (a : Nat)
  | save (a : Nat)
  | scale (n : Int)
  | clear
deriving DecidableEq, Repr

/-- A Cascade row transfer (R218): first row, count, start tick, the row read and not yet written, whether an unwind has ended it, so that it
moves nothing more and its planned rows count (R223), and whether a row of it has met an error, so that it writes nothing more (R222). -/
structure Xfer where
  kind : XferKind
  first : Nat
  count : Nat
  issue : Nat
  seq : Nat
  start : Nat
  fmt : CFmt
  rm : Rnd
  fz : Bool
  row : Option (Nat × List Nat)
  fault : Option (Nat × Nat)
  gone : Bool
  struck : Bool
deriving DecidableEq, Repr

/-- The Cascade of a tile (R205 to R224). -/
structure Cascade where
  cmr : Nat
  banks : Elems
  poison : List Nat
  rot : Nat
  subs : List Subtree
  xfers : List Xfer
  rowFree : Nat
  written : Nat
  penalty : Nat
  corrected : Nat
deriving DecidableEq, Repr

/-- How a copy command stands (R254, R260): running, paused on a page request, or ended with a status. -/
inductive CopyStage where
  | running
  | ended (status : Nat)
deriving DecidableEq, Repr

/-- A copy command from its PUSH until its record has been popped (R248, R254): the gang of its PUSH (R265), whether the
engine has started on it (R247), whether it is stopped for a save or a shard (R341), the granule and kind of the page request at
which it pauses (R260); prog elements are performed, and of
the next one the units of the source read so far, all its bytes once they are read, and the units in left still to be read or
written, all of them when left is empty (R252, R279); and the lines of the far-read buffer that its writes with REL have made stale
(R288). -/
structure CopyCmd where
  num : Nat
  words : List Word
  issue : Nat
  pos : Nat
  bundle : Nat
  due : Option Nat
  upto : Nat
  gang : Nat × Nat
  started : Bool
  halted : Bool
  paused : Option (Nat × AccKind)
  prog : Nat
  read : List (Nat × List Byte)
  data : Option (List Byte)
  left : List Nat
  stale : List Nat
  stage : CopyStage
  record : Option Word
  since : Option Nat
deriving DecidableEq, Repr

/-- A queue of a copy engine (R247, R248): occupancy, next push number, next unclaimed record, last effective due
tick, and the commands whose records have not been popped. -/
structure CopyQueue where
  occ : Nat
  pushed : Nat
  claimed : Nat
  lastDue : Nat
  cmds : List CopyCmd
deriving DecidableEq, Repr

/-- Rill states of a tile (R230). -/
inductive Berth where
  | free | berthed | boarded
deriving DecidableEq, Repr

/-- Rill operations in a station queue (R236 to R239, R283); a REL keeps the gang, its first id and size, at its issue tick (R265). -/
inductive RillKind where
  | cap
  | put (v : List Word)
  | add (v : Word)
  | cas (v v2 : Word)
  | maxu (v : Word)
  | or (v : Word)
  | rel (b : Nat) (gang : Nat × Nat)
deriving DecidableEq, Repr

/-- A queued Rill operation (R236, R237). -/
structure RillOp where
  issue : Nat
  seq : Nat
  pass : Nat
  slot : Nat
  word : Nat
  kind : RillKind
  landing : Option Nat
  pos : Nat
deriving DecidableEq, Repr

/-- A bundle of a gang's stream (R97, R267, R271): its number, the lead tick it belongs to, its address and words,
whether the lead took its transfer, TRAP or TRET, the bundle that follows it, for a TRET that returned, how many streams
put by lie above the one it took up, and the lead's loop unit as the bundle was issued (R60, R97). -/
structure StreamItem where
  num : Nat
  tick : Nat
  addr : Nat
  words : List Nat
  taken : Bool
  link : Nat
  back : Option Nat
  loops : LoopUnit
deriving DecidableEq, Repr

/-- A gang's stream put by at a trap (R271): on the lead its bundles from the one that the last member held to the one before its own,
the tick at which the earliest held bundle is to be issued again and the tick at which the lead would have issued; on a member how far
its held bundle lies behind the first of them; on both the address of the held bundle and, on a member that was waiting for its `TRAPPC`, that address. -/
structure SavedStream where
  items : List StreamItem
  held : Nat
  cut : Nat
  resume : Nat
  off : Nat
  seek : Option Nat
deriving DecidableEq, Repr

/-- The gang of a tile (R266 to R271): first id and size; on the lead the stream; for each handler running, the
stream that it interrupted, newest first; on a member the number of the stream bundle it issues next, and the `TRAPPC` it waits for after
a return. -/
structure Gang where
  first : Nat
  size : Nat
  stream : List StreamItem
  count : Nat
  next : Nat
  saved : List SavedStream
  resumeAt : Nat
  seek : Option Nat
deriving DecidableEq, Repr

/-- What a tile is doing (R17, R101, R308, R311). -/
inductive Phase where
  | parked | armed | running | stopped | retired | faulted
deriving DecidableEq, Repr

/-- The MODEL's own field: which syllable is being issued (slot, position, bundle and following bundle), for a
gang member the lead's decision that it follows (R97), whether a transfer was taken, the guard record as the bundle
began (R156), the trap it raised, why its bundle is held, whether the loop unit took a back edge (R101), whether a
transfer led to no bundle start (R63), and how many streams put by lie above the one that a TRET took up (R271). -/
structure Issue where
  slot : Slot
  pos : Nat
  addr : Nat
  next : Nat
  follow : Option Bool
  taken : Bool
  record : Option GuardRec
  trap : Option Trap
  held : Option (FreezeCause × Nat)
  edge : Bool
  lost : Bool
  back : Option Nat
deriving DecidableEq, Repr

/-- The far-read buffer: 256-byte lines by line address, oldest first (R145). -/
abbrev FarBuffer := List (Nat × List Byte)

/-- A tile (R12); with the 8-byte granules of its instruction memory that an uncorrectable error has struck, and the results in
flight, by number, whose replay in a datapath has not ended (R380). -/
structure Tile where
  key : TileKey
  launch : Nat
  phase : Phase
  tick : Nat
  startTick : Nat
  pc : Nat
  imem : Mem
  imemBad : List Nat
  progLen : Nat
  grid : Nat
  regs : Regs
  latches : Latches
  csrs : Csrs
  gov : Gov
  seed : BitVec 256
  inflight : List Pending
  seq : Nat
  replays : List Nat
  landings : List Landing
  loops : LoopUnit
  waits : List Wait
  spad : Spad
  regions : List Region
  faults : List StoreFault
  deferred : List (Trap × Option Nat)
  far : List FarOp
  buffer : FarBuffer
  bufferBad : List Nat
  sent : List (Nat × Nat)
  basin : List Message
  skid : List Message
  received : List (Nat × Nat)
  claims : List (Nat × Nat)
  mx : Matrix
  casc : Cascade
  queues : List CopyQueue
  berth : Berth
  station : List RillOp
  gang : Gang
  freeze : Option Freeze
  triggered : Option Nat
  stopAt : Option Nat
  iss : Issue
deriving DecidableEq, Repr

/-- A binding of a region to a sync object (R281). -/
structure Binding where
  obj : Nat
  okind : Nat
  rbase : Nat
  rsize : Nat
  scope : Nat
deriving DecidableEq, Repr

/-- A tile entry of an image (R321). -/
structure TileEntry where
  progOff : Nat
  progLen : Nat
  entry : Nat
  gangField : Nat
  board : Nat
  zero : Nat
  start : Nat
  regOff : Nat
  regCount : Nat
deriving DecidableEq, Repr

/-- A timetable image: its bytes and the fields of its header (R321). -/
structure Image where
  bytes : List Byte
  grid : Nat
  flags : Nat
  levels : List Nat
  splits : List Byte
  bindings : List Binding
  sections : List (Nat × Nat)
  digest : List Byte
  tiles : List TileEntry
deriving DecidableEq, Repr

/-- What the peers of one module bring to a round (R353): its partial results, the flags raised, whether a contribution faulted. -/
structure CollPart where
  module : Nat
  bytes : List Byte
  flags : Nat
  fault : Bool
deriving DecidableEq, Repr

/-- What is still to be written of a round in a peer's scratchpad (R354, R279): units of the result, and the status word; the arrival
comes last. -/
structure PeerLeft where
  peer : Nat
  units : List Nat
  status : Bool
deriving DecidableEq, Repr

/-- An entry of the collective table (R349 to R354): its words, whether it is valid and bad, the peers that are ready with
their descriptors, the ready writes of other modules' peers that wait for the round in progress to end, since when the round has fired,
the contribution units (peer and offset) still to be read and those read, the partial results here, the result bytes and status of the
round with the peers still to be written, and the rounds completed. -/
structure CollEntry where
  num : Nat
  words : Elems
  valid : Bool
  bad : Bool
  ready : List (Nat × Nat)
  early : List (Nat × Nat)
  since : Option Nat
  toRead : List (Nat × Nat)
  got : List (Nat × Nat × List Byte)
  parts : List CollPart
  running : Option (List Byte × Nat)
  left : List PeerLeft
  rounds : Nat
deriving DecidableEq, Repr

/-- How far a launch has come (R323). -/
inductive LaunchStage where
  | waiting | armed | started | ended
deriving DecidableEq, Repr

/-- A launch (R323, R366): the model's own key, the sequence number of its record, the packet that asked for it, its
image, whether its arming has begun (R323), its start, Rill, collectives, messages on links, whether its Rill has stopped for
a pre-emption (R245), and the checkpoint in progress with the counts pending and taken. -/
structure Launch where
  key : LaunchKey
  number : Nat
  queue : Nat
  packet : Nat
  index : Nat
  image : Image
  stage : LaunchStage
  begun : Bool
  abs : Option Nat
  g : Nat
  s : Nat
  interval : Nat
  rt : Nat
  slots : Elems
  slotPoison : List Nat
  coll : List CollEntry
  links : List Message
  fired : Bool
  stopped : Bool
  shard : Option Nat
  pendingCount : List Nat
  taken : List Nat
  seedDigest : List Byte
deriving DecidableEq, Repr

/-- A cached translation (R333): virtual base, log2 of the page size, physical base, permissions. -/
structure TlbEntry where
  va : Nat
  logSize : Nat
  pa : Nat
  r : Bool
  w : Bool
  at_ : Bool
deriving DecidableEq, Repr

/-- A page request (R335): number, agent, granule, kind, whether its record is written and when, its answer. -/
structure PageReq where
  num : Nat
  agent : Agent
  granule : Nat
  kind : AccKind
  written : Option Nat
  answer : Option Bool
deriving DecidableEq, Repr

/-- A checkpoint shard (R373 to R375): its sequence, its bytes from the manifest to the last tag, the blocks in which the store has an
uncorrectable error, and the launch and tiles for which its tile-state blocks stand in the private layout (R343). -/
structure Shard where
  seq : Nat
  bytes : List Byte
  bad : List Nat
  launch : Launch
  tiles : List Tile
deriving DecidableEq, Repr

/-- A saved context (R340 to R346): its SEQ, the number that names the private bytes of its save areas, and the tiles and launches for
which they stand. -/
structure SavedContext where
  seq : Nat
  draw : Nat
  tiles : List Tile
  launches : List Launch
deriving DecidableEq, Repr

/-- The checkpoint policy and store of a context (R369 to R371): the size of the store in MiB, the key Kc, the registered
RDMA targets and trusted keys, the slots (B is true), the shards taken, since when the timer counts, a held mark, and
the count and reason of the last shard that was not taken (R377). -/
structure Checkpoints where
  interval : Nat
  period : Nat
  stream : Bool
  handle : Nat
  store : Nat
  key : List Byte
  targets : List Nat
  trusted : List (List Byte)
  slotA : Option Shard
  slotB : Option Shard
  latest : Option Bool
  taken : Nat
  timerFrom : Option Nat
  held : Bool
  failure : Option (Nat × Nat)
deriving DecidableEq, Repr

/-- A context (R337); its translation caches name the tile and the die that hold an entry (R333). -/
structure Context where
  pasid : Nat
  part : Nat
  gen : Nat
  root : Nat
  det : Bool
  kdepth : Nat
  bound : Nat
  evq : Nat
  evqLog : Nat
  save : List Nat
  resident : Bool
  number : Nat
  seq : Nat
  images : List (Option (List Byte))
  seeds : List (BitVec 256)
  requests : List PageReq
  nextReq : Nat
  evqIdx : Nat
  tileTlb : List (Nat × TlbEntry)
  dieTlb : List (Nat × TlbEntry)
  invals : List (Option (Nat × Nat) × MgmtHdr)
  launchSeq : Nat
  nextLaunch : Nat
  records : List (Nat × List Byte)
  ckpt : Checkpoints
  saved : Option SavedContext
  preempt : Option (Nat × MgmtHdr)
  tearing : Option MgmtHdr
  lost : Bool
deriving DecidableEq, Repr

/-- A packet accepted by the front end (R314 to R317): whether it has started, is satisfied, is complete with its signal
still to be decremented, the count of an indirect packet and the launches made, the command of a COPY. -/
structure Packet where
  index : Nat
  words : List Word
  started : Bool
  satisfied : Bool
  complete : Bool
  count : Nat
  launched : Nat
  copy : Option CopyCmd
deriving DecidableEq, Repr

/-- A packet that is being read (R313): its index, and the words that have been read, its header first. -/
structure RingRead where
  index : Nat
  words : List (Option Word)
deriving DecidableEq, Repr

/-- A registered queue (R312): its context, the PA of its state block, the packets accepted and not complete,
whether it holds a hardware slot, its place in the rotation and whether it has been served since it took it (R327), since when it is
parked, on which page, and for which packet (none: its ring), and the packet whose header has matched and whose body is being read (R313). -/
structure Queue where
  num : Nat
  pasid : Nat
  block : Nat
  packets : List Packet
  resident : Bool
  rank : Nat
  served : Bool
  parkedAt : Option Nat
  parkedOn : Option (Nat × AccKind)
  parkedBy : Option Nat
  reading : Option RingRead
deriving DecidableEq, Repr

/-- Power states (R385). -/
inductive Power where
  | off | boot | recovery | ready | fatal
deriving DecidableEq, Repr

/-- The soft-error block of a physical tile (R382). -/
structure SoftErrors where
  scrub : Nat
  sramc : Nat
  mxrep : Nat
  mxcor : Nat
  rillc : Nat
  casc : Nat
  uncor : Nat
  parr : Nat
deriving DecidableEq, Repr

/-- The counters of a soft-error block that errors outside the model's own steps raise (R380, R382). -/
inductive SoftCounter where
  | sramc | rillc | casc | parr
deriving DecidableEq, Repr

/-- A firmware slot (R392): an image, which carries its version, its signature and whether that verifies. -/
structure FwSlot where
  image : List Byte
  sig : List Byte
  verified : Bool
deriving DecidableEq, Repr

/-- The power-on state (R4, R391) and the firmware-reserved ranges of local HBM (R330): the cycle in which bring-up ends, the number of the
challenge that the next peer must sign, the mode of the port in use and as the configuration store has it (true: 1.6 Tb/s, R389). -/
structure Board where
  power : Power
  fuses : List PhysTile
  field : List PhysTile
  repair : List PhysTile
  unusable : List Nat
  soft : List (PhysTile × SoftErrors)
  layout : List (Nat × Nat)
  nextLayout : List (Nat × Nat)
  position : Nat
  nextPosition : Nat
  fw : List FwSlot
  active : Nat
  booted : Nat
  minVersion : Nat
  fwFailed : Bool
  measurement : List Byte
  provisioned : List (List Byte)
  cap : Nat
  duty : List Nat
  cistern : Option (List Byte × Nat)
  coreDown : List (Nat × Nat)
  coreUp : List (Nat × Nat)
  conns : Nat
  bootAt : Nat
  challenge : Nat
  port : Bool
  nextPort : Bool
  reserved : List (Nat × Nat)
deriving DecidableEq, Repr

/-- An answer to a management request (R390): its header, status and body. -/
structure Reply where
  h : MgmtHdr
  status : Nat
  body : List Byte
deriving DecidableEq, Repr

/-- What the outside world does to the module: an event of the opcode table, an RDMA write or read of the host, over a connection that has
been accepted, in a context's virtual space or at a physical address (R389), a soft error in a place of storage or an accumulator, an
array error of a matrix engine, an error that a result in flight meets and the begin or end of a replay in a datapath (R380), a key
provisioned, the port mode put into the configuration store (R389), a shard written into a context's checkpoint store and an error in one
of its blocks (R378), a management request with an `OP` that R390 does not list. -/
inductive Input where
  | op (i : Instr)
  | hostWrite (conn pasid va : Nat) (bs : List Byte)
  | hostWritePa (conn pa : Nat) (bs : List Byte)
  | hostRead (conn pasid va n : Nat)
  | hostReadPa (conn pa n : Nat)
  | poison (p : Place)
  | poisonAcc (k : TileKey) (acc : Nat)
  | portMode (full : Bool)
  | corrected (k : TileKey) (c : SoftCounter)
  | upset (k : TileKey) (u : MxUpset)
  | strike (k : TileKey) (n : Nat)
  | replay (k : TileKey) (n : Nat) (on : Bool)
  | provision (key : List Byte)
  | store (pasid : Nat) (slot : Bool) (x : Shard)
  | poisonStore (pasid : Nat) (slot : Bool) (block : Nat)
  | unknownOp (h : MgmtHdr)
deriving DecidableEq, Repr

/-- A timed domain that takes its turn in a cycle (R19, R20): its tiles, and whether it is a Rill's domain. -/
structure Domain where
  tiles : List TileKey
  rill : Option LaunchKey
deriving DecidableEq, Repr

/-- The state of the module: the tile in focus and the others, launches, contexts, queues, HBM, the board, the
wall clock and the global logical-time counter, what has left the module (answers, shards streamed, bytes that the host has read, requests
to other modules), management requests that wait behind an earlier one of their connection (R390), the hub's translation cache by PASID,
and the model's own fields (inputs, turn, fresh, draws). -/
structure State where
  tile : Tile
  others : List Tile
  launches : List Launch
  contexts : List Context
  queues : List Queue
  hbm : Mem
  hbmPoison : List Nat
  board : Board
  cycle : Nat
  counter : Nat
  inputs : List Input
  replies : List Reply
  streamed : List (Nat × List Byte)
  hostReads : List (List Byte)
  waiting : List Input
  hubTlb : List (Nat × TlbEntry)
  remoteOut : List RemoteReq
  turn : List Domain
  fresh : Nat
  draws : Nat
deriving DecidableEq, Repr

/-- Why the machine stops with a fault. No step of this machine stops so: an access to an address that does not
exist raises the trap the spec names (R136, R142, R330), which is a next state. -/
inductive Fault where
  /-- Raised by nothing but an event named for a tile, launch, context or queue that the machine does not hold
  (there is nothing it could act on): safe. -/
  | noSuchObject
deriving DecidableEq, Repr

/-- Why an instruction has no meaning in a state. -/
inductive Refusal where
  /-- An instruction the model has not reached: safe. -/
  | notModelled (mnemonic : String)
  /-- An event that the rules do not let happen in this state (its trigger does not hold), raised by the event's
  meaning: safe. -/
  | notEnabled
deriving DecidableEq, Repr

/-- All latches invalid (R68). -/
def Latches.invalid : Latches :=
  ⟨List.replicate 8 none, List.replicate 8 none, List.replicate 8 none, List.replicate 8 none,
    List.replicate 8 none, List.replicate 8 none⟩

/-- The register files at arming: zero, p0 all ones (R70). -/
def Regs.reset : Regs :=
  { s := Vector.replicate 32 0, va := Vector.replicate 32 0, vb := Vector.replicate 32 0,
    xa := Vector.replicate 16 0, xb := Vector.replicate 16 0, m := Vector.replicate 16 0,
    p := (Vector.replicate 16 (0 : Word)).setIfInBounds 0 (-1), bad := [] }

/-- The CSRs at arming (R94). -/
def Csrs.reset : Csrs :=
  { fpcr := 0, fpsr := 0, trapcause := 0, trappc := 0, trapinfo := 0, tvec := 0, vfmta := 1, vfmtb := 1,
    nif := 0x606, atdue := 128, ftab := List.replicate 16 0x01010101, ftsel := 0, stepcnt := 0, depth := 0,
    prebound := 4096, stopflag := 0, maxk := 64, detmode := 0 }

/-- The governing formats at arming: the reset values of the registers (R94, R193). -/
def Gov.reset : Gov :=
  { fpcr := 0, vfmta := 1, vfmtb := 1, nif := 0x606, ftab := List.replicate 16 0x01010101,
    ftabMx := List.replicate 16 0x01010101, ftsel := 0, mfr := 0x21 }

def LoopUnit.reset : LoopUnit := ⟨List.replicate 6 none, []⟩

def Spad.reset : Spad := ⟨[], [], [], none⟩

def MxCfg.reset : MxCfg :=
  ⟨0, List.replicate 6 0, 0, 0, List.replicate 4 0, false⟩

def Matrix.reset : Matrix :=
  { cfg := MxCfg.reset, rings := List.replicate 4 ⟨0, 0, 0⟩, accs := List.replicate 4 [],
    poison := List.replicate 4 false, stk := List.replicate 4 ⟨false, 0, []⟩, active := none, pending := none,
    freeAt := 0, curAcc := 0, nlev := 0, steps := 0, marks := List.replicate 6 [0, 0, 0, 0],
    index := List.replicate 6 0, mirrorUse := false, shadow := none, restored := false, reloaded := false,
    upset := none }

def Cascade.reset : Cascade :=
  { cmr := 0x40, banks := [], poison := [], rot := 0, subs := [], xfers := [], rowFree := 0, written := 0,
    penalty := 0, corrected := 0 }

def CopyQueue.reset : CopyQueue := ⟨0, 0, 0, 0, []⟩

def Gang.alone (id : Nat) : Gang := ⟨id, 1, [], 0, 0, [], 0, none⟩

def Issue.idle : Issue := ⟨.s, 0, 0, 0, none, false, none, none, none, false, false, none⟩

/-- A tile with the register values of arming (R70, R94) and no program: what the tile in focus is at module
reset, and what arming starts from. -/
def Tile.blank (k : TileKey) : Tile :=
  { key := k, launch := 0, phase := .parked, tick := 0, startTick := 0, pc := 0, imem := [], imemBad := [], progLen := 0,
    grid := 1, regs := Regs.reset, latches := Latches.invalid, csrs := Csrs.reset, gov := Gov.reset, seed := 0,
    inflight := [], seq := 0, replays := [], landings := [], loops := LoopUnit.reset, waits := [], spad := Spad.reset,
    regions := [], faults := [], deferred := [], far := [], buffer := [], bufferBad := [], sent := [], basin := [], skid := [], received := [],
    claims := [], mx := Matrix.reset, casc := Cascade.reset, queues := List.replicate 32 CopyQueue.reset,
    berth := .free, station := [], gang := Gang.alone k.id, freeze := none, triggered := none,
    stopAt := none, iss := Issue.idle }

/-- The 512 bits of SHAKE256 over an image of no bytes, the firmware in the model's slot 0 at reset (R391 step 3, log entry 1). -/
def emptyMeasure : List Byte :=
  [0x46, 0xb9, 0xdd, 0x2b, 0x0b, 0xa8, 0x8d, 0x13, 0x23, 0x3b, 0x3f, 0xeb, 0x74, 0x3e, 0xeb, 0x24] ++
  [0x3f, 0xcd, 0x52, 0xea, 0x62, 0xb8, 0x1b, 0x82, 0xb5, 0x0c, 0x27, 0x64, 0x6e, 0xd5, 0x76, 0x2f] ++
  [0xd7, 0x5d, 0xc4, 0xdd, 0xd8, 0xc0, 0xf2, 0x00, 0xcb, 0x05, 0x01, 0x9d, 0x67, 0xb5, 0x92, 0xf6] ++
  [0xfc, 0x82, 0x1c, 0x49, 0x47, 0x9a, 0xb4, 0x86, 0x40, 0x29, 0x2e, 0xac, 0xb3, 0xb7, 0xc4, 0xbe]

/-- The board after bring-up (R391): READY, one partition of eight dies (log entry 15). -/
def Board.reset : Board :=
  { power := .ready, fuses := [], field := [], repair := [], unusable := [], soft := [], layout := [(0, 3)],
    nextLayout := [(0, 3)], position := 0, nextPosition := 0,
    fw := [⟨[], [], true⟩, ⟨[], [], false⟩], active := 0, booted := 0, minVersion := 0, fwFailed := false,
    measurement := emptyMeasure, provisioned := [], cap := 9200, duty := List.replicate 8 64,
    cistern := none, coreDown := [], coreUp := [], conns := 0, bootAt := 0, challenge := 0, port := true, nextPort := true,
    reserved := (List.range 16).map fun k => (k * 2 ^ 36 + 60000000000, k * 2 ^ 36 + 64000000000) }

/-- The module right after reset: bring-up has ended (R391 step 8), every store is zero, no context exists. -/
def State.reset : State :=
  { tile := Tile.blank ⟨0, 0⟩, others := [], launches := [], contexts := [], queues := [], hbm := [],
    hbmPoison := [], board := Board.reset, cycle := 0, counter := 0, inputs := [], replies := [], streamed := [], hostReads := [], waiting := [],
    hubTlb := [], remoteOut := [], turn := [], fresh := 0, draws := 0 }

end Sys2Proof.Machine
end

