-- ==== Sys2Proof/Machine/Bits.lean ====
section
/-! DEFINITION. Bit fields, integer views of words, byte and element stores: the helpers every meaning uses. -/

namespace Sys2Proof.Machine

/-- Bits [lo + n - 1 : lo] of a word as a number (R6). -/
def bits {k : Nat} (v : BitVec k) (lo n : Nat) : Nat := fld v.toNat lo n

/-- One bit of a word. -/
def bit {k : Nat} (v : BitVec k) (i : Nat) : Bool := v.getLsbD i

/-- A number with bits [lo + n - 1 : lo] replaced. -/
def putField (x lo n v : Nat) : Nat := x - fld x lo n * 2 ^ lo + (v % 2 ^ n) * 2 ^ lo

/-- A 64-bit word of a number, modulo 2^64. -/
def word (n : Nat) : Word := BitVec.ofNat 64 n

/-- A 64-bit word of an integer, modulo 2^64. -/
def wordI (x : Int) : Word := BitVec.ofInt 64 x

/-- Number of one bits among the low n bits. -/
def popCount : Nat → Nat → Nat
  | 0, _ => 0
  | n + 1, x => x % 2 + popCount n (x / 2)

/-- Number of trailing zero bits of an n-bit number, n for zero. -/
def trailingZeros : Nat → Nat → Nat
  | 0, _ => 0
  | n + 1, x => if x % 2 = 1 then 0 else 1 + trailingZeros n (x / 2)

/-- Number of leading zero bits of an n-bit number, n for zero. -/
def leadingZeros (n x : Nat) : Nat := if x = 0 then n else n - 1 - Nat.log2 x

/-- The bytes of a word in reverse order (R83, BSWAP). -/
def byteSwap (w : Word) : Word := word (natOfBytes (bytesOfNat 8 w.toNat).reverse)

/-- All ones or all zeros (R88). -/
def boolWord (b : Bool) : Word := if b then -1 else 0

/-- Whether two ranges overlap. -/
def overlaps (a n b m : Nat) : Bool := decide (a < b + m) && decide (b < a + n)

/-- ⌈a / b⌉. -/
def ceilDiv (a b : Nat) : Nat := (a + b - 1) / b

/-! Byte memories. -/

/-- One byte: zero where nothing is listed. -/
def Mem.read1 : Mem → Nat → Byte
  | [], _ => 0
  | (k, b) :: t, a => if k = a then b else Mem.read1 t a

/-- Write one byte, keeping the canonical form: zero is not listed. -/
def Mem.write1 : Mem → Nat → Byte → Mem
  | [], a, b => if b = 0 then [] else [(a, b)]
  | (k, c) :: t, a, b =>
    if a < k then (if b = 0 then (k, c) :: t else (a, b) :: (k, c) :: t)
    else if a = k then (if b = 0 then t else (a, b) :: t)
    else (k, c) :: Mem.write1 t a b

/-- The n bytes from an address, lowest first. -/
def Mem.read (m : Mem) (a : Nat) : Nat → List Byte
  | 0 => []
  | n + 1 => Mem.read1 m a :: Mem.read m (a + 1) n

/-- Write bytes from an address upward. -/
def Mem.write (m : Mem) (a : Nat) : List Byte → Mem
  | [] => m
  | b :: bs => Mem.write (Mem.write1 m a b) (a + 1) bs

/-- The canonical form of a memory: addresses strictly rising and no zero byte listed. -/
def Mem.wf : Mem → Bool
  | [] => true
  | (_, b) :: [] => b != 0
  | (k, b) :: (l, c) :: t => b != 0 && decide (k < l) && Mem.wf ((l, c) :: t)

/-- A little-endian word of n bytes (R6). -/
def Mem.readNat (m : Mem) (a n : Nat) : Nat := natOfBytes (Mem.read m a n)

/-- A little-endian 64-bit word. -/
def Mem.readWord (m : Mem) (a : Nat) : Word := word (Mem.readNat m a 8)

/-! Sparse elements. -/

def Elems.get : Elems → Nat → Nat
  | [], _ => 0
  | (k, v) :: t, i => if k = i then v else Elems.get t i

def Elems.set : Elems → Nat → Nat → Elems
  | [], i, v => if v = 0 then [] else [(i, v)]
  | (k, u) :: t, i, v =>
    if i < k then (if v = 0 then (k, u) :: t else (i, v) :: (k, u) :: t)
    else if i = k then (if v = 0 then t else (i, v) :: t)
    else (k, u) :: Elems.set t i v

/-- The canonical form of sparse elements. -/
def Elems.wf : Elems → Bool
  | [] => true
  | (_, v) :: [] => v != 0
  | (k, v) :: (l, u) :: t => v != 0 && decide (k < l) && Elems.wf ((l, u) :: t)

/-- The elements of a list, numbered from i. -/
def Elems.ofListFrom (i : Nat) : List Nat → Elems
  | [] => []
  | v :: t => if v = 0 then Elems.ofListFrom (i + 1) t else (i, v) :: Elems.ofListFrom (i + 1) t

/-- Elements i to i + n - 1 as a list, in one pass over a canonical store. -/
def Elems.toListFrom (e : Elems) (i n : Nat) : List Nat :=
  match n with
  | 0 => []
  | n + 1 =>
    match e with
    | [] => 0 :: Elems.toListFrom [] (i + 1) n
    | (k, v) :: t =>
      if k = i then v :: Elems.toListFrom t (i + 1) n
      else if k < i then Elems.get ((k, v) :: t) i :: Elems.toListFrom ((k, v) :: t) (i + 1) n
      else 0 :: Elems.toListFrom ((k, v) :: t) (i + 1) n

/-! Lists as small tables. -/

/-- The value of a key, or a default. -/
def assocGet (l : List (Nat × Nat)) (k d : Nat) : Nat :=
  match l with
  | [] => d
  | (j, v) :: t => if j = k then v else assocGet t k d

/-- Set the value of a key, keeping the first occurrence's place. -/
def assocSet (l : List (Nat × Nat)) (k v : Nat) : List (Nat × Nat) :=
  match l with
  | [] => [(k, v)]
  | (j, u) :: t => if j = k then (k, v) :: t else (j, u) :: assocSet t k v

/-- Insert a number into a rising list. -/
def insertNat (x : Nat) : List Nat → List Nat
  | [] => [x]
  | y :: t => if x < y then x :: y :: t else if x = y then y :: t else y :: insertNat x t

/-- Insertion into a list ordered by a key, after entries of equal key (a stable sort). -/
def insertBy {α : Type} (key : α → Nat) (x : α) : List α → List α
  | [] => [x]
  | y :: t => if key x < key y then x :: y :: t else y :: insertBy key x t

/-- A stable sort by a key. -/
def sortBy {α : Type} (key : α → Nat) (l : List α) : List α := l.foldl (fun acc x => insertBy key x acc) []

/-- The element at a place replaced, nothing beyond the end. -/
def listSet {α : Type} (l : List α) (i : Nat) (v : α) : List α := l.set i v

/-- An element with a default. -/
def listGet {α : Type} (l : List α) (i : Nat) (d : α) : α := (l[i]?).getD d

end Sys2Proof.Machine
end

