-- ==== Sys2Proof/Machine/Keccak.lean ====
section
/-! DEFINITION. SHAKE256 and KMAC256 over bytes (FIPS 202, NIST SP 800-185), which R326, R344, R366, R374 and R391
name. A Keccak state is 25 lanes of 64 bits, lane x + 5 y. -/

namespace Sys2Proof.Machine

/-- For each lane its place on the walk of rho, which goes from (x, y) to (y, 2x + 3y) and begins at (1, 0); the lane (0, 0) is not
on it. -/
def rhoPlace : List Nat :=
  [0, 1, 19, 7, 13] ++ [8, 24, 3, 10, 23] ++
  [2, 4, 18, 17, 21] ++ [14, 9, 5, 6, 16] ++
  [20, 11, 22, 15, 12]

/-- The n-th lane of the walk of rho turns by the n-th triangular number. -/
def rhoTurn (n : Nat) : Nat := n * (n + 1) / 2 % 64

/-- The constants of iota, seven bits each: bit j of a code stands for bit 2^j - 1 of the constant. -/
def iotaCodes : List Nat :=
  [0x01, 0x1A, 0x5E, 0x70, 0x1F, 0x21, 0x79, 0x55] ++ [0x0E, 0x0C, 0x35, 0x26, 0x3F, 0x4F, 0x5D, 0x53] ++
  [0x52, 0x48, 0x16, 0x66, 0x79, 0x58, 0x21, 0x74]

/-- The constant of a code. -/
def iotaWord (code : Nat) : Word :=
  (List.range 7).foldl (fun acc j => if fld code j 1 = 1 then acc ||| (1 <<< (2 ^ j - 1)) else acc) 0

def lane (a : List Word) (i : Nat) : Word := (a[i]?).getD 0

/-- The parity of column x of the state. -/
def column (a : List Word) (x : Nat) : Word := (List.range 5).foldl (fun w y => w ^^^ lane a (x + 5 * y)) 0

/-- Theta and rho: each lane takes the parities of the two columns beside it and turns. -/
def thetaRho (a : List Word) : List Word :=
  let cs := (List.range 5).map (column a)
  let turns := (List.range 5).map fun x => lane cs ((x + 4) % 5) ^^^ (lane cs ((x + 1) % 5)).rotateLeft 1
  (List.zip (List.range 25) rhoPlace).map fun p => (lane a p.1 ^^^ lane turns (p.1 % 5)).rotateLeft (rhoTurn p.2)

/-- Pi and chi on row y: lane (x, y) takes lane (x + 3y, x) of before, then the complement of the next and the one after. -/
def piChi (t : List Word) (y : Nat) : List Word :=
  let row := (List.range 5).map fun x => lane t ((x + 3 * y) % 5 + 5 * x)
  (List.range 5).map fun x => lane row x ^^^ (lane row ((x + 2) % 5) &&& ~~~ lane row ((x + 1) % 5))

/-- One round, with the code of its constant. -/
def keccakRound (a : List Word) (code : Nat) : List Word :=
  match (List.range 5).flatMap (piChi (thetaRho a)) with
  | first :: others => (first ^^^ iotaWord code) :: others
  | [] => []

def keccakF (a : List Word) : List Word := iotaCodes.foldl keccakRound a

/-- XOR a block of bytes into the state. -/
def absorbBlock (a : List Word) (blk : List Byte) : List Word :=
  let n := natOfBytes blk
  (List.range 25).map fun i => lane a i ^^^ word (fld n (64 * i) 64)

/-- Absorb padded bytes, one rate block of 136 bytes per unit of fuel. -/
def absorb : Nat → List Word → List Byte → List Word
  | 0, a, _ => a
  | n + 1, a, bs => absorb n (keccakF (absorbBlock a (bs.take 136))) (bs.drop 136)

/-- Squeeze n blocks of 136 bytes. -/
def squeeze : Nat → List Word → List Byte
  | 0, _ => []
  | n + 1, a =>
    ((a.take 17).foldr (fun w acc => bytesOfNat 8 w.toNat ++ acc) []) ++ squeeze n (keccakF a)

/-- Pad a message to a multiple of 136 bytes with a domain byte and the final bit. -/
def keccakPad (dom : Nat) (m : List Byte) : List Byte :=
  let k := 136 - m.length % 136
  if k = 1 then m ++ [BitVec.ofNat 8 (dom + 128)]
  else m ++ [BitVec.ofNat 8 dom] ++ List.replicate (k - 2) 0 ++ [128]

/-- The Keccak sponge with capacity 512. -/
def sponge (dom : Nat) (m : List Byte) (out : Nat) : List Byte :=
  let p := keccakPad dom m
  (squeeze (ceilDiv out 136) (absorb (p.length / 136) (List.replicate 25 0) p)).take out

/-- SHAKE256 with out bytes of output. -/
def shake256 (m : List Byte) (out : Nat) : List Byte := sponge 0x1F m out

/-- Bytes of a number, highest first, without leading zeros (at least one byte). -/
def bytesBE (n : Nat) : List Byte := (bytesOfNat (max 1 (Nat.log2 n / 8 + 1)) n).reverse

def leftEncode (n : Nat) : List Byte := BitVec.ofNat 8 (bytesBE n).length :: bytesBE n
def rightEncode (n : Nat) : List Byte := bytesBE n ++ [BitVec.ofNat 8 (bytesBE n).length]
def encodeString (s : List Byte) : List Byte := leftEncode (8 * s.length) ++ s

/-- bytepad to 136 bytes. -/
def bytePad (s : List Byte) : List Byte :=
  let z := leftEncode 136 ++ s
  z ++ List.replicate ((136 - z.length % 136) % 136) 0

/-- cSHAKE256 with function name and customization. -/
def cshake256 (m : List Byte) (out : Nat) (name custom : List Byte) : List Byte :=
  sponge 0x04 (bytePad (encodeString name ++ encodeString custom) ++ m) out

/-- KMAC256 with 256 bits of output (R344, R374). -/
def kmac256 (key m custom : List Byte) : List Byte :=
  cshake256 (bytePad (encodeString key) ++ m ++ rightEncode 256) 32 [0x4B, 0x4D, 0x41, 0x43] custom

/-- "EYX1280 ", with which the names of what is signed or tagged begin (R344, R367, R374). -/
def deviceString : List Byte := [0x45, 0x59, 0x58, 0x31, 0x32, 0x38, 0x30, 0x20]

/-- "EYX1280 CKPT" (R374, R375). -/
def ckptString : List Byte := deviceString ++ [0x43, 0x4B, 0x50, 0x54]

/-- "EYX1280 SAVE" (R344). -/
def saveString : List Byte := deviceString ++ [0x53, 0x41, 0x56, 0x45]

/-- "EYX1280 LAUNCH" (R367). -/
def launchString : List Byte := deviceString ++ [0x4C, 0x41, 0x55, 0x4E, 0x43, 0x48]

end Sys2Proof.Machine
end

