-- ==== Sys2Proof/Machine/Numbers.lean ====
section
/-! DEFINITION. The number formats (R31 to R56): exact values, one rounding into each format (R35 to R39, R45),
and the operations of the vector slots, the matrix engine, the Cascade and the switch on one element. -/

namespace Sys2Proof.Machine

/-- An exact value: NaN (signalling or not), an infinity, or a signed magnitude mag x 2^exp, where more says that
the true magnitude lies strictly between mag and mag + 1 units. -/
inductive FVal where
  | nan (sig : Bool)
  | inf (neg : Bool)
  | num (neg : Bool) (mag : Nat) (exp : Int) (more : Bool)
deriving DecidableEq, Repr

def FVal.zero (neg : Bool) : FVal := .num neg 0 0 false

def flagNV : Flags := 1
def flagDZ : Flags := 2
def flagOF : Flags := 4
def flagUF : Flags := 8
def flagNX : Flags := 16

/-- A binary format with a sign bit (R34, R44): exponent bits, fraction bits, whether it has infinities (R44), and
whether FZ applies (R31). -/
structure Binary where
  eb : Nat
  fb : Nat
  inf : Bool
  fz : Bool
deriving DecidableEq, Repr

def Binary.bias (p : Binary) : Int := 2 ^ (p.eb - 1) - 1

/-- Bits below the sign. -/
def Binary.low (p : Binary) : Nat := p.eb + p.fb

/-- Exponent of the smallest normal. -/
def Binary.emin (p : Binary) : Int := 1 - p.bias

/-- The word of the largest finite magnitude (R34, R44). -/
def Binary.maxWord (p : Binary) : Nat :=
  if p.inf then (2 ^ p.eb - 1) * 2 ^ p.fb - 1 else 2 ^ p.low - 2

/-- The default NaN (R34, R44). -/
def Binary.nanWord (p : Binary) : Nat :=
  if p.inf then (2 ^ p.eb - 1) * 2 ^ p.fb + 2 ^ (p.fb - 1) else 2 ^ p.low - 1

def Binary.infWord (p : Binary) : Nat := (2 ^ p.eb - 1) * 2 ^ p.fb

def fp64 : Binary := ⟨11, 52, true, true⟩
def fp32 : Binary := ⟨8, 23, true, true⟩
def fp16 : Binary := ⟨5, 10, true, true⟩
def bf16 : Binary := ⟨8, 7, true, true⟩
def e4m3 : Binary := ⟨4, 3, false, false⟩
def e5m2 : Binary := ⟨5, 2, true, false⟩
/-- The E2M1 elements of MXFP4 (R46): no infinity and no NaN. -/
def e2m1 : Binary := ⟨2, 1, false, false⟩

/-- Word of the largest finite magnitude of an element format: E2M1 uses every code (R46). -/
def Binary.topWord (p : Binary) : Nat := if p.eb = 2 then 7 else p.maxWord

/-- The value of a word (R34, R44, R46); with fz a subnormal of an IEEE format reads as zero of its sign (R35). -/
def Binary.value (p : Binary) (fz : Bool) (w : Nat) : FVal :=
  let neg := fld w p.low 1 == 1
  let e := fld w p.fb p.eb
  let f := fld w 0 p.fb
  if p.eb = 2 then
    if e = 0 then .num neg f (p.emin - p.fb) false else .num neg (2 ^ p.fb + f) (e - p.bias - p.fb) false
  else if e = 2 ^ p.eb - 1 ∧ p.inf then
    if f = 0 then .inf neg else .nan (p.fz && fld f (p.fb - 1) 1 == 0)
  else if e = 2 ^ p.eb - 1 ∧ f = 2 ^ p.fb - 1 then .nan false
  else if e = 0 then
    if f = 0 ∨ (fz ∧ p.fz) then .zero neg else .num neg f (p.emin - p.fb) false
  else .num neg (2 ^ p.fb + f) (e - p.bias - p.fb) false

/-- Round a magnitude to a multiple of 2^q under a mode (R38): the multiple and whether it is inexact. -/
def roundAt (mode : Rnd) (neg : Bool) (mag : Nat) (exp : Int) (more : Bool) (q : Int) : Nat × Bool :=
  if q ≤ exp then (mag * 2 ^ (exp - q).toNat, more)
  else
    let d := (q - exp).toNat
    let n := mag / 2 ^ d
    let r := mag % 2 ^ d
    let half := 2 ^ (d - 1)
    let inexact := decide (r ≠ 0) || more
    let above := decide (half < r) || (decide (r = half) && more)
    let tie := decide (r = half) && !more
    let up := match mode with
      | .rne => above || (tie && n % 2 == 1)
      | .rna => above || tie
      | .rtz => false
      | .rup => !neg && inexact
      | .rdn => neg && inexact
    (if up then n + 1 else n, inexact)

/-- Whether an overflow delivers an infinity (R38). -/
def overflowsToInf (mode : Rnd) (neg : Bool) : Bool :=
  match mode with
  | .rne => true
  | .rna => true
  | .rtz => false
  | .rup => !neg
  | .rdn => neg

/-- The word a binary format delivers for an infinity (R45). -/
def Binary.ofInf (p : Binary) (sat : Bool) : Nat :=
  if sat then p.topWord else if p.inf then p.infWord else p.nanWord

/-- Round(fmt, x, mode) for a nonzero magnitude (R35, R36, R38, R45): word without sign, and flags. -/
def Binary.roundMag (p : Binary) (mode : Rnd) (fz sat neg : Bool) (mag : Nat) (exp : Int) (more : Bool) :
    Nat × Flags :=
  let e : Int := Nat.log2 mag + exp
  let n1 := (roundAt mode neg mag exp more (e - p.fb)).1
  let i1 := (roundAt mode neg mag exp more (e - p.fb)).2
  let e1 : Int := Nat.log2 n1 + (e - p.fb)
  if e1 < p.emin then
    if fz && p.fz then (0, flagUF ||| flagNX)
    else
      let r := roundAt mode neg mag exp more (p.emin - p.fb)
      (r.1, if r.2 then flagUF ||| flagNX else 0)
  else
    let w := ((e1 + p.bias).toNat - 1) * 2 ^ p.fb + n1 / 2 ^ (Nat.log2 n1 - p.fb)
    if p.topWord < w then
      (if overflowsToInf mode neg then p.ofInf sat else p.topWord, flagOF ||| flagNX)
    else (w, if i1 then flagNX else 0)

/-- Deliver an exact value into a binary format (R35 to R38, R45). A NaN delivers the positive default NaN (R37);
its NV is raised by the operation that read it. An infinite input that is saturated differs from what is delivered, which is NX and no
NV (R36, R45). -/
def Binary.deliver (p : Binary) (mode : Rnd) (fz sat : Bool) (x : FVal) : Nat × Flags :=
  match x with
  | .nan _ => (p.nanWord, 0)
  | .inf neg =>
    let s := if neg then 2 ^ p.low else 0
    if sat then (s + p.topWord, flagNX)
    else if p.inf then (s + p.infWord, 0) else (p.nanWord, flagNV)
  | .num neg mag exp more =>
    let s := if neg then 2 ^ p.low else 0
    if mag = 0 ∧ more = false then (s, 0)
    else
      let r := p.roundMag mode fz sat neg mag exp more
      if r.1 = p.nanWord ∧ p.inf = false ∧ p.eb ≠ 2 then (p.nanWord, r.2) else (s + r.1, r.2)

/-! Exact operations (R35, R36). Each gives the exact value and the flags of invalid and division by zero. -/

def FVal.isNaN : FVal → Bool
  | .nan _ => true
  | _ => false

def FVal.isSig : FVal → Bool
  | .nan s => s
  | _ => false

def FVal.isZero : FVal → Bool
  | .num _ m _ r => m == 0 && !r
  | _ => false

def FVal.sign : FVal → Bool
  | .nan _ => false
  | .inf n => n
  | .num n _ _ _ => n

def FVal.withSign (x : FVal) (neg : Bool) : FVal :=
  match x with
  | .nan s => .nan s
  | .inf _ => .inf neg
  | .num _ m e r => .num neg m e r

def FVal.negate (x : FVal) : FVal := x.withSign (!x.sign)

/-- NV for a signalling NaN among the operands (R36). -/
def sigFlags (xs : List FVal) : Flags := if xs.any FVal.isSig then flagNV else 0

/-- The integer of a magnitude in units of 2^q, q at or below its exponent. -/
def scaled (neg : Bool) (mag : Nat) (exp q : Int) : Int :=
  let m : Int := mag * 2 ^ (exp - q).toNat
  if neg then -m else m

/-- Exact sum, with the zero sign rule of R108. -/
def FVal.add (mode : Rnd) (a b : FVal) : FVal × Flags :=
  match a, b with
  | .nan s, y => (.nan false, if s || y.isSig then flagNV else 0)
  | x, .nan s => (.nan false, if s || x.isSig then flagNV else 0)
  | .inf m, .inf n => if m = n then (.inf m, 0) else (.nan false, flagNV)
  | .inf m, _ => (.inf m, 0)
  | _, .inf n => (.inf n, 0)
  | .num na ma ea _, .num nb mb eb _ =>
    if ma = 0 ∧ mb = 0 then (.zero (if na = nb then na else mode == .rdn), 0)
    else if ma = 0 then (b, 0)
    else if mb = 0 then (a, 0)
    else
      let q := min ea eb
      let t := scaled na ma ea q + scaled nb mb eb q
      if t = 0 then (.zero (mode == .rdn), 0) else (.num (decide (t < 0)) t.natAbs q false, 0)

/-- Exact product. -/
def FVal.mul (a b : FVal) : FVal × Flags :=
  match a, b with
  | .nan s, y => (.nan false, if s || y.isSig then flagNV else 0)
  | x, .nan s => (.nan false, if s || x.isSig then flagNV else 0)
  | .inf m, y => if y.isZero then (.nan false, flagNV) else (.inf (m != y.sign), 0)
  | x, .inf n => if x.isZero then (.nan false, flagNV) else (.inf (x.sign != n), 0)
  | .num na ma ea _, .num nb mb eb _ => (.num (na != nb) (ma * mb) (ea + eb) false, 0)

/-- a x b + d, exact; 0 x infinity is invalid even when d is a quiet NaN (R110). -/
def FVal.fma (mode : Rnd) (a b d : FVal) : FVal × Flags :=
  let p := FVal.mul a b
  let s := FVal.add mode p.1 d
  (s.1, p.2 ||| s.2)

/-- Bits of quotient and root kept before the sticky mark: more than any format's precision. -/
def keepBits : Nat := 140

/-- The quotient of two magnitudes with at least keepBits bits, and whether it is inexact. -/
def quotient (ma : Nat) (ea : Int) (mb : Nat) (eb : Int) : Nat × Int × Bool :=
  let k := keepBits + Nat.log2 mb + 1 - Nat.log2 ma
  let n := ma * 2 ^ k
  (n / mb, ea - eb - k, decide (n % mb ≠ 0))

/-- Division of IEEE 754 (R110, R111). -/
def FVal.div (a b : FVal) : FVal × Flags :=
  match a, b with
  | .nan s, y => (.nan false, if s || y.isSig then flagNV else 0)
  | x, .nan s => (.nan false, if s || x.isSig then flagNV else 0)
  | .inf m, y => match y with
    | .inf _ => (.nan false, flagNV)
    | y => (.inf (m != y.sign), 0)
  | x, .inf n => (.zero (x.sign != n), 0)
  | .num na ma ea _, .num nb mb eb _ =>
    if mb = 0 then if ma = 0 then (.nan false, flagNV) else (.inf (na != nb), flagDZ)
    else if ma = 0 then (.zero (na != nb), 0)
    else
      let q := quotient ma ea mb eb
      (.num (na != nb) q.1 q.2.1 q.2.2, 0)

/-- Integer square root: one result bit per unit of fuel, from bit n - 1 down. -/
def isqrtGo : Nat → Nat → Nat → Nat
  | 0, _, r => r
  | n + 1, x, r => isqrtGo n x (if (r + 2 ^ n) * (r + 2 ^ n) ≤ x then r + 2 ^ n else r)

def isqrt (x : Nat) : Nat := isqrtGo (Nat.log2 x / 2 + 1) x 0

/-- Square root (R111). -/
def FVal.sqrt (a : FVal) : FVal × Flags :=
  match a with
  | .nan s => (.nan false, if s then flagNV else 0)
  | .inf neg => if neg then (.nan false, flagNV) else (.inf false, 0)
  | .num neg m e _ =>
    if m = 0 then (.zero neg, 0)
    else if neg then (.nan false, flagNV)
    else
      let k : Nat := 2 * keepBits + (e % 2).toNat
      let x := m * 2 ^ k
      let r := isqrt x
      (.num false r ((e - k) / 2) (decide (r * r ≠ x)), 0)

/-- Reciprocal (R111). -/
def FVal.rcp (a : FVal) : FVal × Flags := FVal.div (.num false 1 0 false) a

/-- Reciprocal square root (R111). -/
def FVal.rsq (a : FVal) : FVal × Flags :=
  match a with
  | .nan s => (.nan false, if s then flagNV else 0)
  | .inf neg => if neg then (.nan false, flagNV) else (.zero false, 0)
  | .num neg m e _ =>
    if m = 0 then (.inf neg, flagDZ)
    else if neg then (.nan false, flagNV)
    else
      let x := m * 2 ^ (e % 2).toNat
      let h := (e - e % 2) / 2
      let k := keepBits + Nat.log2 x
      let r := isqrt (2 ^ (2 * k) / x)
      (.num false r (-(k : Int) - h) (decide (r * r * x ≠ 2 ^ (2 * k))), 0)

/-- Fraction bits of the fixed-point numbers that VEXP2 and VLOG2 use before one rounding (log entry 17). -/
def fixBits : Nat := 320

/-- Σ 1 / (k (2^k)) for k from n down: ln 2 in fixed point. -/
def ln2Sum : Nat → Nat
  | 0 => 0
  | k + 1 => ln2Sum k + 2 ^ (fixBits + 32) / ((k + 1) * 2 ^ (k + 1))

/-- ln 2 with fixBits fraction bits. -/
def ln2Fix : Nat := ln2Sum (fixBits + 32) / 2 ^ 32

/-- Taylor terms of e^y in fixed point, from term k on: t is y^(k - 1) / (k - 1)!. -/
def expTerms : Nat → Nat → Nat → Nat → Nat
  | 0, _, _, _ => 0
  | n + 1, k, y, t =>
    let u := t * y / (k * 2 ^ fixBits)
    u + expTerms n (k + 1) y u

/-- 2^f in fixed point, f a fraction in fixed point. -/
def exp2Frac (f : Nat) : Nat := 2 ^ fixBits + expTerms 80 1 (f * ln2Fix / 2 ^ fixBits) (2 ^ fixBits)

/-- 2^a (R111, R112): exact for an integer, else the value to more than 250 bits with the sticky mark. -/
def FVal.exp2 (a : FVal) : FVal × Flags :=
  match a with
  | .nan s => (.nan false, if s then flagNV else 0)
  | .inf neg => (if neg then .zero false else .inf false, 0)
  | .num neg m e _ =>
    if m = 0 then (.num false 1 0 false, 0)
    else
      let top : Int := Nat.log2 m + e
      if top < -100 then
        (if neg then .num false (2 ^ keepBits - 1) (-(keepBits : Int)) true else .num false (2 ^ keepBits) (-(keepBits : Int)) true, 0)
      else if 20 ≤ top then
        (.num false (2 ^ keepBits) (if neg then -2000000 else 2000000) true, 0)
      else
        let fix : Int := if 0 ≤ e + fixBits then scaled neg m (e + fixBits) 0 else 0
        let n := fix / 2 ^ fixBits
        let f := (fix % 2 ^ fixBits).toNat
        if f = 0 then (.num false 1 n false, 0)
        else (.num false (exp2Frac f / 2 ^ 64) (n - fixBits + 64) true, 0)

/-- Σ z^(2k+1) / (2k+1) in fixed point: atanh z. -/
def atanhTerms : Nat → Nat → Nat → Nat → Nat
  | 0, _, _, _ => 0
  | n + 1, k, zz, t => t / (2 * k + 1) + atanhTerms n (k + 1) zz (t * zz / 2 ^ fixBits)

/-- log2 (p / q) in fixed point for q ≤ p < 2q. -/
def log2Ratio (p q : Nat) : Nat :=
  let z := (p - q) * 2 ^ fixBits / (p + q)
  2 * atanhTerms 110 0 (z * z / 2 ^ fixBits) z * 2 ^ fixBits / ln2Fix

/-- log2 a (R111, R112): exact for a power of two, else to more than 250 bits with the sticky mark. -/
def FVal.log2 (a : FVal) : FVal × Flags :=
  match a with
  | .nan s => (.nan false, if s then flagNV else 0)
  | .inf neg => if neg then (.nan false, flagNV) else (.inf false, 0)
  | .num neg m e _ =>
    if m = 0 then (.inf true, flagDZ)
    else if neg then (.nan false, flagNV)
    else
      let l := Nat.log2 m
      let top : Int := l + e
      if m = 2 ^ l then
        (if top = 0 then .zero false else .num (decide (top < 0)) top.natAbs 0 false, 0)
      else
        let big := 2 * m > 3 * 2 ^ l
        let n : Int := if big then top + 1 else top
        let frac : Int := if big then -(log2Ratio (2 ^ (l + 1)) m : Int) else log2Ratio m (2 ^ l)
        let t := n * 2 ^ fixBits + frac
        (.num (decide (t < 0)) (t.natAbs / 2 ^ 64) (64 - fixBits) true, 0)

/-- ⌊log2 |a|⌋ as an exact value (R111). -/
def FVal.getexp (a : FVal) : FVal × Flags :=
  match a with
  | .nan s => (.nan false, if s then flagNV else 0)
  | .inf _ => (.inf false, 0)
  | .num _ m e _ =>
    if m = 0 then (.inf true, flagDZ)
    else
      let top : Int := Nat.log2 m + e
      (if top = 0 then .zero false else .num (decide (top < 0)) top.natAbs 0 false, 0)

/-- a rounded to an integral value (R112): the value and whether it changed. -/
def FVal.rint (mode : Rnd) (a : FVal) : FVal × Bool :=
  match a with
  | .num neg m e r =>
    if 0 ≤ e ∨ m = 0 then (a, false)
    else
      let x := roundAt mode neg m e r 0
      (.num neg x.1 0 false, x.2)
  | a => (a, false)

/-- Order of two values that are no NaN; −0 is below +0 when zeros are told apart. -/
def FVal.lt (zeros : Bool) (a b : FVal) : Bool :=
  match a, b with
  | .nan _, _ => false
  | _, .nan _ => false
  | .inf m, .inf n => m && !n
  | .inf m, _ => m
  | _, .inf n => !n
  | .num na ma ea _, .num nb mb eb _ =>
    let q := min ea eb
    let x := scaled na ma ea q
    let y := scaled nb mb eb q
    if x = 0 ∧ y = 0 then zeros && na && !nb else decide (x < y)

/-- PS32: the value of a word (R53). -/
def ps32Value (w : Nat) : FVal :=
  let x := fld w 20 12
  let m := fld w 0 20
  if m = 0 then .zero false
  else if x = 0xFFF then .nan false
  else .num false m (45 - (x : Int)) false

def ps32Zero : Nat := 0xFFF00000
def ps32NaP : Nat := 0xFFF80000

/-- Round into PS32 (R54): 20 significant bits, RNE. A negative value is NaP with NV (R55). -/
def ps32Deliver (x : FVal) : Nat × Flags :=
  match x with
  | .nan _ => (ps32NaP, 0)
  | .inf neg => if neg then (ps32NaP, flagNV) else (0x000FFFFF, flagOF ||| flagNX)
  | .num neg m e r =>
    if m = 0 ∧ r = false then (ps32Zero, 0)
    else if neg then (ps32NaP, flagNV)
    else
      let top : Int := Nat.log2 m + e
      let n := roundAt .rne false m e r (top - 19)
      let top' : Int := Nat.log2 n.1 + (top - 19)
      let xx : Int := 64 - top'
      if xx < 0 then (0x000FFFFF, flagOF ||| flagNX)
      else if 4094 < xx then (ps32Zero, flagUF ||| flagNX)
      else (xx.toNat * 2 ^ 20 + n.1 / 2 ^ (Nat.log2 n.1 - 19), if n.2 then flagNX else 0)

/-- Length of the run of bits equal to b downward from bit i of a word (R48). -/
def runLength (w : Nat) (b : Nat) : Nat → Nat
  | 0 => if fld w 0 1 = b then 1 else 0
  | i + 1 => if fld w (i + 1) 1 = b then 1 + runLength w b i else 0

/-- The magnitude of a positive graded word of n bits (R48): significand and exponent. -/
def gradedMag (n : Nat) (w : Nat) : Nat × Int :=
  let b := fld w (n - 2) 1
  let m := runLength w b (n - 2)
  let k : Int := if b = 1 then (m : Int) - 1 else -(m : Int)
  let left := n - 1 - m - 1
  if n = 8 then
    let e := if left = 0 then 0 else fld w (left - 1) 1
    let q := left - 1
    (2 ^ q + fld w 0 q, 2 * k + e - q)
  else (2 ^ left + fld w 0 left, k - left)

/-- The value of a G8 or G6 word of n bits (R48). -/
def gradedValue (n w0 : Nat) : FVal :=
  let w := w0 % 2 ^ n
  if w = 0 then .zero false
  else if w = 2 ^ (n - 1) then .nan false
  else if 2 ^ (n - 1) < w then
    let g := gradedMag n (2 ^ n - w)
    .num true g.1 g.2 false
  else
    let g := gradedMag n w
    .num false g.1 g.2 false

/-- m x 2^e ≤ n x 2^f. -/
def magLe (m : Nat) (e : Int) (n : Nat) (f : Int) : Bool :=
  let q := min e f
  decide (m * 2 ^ (e - q).toNat ≤ n * 2 ^ (f - q).toNat)

/-- The largest positive graded word at or below w whose magnitude is at most m x 2^e, 0 when none is. -/
def gradedFloor (n m : Nat) (e : Int) : Nat → Nat
  | 0 => 0
  | w + 1 =>
    let g := gradedMag n (w + 1)
    if magLe g.1 g.2 m e then w + 1 else gradedFloor n m e w

/-- Encode an exactly known value into G8 or G6 (R49). -/
def gradedDeliver (n : Nat) (x : FVal) : Nat × Flags :=
  let top := 2 ^ (n - 1) - 1
  let signed (neg : Bool) (w : Nat) : Nat := if neg then 2 ^ n - w else w
  match x with
  | .nan s => (2 ^ (n - 1), if s then flagNV else 0)
  | .inf _ => (2 ^ (n - 1), flagNV)
  | .num neg m e _ =>
    if m = 0 then (0, 0)
    else
      let w := gradedFloor n m e top
      let g := gradedMag n w
      if w = 0 then (signed neg 1, flagUF ||| flagNX)
      else if magLe m e g.1 g.2 then (signed neg w, 0)
      else if w = top then (signed neg top, flagOF ||| flagNX)
      else
        let h := gradedMag n (w + 1)
        let q := min (min g.2 h.2) e
        let sum := g.1 * 2 ^ (g.2 - q).toNat + h.1 * 2 ^ (h.2 - q).toNat
        let twice := 2 * (m * 2 ^ (e - q).toNat)
        let pick := if twice < sum then w else if sum < twice then w + 1 else if w % 2 = 0 then w else w + 1
        (signed neg pick, flagNX)

/-! Integer formats (R50 to R52). -/

/-- The shape of NI (R50): width, signed, reserved-code fate. -/
structure NiShape where
  wid : Nat
  sgn : Bool
  fate : Nat
deriving DecidableEq, Repr

def niWidth (n : Nat) : Nat := if n = 0 then 4 else if n = 1 then 6 else 8

/-- Primary shape (R50). -/
def niPrimary (nif : Word) : NiShape := ⟨niWidth (bits nif 0 2), bit nif 2, bits nif 3 2⟩

/-- Secondary shape (R50). -/
def niSecondary (nif : Word) : NiShape := ⟨niWidth (bits nif 8 2), bit nif 10, bits nif 11 2⟩

/-- The value of an NI operand and the NV of fate 2 (R51). -/
def niValue (s : NiShape) (w0 : Nat) : Int × Flags :=
  let w := w0 % 2 ^ s.wid
  if s.sgn then
    if w = 2 ^ (s.wid - 1) then
      if s.fate = 1 then (-(2 ^ (s.wid - 1) - 1 : Int), 0) else (0, if s.fate = 2 then flagNV else 0)
    else (signed s.wid w, 0)
  else ((w : Int), 0)

/-- Largest and smallest values of an NI target (R52). -/
def niRange (s : NiShape) : Int × Int :=
  if s.sgn then (-(2 ^ (s.wid - 1) - 1 : Int), 2 ^ (s.wid - 1) - 1) else (0, 2 ^ s.wid - 1)

/-- Value bits and signedness of an integer format, NI by its shape (R31, R50). -/
def intShape (ni : NiShape) (f : Fmt) : Nat × Bool :=
  match f with
  | .i16 => (16, true)
  | .i32 => (32, true)
  | .i64 => (64, true)
  | .ui32 => (32, false)
  | _ => (ni.wid, ni.sgn)

/-- Range of an integer target (R52). -/
def intRange (ni : NiShape) (f : Fmt) : Int × Int :=
  match f with
  | .i16 => (-(2 ^ 15 : Int), 2 ^ 15 - 1)
  | .i32 => (-(2 ^ 31 : Int), 2 ^ 31 - 1)
  | .i64 => (-(2 ^ 63 : Int), 2 ^ 63 - 1)
  | .ui32 => (0, 2 ^ 32 - 1)
  | _ => niRange ni

/-- The value of an integer operand (R50, R51). -/
def intValue (ni : NiShape) (f : Fmt) (w : Nat) : Int × Flags :=
  match f with
  | .i16 => (signed 16 (w % 2 ^ 16), 0)
  | .i32 => (signed 32 (w % 2 ^ 32), 0)
  | .i64 => (signed 64 (w % 2 ^ 64), 0)
  | .ui32 => ((w % 2 ^ 32 : Nat), 0)
  | _ => niValue ni w

/-- The low n bits of an integer. -/
def wrapInt (n : Nat) (x : Int) : Nat := enc2 n x

/-- Clamp an integer. -/
def clampInt (r : Int × Int) (x : Int) : Int := if x < r.1 then r.1 else if r.2 < x then r.2 else x

/-- A float into an integer format (R52): NaN gives 0 with NV, out of range clamps with NV alone. -/
def floatToInt (ni : NiShape) (f : Fmt) (mode : Rnd) (x : FVal) : Nat × Flags :=
  let w := (intShape ni f).1
  let r := intRange ni f
  match x with
  | .nan _ => (0, flagNV)
  | .inf neg => (wrapInt w (if neg then r.1 else r.2), flagNV)
  | .num neg m e more =>
    let n := roundAt mode neg m e more 0
    let v : Int := if neg then -(n.1 : Int) else n.1
    if v < r.1 then (wrapInt w r.1, flagNV)
    else if r.2 < v then (wrapInt w r.2, flagNV)
    else (wrapInt w v, if n.2 then flagNX else 0)

/-- An integer into an integer format (R52). -/
def intToInt (ni : NiShape) (f : Fmt) (sat : Bool) (x : Int) : Nat :=
  let r := intRange ni f
  let w := (intShape ni f).1
  if x < r.1 ∨ r.2 < x then (if sat then wrapInt w (clampInt r x) else wrapInt w x) else wrapInt w x

/-- The exact value of an integer. -/
def intFVal (x : Int) : FVal := if x = 0 then .zero false else .num (decide (x < 0)) x.natAbs 0 false

/-- The binary format of a format code, none for the others (R34, R44). -/
def fmtBinary : Fmt → Option Binary
  | .fp64 => some Machine.fp64
  | .fp32 => some Machine.fp32
  | .fp16 => some Machine.fp16
  | .bf16 => some Machine.bf16
  | .e4m3 => some Machine.e4m3
  | .e5m2 => some Machine.e5m2
  | _ => none

/-- Whether a format holds integers (R31). -/
def fmtIsInt : Fmt → Bool
  | .i32 | .i16 | .ni | .ui32 | .i64 => true
  | _ => false

/-- The exact value of an operand of any lane format (R34, R44, R48, R51, R53), with the NV of fate 2. -/
def fmtValue (ni : NiShape) (fz : Bool) (f : Fmt) (w : Nat) : FVal × Flags :=
  match f with
  | .fp64 => (Machine.fp64.value fz w, 0)
  | .fp32 => (Machine.fp32.value fz w, 0)
  | .fp16 => (Machine.fp16.value fz w, 0)
  | .bf16 => (Machine.bf16.value fz w, 0)
  | .e4m3 => (Machine.e4m3.value fz w, 0)
  | .e5m2 => (Machine.e5m2.value fz w, 0)
  | .mxfp4 => (Machine.e2m1.value fz w, 0)
  | .mxfp8 => (Machine.e4m3.value fz w, 0)
  | .g8 => (gradedValue 8 w, 0)
  | .g6 => (gradedValue 6 w, 0)
  | .ps32 => (ps32Value w, 0)
  | f =>
    let r := intValue ni f w
    (intFVal r.1, r.2)

/-- Deliver an exact value into a float lane format (R35 to R39, R45, R49, R54, R55). -/
def fmtDeliver (mode : Rnd) (fz sat : Bool) (f : Fmt) (x : FVal) : Nat × Flags :=
  match f with
  | .fp64 => Machine.fp64.deliver mode fz sat x
  | .fp32 => Machine.fp32.deliver mode fz sat x
  | .fp16 => Machine.fp16.deliver mode fz sat x
  | .bf16 => Machine.bf16.deliver mode fz sat x
  | .e4m3 => Machine.e4m3.deliver mode fz sat x
  | .e5m2 => Machine.e5m2.deliver mode fz sat x
  | .g8 => gradedDeliver 8 x
  | .g6 => gradedDeliver 6 x
  | _ => ps32Deliver x

/-- The rounding of a PS32 operation delivers a NaN without a flag (R54). -/
def addWords (mode : Rnd) (fz : Bool) (f : Fmt) (a b : Nat) : Nat × Flags :=
  let x := FVal.add mode (fmtValue ⟨8, true, 0⟩ fz f a).1 (fmtValue ⟨8, true, 0⟩ fz f b).1
  let r := fmtDeliver mode fz false f x.1
  (r.1, x.2 ||| r.2)

/-- Round(fmt, a x b) of two words of one format. -/
def mulWords (mode : Rnd) (fz : Bool) (f : Fmt) (a b : Nat) : Nat × Flags :=
  let x := FVal.mul (fmtValue ⟨8, true, 0⟩ fz f a).1 (fmtValue ⟨8, true, 0⟩ fz f b).1
  let r := fmtDeliver mode fz false f x.1
  (r.1, x.2 ||| r.2)

/-- The word of an operand with a flushed subnormal replaced by its zero (R35, R109). -/
def flushedWord (fz : Bool) (f : Fmt) (w : Nat) : Nat :=
  match fmtBinary f with
  | some p =>
    match p.value fz w with
    | .num neg 0 _ _ => if neg then 2 ^ p.low else 0
    | _ => w
  | none => w

/-- IEEE minimum or maximum of two words (R109). In PS32 the result is rounded as R54 gives and no flag is raised (R115, to which R210 sends
the Cascade's maximum too; log entry 72). -/
def minMaxWords (maximum : Bool) (fz : Bool) (f : Fmt) (a b : Nat) : Nat × Flags :=
  let x := (fmtValue ⟨8, true, 0⟩ fz f a).1
  let y := (fmtValue ⟨8, true, 0⟩ fz f b).1
  if x.isNaN || y.isNaN then ((fmtDeliver .rne fz false f (.nan false)).1, sigFlags [x, y])
  else
    let less := FVal.lt true x y
    let pickA := if maximum then !less else less || !(FVal.lt true y x)
    let w := if pickA then a else b
    if f = .ps32 then ((ps32Deliver (if pickA then x else y)).1, 0) else (flushedWord fz f w, 0)

end Sys2Proof.Machine
end

