-- ==== Sys2Proof/Machine/Flags.lean ====
section
/-! DEFINITION. The floating-point control and status registers: rounding mode, flush-to-zero, sticky flags, trap
enables (R41, R42), the values that a CSR may hold (R41, R50, R57 to R59, R93, R157, R304), effective formats. -/

namespace Sys2Proof.Machine

/-- First bit of a slot's field of FPCR and of FPSR (R41, R42): VA 0, VB 16, the M field 32. -/
def flagBase : Slot → Nat
  | .va => 0
  | .vb => 16
  | _ => 32

/-- A rounding field of FPCR (R38); a field above 4 is never held (R41). -/
def rndField (n : Nat) : Rnd :=
  match n with
  | 0 => .rne | 1 => .rtz | 2 => .rup | 3 => .rdn | _ => .rna

/-- The rounding mode of a slot (R41). -/
def slotRnd (fpcr : Word) (sl : Slot) : Rnd := rndField (bits fpcr (flagBase sl) 3)

/-- The flush-to-zero bit of a slot (R41). -/
def slotFz (fpcr : Word) (sl : Slot) : Bool := bit fpcr (flagBase sl + 3)

/-- A set of flags in the field of a slot (R42). -/
def flagWord (sl : Slot) (f : Flags) : Word := word (f.toNat * 2 ^ flagBase sl)

/-- FPSR with a slot's flags raised: they are sticky (R42). -/
def raiseFlags (fpsr : Word) (sl : Slot) (f : Flags) : Word := fpsr ||| flagWord sl f

/-- The flags of FPSR whose trap enables of FPCR are set, in the layout of FPSR (R307). -/
def enabledFlags (fpcr fpsr : Word) : Word :=
  fpsr &&& word (bits fpcr 4 5 + bits fpcr 20 5 * 2 ^ 16 + bits fpcr 36 5 * 2 ^ 32)

/-- The bits of a writable CSR that its map does not reserve (R41, R42, R50, R57 to R59, R157, R304). -/
def csrMask : Csr → Nat
  | .fpcr => 0x1FF_01FF_01FF
  | .fpsr => 0x1F_001F_001F
  | .trapcause => 0x7FF7FFF
  | .trappc => 0x1FFFF
  | .trapinfo => 0xFFFF_FFFF_FFFF_FFFF
  | .tvec => 0x1FFFF
  | .vfmta => 0x3F
  | .vfmtb => 0x3F
  | .nif => 0x1F1F
  | .atdue => 0x1FF
  | .ftab _ => 0x1F1F1F1F
  | .ftsel => 7
  | _ => 0

/-- Whether a value may be written into a CSR (R41, R50, R57 to R59, R157): an illegal one raises ILLEGAL. -/
def csrLegal (c : Csr) (v : Word) : Bool :=
  match c with
  | .fpcr => decide (bits v 0 3 ≤ 4) && decide (bits v 16 3 ≤ 4) && decide (bits v 32 3 ≤ 4)
  | .vfmta => !bit v 4
  | .vfmtb => !bit v 4
  | .nif => decide (bits v 0 2 ≠ 3) && decide (bits v 3 2 ≠ 3) && decide (bits v 8 2 ≠ 3) && decide (bits v 11 2 ≠ 3)
  | .atdue => decide (bits v 0 9 ≠ 0)
  | .ftab _ => !bit v 4 && !bit v 12 && !bit v 20 && !bit v 28
  | .ftsel => decide (bits v 0 3 ≤ 5)
  | _ => true

/-- The access of a CSR (R94). -/
inductive Access where
  | rw | ro | pr
deriving DecidableEq, Repr

def csrAccess : Csr → Access
  | .fpcr | .fpsr | .trapcause | .trappc | .trapinfo | .tvec | .vfmta | .vfmtb | .nif | .atdue | .ftab _ | .ftsel => .rw
  | .prebound | .stopflag | .maxk | .detmode => .pr
  | _ => .ro

/-- The iteration index of a loop level, 0 when it is inactive (R60, R98). -/
def LoopUnit.index (u : LoopUnit) (n : Nat) : Nat :=
  match (u.levels[n]?).join with
  | some l => l.index
  | none => 0

/-- The row of the format table in effect (R58, R60). -/
def formatRow (ftsel : Word) (u : LoopUnit) : Nat := u.index (bits ftsel 0 3) % 16

/-- A slot's effective format from its format register and the row in effect (R59, R104). -/
def effFormat (g : Gov) (u : LoopUnit) (f : VFile) : Fmt :=
  let r := match f with
    | .va => g.vfmta
    | .vb => g.vfmtb
  if bit r 5 then
    let row := listGet g.ftab (formatRow g.ftsel u) 0
    fmtOf (match f with
      | .va => bits row 0 5
      | .vb => bits row 8 5)
  else fmtOf (bits r 0 5)

/-- Lane width in bits of an effective format (R104). -/
def laneWidth : Fmt → Nat
  | .fp64 | .i64 => 64
  | .fp32 | .i32 | .ui32 | .ps32 => 32
  | .fp16 | .bf16 | .i16 => 16
  | _ => 8

/-- Value bits of a lane (R104): NI by the primary shape. -/
def valueBits (nif : Word) : Fmt → Nat
  | .g6 => 6
  | .ni => (niPrimary nif).wid
  | f => laneWidth f

/-- The groups of formats of R105. -/
def isIeee : Fmt → Bool
  | .fp64 | .fp32 | .fp16 | .bf16 => true
  | _ => false

def isMx : Fmt → Bool
  | .mxfp4 | .mxfp8 => true
  | _ => false

/-- A lane image: the value bits with the high bits a copy of the sign for signed NI, zero otherwise (R33). -/
def laneImage (nif : Word) (f : Fmt) (v : Nat) : Nat :=
  let w := valueBits nif f
  let x := v % 2 ^ w
  match f with
  | .ni => if (niPrimary nif).sgn && fld x (w - 1) 1 == 1 then x + (2 ^ 8 - 2 ^ w) else x
  | _ => x

end Sys2Proof.Machine
end

