-- ==== Sys2Proof/Machine/Operands.lean ====
section
/-! DEFINITION. Operands and results of a syllable on its tile: the traps it can name (R75, R136, R142), sources
and latches (R65, R67, R68), guards (R69), results in flight (R18, R76), vector lanes (R104, R107), the scratchpad with
its guard granules (R152 to R156, R380), bundle addresses (R61 to R63). -/

namespace Sys2Proof.Machine

/-- What a syllable does to its tile: an effect, a trap that cancels its bundle (R75), or a hold of its bundle
with its cause and the tile that named the datum (R25). -/
inductive Res where
  | ok (t : Tile)
  | trap (tr : Trap)
  | hold (c : FreezeCause) (who : Nat)
deriving DecidableEq, Repr

/-! Traps. -/

/-- ILLEGAL with the TRAPINFO of R75. -/
def illegalTrap (pos : Nat) (r : Illegal) : Trap := ⟨.illegal, word (pos + 16 * r.code), r.code, pos, false⟩

/-- ILLEGAL with reason 10 and the target in TRAPINFO [63:32] (R63). -/
def targetTrap (pos target : Nat) : Trap :=
  ⟨.illegal, word (pos + 16 * 10 + target % 2 ^ 32 * 2 ^ 32), 10, pos, false⟩

/-- PRIV with the TRAPINFO of R93. -/
def privTrap (pos : Nat) (c : Csr) : Trap := ⟨.priv, word (pos + 256 * c.number), 0, pos, false⟩

/-- A trap whose TRAPINFO holds an address in [56:0] and the position in [59:57] (R136, R146). -/
def addrTrap (c : Cause) (pos a : Nat) : Trap := ⟨c, word (a % 2 ^ 57 + pos % 8 * 2 ^ 57), 0, pos, false⟩

/-- A trap whose TRAPINFO holds a unit in [63:60], the position in [59:57] and a check number in [7:0]
(R147, R151, R296). -/
def checkTrap (c : Cause) (unit pos n : Nat) : Trap := ⟨c, word (unit * 2 ^ 60 + pos % 8 * 2 ^ 57 + n), 0, pos, false⟩

/-- A trap with a whole TRAPINFO. -/
def infoTrap (c : Cause) (pos : Nat) (info : Word) : Trap := ⟨c, info, 0, pos, false⟩

/-- LATCHLOST: the spec states no TRAPINFO for it, which is a free value of the tile's logical id and the tick, the same in
every run that R360 compares (log entry 16). -/
def lostTrap (t : Tile) : Trap := ⟨.latchlost, Config.freeWord (t.key.id * 2 ^ 64 + t.tick), 0, t.iss.pos, false⟩

/-! Registers. -/

/-- S register: s0 reads zero (R70). -/
def Tile.sreg (t : Tile) (n : Nat) : Word := if n = 0 then 0 else (t.regs.s[n]?).getD 0

def Tile.vreg (t : Tile) (f : VFile) (n : Nat) : VReg :=
  match f with
  | .va => (t.regs.va[n]?).getD 0
  | .vb => (t.regs.vb[n]?).getD 0

def Tile.xreg (t : Tile) (f : CFile) (n : Nat) : Word :=
  match f with
  | .xa => (t.regs.xa[n]?).getD 0
  | .xb => (t.regs.xb[n]?).getD 0

def Tile.mreg (t : Tile) (n : Nat) : Word := (t.regs.m[n]?).getD 0

/-- Predicate: p0 is all ones (R70). -/
def Tile.pred (t : Tile) (n : Nat) : Word := if n = 0 then -1 else (t.regs.p[n]?).getD 0

/-- Write an S register: s0 discards writes (R70); a word that is written is sound again (R380). -/
def Regs.setS (r : Regs) (n : Nat) (v : Word) : Regs :=
  if n = 0 then r else { r with s := r.s.setIfInBounds n v, bad := r.bad.filter fun b => b.1 != .s n }

def Regs.setV (r : Regs) (f : VFile) (n : Nat) (v : VReg) : Regs :=
  match f with
  | .va => { r with va := r.va.setIfInBounds n v, bad := r.bad.filter fun b => b.1 != .v f n }
  | .vb => { r with vb := r.vb.setIfInBounds n v, bad := r.bad.filter fun b => b.1 != .v f n }

def Regs.setX (r : Regs) (f : CFile) (n : Nat) (v : Word) : Regs :=
  match f with
  | .xa => { r with xa := r.xa.setIfInBounds n v, bad := r.bad.filter fun b => b.1 != .x f n }
  | .xb => { r with xb := r.xb.setIfInBounds n v, bad := r.bad.filter fun b => b.1 != .x f n }

def Regs.setM (r : Regs) (n : Nat) (v : Word) : Regs :=
  { r with m := r.m.setIfInBounds n v, bad := r.bad.filter fun b => b.1 != .m n }

/-- Write a predicate: p0 stays all ones (R70). -/
def Regs.setP (r : Regs) (n : Nat) (v : Word) : Regs :=
  if n = 0 then r else { r with p := r.p.setIfInBounds n v, bad := r.bad.filter fun b => b.1 != .p n }

/-- The latch chain of a scalar-valued slot (R67); the vector slots have their own type. -/
def Latches.wordChain (l : Latches) : Slot → List (Option Word)
  | .s => l.s
  | .m => l.m
  | .cb => l.cb
  | _ => l.ca

/-- Push a result into the chain of a slot that is no vector slot: the entry leaving b7 is lost (R68). -/
def Latches.pushWord (l : Latches) (sl : Slot) (v : Word) : Latches :=
  match sl with
  | .s => { l with s := (some v :: l.s).take 8 }
  | .m => { l with m := (some v :: l.m).take 8 }
  | .ca => { l with ca := (some v :: l.ca).take 8 }
  | .cb => { l with cb := (some v :: l.cb).take 8 }
  | _ => l

def Latches.pushV (l : Latches) (f : VFile) (v : VReg) : Latches :=
  match f with
  | .va => { l with va := (some v :: l.va).take 8 }
  | .vb => { l with vb := (some v :: l.vb).take 8 }

/-! The slot a syllable issues in (R62), its files, its guard. -/

def Tile.vfile (t : Tile) : VFile :=
  match t.iss.slot with
  | .vb => .vb
  | _ => .va

def vslotOf : VFile → Slot
  | .va => .va
  | .vb => .vb

def Tile.cfile (t : Tile) : CFile :=
  match t.iss.slot with
  | .cb => .xb
  | _ => .xa

def fileSlot : CFile → Slot
  | .xa => .ca
  | .xb => .cb

/-- The guard bit 0 of a syllable of class S, C or M (R69). -/
def Tile.guarded (t : Tile) (h : Hdr) : Bool := bit (t.pred h.g) 0

/-- Read an own source of slot S; none is an invalid latch (R65, R68). -/
def Tile.readS (t : Tile) : Src → Option Word
  | .reg n => some (t.sreg n)
  | .latch k => (t.latches.s[k]?).join

def Tile.readV (t : Tile) : Src → Option VReg
  | .reg n => some (t.vreg t.vfile n)
  | .latch k =>
    match t.vfile with
    | .va => (t.latches.va[k]?).join
    | .vb => (t.latches.vb[k]?).join

def Tile.readX (t : Tile) : Src → Option Word
  | .reg n => some (t.xreg t.cfile n)
  | .latch k => ((t.latches.wordChain (fileSlot t.cfile))[k]?).join

def Tile.readM (t : Tile) : MSrc → Option Word
  | .reg n => some (t.mreg n)
  | .latch k => (t.latches.m[k]?).join

/-! Results in flight (R18). -/

/-- Append a result due lat ticks after issue. -/
def Tile.put (t : Tile) (lat : Nat) (sl : Slot) (e : Eff) : Tile :=
  { t with inflight := t.inflight ++ [⟨t.tick + lat, sl, t.tick, t.seq, e⟩], seq := t.seq + 1 }

/-- A result of slot S into its destination, or into the latches alone (R66, R67). -/
def Tile.putS (t : Tile) (lat : Nat) (d : Dest) (v : Word) : Tile :=
  match d with
  | .reg n => t.put lat .s (.sreg n v)
  | .suppressed => t.put lat .s (.latchW .s v)

def Tile.putX (t : Tile) (lat : Nat) (d : Dest) (v : Word) : Tile :=
  match d with
  | .reg n => t.put lat (fileSlot t.cfile) (.xreg t.cfile n v)
  | .suppressed => t.put lat (fileSlot t.cfile) (.latchW (fileSlot t.cfile) v)

def Tile.putV (t : Tile) (lat : Nat) (d : Dest) (v : VReg) : Tile :=
  match d with
  | .reg n => t.put lat (vslotOf t.vfile) (.vreg t.vfile n v)
  | .suppressed => t.put lat (vslotOf t.vfile) (.latchV t.vfile v)

/-- Flags of a result, raised at its write tick; none raised is no event (R42). -/
def Tile.putFlags (t : Tile) (lat : Nat) (sl : Slot) (f : Flags) : Tile :=
  if f = 0 then t else t.put lat sl (.flags sl f)

/-! Vector lanes. -/

/-- The n lanes of w bits of a number, lane 0 first (R104). -/
def lanesOf (w : Nat) : Nat → Nat → List Nat
  | 0, _ => []
  | n + 1, x => x % 2 ^ w :: lanesOf w n (x / 2 ^ w)

/-- The number whose lanes of w bits are given. -/
def packLanes (w : Nat) : List Nat → Nat
  | [] => 0
  | x :: t => x % 2 ^ w + 2 ^ w * packLanes w t

def vregOf (n : Nat) : VReg := BitVec.ofNat 2048 n

/-- The guard bit of lane i of w bits (R69, R107). -/
def laneGuard (p : Word) (w i : Nat) : Bool := if w = 64 then bit p i else bit p (w * i / 32)

/-- Lane guards of all lanes from lane i on. -/
def laneGuards (p : Word) (w : Nat) : Nat → Nat → List Bool
  | 0, _ => []
  | n + 1, i => laneGuard p w i :: laneGuards p w n (i + 1)

/-- What governs a vector syllable: sampled at issue (R104). -/
structure VCtx where
  fmt : Fmt
  w : Nat
  n : Nat
  rm : Rnd
  fz : Bool
  nif : Word
  guards : List Bool
deriving DecidableEq, Repr

def VCtx.ni (c : VCtx) : NiShape := niPrimary c.nif

/-- The context for a lane width given by a format. -/
def Tile.vctxOf (t : Tile) (h : Hdr) (f : Fmt) : VCtx :=
  let w := laneWidth f
  { fmt := f, w := w, n := 2048 / w, rm := slotRnd t.gov.fpcr (vslotOf t.vfile), fz := slotFz t.gov.fpcr (vslotOf t.vfile),
    nif := t.gov.nif, guards := laneGuards (t.pred h.g) w (2048 / w) 0 }

/-- The context of the slot's effective format. -/
def Tile.vctx (t : Tile) (h : Hdr) : VCtx := t.vctxOf h (effFormat t.gov t.loops t.vfile)

/-- Keep the old lanes where the guard is off (R69). -/
def guardLanes (gs : List Bool) (new old : List Nat) : List Nat :=
  (List.zip gs (List.zip new old)).map fun x => if x.1 then x.2.1 else x.2.2

/-- The flags of the lanes that are guarded on. -/
def guardFlags (gs : List Bool) (fl : List Flags) : Flags :=
  (List.zip gs fl).foldl (fun acc x => if x.1 then acc ||| x.2 else acc) 0

/-- The destination register as read at issue, zero when suppressed (R67). -/
def Tile.oldV (t : Tile) : Dest → VReg
  | .reg n => t.vreg t.vfile n
  | .suppressed => 0

/-- Deliver lane results with their flags, guarded-off lanes kept (R67, R69, R106). They are kept as they stood at issue, and the whole
register is written: the spec does not say what a guarded-off lane holds that another write changes in between (DESIGN CHOICE, log
entry 70). -/
def Tile.putLanes (t : Tile) (c : VCtx) (lat : Nat) (d : Dest) (rs : List (Nat × Flags)) : Tile :=
  let v := guardLanes c.guards (rs.map (·.1)) (lanesOf c.w c.n (t.oldV d).toNat)
  (t.putV lat d (vregOf (packLanes c.w v))).putFlags lat (vslotOf t.vfile) (guardFlags c.guards (rs.map (·.2)))

/-- The AND of a list of lane conditions over each predicate group (R107): bit g from lane g on. -/
def groupBits (k : Nat) : Nat → List Bool → List Bool
  | 0, _ => []
  | n + 1, bs => (bs.take k).all id :: groupBits k n (bs.drop k)

/-- A word of bits, bit 0 first. -/
def wordOfBits (bs : List Bool) : Word := word (packLanes 1 (bs.map Bool.toNat))

/-- A vector compare's predicate (R69, R107): guarded-off bits kept, with 64-bit lanes bits [63:32] zero. -/
def maskOf (c : VCtx) (p old : Word) (conds : List Bool) : Word :=
  if c.w = 64 then
    let new := (wordOfBits conds)
    let gm : Word := p &&& 0xFFFFFFFF
    (new &&& gm) ||| (old &&& 0xFFFFFFFF &&& ~~~gm)
  else
    let new := wordOfBits (groupBits (32 / c.w) 64 conds)
    (new &&& p) ||| (old &&& ~~~p)

/-! The scratchpad. -/

/-- Whether an address lies in a marked granule (R154). -/
def Spad.marked (s : Spad) (a : Nat) : Bool := s.marks.contains (a / 256)

/-- The first byte of an access that lies in a marked granule (R155). -/
def Spad.touch (s : Spad) (a : Nat) : Nat → Option Nat
  | 0 => none
  | n + 1 => if s.marked a then some a else Spad.touch s (a + 1) n

/-- Read bytes: zero from a marked granule (R155). -/
def Spad.readBytes (s : Spad) (a : Nat) : Nat → List Byte
  | 0 => []
  | n + 1 => (if s.marked a then 0 else Mem.read1 s.mem a) :: Spad.readBytes s (a + 1) n

/-- Open the guard record or count one more touch (R155, R156). -/
def Spad.record (s : Spad) (src agent off : Nat) : Spad :=
  match s.touched with
  | none => { s with touched := some ⟨src, 1, agent, off⟩ }
  | some g => { s with touched := some { g with count := min 0xFFFF (g.count + 1) } }

/-- Note a touch of an access, when it makes one. -/
def Spad.note (s : Spad) (src agent a n : Nat) : Spad :=
  match s.touch a n with
  | some off => s.record src agent off
  | none => s

/-- Whether a read of unmarked bytes meets a poisoned 8-byte granule (R136, R155, R380). -/
def Spad.poisoned (s : Spad) (a n : Nat) : Bool :=
  s.poison.any fun g => decide (g * 8 < a + n) && decide (a < g * 8 + 8) && !s.marked (g * 8)

/-- Write the bytes that lie in no marked granule (R155). -/
def Spad.writeRaw (s : Spad) (a : Nat) : List Byte → Spad
  | [] => s
  | b :: bs => Spad.writeRaw (if s.marked a then s else { s with mem := Mem.write1 s.mem a b }) (a + 1) bs

/-- Write bytes: discarded in a marked granule, and the poison of a whole granule written is cleared
(R155, R380). -/
def Spad.write (s : Spad) (a : Nat) (bs : List Byte) : Spad :=
  let s1 := s.writeRaw a bs
  { s1 with poison := s.poison.filter fun g =>
      !(decide (a ≤ g * 8) && decide (g * 8 + 8 ≤ a + bs.length)) || s.marked (g * 8) }

/-- The generation of a barrier word (R164), zero in a guard granule. -/
def Spad.generation (m : Spad) (a : Nat) : Nat := if m.marked a then 0 else bits (Mem.readWord m.mem a) 32 32

/-- A write that notes a touch of a guard granule. -/
def Spad.store (s : Spad) (src agent a : Nat) (bs : List Byte) : Spad := (s.note src agent a bs.length).write a bs

/-! Instruction memory (R61 to R63). -/

/-- The syllable at an address of instruction memory. -/
def Tile.syllable (t : Tile) (a : Nat) : Nat := Mem.readNat t.imem a 4

/-- Whether an address is marked as a bundle start: the program's first syllable and every one after an E (R63). -/
def Tile.isStart (t : Tile) (a : Nat) : Bool :=
  a % 4 == 0 && decide (a < t.progLen) && (a == 0 || fld (t.syllable (a - 4)) 31 1 == 1)

/-- The syllables of a bundle: up to the first with E, at most n (R62). -/
def Tile.fetch (t : Tile) (a : Nat) : Nat → List Nat
  | 0 => []
  | n + 1 =>
    let w := t.syllable a
    if fld w 31 1 = 1 then [w] else w :: Tile.fetch t (a + 4) n

/-- The start that follows the bundle at an address: the syllable after the next E, none beyond the program. -/
def Tile.startAfter (t : Tile) (a : Nat) : Nat → Option Nat
  | 0 => none
  | n + 1 =>
    if t.progLen ≤ a then none
    else if fld (t.syllable a) 31 1 = 1 then (if a + 4 < t.progLen then some (a + 4) else none)
    else Tile.startAfter t (a + 4) n

/-- The k-th bundle start after an address (R99). -/
def Tile.nthStart (t : Tile) (a : Nat) : Nat → Option Nat
  | 0 => some a
  | k + 1 =>
    match t.startAfter a 32768 with
    | some b => Tile.nthStart t b k
    | none => none

end Sys2Proof.Machine
end

