-- ==== Sys2Proof/Machine/Module.lean ====
section
/-! DEFINITION. Shared operations on the module: tiles, launches, contexts and queues by name, HBM by physical address
(R330, R380), the state block of a queue (R312, R318, R319), launch records (R366 to R368), the context fault (R311). -/

namespace Sys2Proof.Machine

/-! Tiles. -/

/-- Every tile of the module, the one in focus first. -/
def State.tiles (s : State) : List Tile := s.tile :: s.others

def State.mapTiles (s : State) (f : Tile → Tile) : State := { s with tile := f s.tile, others := s.others.map f }

def State.tile? (s : State) (k : TileKey) : Option Tile := s.tiles.find? fun t => t.key == k

/-- Replace the tile of a key. -/
def State.setTile (s : State) (t : Tile) : State := s.mapTiles fun u => if u.key == t.key then t else u

/-- Change the tile of a key. -/
def State.onKey (s : State) (k : TileKey) (f : Tile → Tile) : State :=
  s.mapTiles fun u => if u.key == k then f u else u

/-- Move the focus to a tile; a key that names no tile leaves the focus where it is. -/
def State.focus (s : State) (k : TileKey) : State :=
  if s.tile.key == k then s
  else
    match s.others.find? fun t => t.key == k with
    | some t => { s with tile := t, others := s.tile :: s.others.filter fun u => u.key != k }
    | none => s

/-! Launches, contexts, queues. -/

def State.launch? (s : State) (k : LaunchKey) : Option Launch := s.launches.find? fun l => l.key == k

def State.setLaunch (s : State) (l : Launch) : State :=
  { s with launches := s.launches.map fun m => if m.key == l.key then l else m }

def State.ctx? (s : State) (p : Nat) : Option Context := s.contexts.find? fun c => c.pasid == p

/-- Whether the front end works for a context: it is resident and is not being torn down (R337, R339). -/
def Context.serves (c : Context) : Bool := c.resident && c.tearing.isNone

def State.setCtx (s : State) (c : Context) : State :=
  { s with contexts := s.contexts.map fun d => if d.pasid == c.pasid then c else d }

def State.queue? (s : State) (n : Nat) : Option Queue := s.queues.find? fun q => q.num == n

def State.setQueue (s : State) (q : Queue) : State :=
  { s with queues := s.queues.map fun r => if r.num == q.num then q else r }

/-- The launch a tile runs. -/
def Tile.launchKey (t : Tile) : LaunchKey := ⟨t.key.pasid, t.launch⟩

/-- Whether the front end runs with every operation (R385). -/
def State.up (s : State) : Bool := s.board.power == Power.ready

/-! HBM. -/

/-- The bytes of HBM, named by physical address with the module's own position taken away (R330). -/
def localPa (pa : Nat) : Nat := fld pa 0 40

/-- Whether an access reaches a poisoned 8-byte granule (R380). -/
def State.hbmPoisoned (s : State) (pa n : Nat) : Bool :=
  s.hbmPoison.any fun g => decide (g * 8 < pa + n) && decide (pa < g * 8 + 8)

/-- Write bytes; the poison of every granule written whole is cleared (R380). -/
def State.hbmWrite (s : State) (pa : Nat) (bs : List Byte) : State :=
  { s with hbm := Mem.write s.hbm pa bs,
           hbmPoison := s.hbmPoison.filter fun g =>
             !(decide (pa ≤ g * 8) && decide (g * 8 + 8 ≤ pa + bs.length)) }

/-! The state block of a queue (R312). -/

/-- Word i of the state block. -/
def State.qword (s : State) (q : Queue) (i : Nat) : Nat := Mem.readNat s.hbm (q.block + 8 * i) 8

def State.setQword (s : State) (q : Queue) (i v : Nat) : State := s.hbmWrite (q.block + 8 * i) (bytesOfNat 8 v)

/-- STATE of a queue: 0 IDLE, 1 ACTIVE, 2 PARKED, 3 ERROR, 4 DRAINING, 5 DESTROYED (R312). -/
def State.qstate (s : State) (q : Queue) : Nat := fld (s.qword q 4) 16 3

def State.setQstate (s : State) (q : Queue) (v : Nat) : State := s.setQword q 4 (putField (s.qword q 4) 16 3 v)

/-- ERROR with its CAUSE, DETAIL, ETILE, EPC and EINFO (R312, R318 to R320), whatever the queue's state: what puts every queue of a context
there leaves out none that drains or is destroyed (R319, R339, R346). -/
def State.queueErrorNow (s : State) (q : Queue) (cause detail etile epc einfo : Nat) : State :=
  let s1 := s.setQstate q 3
  let s2 := s1.setQword q 5 (cause % 256 + detail % 256 * 256 + etile % 65536 * 65536)
  (s2.setQword q 8 epc).setQword q 9 einfo

/-- Put a queue into ERROR for a packet of its own (R318): a queue that drains or is destroyed stays so. -/
def State.queueError (s : State) (q : Queue) (cause detail etile epc einfo : Nat) : State :=
  if s.qstate q < 4 then s.queueErrorNow q cause detail etile epc einfo else s

/-- A queue that is parked no longer, and reads its next packet from the header again. -/
def Queue.unparked (q : Queue) : Queue := { q with parkedAt := none, parkedOn := none, parkedBy := none, reading := none }

/-- ERROR with a cause and a detail alone. -/
def State.queueFail (s : State) (q : Queue) (cause detail : Nat) : State :=
  (s.queueError q cause detail 0 0 0).setQueue q.unparked

/-! Trap causes by number (R303). -/

def Cause.code : Cause → Nat
  | .illegal => 0x01 | .priv => 0x02 | .latchlost => 0x03 | .align => 0x04 | .xlate => 0x05 | .perm => 0x06
  | .guard => 0x07 | .eccue => 0x08 | .tsmis => 0x09 | .arith => 0x0A | .detv => 0x0B | .rillnb => 0x0C
  | .combo => 0x0D | .qcmd => 0x0E | .deadlock => 0x0F | .contained => 0x10 | .slip => 0x11 | .timepast => 0x12
  | .skew => 0x13 | .user => 0x14

/-! Launch records (R366 to R368). -/

/-- Bytes cut or filled with zeros to a length. -/
def padTo (n : Nat) (bs : List Byte) : List Byte := (bs ++ List.replicate n 0).take n

/-- The signature of the device on the digest of a body under a context string, by the number of the signing (R367, R375): hedged, so
that two signatures of one body differ (log entry 8). -/
def signatureBytes (body ctx : List Byte) (draw : Nat) : List Byte :=
  (List.range 3309).map fun i => Config.signature (shake256 body 64) ctx draw i

/-- The public identity key (R367, R391): free bytes (log entry 8). -/
def identityKeyBytes : List Byte := (List.range 1952).map Config.identityKey

/-- Whether a signature on the digest of a body under a context string verifies under a key (R367, R375, R378): what the device has
signed does under its own key, and of anything else the answer is free (log entry 8). -/
def State.verifies (s : State) (key body ctx sig : List Byte) : Bool :=
  (key == identityKeyBytes && (List.range s.draws).any fun d => sig == signatureBytes body ctx d) ||
    Config.verifies key (shake256 body 64) ctx sig

/-- The body of a launch record (R366). -/
def recordBody (c : Context) (l : Launch) (measure : List Byte) (outcome cause detail : Nat) : List Byte :=
  bytesOfNat 4 0x45595841 ++ bytesOfNat 2 1 ++ bytesOfNat 2 c.det.toNat ++ bytesOfNat 4 c.pasid ++ bytesOfNat 2 c.gen ++
    bytesOfNat 2 0 ++ bytesOfNat 8 l.number ++ bytesOfNat 4 l.image.grid ++ bytesOfNat 4 l.index ++
    padTo 64 l.image.digest ++ padTo 64 l.seedDigest ++ padTo 128 l.image.splits ++ padTo 64 measure ++
    bytesOfNat 8 l.g ++ bytesOfNat 8 (outcome + cause * 256 + detail * 65536)

/-- A launch record: body, signature, zeros (R366). -/
def launchRecord (c : Context) (l : Launch) (measure : List Byte) (draw outcome cause detail : Nat) : List Byte :=
  let body := recordBody c l measure outcome cause detail
  body ++ signatureBytes body launchString draw ++ List.replicate 419 0

/-- End a launch: its record is kept, the last 4,096 of the context, and the launch is gone (R366, R368). -/
def State.endLaunch (s : State) (l : Launch) (outcome cause detail : Nat) : State :=
  match s.ctx? l.key.pasid with
  | some c =>
    let r := launchRecord c l s.board.measurement s.draws outcome cause detail
    let s1 := s.setCtx { c with records := ((l.number, r) :: c.records).take 4096 }
    { s1 with launches := s1.launches.filter fun m => m.key != l.key, draws := s.draws + 1 }
  | none => { s with launches := s.launches.filter fun m => m.key != l.key }

/-- Whether a launch has reached arming (R323, R366). -/
def LaunchStage.armedYet : LaunchStage → Bool
  | .waiting => false
  | _ => true

/-! The context fault. -/

/-- A tile stops and its work in flight is discarded; writes already made stay (R311). -/
def Tile.discard (t : Tile) : Tile :=
  { t with inflight := [], landings := [], waits := [], faults := [], far := [], buffer := [], basin := [], skid := [],
           claims := [], mx := { t.mx with active := none, pending := none }, casc := { t.casc with subs := [], xfers := [] },
           queues := List.replicate 32 CopyQueue.reset, berth := .free, station := [], gang := Gang.alone t.key.id,
           freeze := none, stopAt := none, iss := { t.iss with held := none } }

def Tile.faultStop (t : Tile) : Tile := { t.discard with phase := .faulted }

/-- The smallest start tick (R323). -/
def Image.gTick (i : Image) : Nat :=
  match i.tiles with
  | [] => 0
  | t :: more => more.foldl (fun n x => min n x.start) t.start

/-- SHAKE256 over the depth byte and the stack from bottom to top (R366). -/
def seedDigestOf (seeds : List (BitVec 256)) : List Byte :=
  shake256 (BitVec.ofNat 8 seeds.length :: seeds.reverse.flatMap fun v => bytesOfNat 32 v.toNat) 64

/-- A launch takes its number, G and seed digest as its arming ends, well or not (R326, R366). -/
def Launch.numbered (l : Launch) (c : Context) : Launch :=
  { l with number := c.launchSeq, g := l.image.gTick, seedDigest := seedDigestOf c.seeds }

/-- Count a launch whose arming ends, and go on with it (R366). -/
def State.armed (s : State) (l0 : Launch) (f : State → Context → Launch → State) : State :=
  match s.ctx? l0.key.pasid with
  | some c0 =>
    let l := l0.numbered c0
    let c := { c0 with launchSeq := c0.launchSeq + 1 }
    f ((s.setCtx c).setLaunch l) c l
  | none => s

/-- Discard the launches of a context: a record for each that has reached arming, one whose arming has begun included (R366), and packets
complete without signalling (R319). The launch that is named ends with outcome 1 and the cause, the others with outcome 3. -/
def State.discardLaunches (s : State) (p : Nat) (named : Option Nat) (cause : Nat) : State :=
  let gone := s.launches.filter fun l => l.key.pasid == p
  let s1 := gone.foldl (fun (acc : State) l =>
    if l.stage.armedYet then
      (if named = some l.key.seq then acc.endLaunch l 1 cause 0 else acc.endLaunch l 3 0 0)
    else if l.begun then acc.armed l fun x _ m => x.endLaunch m 3 0 0
    else acc) s
  { s1 with
    launches := s1.launches.filter (fun l => l.key.pasid != p),
    queues := s1.queues.map fun q =>
      if q.pasid == p then
        { q with packets := q.packets.filter fun k => !gone.any fun l => l.queue == q.num && l.packet == k.index }
      else q }

/-- Every queue of a context enters ERROR (R319): the one given with the tile's values, the others with
CAUSE 0x10 alone. -/
def State.errorQueues (s : State) (p : Nat) (main : Option Nat) (cause detail etile epc einfo : Nat) : State :=
  let s1 := (s.queues.filter fun q => q.pasid == p).foldl (fun (acc : State) q =>
    if main = some q.num then acc.queueErrorNow q cause detail etile epc einfo
    else acc.queueErrorNow q 0x10 detail 0 0 0) s
  { s1 with queues := s1.queues.map fun q => if q.pasid == p then q.unparked else q }

/-- A pre-emption asked for is abandoned, and its request is refused (R342; the status is log entry 18). -/
def State.abandonPreempt (s : State) (p : Nat) : State :=
  match s.ctx? p with
  | some c =>
    match c.preempt with
    | some (_, h) => { s.setCtx { c with preempt := none } with replies := s.replies ++ [⟨h, 3, []⟩] }
    | none => s
  | none => s

/-- The context fault (R311, R319): every tile of the context stops, its work and launches are discarded, its
queues enter ERROR with what the faulting tile reports. -/
def State.contextFault (s : State) (k : TileKey) (cause : Nat) (pc info : Word) : State :=
  let t := (s.tile? k).getD s.tile
  let qn := (s.launch? t.launchKey).map (·.queue)
  let s1 := s.mapTiles fun u => if u.key.pasid == k.pasid then { u.faultStop with csrs := { u.csrs with stopflag := 0 } } else u
  let s2 := s1.errorQueues k.pasid qn cause 13 k.id pc.toNat info.toNat
  ((s2.discardLaunches k.pasid (some t.launch) cause).abandonPreempt k.pasid)

end Sys2Proof.Machine
end

