-- ==== Sys2Proof/Machine/Ops.lean ====
section
/-! DEFINITION. The shared operations of the syllables: running one on its tile, addresses (R142), Basin entries (R26),
the hold of R293, the loop unit (R98 to R100), taking a trap, unwinding a region and returning (R271, R272, R305, R306,
R310). -/

namespace Sys2Proof.Machine

/-! Addresses. -/

/-- Where an address of a far access leads (R142, R160). -/
inductive Target where
  | spad (off : Nat)
  | window (id off : Nat)
  | aperture (entry off : Nat)
  | virt (va : Nat)
  | bad
deriving DecidableEq, Repr

/-- The decoding of R142 under a declared grid. -/
def farTarget (grid a : Nat) : Target :=
  if 2 ^ 57 ≤ a then .bad
  else if fld a 48 9 = 0xFF then
    (if fld a 21 27 < grid then .window (fld a 21 27) (fld a 0 21) else .bad)
  else if fld a 48 9 = 0xFE then .aperture (fld a 24 24) (fld a 0 24)
  else .virt a

/-- The decoding of R160: below 0x20_0000 the local scratchpad, else R142. -/
def atomTarget (grid a : Nat) : Target := if a < 0x200000 then .spad a else farTarget grid a

/-! Basin entries (R26, R27). -/

/-- Whether a landing holds a reservation: a RECV writes from its message's own entry (R27). -/
def LandDest.reserves : LandDest → Bool
  | .recv _ _ _ _ _ _ => false
  | _ => true

/-- Basin entries in use: reservations and messages that have arrived. -/
def Tile.basinUsed (t : Tile) : Nat := (t.landings.filter fun l => l.dest.reserves).length + t.basin.length

def Tile.basinFull (t : Tile) : Bool := decide (Config.basinEntries ≤ t.basinUsed)

/-- Add a landing due lat ticks after issue; its number is the tile's next sequence number. -/
def Tile.land (t : Tile) (lat : Nat) (d : LandDest) : Tile :=
  { t with landings := t.landings ++ [⟨t.seq, t.tick, t.tick + lat, t.iss.pos, t.iss.addr, d, none⟩], seq := t.seq + 1 }

/-- Reserve a Basin entry and add the landing; with no entry free the bundle is held (R26). -/
def Tile.reserve (t : Tile) (lat : Nat) (d : LandDest) : Res :=
  if t.basinFull then .hold .basin t.key.id else .ok (t.land lat d)

/-- Bytes that a far access reads or writes. -/
def FarKind.size : FarKind → Nat
  | .loadV => 256
  | .store bs => bs.length
  | _ => 8

/-- Bytes of a single-copy atomic unit at a target (R279, R347): 8 in HBM and in the aperture, up to 64 in a scratchpad. -/
def Target.unit (k : Target) (n : Nat) : Nat :=
  match k with
  | .spad _ | .window _ _ => min n 64
  | _ => min n 8

/-- Bytes of a single-copy atomic unit at the home of an address. -/
def unitSize (grid a n : Nat) : Nat := (farTarget grid a).unit n

/-- The units of an access, by number. -/
def unitsOf (grid a n : Nat) : List Nat := List.range (n / max 1 (unitSize grid a n))

/-- Add a far access: its landing or wait, when it has one, is named by number (R137, R145). -/
def Tile.sendFar (t : Tile) (a : Nat) (k : FarKind) (landing wait : Option Nat) : Tile :=
  { t with
    far := t.far ++ [⟨t.seq, a, k, t.tick, t.iss.pos, t.iss.addr, landing, wait, .open, unitsOf t.grid a k.size, [], none, false⟩],
    seq := t.seq + 1 }

/-- Add a wait with its due tick (R24, R292). -/
def Tile.addWait (t : Tile) (due : Nat) (k : WaitKind) : Tile :=
  { t with waits := t.waits ++ [⟨t.seq, t.tick, due, k, t.iss.addr, t.iss.pos, none⟩], seq := t.seq + 1 }

/-- The 64-bit tick counter (R16), which LTIME reads and to which WAITT and GANG compare their operands. -/
def Tile.ltime (t : Tile) : Nat := t.tick % 2 ^ 64

/-- The tick at which that counter next reads a value above its own (R151, R302). -/
def Tile.tickAt (t : Tile) (v : Nat) : Nat := t.tick + (v - t.ltime)

/-! The hold of R293. -/

/-- A far store, an atomic that returns nothing, or the increment of a REL. -/
def FarKind.unreturned : FarKind → Bool
  | .store _ => true
  | .atom _ _ _ ret => !ret
  | .rel _ _ => true
  | _ => false

/-- Whether a far store or non-returning atomic of an earlier bundle is still open (R293). -/
def Tile.storesOpen (t : Tile) : Bool :=
  t.far.any fun f => f.kind.unreturned && f.stage == FarStage.open && decide (f.issue < t.tick)

/-- The TRAPINFO of GUARD (R156). -/
def guardInfo (g : GuardRec) : Word :=
  word (g.src % 65536 * 2 ^ 48 + g.count % 65536 * 2 ^ 32 + g.agent % 8 * 2 ^ 26 + fld g.offset 6 5 * 2 ^ 21 +
    g.offset % 2 ^ 21)

/-- What holds or traps a bundle with REL, FENCE, BAR, TRIG, TFENCE or EXIT before its own checks (R293): open
stores, then the guard record that existed as the bundle began, then the recorded faults in issue order. -/
def Tile.settle (t : Tile) : Option Res :=
  if t.storesOpen then some (.hold .wait t.key.id)
  else
    match t.iss.record with
    | some g => some (.trap (infoTrap .guard t.iss.pos (guardInfo g)))
    | none =>
      match t.faults with
      | f :: _ => some (.trap ⟨f.cause, f.info, 0, t.iss.pos, true⟩)
      | [] => none

/-! The loop unit. -/

/-- Deactivate a level and every level entered after it (R99, R100). -/
def LoopUnit.drop (u : LoopUnit) (l : Nat) : LoopUnit :=
  let gone := l :: u.order.takeWhile fun n => n != l
  { levels := (List.range 6).map fun n => if gone.contains n then none else (u.levels[n]?).join,
    order := (u.order.dropWhile fun n => n != l).drop 1 }

/-- An active level. -/
def LoopUnit.level (u : LoopUnit) (l : Nat) : Option LoopLevel := (u.levels[l]?).join

def LoopUnit.setLevel (u : LoopUnit) (l : Nat) (v : LoopLevel) : LoopUnit := { u with levels := u.levels.set l (some v) }

/-- The search for a back edge after the bundle at an address (R100): levels that end here on their last iteration
are deactivated, the first with iterations left goes back to its start. -/
def LoopUnit.backEdge (u : LoopUnit) (addr : Nat) : List Nat → LoopUnit × Option Nat
  | [] => (u, none)
  | l :: rest =>
    match u.level l with
    | none => (u, none)
    | some v =>
      if addr ≠ v.stop then (u, none)
      else if 1 < v.remain then (u.setLevel l { v with remain := v.remain - 1, index := v.index + 1 }, some v.start)
      else LoopUnit.backEdge (u.drop l) addr rest

/-- The levels that a jump leaves: those whose body holds the bundle and not the target (R100). -/
def LoopUnit.leave (u : LoopUnit) (addr target : Nat) : List Nat → LoopUnit
  | [] => u
  | l :: rest =>
    match u.level l with
    | none => LoopUnit.leave u addr target rest
    | some v =>
      if v.start ≤ addr ∧ addr ≤ v.stop ∧ ¬(v.start ≤ target ∧ target ≤ v.stop) then LoopUnit.leave (u.drop l) addr target rest
      else LoopUnit.leave u addr target rest

/-- Deactivate the levels entered at or after a tick (R310). -/
def LoopUnit.dropSince (u : LoopUnit) (tick : Nat) : LoopUnit :=
  { levels := u.levels.map fun o => o.filter fun v => decide (v.entered < tick),
    order := u.order.filter fun n =>
      match u.level n with
      | some v => decide (v.entered < tick)
      | none => false }

/-- The bundle after this one in address order, or a back edge (R100): for a bundle with no taken transfer. A back edge makes the
bundle a stop point (R101). -/
def Tile.advance (t : Tile) : Tile :=
  let r := t.loops.backEdge t.iss.addr t.loops.order
  { t with loops := r.1, pc := r.2.getD t.iss.next, iss := { t.iss with edge := r.2.isSome } }

/-- A taken transfer (R95, R96, R100): a jump leaves the bodies that do not hold its target, a call leaves none. -/
def Tile.transfer (t : Tile) (target : Nat) (jump : Bool) : Tile :=
  { t with pc := target, loops := if jump then t.loops.leave t.iss.addr target t.loops.order else t.loops,
           iss := { t.iss with taken := true } }

/-- A transfer to no bundle start (R63): it does not take place, the other syllables of the bundle take effect, and
ILLEGAL is entered before the next bundle (log entry 7). -/
def Tile.badTarget (t : Tile) (target : Nat) : Tile :=
  { (t.put 1 .s (.fault (targetTrap t.iss.pos target))) with pc := t.iss.addr, iss := { t.iss with lost := true } }

/-- The target of a transfer, checked (R63, R95, R96). A branch may name a target below address 0, whose address TRAPINFO [63:32] has no
room for and the spec does not give: it holds the low 32 bits of its two's complement (DESIGN CHOICE, log entry 7). -/
def Tile.jumpTo (t : Tile) (target : Int) (jump : Bool) : Tile :=
  if 0 ≤ target ∧ t.isStart target.toNat then t.transfer target.toNat jump
  else t.badTarget (enc2 32 target)

/-- The link of a call: s31, zero-extended, at issue + 1 (R95). -/
def Tile.link (t : Tile) : Tile := t.put 1 .s (.sreg 31 (word t.iss.next))

/-! Pending format writes (R43). -/

def Gov.write (g : Gov) (c : Csr) (mx : Bool) (v : Word) : Gov :=
  match c with
  | .fpcr => { g with fpcr := v }
  | .vfmta => { g with vfmta := v }
  | .vfmtb => { g with vfmtb := v }
  | .nif => { g with nif := v }
  | .ftsel => { g with ftsel := v }
  | .ftab n => if mx then { g with ftabMx := g.ftabMx.set n v } else { g with ftab := g.ftab.set n v }
  | _ => g

def Pending.isFormat (p : Pending) : Bool :=
  match p.eff with
  | .gov _ _ _ => true
  | .mfr _ => true
  | _ => false

def Gov.apply (g : Gov) (p : Pending) : Gov :=
  match p.eff with
  | .gov c mx v => g.write c mx v
  | .mfr v => { g with mfr := v }
  | _ => g

/-- Every pending format write takes effect, in the order of the ticks at which they were due (R43, R305). -/
def Tile.flushFormats (t : Tile) : Tile :=
  { t with gov := (sortBy (fun p => p.due) (t.inflight.filter Pending.isFormat)).foldl Gov.apply t.gov,
           inflight := t.inflight.filter fun p => !p.isFormat }

/-! Gangs. -/

/-- Whether a tile is at work (R17): armed, running or stopped. -/
def Phase.live : Phase → Bool
  | .armed | .running | .stopped => true
  | _ => false

/-- The position of a tile in its gang (R268). -/
def Tile.pos (t : Tile) : Nat := t.key.id - t.gang.first

/-- Whether two tiles belong to one formed gang (R266, R271). -/
def sameGang (t u : Tile) : Bool :=
  u.key == t.key || (decide (1 < t.gang.size) && u.key.pasid == t.key.pasid && u.launch == t.launch &&
    u.gang.first == t.gang.first && u.gang.size == t.gang.size && u.phase.live)

/-- The gang of a tile, rising by id: the tile alone when it is in none. -/
def State.gangOf (s : State) (t : Tile) : List Tile := sortBy (fun u => u.key.id) (s.tiles.filter (sameGang t))

/-- The lead of a gang, when it is still at work. -/
def leadOf (g : List Tile) : Option Tile := g.find? fun u => u.pos == 0

/-- The lead whose stream a member follows, at work or retired (R97, R267). -/
def State.leadTile (s : State) (t : Tile) : Option Tile :=
  (s.tile? ⟨t.key.pasid, t.gang.first⟩).filter fun u => u.launch == t.launch

/-- Whether a bundle of the stream is the next that a member issues: the one of its number, or after a return the first
at the address that its `TRAPPC` names (R271). -/
def Gang.wants (g : Gang) (i : StreamItem) : Bool :=
  match g.seek with
  | none => i.num == g.next
  | some a => decide (g.next ≤ i.num) && i.addr == a

/-- The address of the bundle a tile of a gang holds (R271): a member's stream bundle that it would issue next. -/
def heldAddr (lead t : Tile) : Nat :=
  if t.gang.size ≤ 1 ∨ t.pos = 0 then t.pc
  else
    match lead.gang.stream.find? t.gang.wants with
    | some i => i.addr
    | none => t.gang.seek.getD lead.pc

/-- The gang that an operation at GANG scope names: that of its issue tick, by first id and size (R265, R277). -/
def Tile.gangNow (t : Tile) : Nat × Nat := (t.gang.first, t.gang.size)

/-- The number in the stream of the bundle that a tile of a gang holds (R271): the next that it would issue, or, where its own ACQ or BAR
at an address has faulted, that bundle, which the return issues again (R297). -/
def heldNum (lead t : Tile) (own : Option Nat) : Nat :=
  if t.pos = 0 then lead.gang.count - (if own.isSome then 1 else 0)
  else
    match own with
    | some a => if lead.gang.stream.any fun i => i.num + 1 == t.gang.next && i.addr == a then t.gang.next - 1 else t.gang.next
    | none => t.gang.next

/-- The tick to which the return takes a tile back (R271, R297): the tick of the trap, or that of its own wait's issue. -/
def Tile.heldTick (t : Tile) (own : Option Nat) : Nat :=
  match own with
  | some a => ((t.waits.find? fun w => w.addr == a && w.fault.isSome).map fun w => w.issue).getD t.tick
  | none => t.tick

/-! Taking a trap. -/

/-- What a tile reports in a trap: the trap when it raised one, its held bundle, and the fields of R271. -/
structure Report where
  trap : Option Trap
  held : Nat
  cause : Cause
  low : Nat
deriving DecidableEq, Repr

/-- TRAPCAUSE of a trap (R304): CAUSE, POS, PEER, INH, WAITX, ORIG and LEVEL. -/
def trapCauseWord (cause pos : Nat) (peer inh waitx : Bool) (orig level : Nat) : Word :=
  word (cause + pos * 256 + peer.toNat * 4096 + inh.toNat * 8192 + waitx.toNat * 16384 + orig * 65536 + level * 16777216)

/-- A trap or unwind ends the waits: the reads of an ACQ are dropped, an arrival that was sent stays (R305). -/
def Tile.endWaits (t : Tile) : Tile :=
  { t with waits := [],
           far := (t.far.filter fun f => !(f.wait.isSome && (match f.kind with
             | .acq => true
             | _ => false))).map fun f => if f.wait.isSome then { f with wait := none } else f }

/-- What trap entry and unwind share on a tile (R68, R305, R310): pending formats take effect, latches are invalid,
the wait ends, the next bundle is the one given. -/
def Tile.switchTo (t : Tile) (pc : Nat) : Tile :=
  { t.flushFormats.endWaits with latches := Latches.invalid, pc := pc, freeze := none,
                                 iss := { t.iss with held := none } }

/-- Whether the report of a trap ends a wait of the tile (R305): a fault of the wait's own reads does not (R297). -/
def Tile.endsWait (t : Tile) (r : Report) : Bool := !t.waits.isEmpty && !t.waits.any fun w => w.addr == r.held && w.fault.isSome

/-- The fault of a far store that is raised leaves the record (R146). -/
def Tile.dropFault (t : Tile) (r : Report) : Tile :=
  match r.trap with
  | some tr => if tr.recorded then { t with faults := t.faults.drop 1 } else t
  | none => t

/-- Trap entry on one tile (R305): the trap CSRs are written, INH is set, the guard record is cleared, and the
handler's first bundle is next. -/
def Tile.enter (t : Tile) (handler : Nat) (r : Report) : Tile :=
  let u := (t.dropFault r).switchTo handler
  { u with
    csrs := { u.csrs with
      trapcause := trapCauseWord r.cause.code r.low r.trap.isNone true (t.endsWait r) 0 0,
      trappc := word (fld r.held 0 17),
      trapinfo := (r.trap.map fun x => x.info).getD 0 },
    spad := { u.spad with touched := none } }

/-- Whether an effect in flight is a register result, which an unwind cancels (R5, R310): one of a CSR is among them (R308). -/
def Eff.isResult : Eff → Bool
  | .sreg _ _ | .vreg _ _ _ | .xreg _ _ _ | .xplain _ _ _ | .mreg _ _ | .pred _ _ | .latchW _ _ | .latchV _ _ | .flags _ _ | .fault _ => true
  | .csr _ _ => true
  | .mcfg _ _ | .mirror _ | .rctl _ _ | .cmr _ | .depth _ => true
  | _ => false

/-- A local atomic keeps its store and loses its results, a latch among them (R160, R310): it becomes a store of its own kind. -/
def Eff.withoutResult : Eff → Eff
  | .atom op a v v2 _ _ _ pos => .atomOnly op a v v2 pos
  | e => e

/-- Matrix work since a tick is cancelled and the accumulators come back from the shadow (R187, R310). -/
def Matrix.unwind (m : Matrix) (opened : Nat) : Matrix :=
  let late (o : Option MxOp) : Option MxOp := o.filter fun x => decide (x.issue < opened)
  let m1 := { m with active := late m.active, pending := late m.pending,
                     freeAt := if (late m.active).isSome then m.freeAt else 0,
                     mirrorUse := (late m.active).isSome && m.mirrorUse }
  match m.shadow with
  | some sh =>
    if opened ≤ sh.taken then
      { m1 with accs := sh.accs, stk := sh.stk, poison := List.replicate 4 false, restored := true }
    else { m1 with restored := false }
  | none => { m1 with restored := false }

/-- A transfer that an unwind ends: its planned rows count (R218, R223). One whose own row is at fault, now or before, keeps its read port to
their end, so that every subtree keeps its schedule (R222). -/
def Xfer.end_ (x : Xfer) : Xfer := { x with row := none, fault := none, gone := true, struck := x.struck || x.fault.isSome }

/-- Cascade work since a tick is cancelled (R223); the planned rows of a cancelled transfer still count for the ones
that follow (R218). -/
def Cascade.unwind (c : Cascade) (opened : Nat) : Cascade :=
  { c with subs := c.subs.filter fun x => decide (x.issue < opened),
           xfers := c.xfers.map fun x => if x.issue < opened then x else x.end_ }

/-- Copy commands since a tick are cancelled with STATUS 4 (R261). -/
def CopyQueue.unwind (q : CopyQueue) (opened : Nat) : CopyQueue :=
  { q with cmds := q.cmds.map fun c => if opened ≤ c.issue ∧ c.record.isNone then { c with stage := .ended 4, read := [], data := none, left := [] } else c }

/-- A landing that an unwind or a DEADLOCK cancels takes its message with it (R29, R310). -/
def Tile.dropLandings (t : Tile) (gone : Landing → Bool) : Tile :=
  let taken (m : Message) : Bool := t.landings.any fun l => gone l && (match l.dest with
    | .recv _ _ src chan num _ => m.src == src && m.chan == chan && m.num == num
    | _ => false)
  { t with landings := t.landings.filter fun l => !gone l,
           basin := t.basin.filter fun m => !taken m, skid := t.skid.filter fun m => !taken m }

/-- Far loads, whose only effect is what they return. -/
def FarKind.isLoad : FarKind → Bool
  | .load8 | .loadV => true
  | _ => false

/-- The tick from which an unwind to a level cancels the work of a tile (R310): that of its own CRGO; a gang member that has
not opened the region, or has closed it, has no such work (R272). -/
def Tile.regionSince (t : Tile) (level : Nat) : Nat :=
  if level ≤ t.regions.length then (((t.regions.drop (t.regions.length - level)).head?).map fun r => r.opened).getD t.tick else t.tick

/-- The unwind of one tile to the region at a level, whose handler runs (R272, R310). A recorded fault that it takes leaves the record, as at
any delivery (R146). -/
def Tile.unwind (t : Tile) (level handler : Nat) (r : Report) : Tile :=
  let o := t.regionSince level
  let cut (p : Pending) : Pending := if o ≤ p.issue then { p with eff := p.eff.withoutResult } else p
  let depth (p : Pending) : Bool := match p.eff with
    | .depth _ => true
    | _ => false
  let u := ((t.dropFault r).switchTo handler).dropLandings fun l => decide (o ≤ l.issue)
  { u with
    inflight := (u.inflight.filter fun p => !(depth p || (decide (o ≤ p.issue) && p.eff.isResult))).map cut,
    far := (u.far.filter fun f => !(decide (o ≤ f.issue) && f.kind.isLoad)).map fun f => if o ≤ f.issue then { f with landing := none } else f,
    mx := u.mx.unwind o, casc := u.casc.unwind o, queues := u.queues.map fun q => q.unwind o,
    station := u.station.filter fun x => !(decide (o ≤ x.issue) && decide (t.tick ≤ x.pass)),
    loops := u.loops.dropSince o,
    regions := t.regions.drop (t.regions.length - (level - 1)),
    csrs := { u.csrs with
      depth := level - 1,
      trapcause := trapCauseWord Cause.contained.code r.low r.trap.isNone (bit t.csrs.trapcause 13) (t.endsWait r)
        r.cause.code level,
      trappc := word (fld r.held 0 17),
      trapinfo := (r.trap.map fun x => x.info).getD 0 } }

/-- A gang's stream is put by for the return (R271), with the address of the bundle that the tile holds: on the lead the bundles
from the one its last member holds to the one before its own, on each member how far its own held bundle lies behind the first of them. -/
def Tile.saveStream (t : Tile) (base num count held cut tick : Nat) : Tile :=
  if t.gang.size ≤ 1 then t
  else if t.pos = 0 then
    { t with gang := { t.gang with
        saved := ⟨t.gang.stream.filter (fun i => base ≤ i.num && decide (i.num < num)), held, cut, max tick t.gang.resumeAt, 0, none⟩ ::
          t.gang.saved,
        stream := [], resumeAt := 0 } }
  else
    { t with gang := { t.gang with saved := ⟨[], held, cut, tick, num - base, t.gang.seek⟩ :: t.gang.saved,
                                   next := count, seek := none } }

/-- The raised trap that decides for a gang: an ECCUE, for which every member unwinds or the context faults whichever member
consumed it (R272), else that of the lowest position (R271); the spec does not say which of two causes of one cycle is reported
(log entry 19). -/
def deciding (rs : List (Nat × Trap × Option Nat)) : Option (Nat × Trap × Option Nat) :=
  let l := sortBy (fun r => r.1) rs
  (l.find? fun r => r.2.1.cause == .eccue).orElse fun _ => l.head?

/-- The region that catches an ECCUE of a tile of a gang, its level and handler (R272, R309): the innermost open on the lead,
whose region covers the gang, or on the tile itself where that one lies deeper; none in a gang whose lead has retired. -/
def catching (g : List Tile) (t : Tile) : Option (Nat × Nat) :=
  match leadOf g with
  | none => none
  | some l =>
    let u := if l.regions.length < t.regions.length then t else l
    u.regions.head?.map fun r => (u.regions.length, r.handler)

/-- A trap of one or more tiles of a gang in one cycle (R271, R305): unwind to the region that catches an ECCUE, else a
context fault for an ECCUE, when INH is set or when there is no handler (R311), else entry on every
member; a gang whose lead has retired, or has issued GANG and left it for another (R151) before this member does, has no stream for a
handler, and the spec names no other: a context fault too (DESIGN CHOICE, log entry 19). Each raised
trap names a tile id and, for a fault of a wait's own reads, the bundle to report (R297). -/
def State.enterTraps (s : State) (k : TileKey) (rs : List (Nat × Trap × Option Nat)) : State :=
  match s.tile? k, deciding rs with
  | some t, some d =>
    let g := s.gangOf t
    let raised (u : Tile) : Option (Nat × Trap × Option Nat) := rs.find? fun r => r.1 == u.key.id
    let lead := (leadOf g).getD t
    let cause := d.2.1.cause
    let low := if t.gang.size ≤ 1 then 0 else (rs.foldl (fun n r => min n r.1) d.1) - t.gang.first
    let report (u : Tile) : Report :=
      { trap := (raised u).map (·.2.1), held := ((raised u).bind (·.2.2)).getD (heldAddr lead u), cause := cause, low := low }
    let t1 := (g.find? fun u => u.key.id == d.1).getD t
    let own (u : Tile) : Option Nat := (raised u).bind (·.2.2)
    let num (u : Tile) : Nat := heldNum lead u (own u)
    let base := g.foldl (fun acc u => min acc (num u)) (num lead)
    let cut := g.foldl (fun acc u => min acc (u.heldTick (own u))) t.tick
    let inG (u : Tile) : Bool := g.any fun v => v.key == u.key
    let save (u v : Tile) : Tile := v.saveStream base (num u) lead.gang.count (report u).held cut (u.heldTick (own u))
    match (if cause = .eccue then catching g t1 else none) with
    | some (level, handler) => s.mapTiles fun u => if inG u then save u (u.unwind level handler (report u)) else u
    | none =>
      let handler := bits lead.csrs.tvec 0 17
      if cause == .eccue || bit lead.csrs.trapcause 13 || handler == 0 || !lead.isStart handler || (leadOf g).isNone then
        s.contextFault t1.key cause.code (word (fld (report t1).held 0 17)) d.2.1.info
      else s.mapTiles fun u => if inG u then save u (u.enter handler (report u)) else u
  | _, _ => s

/-- A trap of the syllable that is being issued: it is entered, and the issue record says which one it was, for the
step to choose among those of one bundle (R75, R293). -/
def State.takeTrap (s : State) (tr : Trap) : State :=
  (s.enterTraps s.tile.key [(s.tile.key.id, tr, none)]).onKey s.tile.key fun t => { t with iss := { t.iss with trap := some tr } }

/-- Run a syllable on the tile in focus. -/
def onTile (f : Tile → Res) (s : State) : Host.Outcome State Fault Refusal :=
  match f s.tile with
  | .ok t => .next { s with tile := t }
  | .trap tr => .next (s.takeTrap tr)
  | .hold c who => .next { s with tile := { s.tile with iss := { s.tile.iss with held := some (c, who) } } }

/-! The return (R306, R271). -/

/-- Which of the streams put by a return takes up: the newest whose held bundle is the one at `PC`, else the newest (log
entry 19). -/
def Gang.returnsTo (g : Gang) (pc : Nat) : Option Nat :=
  match g.saved.findIdx? fun x => x.held == pc with
  | some n => some n
  | none => if g.saved.isEmpty then none else some 0

/-- A lead's return (R271): the stream that was put by follows the TRET in numbers, later by as many ticks as the gang waited, so
that the tick at which it was cut comes round s ticks after the TRET and every member resumes in it. A tile whose own ACQ or BAR
faulted issues it again at that tick, and the others stay behind it or before it as the skew of R267 has them (log entry 19). -/
def Tile.restream (t : Tile) (pc : Nat) : Tile :=
  match (t.gang.returnsTo pc).bind fun n => (t.gang.saved[n]?).map fun x => (n, x) with
  | some (n, x) =>
    let shift := t.tick + t.gang.size - x.cut
    let again := (List.zip x.items (List.range x.items.length)).map fun y =>
      { y.1 with num := t.gang.count + y.2, tick := y.1.tick + shift }
    { t with gang := { t.gang with stream := t.gang.stream ++ again, count := t.gang.count + x.items.length,
                                   saved := t.gang.saved.drop (n + 1), resumeAt := x.resume + shift },
             iss := { t.iss with taken := true, back := some n } }
  | none =>
    if t.gang.size ≤ 1 then { t with iss := { t.iss with taken := true } }
    else { t with gang := { t.gang with resumeAt := t.tick + t.gang.size }, iss := { t.iss with taken := true } }

/-- The end of a handler (R306). -/
def Tile.clearInh (t : Tile) : Tile := { t with csrs := { t.csrs with trapcause := t.csrs.trapcause &&& ~~~(0x2000 : Word) } }

/-- The return on a tile in no gang or a lead (R306): INH is cleared and the bundle at PC is next. With a PC that is no bundle start R63
makes no transfer, and the spec does not say whether INH is cleared all the same: it stays set, so that the ILLEGAL is a context
fault (R311; DESIGN CHOICE, log entry 7). -/
def Tile.ret (t : Tile) : Tile :=
  let pc := bits t.csrs.trappc 0 17
  if t.isStart pc then { (t.clearInh.restream pc) with pc := pc } else t.badTarget pc

/-- A member's return (R271), from the stream its lead took up: it goes on at the bundle that it held, or waits for the one that its own
`TRAPPC` names when a handler has changed it. -/
def Tile.rejoin (t : Tile) (back : Option Nat) : Tile :=
  match back.bind fun n => (t.gang.saved[n]?).map fun x => (n, x) with
  | some (n, x) =>
    let pc := bits t.csrs.trappc 0 17
    { t with gang := { t.gang with
        saved := t.gang.saved.drop (n + 1),
        next := if pc = x.held then t.gang.next + x.off else t.gang.next,
        seek := if pc = x.held then x.seek else some pc } }
  | none => t

end Sys2Proof.Machine
end

