-- ==== Sys2Proof/Machine/Scalar.lean ====
section
/-! DEFINITION. The scalar slot (R82 to R94): arithmetic, shifts, division, immediates, compares, predicates, moves, CSR
access, and the local loads and stores of slot S (R136 to R138). -/

namespace Sys2Proof.Machine

/-! Shared forms. -/

/-- An operation on two own sources of slot S, written lat ticks after issue (R82, R83). -/
def Tile.scalar2 (h : Hdr) (d : Dest) (a b : Src) (lat : Nat) (f : Word → Word → Word) (t : Tile) : Res :=
  if t.guarded h then
    match t.readS a, t.readS b with
    | some x, some y => .ok (t.putS lat d (f x y))
    | _, _ => .trap (lostTrap t)
  else .ok t

/-- An operation on one own source of slot S. -/
def Tile.scalar1 (h : Hdr) (d : Dest) (a : Src) (lat : Nat) (f : Word → Word) (t : Tile) : Res :=
  if t.guarded h then
    match t.readS a with
    | some x => .ok (t.putS lat d (f x))
    | none => .trap (lostTrap t)
  else .ok t

/-- A scalar compare (R88): all 64 bits of the predicate at issue + 1. -/
def Tile.compare (h : Hdr) (d : Nat) (a b : Src) (f : Word → Word → Bool) (t : Tile) : Res :=
  if t.guarded h then
    match t.readS a, t.readS b with
    | some x, some y => .ok (t.put 1 .s (.pred d (boolWord (f x y))))
    | _, _ => .trap (lostTrap t)
  else .ok t

/-- An operation on predicates (R89). -/
def Tile.predOp (h : Hdr) (d : Nat) (v : Word) (t : Tile) : Res :=
  if t.guarded h then .ok (t.put 1 .s (.pred d v)) else .ok t

/-- The shift amount: b [5:0] (R83). -/
def shiftBy (b : Word) : Nat := bits b 0 6

/-- The high 64 bits of a signed product (R83). -/
def mulHigh (a b : Word) : Word := wordI (a.toInt * b.toInt / 2 ^ 64)

/-- Signed quotient (R84): −1 for a zero divisor, −2^63 for −2^63 / −1. -/
def divSigned (a b : Word) : Word := if b = 0 then -1 else wordI (a.toInt.tdiv b.toInt)

/-- Signed remainder (R84): the sign of a; a for a zero divisor. -/
def remSigned (a b : Word) : Word := if b = 0 then a else wordI (a.toInt.tmod b.toInt)

def divUnsigned (a b : Word) : Word := if b = 0 then -1 else word (a.toNat / b.toNat)

def remUnsigned (a b : Word) : Word := if b = 0 then a else word (a.toNat % b.toNat)

def minSigned (a b : Word) : Word := if a.toInt ≤ b.toInt then a else b
def maxSigned (a b : Word) : Word := if a.toInt ≤ b.toInt then b else a
def minUnsigned (a b : Word) : Word := if a.toNat ≤ b.toNat then a else b
def maxUnsigned (a b : Word) : Word := if a.toNat ≤ b.toNat then b else a

/-- An immediate sign-extended to 64 bits (R85, R87). -/
def immWord (i : Int) : Word := wordI i

/-- s[D] with 16 bits replaced (R87). -/
def insert16 (v : Word) (lo imm : Nat) : Word := word (putField v.toNat lo 16 imm)

/-! Majors 0 to 8. -/

/-- SNOP (R82): no effect. -/
def execSnop (_e : Bool) (s : State) : Host.Outcome State Fault Refusal := onTile (fun t => .ok t) s

/-- ADD (R83): a + b mod 2^64. -/
def execAdd (h : Hdr) (d : Dest) (a b : Src) (s : State) : Host.Outcome State Fault Refusal :=
  onTile (Tile.scalar2 h d a b 1 (fun x y => x + y)) s

/-- SUB (R83): a − b mod 2^64. -/
def execSub (h : Hdr) (d : Dest) (a b : Src) (s : State) : Host.Outcome State Fault Refusal :=
  onTile (Tile.scalar2 h d a b 1 (fun x y => x - y)) s

/-- AND (R83): a AND b. -/
def execAnd (h : Hdr) (d : Dest) (a b : Src) (s : State) : Host.Outcome State Fault Refusal :=
  onTile (Tile.scalar2 h d a b 1 (fun x y => x &&& y)) s

/-- OR (R83): a OR b. -/
def execOr (h : Hdr) (d : Dest) (a b : Src) (s : State) : Host.Outcome State Fault Refusal :=
  onTile (Tile.scalar2 h d a b 1 (fun x y => x ||| y)) s

/-- XOR (R83): a XOR b. -/
def execXor (h : Hdr) (d : Dest) (a b : Src) (s : State) : Host.Outcome State Fault Refusal :=
  onTile (Tile.scalar2 h d a b 1 (fun x y => x ^^^ y)) s

/-- SHL (R83): a shifted left by b [5:0]. -/
def execShl (h : Hdr) (d : Dest) (a b : Src) (s : State) : Host.Outcome State Fault Refusal :=
  onTile (Tile.scalar2 h d a b 1 (fun x y => x <<< shiftBy y)) s

/-- SHR (R83): a shifted right, zeros in. -/
def execShr (h : Hdr) (d : Dest) (a b : Src) (s : State) : Host.Outcome State Fault Refusal :=
  onTile (Tile.scalar2 h d a b 1 (fun x y => x >>> shiftBy y)) s

/-- SRA (R83): a shifted right, copies of the sign in. -/
def execSra (h : Hdr) (d : Dest) (a b : Src) (s : State) : Host.Outcome State Fault Refusal :=
  onTile (Tile.scalar2 h d a b 1 (fun x y => x.sshiftRight (shiftBy y))) s

/-- MUL (R83): low 64 bits of a × b. -/
def execMul (h : Hdr) (d : Dest) (a b : Src) (s : State) : Host.Outcome State Fault Refusal :=
  onTile (Tile.scalar2 h d a b 3 (fun x y => x * y)) s

/-- MULH (R83): high 64 bits of the signed product. -/
def execMulh (h : Hdr) (d : Dest) (a b : Src) (s : State) : Host.Outcome State Fault Refusal :=
  onTile (Tile.scalar2 h d a b 3 (mulHigh)) s

/-- MULHU (R83): high 64 bits of the unsigned product. -/
def execMulhu (h : Hdr) (d : Dest) (a b : Src) (s : State) : Host.Outcome State Fault Refusal :=
  onTile (Tile.scalar2 h d a b 3 (fun x y => word (x.toNat * y.toNat / 2 ^ 64))) s

/-- DIV (R84): signed quotient. -/
def execDiv (h : Hdr) (d : Dest) (a b : Src) (s : State) : Host.Outcome State Fault Refusal :=
  onTile (Tile.scalar2 h d a b 18 (divSigned)) s

/-- DIVU (R84): unsigned quotient. -/
def execDivu (h : Hdr) (d : Dest) (a b : Src) (s : State) : Host.Outcome State Fault Refusal :=
  onTile (Tile.scalar2 h d a b 18 (divUnsigned)) s

/-- REM (R84): signed remainder. -/
def execRem (h : Hdr) (d : Dest) (a b : Src) (s : State) : Host.Outcome State Fault Refusal :=
  onTile (Tile.scalar2 h d a b 18 (remSigned)) s

/-- REMU (R84): unsigned remainder. -/
def execRemu (h : Hdr) (d : Dest) (a b : Src) (s : State) : Host.Outcome State Fault Refusal :=
  onTile (Tile.scalar2 h d a b 18 (remUnsigned)) s

/-- MIN (R83): signed minimum. -/
def execMin (h : Hdr) (d : Dest) (a b : Src) (s : State) : Host.Outcome State Fault Refusal :=
  onTile (Tile.scalar2 h d a b 1 (minSigned)) s

/-- MAX (R83): signed maximum. -/
def execMax (h : Hdr) (d : Dest) (a b : Src) (s : State) : Host.Outcome State Fault Refusal :=
  onTile (Tile.scalar2 h d a b 1 (maxSigned)) s

/-- MINU (R83): unsigned minimum. -/
def execMinu (h : Hdr) (d : Dest) (a b : Src) (s : State) : Host.Outcome State Fault Refusal :=
  onTile (Tile.scalar2 h d a b 1 (minUnsigned)) s

/-- MAXU (R83): unsigned maximum. -/
def execMaxu (h : Hdr) (d : Dest) (a b : Src) (s : State) : Host.Outcome State Fault Refusal :=
  onTile (Tile.scalar2 h d a b 1 (maxUnsigned)) s

/-- ROTL (R83): a rotated left by b [5:0]. -/
def execRotl (h : Hdr) (d : Dest) (a b : Src) (s : State) : Host.Outcome State Fault Refusal :=
  onTile (Tile.scalar2 h d a b 1 (fun x y => x.rotateLeft (shiftBy y))) s

/-- CLZ (R83): leading zero bits. -/
def execClz (h : Hdr) (d : Dest) (a : Src) (s : State) : Host.Outcome State Fault Refusal :=
  onTile (Tile.scalar1 h d a 1 (fun x => word (leadingZeros 64 x.toNat))) s

/-- POPC (R83): one bits. -/
def execPopc (h : Hdr) (d : Dest) (a : Src) (s : State) : Host.Outcome State Fault Refusal :=
  onTile (Tile.scalar1 h d a 1 (fun x => word (popCount 64 x.toNat))) s

/-- CTZ (R83): trailing zero bits. -/
def execCtz (h : Hdr) (d : Dest) (a : Src) (s : State) : Host.Outcome State Fault Refusal :=
  onTile (Tile.scalar1 h d a 1 (fun x => word (trailingZeros 64 x.toNat))) s

/-- BSWAP (R83): bytes in reverse order. -/
def execBswap (h : Hdr) (d : Dest) (a : Src) (s : State) : Host.Outcome State Fault Refusal :=
  onTile (Tile.scalar1 h d a 1 (byteSwap)) s

/-- ADDI (R85). -/
def execAddi (h : Hdr) (d : Dest) (a : Src) (imm : Int) (s : State) : Host.Outcome State Fault Refusal :=
  onTile (Tile.scalar1 h d a 1 (fun x => x + immWord imm)) s

/-- ANDI (R85). -/
def execAndi (h : Hdr) (d : Dest) (a : Src) (imm : Int) (s : State) : Host.Outcome State Fault Refusal :=
  onTile (Tile.scalar1 h d a 1 (fun x => x &&& immWord imm)) s

/-- ORI (R85). -/
def execOri (h : Hdr) (d : Dest) (a : Src) (imm : Int) (s : State) : Host.Outcome State Fault Refusal :=
  onTile (Tile.scalar1 h d a 1 (fun x => x ||| immWord imm)) s

/-- XORI (R85). -/
def execXori (h : Hdr) (d : Dest) (a : Src) (imm : Int) (s : State) : Host.Outcome State Fault Refusal :=
  onTile (Tile.scalar1 h d a 1 (fun x => x ^^^ immWord imm)) s

/-- SHLI (R86). -/
def execShli (h : Hdr) (d : Dest) (a : Src) (n : Nat) (s : State) : Host.Outcome State Fault Refusal :=
  onTile (Tile.scalar1 h d a 1 (fun x => x <<< n)) s

/-- SHRI (R86). -/
def execShri (h : Hdr) (d : Dest) (a : Src) (n : Nat) (s : State) : Host.Outcome State Fault Refusal :=
  onTile (Tile.scalar1 h d a 1 (fun x => x >>> n)) s

/-- SRAI (R86). -/
def execSrai (h : Hdr) (d : Dest) (a : Src) (n : Nat) (s : State) : Host.Outcome State Fault Refusal :=
  onTile (Tile.scalar1 h d a 1 (fun x => x.sshiftRight n)) s

/-- ROTLI (R86). -/
def execRotli (h : Hdr) (d : Dest) (a : Src) (n : Nat) (s : State) : Host.Outcome State Fault Refusal :=
  onTile (Tile.scalar1 h d a 1 (fun x => x.rotateLeft n)) s

/-- LIS (R87): the immediate sign-extended. -/
def execLis (h : Hdr) (d imm : Nat) (s : State) : Host.Outcome State Fault Refusal :=
  onTile (fun t => if t.guarded h then .ok (t.put 1 .s (.sreg d (immWord (signed 16 imm)))) else .ok t) s

/-- INS1 (R87): bits [31:16] of s[D] replaced. -/
def execIns1 (h : Hdr) (d imm : Nat) (s : State) : Host.Outcome State Fault Refusal :=
  onTile (fun t => if t.guarded h then .ok (t.put 1 .s (.sreg d (insert16 (t.sreg d) 16 imm))) else .ok t) s

/-- INS2 (R87): bits [47:32] of s[D] replaced. -/
def execIns2 (h : Hdr) (d imm : Nat) (s : State) : Host.Outcome State Fault Refusal :=
  onTile (fun t => if t.guarded h then .ok (t.put 1 .s (.sreg d (insert16 (t.sreg d) 32 imm))) else .ok t) s

/-- INS3 (R87): bits [63:48] of s[D] replaced. -/
def execIns3 (h : Hdr) (d imm : Nat) (s : State) : Host.Outcome State Fault Refusal :=
  onTile (fun t => if t.guarded h then .ok (t.put 1 .s (.sreg d (insert16 (t.sreg d) 48 imm))) else .ok t) s

/-! Compares and predicates. -/

/-- CMPEQ (R88). -/
def execCmpeq (h : Hdr) (d : Nat) (a b : Src) (s : State) : Host.Outcome State Fault Refusal :=
  onTile (Tile.compare h d a b (fun x y => x == y)) s

/-- CMPNE (R88). -/
def execCmpne (h : Hdr) (d : Nat) (a b : Src) (s : State) : Host.Outcome State Fault Refusal :=
  onTile (Tile.compare h d a b (fun x y => x != y)) s

/-- CMPLT (R88). -/
def execCmplt (h : Hdr) (d : Nat) (a b : Src) (s : State) : Host.Outcome State Fault Refusal :=
  onTile (Tile.compare h d a b (fun x y => decide (x.toInt < y.toInt))) s

/-- CMPLTU (R88). -/
def execCmpltu (h : Hdr) (d : Nat) (a b : Src) (s : State) : Host.Outcome State Fault Refusal :=
  onTile (Tile.compare h d a b (fun x y => decide (x.toNat < y.toNat))) s

/-- CMPLE (R88). -/
def execCmple (h : Hdr) (d : Nat) (a b : Src) (s : State) : Host.Outcome State Fault Refusal :=
  onTile (Tile.compare h d a b (fun x y => decide (x.toInt ≤ y.toInt))) s

/-- CMPLEU (R88). -/
def execCmpleu (h : Hdr) (d : Nat) (a b : Src) (s : State) : Host.Outcome State Fault Refusal :=
  onTile (Tile.compare h d a b (fun x y => decide (x.toNat ≤ y.toNat))) s

/-- CMPTST (R88). -/
def execCmptst (h : Hdr) (d : Nat) (a b : Src) (s : State) : Host.Outcome State Fault Refusal :=
  onTile (Tile.compare h d a b (fun x y => x &&& y != 0)) s

/-- PAND (R89). -/
def execPand (h : Hdr) (d a b : Nat) (s : State) : Host.Outcome State Fault Refusal :=
  onTile (fun t => Tile.predOp h d (t.pred a &&& t.pred b) t) s

/-- POR (R89). -/
def execPor (h : Hdr) (d a b : Nat) (s : State) : Host.Outcome State Fault Refusal :=
  onTile (fun t => Tile.predOp h d (t.pred a ||| t.pred b) t) s

/-- PXOR (R89). -/
def execPxor (h : Hdr) (d a b : Nat) (s : State) : Host.Outcome State Fault Refusal :=
  onTile (fun t => Tile.predOp h d (t.pred a ^^^ t.pred b) t) s

/-- PANDN (R89). -/
def execPandn (h : Hdr) (d a b : Nat) (s : State) : Host.Outcome State Fault Refusal :=
  onTile (fun t => Tile.predOp h d (t.pred a &&& ~~~(t.pred b)) t) s

/-- PNOT (R89). -/
def execPnot (h : Hdr) (d a : Nat) (s : State) : Host.Outcome State Fault Refusal :=
  onTile (fun t => Tile.predOp h d (~~~(t.pred a)) t) s

/-- PMOV (R89). -/
def execPmov (h : Hdr) (d a : Nat) (s : State) : Host.Outcome State Fault Refusal :=
  onTile (fun t => Tile.predOp h d (t.pred a) t) s

/-- PSET (R89). -/
def execPset (h : Hdr) (d : Nat) (s : State) : Host.Outcome State Fault Refusal :=
  onTile (Tile.predOp h d (-1)) s

/-- PCLR (R89). -/
def execPclr (h : Hdr) (d : Nat) (s : State) : Host.Outcome State Fault Refusal :=
  onTile (Tile.predOp h d (0)) s

/-- SEL (R90): a or b by the guard; never suppressed (R69). -/
def execSel (h : Hdr) (d : Dest) (a b : Src) (s : State) : Host.Outcome State Fault Refusal :=
  onTile (fun t =>
    match t.readS a, t.readS b with
    | some x, some y => .ok (t.putS 1 d (if t.guarded h then x else y))
    | _, _ => .trap (lostTrap t)) s

/-- MOVP (R90). -/
def execMovp (h : Hdr) (d : Dest) (a : Nat) (s : State) : Host.Outcome State Fault Refusal :=
  onTile (fun t => if t.guarded h then .ok (t.putS 1 d (t.pred a)) else .ok t) s

/-- MOVTP (R90). -/
def execMovtp (h : Hdr) (d : Nat) (a : Src) (s : State) : Host.Outcome State Fault Refusal :=
  onTile (fun t =>
    if t.guarded h then
      match t.readS a with
      | some x => .ok (t.put 1 .s (.pred d x))
      | none => .trap (lostTrap t)
    else .ok t) s

/-! CSRs. -/

/-- The tile's Rill station (R225, R226). -/
def stationOf (id : Nat) : Nat :=
  let d := id / 160
  let row := id % 160 / 16
  let col := id % 16
  162 * d + 1 + 16 * row + (if row % 2 = 0 then col else 15 - col)

/-- LSTATEn (R98): INDEX and REMAIN, 0 while the level is inactive. -/
def LoopUnit.stateWord (u : LoopUnit) (n : Nat) : Word :=
  match u.level n with
  | some v => word (v.remain % 2 ^ 32 + v.index % 2 ^ 32 * 2 ^ 32)
  | none => 0

/-- LACTIVE (R98). -/
def LoopUnit.activeWord (u : LoopUnit) : Word :=
  wordOfBits ((List.range 6).map fun n => (u.level n).isSome)

/-- The value of a CSR as a CSRR at the tile's tick returns it (R92, R94). -/
def Tile.csr (t : Tile) (c : Csr) : Word :=
  match c with
  | .fpcr => t.csrs.fpcr
  | .fpsr => t.csrs.fpsr
  | .trapcause => t.csrs.trapcause
  | .trappc => t.csrs.trappc
  | .trapinfo => t.csrs.trapinfo
  | .tvec => t.csrs.tvec
  | .tileid => word t.key.id
  | .ntiles => word t.grid
  | .gangpos => word t.pos
  | .gangsize => word t.gang.size
  | .rillpos => word (stationOf t.key.id)
  | .ltime => word t.tick
  | .vfmta => t.csrs.vfmta
  | .vfmtb => t.csrs.vfmtb
  | .nif => t.csrs.nif
  | .atdue => t.csrs.atdue
  | .ftab n => listGet t.csrs.ftab n 0
  | .ftsel => t.csrs.ftsel
  | .seed n => word (bits t.seed (64 * n) 64)
  | .zero _ => 0
  | .stepcnt => t.csrs.stepcnt
  | .crgdepth => word t.csrs.depth
  | .lstate n => t.loops.stateWord n
  | .lactive => t.loops.activeWord
  | .prebound => t.csrs.prebound
  | .stopflag => t.csrs.stopflag
  | .maxk => t.csrs.maxk
  | .detmode => t.csrs.detmode

/-- Store a CSR (R92, R94): the registers a tile may write. -/
def Csrs.write (k : Csrs) (c : Csr) (v : Word) : Csrs :=
  match c with
  | .fpcr => { k with fpcr := v }
  | .fpsr => { k with fpsr := v }
  | .trapcause => { k with trapcause := v }
  | .trappc => { k with trappc := v }
  | .trapinfo => { k with trapinfo := v }
  | .tvec => { k with tvec := v }
  | .vfmta => { k with vfmta := v }
  | .vfmtb => { k with vfmtb := v }
  | .nif => { k with nif := v }
  | .atdue => { k with atdue := v }
  | .ftab n => { k with ftab := k.ftab.set n v }
  | .ftsel => { k with ftsel := v }
  | _ => k

/-- A CSR write at issue tick t (R41, R50, R57 to R59, R92): the stored value at t + 1, the value that governs at
t + 2 for FPCR, VFMTA, VFMTB and a table row of the vector slots, at t + 3 for NIF, FTSEL and a row of the matrix. -/
def Tile.putCsr (t : Tile) (c : Csr) (v : Word) : Tile :=
  let u := t.put 1 .s (.csr c v)
  match c with
  | .fpcr => u.put 2 .s (.gov .fpcr false v)
  | .vfmta => u.put 2 .s (.gov .vfmta false v)
  | .vfmtb => u.put 2 .s (.gov .vfmtb false v)
  | .nif => u.put 3 .s (.gov .nif false v)
  | .ftsel => u.put 3 .s (.gov .ftsel false v)
  | .ftab n => (u.put 2 .s (.gov (.ftab n) false v)).put 3 .s (.gov (.ftab n) true v)
  | _ => u

/-- Write, set or clear a CSR (R91, R93): PRIV for the front end's registers, ILLEGAL with reason 11 for a read-only
one or a forbidden value, nothing when guarded off. -/
def Tile.csrWrite (h : Hdr) (c : Csr) (v : Word) (t : Tile) : Res :=
  if t.guarded h then
    match csrAccess c with
    | .pr => .trap (privTrap t.iss.pos c)
    | .ro => .trap (illegalTrap t.iss.pos .badCsrValue)
    | .rw =>
      if csrLegal c v then .ok (t.putCsr c (v &&& word (csrMask c))) else .trap (illegalTrap t.iss.pos .badCsrValue)
  else .ok t

/-- CSRR (R91, R92). -/
def execCsrr (h : Hdr) (d : Nat) (c : Csr) (s : State) : Host.Outcome State Fault Refusal :=
  onTile (fun t => if t.guarded h then .ok (t.put 1 .s (.sreg d (t.csr c))) else .ok t) s

/-- CSRW (R91). -/
def execCsrw (h : Hdr) (d : Nat) (c : Csr) (s : State) : Host.Outcome State Fault Refusal :=
  onTile (fun t => Tile.csrWrite h c (t.sreg d) t) s

/-- CSRS (R91). -/
def execCsrs (h : Hdr) (d : Nat) (c : Csr) (s : State) : Host.Outcome State Fault Refusal :=
  onTile (fun t => Tile.csrWrite h c (t.csr c ||| t.sreg d) t) s

/-- CSRC (R91). -/
def execCsrc (h : Hdr) (d : Nat) (c : Csr) (s : State) : Host.Outcome State Fault Refusal :=
  onTile (fun t => Tile.csrWrite h c (t.csr c &&& ~~~(t.sreg d)) t) s

/-! Local loads and stores of slot S. -/

/-- Bytes of an access size (R138). -/
def MemSize.bytes : MemSize → Nat
  | .b1 => 1 | .b2 => 2 | .b4 => 4 | .b8 => 8

/-- Why an access to the scratchpad traps at issue (R136): alignment first, then the end of the scratchpad. -/
def spadCheck (pos a align len : Nat) : Option Trap :=
  if a % align ≠ 0 then some (addrTrap .align pos a)
  else if 0x200000 < a + len then some (addrTrap .perm pos a)
  else none

/-- The address a + offset × size modulo 2^64 (R138). -/
def offsetAddr (base : Word) (o : Int) (size : Nat) : Nat := (base + wordI (o * size)).toNat

/-- What a load delivers: the value, sign- or zero-extended (R138). -/
def extend (n : Nat) (sx : Bool) (v : Nat) : Word := if sx then wordI (signed (8 * n) v) else word v

/-- SLD (R138): sampled at issue, written at issue + 3; an uncorrectable error raises ECCUE then (R136). -/
def execSld (h : Hdr) (d : Dest) (a : Src) (size : MemSize) (sx : Bool) (o : Int) (s : State) : Host.Outcome State Fault Refusal :=
  onTile (fun t =>
    if t.guarded h then
      match t.readS a with
      | none => .trap (lostTrap t)
      | some base =>
        let n := MemSize.bytes size
        let addr := offsetAddr base o n
        match spadCheck t.iss.pos addr n n with
        | some tr => .trap tr
        | none =>
          let u := { t with spad := t.spad.note t.key.id 0 addr n }
          if t.spad.poisoned addr n then .ok (u.put 3 .s (.fault (addrTrap .eccue t.iss.pos addr)))
          else .ok (u.putS 3 d (extend n sx (natOfBytes (t.spad.readBytes addr n))))
    else .ok t) s

/-- SST (R138): the low bytes of s[D] at issue + 1. -/
def execSst (h : Hdr) (d : Nat) (a : Src) (size : MemSize) (o : Int) (s : State) : Host.Outcome State Fault Refusal :=
  onTile (fun t =>
    if t.guarded h then
      match t.readS a with
      | none => .trap (lostTrap t)
      | some base =>
        let n := MemSize.bytes size
        let addr := offsetAddr base o n
        match spadCheck t.iss.pos addr n n with
        | some tr => .trap tr
        | none => .ok (t.put 1 .s (.store 0 [(addr, bytesOfNat n (t.sreg d).toNat)]))
    else .ok t) s

end Sys2Proof.Machine
end

