-- ==== Sys2Proof/Machine/Control.lean ====
section
/-! DEFINITION. Control flow of the scalar slot: branches, calls and loops (R95 to R100), TRAP and TRET (R306), TFENCE
(R307), EXIT (R308), WAITT (R302). A gang member takes every transfer, back edge and loop count from its lead (R97). -/

namespace Sys2Proof.Machine

/-- What a bundle with a control syllable that transfers nothing does next: a member follows its stream (R97), any
other tile goes on as the loop unit decides (R100). -/
def Tile.fallThrough (t : Tile) : Tile := if t.iss.follow.isSome then t else t.advance

/-- BR (R95, R100). -/
def execBr (h : Hdr) (o : Int) (s : State) : Host.Outcome State Fault Refusal :=
  onTile (fun t =>
    if t.iss.follow.isNone && t.guarded h then .ok (t.jumpTo (t.iss.addr + 4 * o) true) else .ok t.fallThrough) s

/-- A call (R95 to R97): a taken transfer writes the link, on a member exactly when the lead took it. -/
def Tile.callTo (t : Tile) (target : Int) : Tile :=
  if 0 ≤ target ∧ t.isStart target.toNat then (t.transfer target.toNat false).link
  else t.badTarget (enc2 32 target)

/-- CALL (R95). -/
def execCall (h : Hdr) (o : Int) (s : State) : Host.Outcome State Fault Refusal :=
  onTile (fun t =>
    match t.iss.follow with
    | some taken => .ok (if taken then t.link else t)
    | none => if t.guarded h then .ok (t.callTo (t.iss.addr + 4 * o)) else .ok t.advance) s

/-- JMPR (R96). -/
def execJmpr (h : Hdr) (a : Src) (s : State) : Host.Outcome State Fault Refusal :=
  onTile (fun t =>
    if t.iss.follow.isNone && t.guarded h then
      match t.readS a with
      | some x => .ok (t.jumpTo x.toNat true)
      | none => .trap (lostTrap t)
    else .ok t.fallThrough) s

/-- CALLR (R96): a is read at issue. -/
def execCallr (h : Hdr) (a : Src) (s : State) : Host.Outcome State Fault Refusal :=
  onTile (fun t =>
    match t.iss.follow with
    | some taken => .ok (if taken then t.link else t)
    | none =>
      if t.guarded h then
        match t.readS a with
        | some x => .ok (t.callTo x.toNat)
        | none => .trap (lostTrap t)
      else .ok t.advance) s

/-- Enter a loop level whose body ends with the bundle at `stop`, or pass its body for a count of 0 (R99). With no bundle after the body that
is a transfer to a bad target, which R63 does not make; whether the active level that the syllable names is deactivated all the same
neither rule says: it stays, as it does at any transfer that is not made (DESIGN CHOICE, log entry 7). -/
def Tile.enterLoop (t : Tile) (l count stop : Nat) : Tile :=
  let u := if (t.loops.level l).isSome then t.loops.drop l else t.loops
  if count = 0 then
    match t.startAfter stop 32768 with
    | some next => { t with loops := u, pc := next }
    | none => t.badTarget t.progLen
  else
    { t with loops := { levels := u.levels.set l (some ⟨t.tick, t.iss.next, stop, count, 0⟩), order := l :: u.order },
             pc := t.iss.next }

/-- A loop over a body of so many bundles (R75, R99): a body that ends outside instruction memory is ILLEGAL, before a count that is lost
and, where the length is in the encoding, whatever the guard. -/
def Tile.loopOver (t : Tile) (l len : Nat) (a : Src) (on : Bool) : Res :=
  match t.nthStart t.iss.addr len with
  | none => .trap (illegalTrap t.iss.pos .badTarget)
  | some stop =>
    if on then
      match t.readS a with
      | some x => .ok (t.enterLoop l (bits x 0 32) stop)
      | none => .trap (lostTrap t)
    else .ok t.fallThrough

/-- LOOP (R99, R100): the end of its body is a check of the encoding, which a guarded-off syllable makes too (R69, R75). -/
def execLoop (h : Hdr) (l : Nat) (a : Src) (len : Nat) (s : State) : Host.Outcome State Fault Refusal :=
  onTile (fun t => if t.iss.follow.isNone then t.loopOver l len a (t.guarded h) else .ok t.fallThrough) s

/-- LOOPR (R99): a body length of 0 or above PREBOUND is ILLEGAL with reason 8. -/
def execLoopr (h : Hdr) (l : Nat) (a b : Src) (s : State) : Host.Outcome State Fault Refusal :=
  onTile (fun t =>
    if t.iss.follow.isNone && t.guarded h then
      match t.readS b with
      | some y =>
        if y = 0 ∨ t.csrs.prebound.toNat < y.toNat then .trap (illegalTrap t.iss.pos .zeroLength)
        else t.loopOver l y.toNat a true
      | none => .trap (lostTrap t)
    else .ok t.fallThrough) s

/-- Whether a control syllable of a tile takes place: as its guard says, on a gang member as its lead's did (R97). -/
def Tile.controls (t : Tile) (h : Hdr) : Bool := t.iss.follow.getD (t.guarded h)

/-- TRAP (R306): USER is entered at the next tick, in a gang on every member s ticks after the lead's issue, the
lead issuing empty bundles until then; the bundle itself takes effect. -/
def execTrap (h : Hdr) (a : Src) (s : State) : Host.Outcome State Fault Refusal :=
  onTile (fun t =>
    if t.controls h then
      match t.readS a with
      | some x =>
        let u := (t.put (t.gang.size - t.pos) .s (.fault (infoTrap .user t.iss.pos x))).fallThrough
        .ok { u with
              gang := if 1 < t.gang.size ∧ t.pos = 0 then { t.gang with resumeAt := t.tick + t.gang.size } else t.gang,
              iss := { u.iss with taken := true } }
      | none => .trap (lostTrap t)
    else .ok t.fallThrough) s

/-- TRET (R306, R271): a member clears its INH with its lead; its place in the stream changes as the bundle ends. -/
def execTret (h : Hdr) (s : State) : Host.Outcome State Fault Refusal :=
  onTile (fun t => if t.controls h then .ok (if t.iss.follow.isSome then t.clearInh else t.ret) else .ok t.fallThrough) s

/-- TFENCE (R307): after the hold and checks of R293, ARITH when an enabled flag is set. On a gang member its own guard, flags and enables
decide, on which R97 and R267 are silent (DESIGN CHOICE, log entry 73). -/
def execTfence (h : Hdr) (s : State) : Host.Outcome State Fault Refusal :=
  onTile (fun t =>
    if t.guarded h then
      match t.settle with
      | some r => r
      | none =>
        let m := enabledFlags t.gov.fpcr t.csrs.fpsr
        if m = 0 then .ok t.fallThrough else .trap (infoTrap .arith t.iss.pos m)
    else .ok t.fallThrough) s

/-- What stays in flight at EXIT (R308): local stores, local atomics without their results, local arrivals. -/
def Eff.keptAtExit : Eff → Bool
  | .store _ _ | .atom _ _ _ _ _ _ _ _ | .atomOnly _ _ _ _ _ | .arrive _ _ _ => true
  | _ => false

/-- The retirement of a tile (R308): results, landings and the reads of an ACQ of its own bundle are discarded, engines stop, regions close, the tile
alights (R19, R233), and its release counts as a trigger (R300). -/
def Tile.retire (t : Tile) : Tile :=
  { t.dropLandings (fun _ => true) with
    phase := .retired,
    inflight := (t.inflight.filter fun p => p.eff.keptAtExit).map fun p => { p with eff := p.eff.withoutResult },
    mx := { t.mx with active := none, pending := none },
    casc := { t.casc with subs := [], xfers := [] },
    far := (t.far.filter fun f => !f.kind.isLoad && f.kind != FarKind.acq).map fun f => { f with landing := none },
    queues := t.queues.map fun q => { q with cmds := q.cmds.filter fun c => c.record.isNone },
    station := t.station.map fun x => { x with landing := none },
    regions := [], waits := [], berth := .free, freeze := none,
    triggered := some (t.triggered.getD t.tick) }

/-- EXIT (R308): after the hold and checks of R293. Of a gang member R97 and R267 take transfers, back edges and loop counts from the lead and
say nothing of this syllable: the model lets the member's own guard decide it (DESIGN CHOICE, log entry 73). -/
def execExit (h : Hdr) (s : State) : Host.Outcome State Fault Refusal :=
  onTile (fun t =>
    if t.guarded h then
      match t.settle with
      | some r => r
      | none => .ok t.retire
    else .ok t.fallThrough) s

/-- WAITT (R302): the next bundle issues at tick a; TIMEPAST when a is not above the issue tick. On a gang member its own guard and its own
register decide, on which R97 and R267 are silent (DESIGN CHOICE, log entry 73). -/
def execWaitt (h : Hdr) (a : Src) (s : State) : Host.Outcome State Fault Refusal :=
  onTile (fun t =>
    if t.guarded h then
      match t.readS a with
      | some x =>
        if x.toNat ≤ t.ltime then .trap (infoTrap .timepast t.iss.pos x)
        else .ok (t.addWait (t.tickAt x.toNat) .tick).fallThrough
      | none => .trap (lostTrap t)
    else .ok t.fallThrough) s

end Sys2Proof.Machine
end

