-- ==== Sys2Proof/Machine/LocalMem.lean ====
section
/-! DEFINITION. Copy-slot access to the local scratchpad and between register files: CLD, CST, CGATH, CSCAT (R136 to
R140), XCP (R74), and LTIME, SEEDR, CNOP (R150). -/

namespace Sys2Proof.Machine

/-- The bytes of a vector register, byte j in bits [8j + 7 : 8j] (R139). -/
def vregBytes (v : VReg) : List Byte := bytesOfNat 256 v.toNat

def vregOfBytes (bs : List Byte) : VReg := vregOf (natOfBytes bs)

/-- The address a + 256 × offset (R139). R138 states the modulus 2^64 for SLD and SST and R139 none: the model wraps here too (DESIGN
CHOICE, log entry 71). -/
def rowAddr (base : Word) (o : Int) : Nat := (base + wordI (256 * o)).toNat

/-- CLD (R139): 256 bytes sampled at issue, written at issue + 4. -/
def execCld (h : Hdr) (f : VFile) (d : Nat) (a : Src) (imm : Int) (s : State) : Host.Outcome State Fault Refusal :=
  onTile (fun t =>
    if t.guarded h then
      match t.readX a with
      | none => .trap (lostTrap t)
      | some base =>
        let addr := rowAddr base imm
        match spadCheck t.iss.pos addr 256 256 with
        | some tr => .trap tr
        | none =>
          let u := { t with spad := t.spad.note t.key.id 0 addr 256 }
          if t.spad.poisoned addr 256 then .ok (u.put 4 (fileSlot t.cfile) (.fault (addrTrap .eccue t.iss.pos addr)))
          else .ok (u.put 4 (fileSlot t.cfile) (.vreg f d (vregOfBytes (t.spad.readBytes addr 256))))
    else .ok t) s

/-- The rank of a store syllable in its tick (R137): S, CA, CB. -/
def storeRank : CFile → Nat
  | .xa => 1
  | .xb => 2

/-- CST (R139): 256 bytes at issue + 1. -/
def execCst (h : Hdr) (f : VFile) (d : Nat) (a : Src) (imm : Int) (s : State) : Host.Outcome State Fault Refusal :=
  onTile (fun t =>
    if t.guarded h then
      match t.readX a with
      | none => .trap (lostTrap t)
      | some base =>
        let addr := rowAddr base imm
        match spadCheck t.iss.pos addr 256 256 with
        | some tr => .trap tr
        | none => .ok (t.put 1 (fileSlot t.cfile) (.store (storeRank t.cfile) [(addr, vregBytes (t.vreg f d))]))
    else .ok t) s

/-- Element size and lane count of CGATH and CSCAT (R140). -/
def gatherSize (wide : Bool) : Nat := if wide then 8 else 4
def gatherLanes (wide : Bool) : Nat := if wide then 32 else 64

/-- The element addresses: a + e × index (R140). R140 states no modulus: the model wraps at 2^64, as R138 does for SLD and SST (DESIGN
CHOICE, log entry 71). -/
def gatherAddrs (wide : Bool) (base : Word) (idx : VReg) : List Nat :=
  (lanesOf (8 * gatherSize wide) (gatherLanes wide) idx.toNat).map fun i => (base + word (gatherSize wide * i)).toNat

/-- The first element that traps (R136, R140): every address is checked before any element moves. -/
def gatherCheck (pos e : Nat) : List Nat → Option Trap
  | [] => none
  | a :: t =>
    match spadCheck pos a e e with
    | some tr => some tr
    | none => gatherCheck pos e t

/-- CGATH (R140): the elements are read at issue and written at issue + 6. -/
def execCgath (h : Hdr) (f : VFile) (d : Nat) (a : Src) (wide : Bool) (x : Nat) (s : State) :
    Host.Outcome State Fault Refusal :=
  onTile (fun t =>
    if t.guarded h then
      match t.readX a with
      | none => .trap (lostTrap t)
      | some base =>
        let e := gatherSize wide
        let addrs := gatherAddrs wide base (t.vreg f x)
        match gatherCheck t.iss.pos e addrs with
        | some tr => .trap tr
        | none =>
          let u := { t with spad := addrs.foldl (fun (sp : Spad) a => sp.note t.key.id 0 a e) t.spad }
          match addrs.find? fun a => t.spad.poisoned a e with
          | some bad => .ok (u.put 6 (fileSlot t.cfile) (.fault (addrTrap .eccue t.iss.pos bad)))
          | none =>
            .ok (u.put 6 (fileSlot t.cfile) (.vreg f d (vregOf (packLanes (8 * e)
              (addrs.map fun a => natOfBytes (t.spad.readBytes a e))))))
    else .ok t) s

/-- CSCAT (R140): the elements are written at issue + 1 in rising lane order. -/
def execCscat (h : Hdr) (f : VFile) (d : Nat) (a : Src) (wide : Bool) (x : Nat) (s : State) :
    Host.Outcome State Fault Refusal :=
  onTile (fun t =>
    if t.guarded h then
      match t.readX a with
      | none => .trap (lostTrap t)
      | some base =>
        let e := gatherSize wide
        let addrs := gatherAddrs wide base (t.vreg f x)
        match gatherCheck t.iss.pos e addrs with
        | some tr => .trap tr
        | none =>
          .ok (t.put 1 (fileSlot t.cfile) (.store (storeRank t.cfile)
            (List.zip addrs ((lanesOf (8 * e) (gatherLanes wide) (t.vreg f d).toNat).map fun v => bytesOfNat e v))))
    else .ok t) s

/-! XCP (R74): read at issue, written at issue + 2, and v enters the issuing copy slot's latches. -/

/-- A copy of one value into the issuing copy file. -/
def Tile.copyIn (h : Hdr) (d : Dest) (v : Option Word) (t : Tile) : Res :=
  if t.guarded h then
    match v with
    | some x => .ok (t.putX 2 d x)
    | none => .trap (lostTrap t)
  else .ok t

/-- A copy of one value out of the issuing copy file, by the effect that writes it. -/
def Tile.copyOut (h : Hdr) (d : Dest) (a : Src) (e : Nat → Word → Eff) (t : Tile) : Res :=
  if t.guarded h then
    match t.readX a with
    | none => .trap (lostTrap t)
    | some x =>
      match d with
      | .reg n => .ok (t.put 2 (fileSlot t.cfile) (e n x))
      | .suppressed => .ok (t.put 2 (fileSlot t.cfile) (.latchW (fileSlot t.cfile) x))
  else .ok t

/-- A vector register with one 64-bit lane replaced (R74). -/
def setLane64 (v : VReg) (lane : Nat) (x : Word) : VReg := vregOf (putField v.toNat (64 * lane) 64 x.toNat)

/-- XCP into a vector lane (R74): the register as read at issue with the lane replaced, and v into the latches. -/
def Tile.copyLane (h : Hdr) (d : Dest) (a : Src) (f : VFile) (lane : Nat) (t : Tile) : Res :=
  if t.guarded h then
    match t.readX a with
    | none => .trap (lostTrap t)
    | some x =>
      let u := match d with
        | .reg n => t.put 2 (fileSlot t.cfile) (.vreg f n (setLane64 (t.vreg f n) lane x))
        | .suppressed => t
      .ok (u.put 2 (fileSlot t.cfile) (.latchW (fileSlot t.cfile) x))
  else .ok t

/-- XCP FN 0: an S register, or an own latch, into an own copy register. -/
def execXcpsx (h : Hdr) (d : Dest) (a : Src) (s : State) : Host.Outcome State Fault Refusal :=
  onTile (fun t => Tile.copyIn h d (match a with
    | .reg n => some (t.sreg n)
    | .latch k => t.readX (.latch k)) t) s

/-- XCP FN 1: an own source into an S register. -/
def execXcpxs (h : Hdr) (d : Dest) (a : Src) (s : State) : Host.Outcome State Fault Refusal :=
  onTile (Tile.copyOut h d a fun n x => .sreg n x) s

/-- XCP FN 2: a matrix register into an own copy register. -/
def execXcpmx (h : Hdr) (d : Dest) (a : Nat) (s : State) : Host.Outcome State Fault Refusal :=
  onTile (fun t => Tile.copyIn h d (some (t.mreg a)) t) s

/-- XCP FN 3: an own source into a matrix register. -/
def execXcpxm (h : Hdr) (d : Dest) (a : Src) (s : State) : Host.Outcome State Fault Refusal :=
  onTile (Tile.copyOut h d a fun n x => .mreg n x) s

/-- XCP FN 4: a 64-bit lane of a VA register. -/
def execXcpvax (h : Hdr) (d : Dest) (a lane : Nat) (s : State) : Host.Outcome State Fault Refusal :=
  onTile (fun t => Tile.copyIn h d (some (word (bits (t.vreg .va a) (64 * lane) 64))) t) s

/-- XCP FN 5: a 64-bit lane of a VB register. -/
def execXcpvbx (h : Hdr) (d : Dest) (a lane : Nat) (s : State) : Host.Outcome State Fault Refusal :=
  onTile (fun t => Tile.copyIn h d (some (word (bits (t.vreg .vb a) (64 * lane) 64))) t) s

/-- XCP FN 6: an own source into a 64-bit lane of a VA register. -/
def execXcpxva (h : Hdr) (d : Dest) (a : Src) (lane : Nat) (s : State) : Host.Outcome State Fault Refusal :=
  onTile (Tile.copyLane h d a .va lane) s

/-- XCP FN 7: an own source into a 64-bit lane of a VB register. -/
def execXcpxvb (h : Hdr) (d : Dest) (a : Src) (lane : Nat) (s : State) : Host.Outcome State Fault Refusal :=
  onTile (Tile.copyLane h d a .vb lane) s

/-- CNOP (R150): no effect. -/
def execCnop (_e : Bool) (s : State) : Host.Outcome State Fault Refusal := onTile (fun t => .ok t) s

/-- LTIME (R16, R150): the issue tick at issue + 1. -/
def execLtime (h : Hdr) (d : Dest) (s : State) : Host.Outcome State Fault Refusal :=
  onTile (fun t => if t.guarded h then .ok (t.putX 1 d (word t.tick)) else .ok t) s

/-- SEEDR (R150): a word of the seed-stack top at issue + 2. -/
def execSeedr (h : Hdr) (d : Dest) (k : Nat) (s : State) : Host.Outcome State Fault Refusal :=
  onTile (fun t => if t.guarded h then .ok (t.putX 2 d (word (bits t.seed (64 * k) 64))) else .ok t) s

end Sys2Proof.Machine
end

