-- ==== Sys2Proof/Machine/Far.lean ====
section
/-! DEFINITION. Far loads and stores (R142 to R146), timed messages (R147, R148), GANG (R151), and the atomics of
major 53 (R157 to R163), at their issue. -/

namespace Sys2Proof.Machine

/-! Far accesses. -/

/-- Where an offset of an aperture entry leads (R347): the table, a ready flag, a contribution, or nowhere. -/
inductive Aperture where
  | table (off : Nat)
  | ready (k : Nat)
  | contrib (k off : Nat)
  | none
deriving DecidableEq, Repr

def apertureOf (entry off : Nat) : Aperture :=
  if 1024 ≤ entry then .none
  else if off < 256 then .table off
  else if 0x1000 ≤ off ∧ off < 0x1100 then .ready ((off - 0x1000) / 8)
  else if 0x100000 ≤ off ∧ off < 0x500000 then .contrib ((off - 0x100000) / 0x20000) ((off - 0x100000) % 0x20000)
  else .none

/-- Why a far load traps at issue (R142, R347): ALIGN, then PERM for a bad address or the aperture. -/
def farLoadCheck (t : Tile) (a align : Nat) : Option Trap :=
  if a % align ≠ 0 then some (addrTrap .align t.iss.pos a)
  else
    match farTarget t.grid a with
    | .bad => some (addrTrap .perm t.iss.pos a)
    | .aperture _ _ => some (addrTrap .perm t.iss.pos a)
    | _ => none

/-- Why a far store traps at issue (R142, R347). -/
def farStoreCheck (t : Tile) (a align : Nat) : Option Trap :=
  if a % align ≠ 0 then some (addrTrap .align t.iss.pos a)
  else
    match farTarget t.grid a with
    | .bad => some (addrTrap .perm t.iss.pos a)
    | .aperture e o => if apertureOf e o = .none then some (addrTrap .perm t.iss.pos a) else none
    | _ => none

/-- A far load (R143): a reservation, a landing and a request. -/
def Tile.farLoad (h : Hdr) (a : Src) (align due : Nat) (k : FarKind) (dest : LandDest) (t : Tile) : Res :=
  if t.guarded h then
    match t.readX a with
    | none => .trap (lostTrap t)
    | some x =>
      match farLoadCheck t x.toNat align with
      | some tr => .trap tr
      | none =>
        match t.reserve due dest with
        | .ok u => .ok (u.sendFar x.toNat k (some t.seq) none)
        | r => r
  else .ok t

/-- A far store (R144): the data is read at issue and waits in the write combiner. -/
def Tile.farStore (h : Hdr) (a : Src) (align : Nat) (bs : List Byte) (t : Tile) : Res :=
  if t.guarded h then
    match t.readX a with
    | none => .trap (lostTrap t)
    | some x =>
      match farStoreCheck t x.toNat align with
      | some tr => .trap tr
      | none => .ok (t.sendFar x.toNat (.store bs) none none)
  else .ok t

/-- FLD (R143). -/
def execFld (h : Hdr) (d : Nat) (a : Src) (n : Nat) (s : State) : Host.Outcome State Fault Refusal :=
  onTile (fun t => Tile.farLoad h a 8 n .load8 (.far t.cfile d) t) s

/-- FLDV (R143). -/
def execFldv (h : Hdr) (f : VFile) (d : Nat) (a : Src) (n : Nat) (s : State) : Host.Outcome State Fault Refusal :=
  onTile (Tile.farLoad h a 256 n .loadV (.farV f d)) s

/-- FST (R144). -/
def execFst (h : Hdr) (d : Nat) (a : Src) (s : State) : Host.Outcome State Fault Refusal :=
  onTile (fun t => Tile.farStore h a 8 (bytesOfNat 8 (t.xreg t.cfile d).toNat) t) s

/-- FSTV (R144). -/
def execFstv (h : Hdr) (f : VFile) (d : Nat) (a : Src) (s : State) : Host.Outcome State Fault Refusal :=
  onTile (fun t => Tile.farStore h a 256 (vregBytes (t.vreg f d)) t) s

/-! Timed messages. -/

/-- The message of a SEND and its number (R147). -/
def Tile.sendMsg (t : Tile) (dst chan : Nat) (v : VReg) : Tile × Message :=
  let key := dst * 16 + chan
  let k := assocGet t.sent key 0
  ({ t with sent := assocSet t.sent key (k + 1) }, ⟨t.key.id, dst, chan, k, t.tick % 2 ^ 32, v, false⟩)

/-- Whether the receiver's skid buffer is full (R27). -/
def State.skidFull (s : State) (k : TileKey) : Bool :=
  match s.tile? k with
  | some t => decide (Config.skidEntries ≤ t.skid.length)
  | none => false

/-- SEND (R147): PERM for a destination outside the grid, a hold while the receiver's skid buffer is full. -/
def execSend (h : Hdr) (f : VFile) (v x : Nat) (s : State) : Host.Outcome State Fault Refusal :=
  let t := s.tile
  if t.guarded h then
    let a := t.xreg t.cfile x
    let dst := bits a 0 11
    if t.grid ≤ dst then .next (s.takeTrap (infoTrap .perm t.iss.pos
      (word (0xA * 2 ^ 60 + t.iss.pos % 8 * 2 ^ 57 + dst * 65536 + 4))))
    else if s.skidFull ⟨t.key.pasid, dst⟩ then
      .next { s with tile := { t with iss := { t.iss with held := some (.skid, t.key.id) } } }
    else
      let r := t.sendMsg dst (bits a 11 4) (t.vreg f v)
      .next { s with tile := r.1,
                     launches := s.launches.map fun l =>
                       if l.key == t.launchKey then { l with links := l.links ++ [r.2] } else l }
  else .next s

/-- The lowest message number of a flow that no RECV has written or claimed (R148): one that was given back, or
the next. -/
def Tile.claim (t : Tile) (key : Nat) : Tile × Nat :=
  let back := (t.claims.filter fun c => c.1 == key).map (·.2)
  match back with
  | n :: more =>
    let k := more.foldl min n
    ({ t with claims := t.claims.filter fun c => !(c.1 == key && c.2 == k) }, k)
  | [] =>
    let k := assocGet t.received key 0
    ({ t with received := assocSet t.received key (k + 1) }, k)

/-- RECV (R148): the claim and the landing. -/
def execRecv (h : Hdr) (f : VFile) (v x n : Nat) (s : State) : Host.Outcome State Fault Refusal :=
  onTile (fun t =>
    if t.guarded h then
      let a := t.xreg t.cfile x
      let chan := bits a 43 4
      let src := bits a 32 11
      let r := t.claim (src * 16 + chan)
      .ok (r.1.land n (.recv f v src chan r.2 (bits a 0 32)))
    else .ok t) s

/-! GANG (R151). -/

/-- The quadrant of a tile on its die, told apart between dies (R13). -/
def quadOf (id : Nat) : Nat := id / 160 * 4 + 2 * (id % 160 / 16 / 5) + id % 16 / 8

/-- The first failing check of R151. -/
def gangCheck (grid id f n : Nat) : Option Nat :=
  if n = 0 ∨ 16 < n then some 1
  else if grid < f + n ∨ !(List.range n).all (fun i => quadOf (f + i) == quadOf f) then some 2
  else if id < f ∨ f + n ≤ id then some 3
  else none

/-- GANG (R151): the tile leaves its gang and waits for the tiles that its descriptor names. -/
def execGang (h : Hdr) (a b : Src) (s : State) : Host.Outcome State Fault Refusal :=
  onTile (fun t =>
    if t.guarded h then
      match t.readX a, t.readX b with
      | some x, some y =>
        let f := bits x 0 11
        let n := bits x 11 5
        match gangCheck t.grid t.key.id f n with
        | some k => .trap (checkTrap .perm 0xA t.iss.pos k)
        | none =>
          if y.toNat ≤ t.ltime then .trap (infoTrap .timepast t.iss.pos y)
          else
            .ok ({ t with gang := { t.gang with first := t.key.id, size := 1 } }.addWait
              (t.tickAt y.toNat + (t.key.id - f)) (.gang f n (t.tickAt y.toNat)))
      | _, _ => .trap (lostTrap t)
    else .ok t) s

/-! Atomics. -/

/-- Why an atomic traps at issue (R142, R160, R163, R362): ALIGN, PERM, then DETV. -/
def atomCheck (t : Tile) (a : Nat) (openOk : Bool) : Option Trap :=
  if a % 8 ≠ 0 then some (addrTrap .align t.iss.pos a)
  else
    match atomTarget t.grid a with
    | .bad => some (addrTrap .perm t.iss.pos a)
    | .aperture _ _ => some (addrTrap .perm t.iss.pos a)
    | .virt _ => if bit t.csrs.detmode 0 && !openOk then some (infoTrap .detv t.iss.pos (word (9 * 2 ^ 60 + t.iss.pos % 8 * 2 ^ 57 + a % 2 ^ 57))) else none
    | _ => none

/-- An atomic at its issue (R158 to R160): local at issue + 6, else a request with or without a landing at the
distance of ATDUE. -/
def Tile.atomic (t : Tile) (a : Nat) (op : AtomOp) (v v2 : Word) (d p : Option Nat) (openOk : Bool) : Res :=
  match atomCheck t a openOk with
  | some tr => .trap tr
  | none =>
    let ret := d.isSome || p.isSome
    if a < 0x200000 then .ok (t.put 6 (fileSlot t.cfile) (.atom op a v v2 t.cfile d p t.iss.pos))
    else if ret then
      match t.reserve (bits t.csrs.atdue 0 9) (.atom t.cfile d p) with
      | .ok u => .ok (u.sendFar a (.atom op v v2 true) (some t.seq) none)
      | r => r
    else .ok (t.sendFar a (.atom op v v2 false) none none)

def Dest.num : Dest → Option Nat
  | .reg n => some n
  | .suppressed => none

/-- An atomic whose operand is one own source (R158). -/
def Tile.atom1 (h : Hdr) (d : Dest) (a b : Src) (op : AtomOp) (openForm : Bool) (t : Tile) : Res :=
  if t.guarded h then
    match t.readX a, t.readX b with
    | some x, some y => t.atomic x.toNat op y 0 (Dest.num d) none (openForm && (Dest.num d).isNone)
    | _, _ => .trap (lostTrap t)
  else .ok t

/-- An atomic whose operands are a register pair (R158). -/
def Tile.atom2 (h : Hdr) (d p : Option Nat) (a : Src) (b : Nat) (op : AtomOp) (t : Tile) : Res :=
  if t.guarded h then
    match t.readX a with
    | some x => t.atomic x.toNat op (t.xreg t.cfile b) (t.xreg t.cfile (b + 1)) d p false
    | none => .trap (lostTrap t)
  else .ok t

/-- AADD (R158 to R163). -/
def execAadd (h : Hdr) (d : Dest) (a b : Src) (s : State) : Host.Outcome State Fault Refusal :=
  onTile (Tile.atom1 h d a b .add true) s

/-- AINCW (R158 to R163). -/
def execAincw (h : Hdr) (d : Dest) (a b : Src) (s : State) : Host.Outcome State Fault Refusal :=
  onTile (Tile.atom1 h d a b .incw false) s

/-- AFAAB (R158 to R163): old into x[D] and the fail mask into p[D]. -/
def execAfaab (h : Hdr) (d : Nat) (a : Src) (b : Nat) (s : State) : Host.Outcome State Fault Refusal :=
  onTile (Tile.atom2 h (some d) (some d) a b .faab) s

/-- ACAS (R158 to R163). -/
def execAcas (h : Hdr) (d : Dest) (a : Src) (b : Nat) (s : State) : Host.Outcome State Fault Refusal :=
  onTile (Tile.atom2 h (Dest.num d) none a b .cas) s

/-- AXCHG (R158 to R163). -/
def execAxchg (h : Hdr) (d : Dest) (a b : Src) (s : State) : Host.Outcome State Fault Refusal :=
  onTile (Tile.atom1 h d a b .xchg false) s

/-- AMINS (R158 to R163). -/
def execAmins (h : Hdr) (d : Dest) (a b : Src) (s : State) : Host.Outcome State Fault Refusal :=
  onTile (Tile.atom1 h d a b .mins true) s

/-- AMAXU (R158 to R163). -/
def execAmaxu (h : Hdr) (d : Dest) (a b : Src) (s : State) : Host.Outcome State Fault Refusal :=
  onTile (Tile.atom1 h d a b .maxu true) s

/-- AORB (R158 to R163). -/
def execAorb (h : Hdr) (d : Dest) (a b : Src) (s : State) : Host.Outcome State Fault Refusal :=
  onTile (Tile.atom1 h d a b .orb true) s

/-- The word an atomic leaves and whether it failed (R158, R159). -/
def atomResult (op : AtomOp) (old v v2 : Word) : Word × Bool :=
  match op with
  | .add => (old + v, false)
  | .incw => (if v.toNat ≤ old.toNat then 0 else old + 1, false)
  | .faab => if old.toNat + v.toNat ≤ v2.toNat then (old + v, false) else (old, true)
  | .cas => (if old = v then v2 else old, false)
  | .xchg => (v, false)
  | .mins => (if old.toInt ≤ v.toInt then old else v, false)
  | .maxu => (if old.toNat ≤ v.toNat then v else old, false)
  | .orb => (old ||| v, false)

/-- Whether an atomic writes its word at all (R159): a mismatch of ACAS and a failed AFAAB write nothing. -/
def atomWrites (op : AtomOp) (old v v2 : Word) : Bool :=
  match op with
  | .cas => old == v
  | .faab => decide (old.toNat + v.toNat ≤ v2.toNat)
  | _ => true

/-- An arrival on a barrier word (R164, R165). -/
def arriveWord (w : Word) (n : Nat) : Word :=
  let count := bits w 0 32 + 1
  if n ≤ count then word ((bits w 32 32 + 1) % 2 ^ 32 * 2 ^ 32) else word (bits w 32 32 * 2 ^ 32 + count)

end Sys2Proof.Machine
end

