-- ==== Sys2Proof/Machine/Rill.lean ====
section
/-! DEFINITION. The syllables of the Rill (R225 to R240): ring accesses placed in the station's queue with their pass
ticks, BOARD and ALIGHT. -/

namespace Sys2Proof.Machine

/-- The number of slots and stations: 162 for each die that the declared grid spans (R225). -/
def ringLength (grid : Nat) : Nat := 162 * ceilDiv grid 160

/-- The pass tick of an operation issued at tick t on slot s at station k (R236). -/
def passTick (k s t l : Nat) : Nat := t + 1 + (((k : Int) - s - t - 1) % (l : Int)).toNat

/-- RILLNB with its TRAPINFO (R240). -/
def rillTrap (pos fn : Nat) : Trap := checkTrap .rillnb 6 pos fn

/-- PERM of a ring access (R240). -/
def rillPerm (pos slot n : Nat) : Trap :=
  infoTrap .perm pos (word (6 * 2 ^ 60 + pos % 8 * 2 ^ 57 + slot * 65536 + n))

/-- Why a ring access traps at issue (R240). -/
def rillCheck (t : Tile) (fn slot : Nat) : Option Trap :=
  if t.berth ≠ .boarded then some (rillTrap t.iss.pos fn)
  else if ringLength t.grid ≤ slot then some (rillPerm t.iss.pos slot 1)
  else if 16 ≤ t.station.length then some (rillPerm t.iss.pos slot 2)
  else none

/-- Put an operation into the station's queue (R236, R237). -/
def Tile.queueRill (t : Tile) (slot wd : Nat) (k : RillKind) (landing : Option Nat) : Tile :=
  { t with station := t.station ++
             [⟨t.tick, t.seq, passTick (stationOf t.key.id) slot t.tick (ringLength t.grid), slot, wd, k, landing, t.iss.pos⟩],
           seq := t.seq + 1 }

/-- A ring access at its issue: a landing two ticks after the pass when it returns a value (R236). -/
def Tile.ringAccess (t : Tile) (fn : Nat) (a : Word) (k : RillKind) (dest : Option LandDest) : Res :=
  let slot := bits a 0 11
  match rillCheck t fn slot with
  | some tr => .trap tr
  | none =>
    match dest with
    | none => .ok (t.queueRill slot (bits a 11 3) k none)
    | some d =>
      match t.reserve (passTick (stationOf t.key.id) slot t.tick (ringLength t.grid) + 2 - t.tick) d with
      | .ok u => .ok (u.queueRill slot (bits a 11 3) k (some t.seq))
      | r => r

/-- The first register of an octet: 0, or 8 for the upper one. -/
def octetBase (upper : Bool) : Nat := if upper then 8 else 0

/-- The eight registers of an octet (R238, R249). -/
def Tile.octet (t : Tile) (upper : Bool) : List Word :=
  (List.range 8).map fun i => t.xreg t.cfile (octetBase upper + i)

/-- RCAP (R238). -/
def execRcap (h : Hdr) (d : Bool) (a : Src) (s : State) : Host.Outcome State Fault Refusal :=
  onTile (fun t =>
    if t.guarded h then
      match t.readX a with
      | some x => t.ringAccess 0 x .cap (some (.octet t.cfile (octetBase d)))
      | none => .trap (lostTrap t)
    else .ok t) s

/-- RPUT (R238): the octet is read at issue. -/
def execRput (h : Hdr) (a : Src) (b : Bool) (s : State) : Host.Outcome State Fault Refusal :=
  onTile (fun t =>
    if t.guarded h then
      match t.readX a with
      | some x => t.ringAccess 1 x (.put (t.octet b)) none
      | none => .trap (lostTrap t)
    else .ok t) s

/-- An update of one word (R239): the old word returns unless the result is suppressed. -/
def Tile.ringUpdate (h : Hdr) (fn : Nat) (d : Dest) (a b : Src) (k : Word → RillKind) (t : Tile) : Res :=
  if t.guarded h then
    match t.readX a, t.readX b with
    | some x, some y => t.ringAccess fn x (k y) ((Dest.num d).map fun n => .rill t.cfile n)
    | _, _ => .trap (lostTrap t)
  else .ok t

/-- RADD (R239). -/
def execRadd (h : Hdr) (d : Dest) (a b : Src) (s : State) : Host.Outcome State Fault Refusal :=
  onTile (Tile.ringUpdate h 2 d a b .add) s

/-- RCAS (R239): compare x[B], new x[B + 1]. -/
def execRcas (h : Hdr) (d : Dest) (a : Src) (b : Nat) (s : State) : Host.Outcome State Fault Refusal :=
  onTile (fun t => Tile.ringUpdate h 3 d a (.reg b) (fun v => .cas v (t.xreg t.cfile (b + 1))) t) s

/-- RMAXU (R239). -/
def execRmaxu (h : Hdr) (d : Dest) (a b : Src) (s : State) : Host.Outcome State Fault Refusal :=
  onTile (Tile.ringUpdate h 4 d a b .maxu) s

/-- ROR (R239). -/
def execRor (h : Hdr) (d : Dest) (a b : Src) (s : State) : Host.Outcome State Fault Refusal :=
  onTile (Tile.ringUpdate h 5 d a b .or) s

/-- Set the Rill state of a tile's whole gang (R230, R234). -/
def State.setBerth (s : State) (b : Berth) : State :=
  let t := s.tile
  s.mapTiles fun u => if sameGang t u then { u with berth := b } else u

/-- Whether the Rill of a tile's launch has stopped for a save (R245). -/
def State.rillStopped (s : State) (t : Tile) : Bool := ((s.launch? t.launchKey).map fun l => l.stopped).getD false

/-- Whether a tile's BOARD is held (R232): RT has not reached its tick, or the Rill has stopped for a save, whose domain no tile joins until
it goes on (R245, log entry 33). -/
def State.boardHeld (s : State) (t : Tile) : Bool :=
  ((s.launch? t.launchKey).map fun l => decide (l.rt < t.tick)).getD false || s.rillStopped t

/-- BOARD (R232): RILLNB from a free tile, no effect when boarded, a hold until RT reaches the tile's tick, then the
tile's gang is boarded. -/
def execBoard (h : Hdr) (s : State) : Host.Outcome State Fault Refusal :=
  let t := s.tile
  if t.guarded h && t.iss.follow.isNone then
    match t.berth with
    | .free => .next (s.takeTrap (rillTrap t.iss.pos 6))
    | .boarded => .next s
    | .berthed =>
      if s.boardHeld t then
        .next { s with tile := { t with iss := { t.iss with held := some (.wait, t.key.id) } } }
      else .next (s.setBerth .boarded)
  else .next s

/-- Leave the ring (R233). -/
def State.alight (s : State) (h : Hdr) (b : Berth) : Host.Outcome State Fault Refusal :=
  let t := s.tile
  if t.guarded h && t.iss.follow.isNone then
    if t.berth = .boarded then .next (s.setBerth b) else .next (s.takeTrap (rillTrap t.iss.pos 7))
  else .next s

/-- ALIGHT (R233): the tile becomes berthed. -/
def execAlight (h : Hdr) (s : State) : Host.Outcome State Fault Refusal := s.alight h .berthed

/-- ALIGHT free (R233): the tile becomes free. -/
def execAlightFree (h : Hdr) (s : State) : Host.Outcome State Fault Refusal := s.alight h .free

end Sys2Proof.Machine
end

