-- ==== Sys2Proof/Machine/CopyEngine.lean ====
section
/-! DEFINITION. The copy command and its fields (R249 to R252), PUSH and POP (R256 to R259). -/

namespace Sys2Proof.Machine

/-! The command. -/

def cmdWord (ws : List Word) (i : Nat) : Word := listGet ws i 0

def cmdTag (ws : List Word) : Nat := bits (cmdWord ws 0) 48 16
def cmdCdue (ws : List Word) : Nat := bits (cmdWord ws 0) 32 16
def cmdRing (ws : List Word) : Nat := bits (cmdWord ws 0) 27 2
def cmdRadv (ws : List Word) : Nat := bits (cmdWord ws 0) 24 3
def cmdScope (ws : List Word) : Nat := bits (cmdWord ws 0) 20 3
def cmdRel (ws : List Word) : Bool := bit (cmdWord ws 0) 19
def cmdAcq (ws : List Word) : Bool := bit (cmdWord ws 0) 18
def cmdFlow (ws : List Word) : Nat := bits (cmdWord ws 0) 11 7
def cmdOrd (ws : List Word) : Bool := bit (cmdWord ws 0) 10
def cmdNdim (ws : List Word) : Nat := bits (cmdWord ws 0) 4 3
def cmdOp (ws : List Word) : Nat := bits (cmdWord ws 0) 0 4

/-- Element size in bytes (R249). -/
def cmdSize (ws : List Word) : Nat :=
  let e := bits (cmdWord ws 0) 7 3
  if e = 7 then 256 else 2 ^ e

/-- The dimension field: words 3 to 7, word 3 lowest (R251). -/
def cmdDims (ws : List Word) : Nat := packLanes 64 ((ws.drop 3).map fun w => w.toNat)

/-- Elements in dimension d (R251). -/
def cmdCount (ws : List Word) (d : Nat) : Nat := fld (cmdDims ws) (52 * d) 12 + 1

/-- Source and destination stride of dimension d, in elements (R251). -/
def cmdSstr (ws : List Word) (d : Nat) : Int := sfld (cmdDims ws) (52 * d + 12) 20
def cmdDstr (ws : List Word) (d : Nat) : Int := sfld (cmdDims ws) (52 * d + 32) 20

/-- The number of elements of dimensions d to d + k - 1. -/
def cmdElemsFrom (ws : List Word) (d : Nat) : Nat → Nat
  | 0 => 1
  | k + 1 => cmdCount ws d * cmdElemsFrom ws (d + 1) k

/-- The number of elements of a command; NOTE moves none. -/
def cmdElems (ws : List Word) : Nat := if cmdOp ws = 2 then 0 else cmdElemsFrom ws 0 (cmdNdim ws)

/-- Σ i_d × stride_d of element n over dimensions d and on (R251). -/
def cmdOffset (str : Nat → Int) (ws : List Word) (d n : Nat) : Nat → Int
  | 0 => 0
  | k + 1 => (n % cmdCount ws d : Nat) * str d + cmdOffset str ws (d + 1) (n / cmdCount ws d) k

/-- An address word (R250): the local scratchpad when bit 63 is set, else R142. -/
def addrWord (grid : Nat) (w : Nat) : Target :=
  if 2 ^ 63 ≤ w then (if fld w 21 42 = 0 then .spad (fld w 0 21) else .bad) else farTarget grid w

/-- The address of element n: modulo 2^64, in the space of the base (R251). An element past the scratchpad leads
nowhere (R260). -/
def elemAddr (grid base n size : Nat) (str : Nat → Int) (ws : List Word) : Nat × Target :=
  let a := (word base + wordI (size * cmdOffset str ws 0 n (cmdNdim ws))).toNat
  if 2 ^ 63 ≤ base then
    let off : Int := (a : Int) - (2 ^ 63 : Int)
    if 0 ≤ off ∧ off + size ≤ 0x200000 then (a, .spad off.toNat) else (a, .bad)
  else (a, farTarget grid a)

def cmdSrc (grid : Nat) (ws : List Word) (n : Nat) : Nat × Target :=
  elemAddr grid (cmdWord ws 1).toNat n (cmdSize ws) (cmdSstr ws) ws

def cmdDst (grid : Nat) (ws : List Word) (n : Nat) : Nat × Target :=
  elemAddr grid (cmdWord ws 2).toNat n (cmdSize ws) (cmdDstr ws) ws

/-- The fill pattern: word 1 repeated from its byte 0 (R252). -/
def fillBytes (ws : List Word) : List Byte :=
  ((List.replicate 32 (bytesOfNat 8 (cmdWord ws 1).toNat)).flatten).take (cmdSize ws)

/-- The completion record (R255). -/
def copyRecord (prog status qid tag : Nat) : Word :=
  word (prog % 2 ^ 40 * 2 ^ 24 + status % 8 * 2 ^ 21 + qid % 32 * 2 ^ 16 + tag % 65536)

def recordStatus (r : Word) : Nat := bits r 21 3

/-- The cause that a record with STATUS 1, 2 or 3 raises (R258, R260). -/
def recordCause (r : Word) : Option Cause :=
  match recordStatus r with
  | 1 => some .xlate
  | 2 => some .perm
  | 3 => some .eccue
  | _ => none

/-- The first failing check of QCMD (R257). -/
def qcmdCheck (ws : List Word) : Option Nat :=
  let w0 := cmdWord ws 0
  if 3 ≤ cmdOp ws then some 1
  else if cmdNdim ws = 0 ∨ cmdNdim ws = 7 then some 2
  else if 6 ≤ cmdScope ws then some 3
  else if bits w0 29 3 ≠ 0 ∨ bit w0 23 ∨ bits (cmdWord ws 7) 56 8 ≠ 0 then some 4
  else none

/-- The used base addresses of a command (R250, R252). -/
def usedBases (ws : List Word) : List Nat :=
  match cmdOp ws with
  | 0 => [(cmdWord ws 1).toNat, (cmdWord ws 2).toNat]
  | 1 => [(cmdWord ws 2).toNat]
  | _ => []

/-- The first used base that is misaligned, and the first that breaks R250 or R142 (R257). -/
def baseAlign (ws : List Word) : Option Nat := (usedBases ws).find? fun a => a % cmdSize ws != 0
def basePerm (grid : Nat) (ws : List Word) : Option Nat := (usedBases ws).find? fun a => addrWord grid a == .bad

/-- Why a PUSH traps (R257): QCMD, ALIGN, PERM. -/
def pushCheck (t : Tile) (ws : List Word) : Option Trap :=
  match qcmdCheck ws with
  | some n => some (checkTrap .qcmd 7 t.iss.pos n)
  | none =>
    match baseAlign ws with
    | some a => some (addrTrap .align t.iss.pos a)
    | none =>
      match basePerm t.grid ws with
      | some a => some (addrTrap .perm t.iss.pos a)
      | none => none

def Tile.queue (t : Tile) (q : Nat) : CopyQueue := listGet t.queues q CopyQueue.reset

def Tile.setQueue (t : Tile) (q : Nat) (c : CopyQueue) : Tile := { t with queues := t.queues.set q c }

/-- A command enters its queue; a timed one takes its effective due tick (R248, R254). -/
def Tile.enqueue (t : Tile) (q : Nat) (ws : List Word) : Tile :=
  let c := t.queue q
  let timed := cmdCdue ws != 0
  let due := max (t.tick + cmdCdue ws) c.lastDue
  t.setQueue q { c with
    occ := c.occ + 1, pushed := c.pushed + 1, lastDue := if timed then due else c.lastDue,
    cmds := c.cmds ++ [{ num := c.pushed, words := ws, issue := t.tick, pos := t.iss.pos, bundle := t.iss.addr,
                         due := if timed then some due else none, upto := t.seq, gang := (t.gang.first, t.gang.size), started := false, halted := false,
                         paused := none, prog := 0, read := [], data := none, left := [], stale := [], stage := .running,
                         record := none, since := none }] }

/-- PUSH (R257): the flag says whether the queue was full. -/
def execPush (h : Hdr) (q : Nat) (hi : Bool) (p : Nat) (s : State) : Host.Outcome State Fault Refusal :=
  onTile (fun t =>
    if t.guarded h then
      let ws := t.octet hi
      match pushCheck t ws with
      | some tr => .trap tr
      | none =>
        if 64 ≤ (t.queue q).occ then .ok (t.put 1 (fileSlot t.cfile) (.pred p (-1)))
        else .ok ((t.enqueue q ws).put 1 (fileSlot t.cfile) (.pred p 0))
    else .ok t) s

/-- The command whose record is the next unclaimed one. -/
def CopyQueue.next (c : CopyQueue) : Option CopyCmd := c.cmds.find? fun k => k.num == c.claimed

/-- Claim the next record (R248, R258). -/
def CopyQueue.claim (c : CopyQueue) : CopyQueue := { c with occ := c.occ - 1, claimed := c.claimed + 1 }

/-- Remove the record of a command. -/
def CopyQueue.remove (c : CopyQueue) (n : Nat) : CopyQueue := { c with cmds := c.cmds.filter fun k => k.num != n }

/-- POP with S = 0 (R258, R362): a visible record at issue + 1, or the not-ready flag. -/
def execPop (h : Hdr) (q d p : Nat) (s : State) : Host.Outcome State Fault Refusal :=
  onTile (fun t =>
    if t.guarded h then
      let c := t.queue q
      match c.next with
      | none => .ok (t.put 1 (fileSlot t.cfile) (.pred p (-1)))
      | some k =>
        if bit t.csrs.detmode 0 && k.due.isNone then
          .trap (infoTrap .detv t.iss.pos (word (9 * 2 ^ 60 + t.iss.pos % 8 * 2 ^ 57 + q)))
        else
          match k.record with
          | none => .ok (t.put 1 (fileSlot t.cfile) (.pred p (-1)))
          | some r =>
            let u := t.setQueue q ((c.claim).remove k.num)
            match recordCause r with
            | some cause => .ok (u.put 1 (fileSlot t.cfile) (.fault (infoTrap cause t.iss.pos r)))
            | none => .ok ((u.put 1 (fileSlot t.cfile) (.xplain t.cfile d r)).put 1 (fileSlot t.cfile) (.pred p 0))
    else .ok t) s

/-- POP with S = 1 (R258): a landing of the next record. `TRAPINFO` of the empty queue has the layout of R257, position
included (log entry 54). -/
def execPopStall (h : Hdr) (q d n : Nat) (s : State) : Host.Outcome State Fault Refusal :=
  onTile (fun t =>
    if t.guarded h then
      let c := t.queue q
      if c.occ = 0 then .trap (checkTrap .perm 7 t.iss.pos 5)
      else
        match t.reserve n (.pop t.cfile d q c.claimed) with
        | .ok u => .ok (u.setQueue q c.claim)
        | r => r
    else .ok t) s

end Sys2Proof.Machine
end

