-- ==== Sys2Proof/Machine/Sync.lean ====
section
/-! DEFINITION. The SYNC group (R281 to R285, R292 to R301, R309): ACQ, REL, BAR, FENCE, TRIG, STEP, CRGO, CRGC at their
issue. -/

namespace Sys2Proof.Machine

/-- The bindings of the launch a tile runs (R281). -/
def State.bindingsOf (s : State) (t : Tile) : List Binding := ((s.launch? t.launchKey).map (·.image.bindings)).getD []

/-- The slot and the word of a Rill object (R281). -/
def Binding.slot (b : Binding) : Nat := fld b.obj 0 11
def Binding.wordNo (b : Binding) : Nat := fld b.obj 11 3

/-- The distance of a due code (R292). -/
def dueOf (k : Nat) : Nat := 8 * (k + 1)

/-- A trap of SYNC (R296). -/
def syncTrap (c : Cause) (pos n : Nat) : Trap := checkTrap c 8 pos n

/-- ACQ on its tile (R284, R297): the reads of a word object are far accesses; a Rill object is captured at its passes. -/
def Tile.acquire (t : Tile) (bs : List Binding) (k : Nat) (a : Src) (b : Nat) : Res :=
  match t.readX a with
  | none => .trap (lostTrap t)
  | some n =>
    match bs[b]? with
    | none => .trap (syncTrap .perm t.iss.pos 3)
    | some o =>
      if o.okind = 2 then
        if t.berth ≠ .boarded then .trap (syncTrap .rillnb t.iss.pos 4)
        else .ok (t.addWait (t.tick + dueOf k) (.acqRill b n.toNat none 0))
      else .ok ((t.addWait (t.tick + dueOf k) (.acq b n.toNat false)).sendFar o.obj .acq none (some t.seq))

/-- ACQ (R297). -/
def execAcq (h : Hdr) (k : Nat) (a : Src) (b : Nat) (s : State) : Host.Outcome State Fault Refusal :=
  onTile (fun t => if t.guarded h then t.acquire (s.bindingsOf t) k a b else .ok t) s

/-- The increment of a REL (R283): an atomic at the word's home, or a Rill update. What it covers has been performed
once the hold of R293 has ended. -/
def Tile.release (t : Tile) (bs : List Binding) (b : Nat) : Res :=
  match bs[b]? with
  | none => .trap (syncTrap .perm t.iss.pos 3)
  | some o =>
    if o.okind = 2 then
      if t.berth ≠ .boarded then .trap (syncTrap .rillnb t.iss.pos 4)
      else if 16 ≤ t.station.length then .trap (syncTrap .perm t.iss.pos 8)
      else .ok (t.queueRill o.slot o.wordNo (.rel b t.gangNow) none)
    else .ok (t.sendFar o.obj (.rel b t.gangNow) none none)

/-- REL (R297): after the hold and checks of R293. -/
def execRel (h : Hdr) (b : Nat) (s : State) : Host.Outcome State Fault Refusal :=
  onTile (fun t =>
    if t.guarded h then
      match t.settle with
      | some r => r
      | none => t.release (s.bindingsOf t) b
    else .ok t) s

/-- Why a BAR traps at issue (R296): its count, its alignment, its address. -/
def barCheck (t : Tile) (a n : Word) : Option Trap :=
  if n = 0 ∨ bits n 32 32 ≠ 0 then some (syncTrap .perm t.iss.pos 5)
  else if a.toNat % 8 ≠ 0 then some (addrTrap .align t.iss.pos a.toNat)
  else
    match atomTarget t.grid a.toNat with
    | .spad _ => none
    | .window _ _ => none
    | _ => some (syncTrap .perm t.iss.pos 6)

/-- BAR (R299): the arrival, local at issue + 6 or sent, and the wait. -/
def execBar (h : Hdr) (k : Nat) (a b : Src) (s : State) : Host.Outcome State Fault Refusal :=
  onTile (fun t =>
    if t.guarded h then
      match t.settle with
      | some r => r
      | none =>
        match t.readX a, t.readX b with
        | some x, some n =>
          match barCheck t x n with
          | some tr => .trap tr
          | none =>
            let here := decide (x.toNat < 0x200000)
            let u := t.addWait (t.tick + dueOf k) (.bar here x.toNat 0 false false)
            if here then .ok (u.put 6 (fileSlot t.cfile) (.arrive x.toNat n.toNat t.seq))
            else .ok (u.sendFar x.toNat (.bar n.toNat) none (some t.seq))
        | _, _ => .trap (lostTrap t)
    else .ok t) s

/-- FENCE (R286, R298): it waits for the far accesses issued before it that lie in its scope unit. -/
def execFence (h : Hdr) (k : Nat) (sc : Scope) (s : State) : Host.Outcome State Fault Refusal :=
  onTile (fun t =>
    if t.guarded h then
      match t.settle with
      | some r => r
      | none => .ok (t.addWait (t.tick + dueOf k) (.fence sc t.gangNow t.seq))
    else .ok t) s

/-- TRIG (R300): after the hold of R293 every covered write is performed, and the release with it; a second one has
no further effect. -/
def execTrig (h : Hdr) (s : State) : Host.Outcome State Fault Refusal :=
  onTile (fun t =>
    if t.guarded h then
      match t.settle with
      | some r => r
      | none => .ok { t with triggered := some (t.triggered.getD t.tick) }
    else .ok t) s

/-- STEPs of the tile whose increment is still in flight (R301). -/
def Tile.stepsInFlight (t : Tile) : Nat := (t.inflight.filter fun p => p.eff == Eff.stepInc).length

/-- STEP (R301). -/
def execStep (h : Hdr) (k : Nat) (s : State) : Host.Outcome State Fault Refusal :=
  onTile (fun t =>
    if t.guarded h then
      .ok ((t.put 1 (fileSlot t.cfile) .stepInc).addWait (t.tick + dueOf k)
        (.step ((t.csrs.stepcnt.toNat + t.stepsInFlight + 1) % 2 ^ 64)))
    else .ok t) s

/-- Whether an address is a bundle start of the program that a tile runs: a gang member runs its lead's (R267). -/
def State.startsBundle (s : State) (t : Tile) (a : Nat) : Bool :=
  if t.gang.size ≤ 1 then t.isStart a else ((s.leadTile t).getD t).isStart a

/-- CRGO (R296, R309): ILLEGAL comes before PERM (R75). -/
def execCrgo (h : Hdr) (a : Src) (s : State) : Host.Outcome State Fault Refusal :=
  onTile (fun t =>
    if t.guarded h then
      match t.readX a with
      | none => .trap (lostTrap t)
      | some x =>
        if 0x20000 ≤ x.toNat ∨ !s.startsBundle t x.toNat then .trap (targetTrap t.iss.pos x.toNat)
        else if 4 ≤ t.regions.length then .trap (syncTrap .perm t.iss.pos 1)
        else .ok ({ t with regions := ⟨x.toNat, t.tick, t.seq⟩ :: t.regions }.put 1 (fileSlot t.cfile) (.depth true))
    else .ok t) s

/-- CRGC (R309): the innermost region is closed at the issue tick. -/
def execCrgc (h : Hdr) (s : State) : Host.Outcome State Fault Refusal :=
  onTile (fun t =>
    if t.guarded h then
      match t.regions with
      | [] => .trap (syncTrap .perm t.iss.pos 2)
      | _ :: rest => .ok ({ t with regions := rest }.put 1 (fileSlot t.cfile) (.depth false))
    else .ok t) s

end Sys2Proof.Machine
end

