-- ==== Sys2Proof/Machine/Vector.lean ====
section
/-! DEFINITION. The vector slots (R104 to R135): shared forms over lanes, then one meaning per syllable. -/

namespace Sys2Proof.Machine

/-! Accepted formats (R105). -/

def okFloat : Fmt → Bool := isIeee
def okFloatPs (f : Fmt) : Bool := isIeee f || f == .ps32
def okSign (f : Fmt) : Bool := isIeee f || f == .e4m3 || f == .e5m2
def okInt : Fmt → Bool := fmtIsInt
def okLane (f : Fmt) : Bool := !isMx f
def okSum (f : Fmt) : Bool := okFloatPs f || fmtIsInt f
def okWide (f : Fmt) : Bool := fmtIsInt f && f != .ni
def okRandom (f : Fmt) : Bool := isIeee f || f == .ps32 || f == .e4m3 || f == .e5m2 || f == .g8 || okWide f

/-! Forms. -/

/-- A lane operation on two sources (R106): the effective format is checked, both sources are read at issue. -/
def Tile.vec2 (h : Hdr) (d : Dest) (a b : Src) (lat : Nat) (accept : Fmt → Bool)
    (f : VCtx → List Nat → List Nat → List (Nat × Flags)) (t : Tile) : Res :=
  let c := t.vctx h
  if accept c.fmt then
    match t.readV a, t.readV b with
    | some x, some y => .ok (t.putLanes c lat d (f c (lanesOf c.w c.n x.toNat) (lanesOf c.w c.n y.toNat)))
    | _, _ => .trap (lostTrap t)
  else .trap (illegalTrap t.iss.pos .badCode)

/-- A lane operation on one source. -/
def Tile.vec1 (h : Hdr) (d : Dest) (a : Src) (lat : Nat) (accept : Fmt → Bool)
    (f : VCtx → List Nat → List (Nat × Flags)) (t : Tile) : Res :=
  let c := t.vctx h
  if accept c.fmt then
    match t.readV a with
    | some x => .ok (t.putLanes c lat d (f c (lanesOf c.w c.n x.toNat)))
    | none => .trap (lostTrap t)
  else .trap (illegalTrap t.iss.pos .badCode)

/-- A lane result with no source. -/
def Tile.vec0 (h : Hdr) (d : Dest) (lat : Nat) (accept : Fmt → Bool) (f : VCtx → List (Nat × Flags)) (t : Tile) : Res :=
  let c := t.vctx h
  if accept c.fmt then .ok (t.putLanes c lat d (f c)) else .trap (illegalTrap t.iss.pos .badCode)

/-- A lane operation that also reads its destination (R110). -/
def Tile.vec3 (h : Hdr) (d : Nat) (a b : Src) (lat : Nat) (f : VCtx → Nat → Nat → Nat → Nat × Flags) (t : Tile) : Res :=
  let c := t.vctx h
  if okFloat c.fmt then
    match t.readV a, t.readV b with
    | some x, some y =>
      .ok (t.putLanes c lat (.reg d)
        ((List.zip (lanesOf c.w c.n x.toNat) (List.zip (lanesOf c.w c.n y.toNat)
          (lanesOf c.w c.n (t.vreg t.vfile d).toNat))).map fun z => f c z.1 z.2.1 z.2.2))
    | _, _ => .trap (lostTrap t)
  else .trap (illegalTrap t.iss.pos .badCode)

/-- A lane compare into a predicate at issue + 2 (R107, R114, R120). The old bits that guarded-off lanes keep are those at issue, so a write
of the predicate that falls between issue and write is undone there: the spec does not say which old bits are meant (DESIGN CHOICE, log
entry 70). -/
def Tile.vecCompare (h : Hdr) (d : Nat) (a b : Src) (accept : Fmt → Bool) (f : VCtx → Nat → Nat → Bool × Flags)
    (t : Tile) : Res :=
  let c := t.vctx h
  if accept c.fmt then
    match t.readV a, t.readV b with
    | some x, some y =>
      let rs := (List.zip (lanesOf c.w c.n x.toNat) (lanesOf c.w c.n y.toNat)).map fun z => f c z.1 z.2
      .ok ((t.put 2 (vslotOf t.vfile) (.pred d (maskOf c (t.pred h.g) (t.pred d) (rs.map (·.1))))).putFlags 2
        (vslotOf t.vfile) (guardFlags c.guards (rs.map (·.2))))
    | _, _ => .trap (lostTrap t)
  else .trap (illegalTrap t.iss.pos .badCode)

/-- Apply a binary lane function. -/
def lanes2 (f : VCtx → Nat → Nat → Nat × Flags) (c : VCtx) (xs ys : List Nat) : List (Nat × Flags) :=
  (List.zip xs ys).map fun z => f c z.1 z.2

def lanes1 (f : VCtx → Nat → Nat × Flags) (c : VCtx) (xs : List Nat) : List (Nat × Flags) := xs.map (f c)

/-- Lanes that copy bits and raise no flag (R37). -/
def plain (xs : List Nat) : List (Nat × Flags) := xs.map fun x => (x, 0)

/-! Floating point. -/

/-- The exact value of a lane (R35). -/
def VCtx.val (c : VCtx) (x : Nat) : FVal := (fmtValue c.ni c.fz c.fmt x).1

/-- Round an exact value into the lane format (R35 to R39). -/
def VCtx.round (c : VCtx) (r : FVal × Flags) : Nat × Flags :=
  let o := fmtDeliver c.rm c.fz false c.fmt r.1
  (o.1, r.2 ||| o.2)

def addLane (c : VCtx) (x y : Nat) : Nat × Flags := c.round (FVal.add c.rm (c.val x) (c.val y))
def subLane (c : VCtx) (x y : Nat) : Nat × Flags := c.round (FVal.add c.rm (c.val x) (c.val y).negate)
def mulLane (c : VCtx) (x y : Nat) : Nat × Flags := c.round (FVal.mul (c.val x) (c.val y))
def divLane (c : VCtx) (x y : Nat) : Nat × Flags := c.round (FVal.div (c.val x) (c.val y))
def minLane (c : VCtx) (x y : Nat) : Nat × Flags := minMaxWords false c.fz c.fmt x y
def maxLane (c : VCtx) (x y : Nat) : Nat × Flags := minMaxWords true c.fz c.fmt x y

/-- Sign-bit operations (R108): they copy every other bit. -/
def absLane (c : VCtx) (x : Nat) : Nat × Flags := (putField x (c.w - 1) 1 0, 0)
def negLane (c : VCtx) (x : Nat) : Nat × Flags := (putField x (c.w - 1) 1 (1 - fld x (c.w - 1) 1), 0)
def cpsLane (c : VCtx) (x y : Nat) : Nat × Flags := (putField x (c.w - 1) 1 (fld y (c.w - 1) 1), 0)

/-- Fused products (R110): signs of the product and of d. -/
def fmaLane (np nd : Bool) (c : VCtx) (x y z : Nat) : Nat × Flags :=
  let a := if np then (c.val x).negate else c.val x
  let d := if nd then (c.val z).negate else c.val z
  c.round (FVal.fma c.rm a (c.val y) d)

def sqrtLane (c : VCtx) (x : Nat) : Nat × Flags := c.round (FVal.sqrt (c.val x))
def rcpLane (c : VCtx) (x : Nat) : Nat × Flags := c.round (FVal.rcp (c.val x))
def rsqLane (c : VCtx) (x : Nat) : Nat × Flags := c.round (FVal.rsq (c.val x))
def exp2Lane (c : VCtx) (x : Nat) : Nat × Flags := c.round (FVal.exp2 (c.val x))
def log2Lane (c : VCtx) (x : Nat) : Nat × Flags := c.round (FVal.log2 (c.val x))
def getexpLane (c : VCtx) (x : Nat) : Nat × Flags := c.round (FVal.getexp (c.val x))

/-- VRINT and VRINTZ (R112). -/
def rintLane (mode : Rnd) (nx : Bool) (c : VCtx) (x : Nat) : Nat × Flags :=
  let v := c.val x
  let r := FVal.rint mode v
  c.round (r.1, sigFlags [v] ||| if nx && r.2 then flagNX else 0)

/-- The class of a raw operand (R113): the number of the bit set. -/
def classBit (p : Binary) (x : Nat) : Nat :=
  let neg := fld x p.low 1 = 1
  let e := fld x p.fb p.eb
  let f := fld x 0 p.fb
  if e = 2 ^ p.eb - 1 then
    (if f = 0 then (if neg then 2 else 9) else if fld x (p.fb - 1) 1 = 1 then 1 else 0)
  else if e ≠ 0 then (if neg then 3 else 8)
  else if f ≠ 0 then (if neg then 4 else 7)
  else if neg then 5 else 6

def classLane (c : VCtx) (x : Nat) : Nat × Flags :=
  match fmtBinary c.fmt with
  | some p => (2 ^ classBit p x, 0)
  | none => (0, 0)

/-- a × 2^n (R112): beyond ±40,000 the exponent changes no result of any lane format. -/
def scaleLane (c : VCtx) (x y : Nat) : Nat × Flags :=
  let n := clampInt (-40000, 40000) (signed c.w y)
  let v := c.val x
  match v with
  | .num neg m e r => c.round (if m = 0 then v else .num neg m (e + n) r, 0)
  | _ => c.round (v, sigFlags [v])

/-- minimumNumber (R112). -/
def minnumLane (c : VCtx) (x y : Nat) : Nat × Flags :=
  let a := c.val x
  let b := c.val y
  let fl := sigFlags [a, b]
  if a.isNaN && b.isNaN then c.round (.nan false, fl)
  else if a.isNaN then (flushedWord c.fz c.fmt y, fl)
  else if b.isNaN then (flushedWord c.fz c.fmt x, fl)
  else minMaxWords false c.fz c.fmt x y

/-- A float comparison (R114, R115): by value, with NV for any NaN or for a signalling one, none in PS32. -/
def floatCompare (anyNaN nanResult : Bool) (f : FVal → FVal → Bool) (c : VCtx) (x y : Nat) : Bool × Flags :=
  let a := c.val x
  let b := c.val y
  let un := a.isNaN || b.isNaN
  let fl : Flags := if c.fmt = .ps32 then 0 else if anyNaN then (if un then flagNV else 0) else sigFlags [a, b]
  (if un then nanResult else f a b, fl)

def eqVal (a b : FVal) : Bool := !FVal.lt false a b && !FVal.lt false b a

/-! Integers. -/

/-- An integer lane operand (R116): NI under the primary shape with its fate, else by the mnemonic's sign. -/
def VCtx.int (c : VCtx) (sg : Bool) (x : Nat) : Int × Flags :=
  if c.fmt = .ni then niValue c.ni x else if sg then (signed c.w x, 0) else ((x : Int), 0)

/-- Value bits of a lane. -/
def VCtx.vb (c : VCtx) : Nat := valueBits c.nif c.fmt

/-- The low value bits of an integer as a lane image (R33, R116). -/
def VCtx.wrap (c : VCtx) (x : Int) : Nat := laneImage c.nif c.fmt (wrapInt c.vb x)

/-- The range of a saturating operation (R118). -/
def VCtx.range (c : VCtx) (sg : Bool) : Int × Int :=
  if c.fmt = .ni then niRange c.ni
  else if sg then (-(2 ^ (c.w - 1) : Int), 2 ^ (c.w - 1) - 1) else (0, 2 ^ c.w - 1)

/-- A wrapping operation of two lanes (R117). -/
def intLane (sg : Bool) (f : Int → Int → Int) (c : VCtx) (x y : Nat) : Nat × Flags :=
  let a := c.int sg x
  let b := c.int sg y
  (c.wrap (f a.1 b.1), a.2 ||| b.2)

/-- A saturating operation of two lanes (R118). -/
def satLane (sg : Bool) (f : Int → Int → Int) (c : VCtx) (x y : Nat) : Nat × Flags :=
  let a := c.int sg x
  let b := c.int sg y
  (c.wrap (clampInt (c.range sg) (f a.1 b.1)), a.2 ||| b.2)

def satLane1 (f : Int → Int) (c : VCtx) (x : Nat) : Nat × Flags :=
  let a := c.int true x
  (c.wrap (clampInt (c.range true) (f a.1)), a.2)

/-- VIMULH (R116, R117): the high w bits, signed but for UI32. -/
def mulhLane (c : VCtx) (x y : Nat) : Nat × Flags :=
  intLane (c.fmt != .ui32) (fun a b => a * b / 2 ^ c.vb) c x y

/-- A bit operation on the value bits (R119). -/
def bitLane (f : Nat → Nat → Nat) (c : VCtx) (x y : Nat) : Nat × Flags :=
  (laneImage c.nif c.fmt (f (x % 2 ^ c.vb) (y % 2 ^ c.vb)), 0)

/-- The shift amount: the low log2 W bits of the lane (R119). -/
def laneShift (c : VCtx) (y : Nat) : Nat := y % c.w

def shlLane (c : VCtx) (x y : Nat) : Nat × Flags := (laneImage c.nif c.fmt ((x % 2 ^ c.vb) * 2 ^ laneShift c y), 0)
def shrLane (c : VCtx) (x y : Nat) : Nat × Flags := (laneImage c.nif c.fmt ((x % 2 ^ c.vb) / 2 ^ laneShift c y), 0)
def sraLane (c : VCtx) (x y : Nat) : Nat × Flags :=
  (laneImage c.nif c.fmt (wrapInt c.vb (signed c.vb (x % 2 ^ c.vb) / 2 ^ laneShift c y)), 0)
def notLane (c : VCtx) (x : Nat) : Nat × Flags := (laneImage c.nif c.fmt (2 ^ c.vb - 1 - x % 2 ^ c.vb), 0)

/-- An integer comparison (R120). -/
def intCompare (sg : Bool) (f : Int → Int → Bool) (c : VCtx) (x y : Nat) : Bool × Flags :=
  let a := c.int sg x
  let b := c.int sg y
  (f a.1 b.1, a.2 ||| b.2)

/-! Conversions. -/

/-- One lane of VCVT (R52, R55, R56, R121): target format, mode, saturate bit. With S = T, the saturate bit and an infinite input, R45
names the largest finite value and R121's last sentence the value unchanged: the model takes R45. With S = T = PS32 and an unnormalised word
below the smallest normalised value R121's last sentence keeps the value and R55, its table's rule, rounds it to the canonical zero with UF
and NX: the model takes R55 (DESIGN CHOICE, log entry 69). -/
def cvtLane (c : VCtx) (tf : Fmt) (mode : Rnd) (sat : Bool) (x : Nat) : Nat × Flags :=
  if fmtIsInt c.fmt && fmtIsInt tf then
    let v := intValue c.ni c.fmt x
    (laneImage c.nif tf (intToInt c.ni tf sat v.1), v.2)
  else
    let v := fmtValue c.ni c.fz c.fmt x
    if fmtIsInt tf then
      let r := floatToInt c.ni tf mode v.1
      (laneImage c.nif tf r.1, v.2 ||| r.2)
    else
      let r := fmtDeliver mode c.fz sat tf v.1
      (r.1, v.2 ||| sigFlags [v.1] ||| r.2)

/-- ⌊log2⌋ of a nonzero finite magnitude. -/
def FVal.ilog : FVal → Int
  | .num _ m e _ => Nat.log2 m + e
  | _ => 0

/-- The exact value times a power of two. -/
def FVal.shift (v : FVal) (n : Int) : FVal :=
  match v with
  | .num s m e r => if m = 0 then v else .num s m (e + n) r
  | v => v

/-- Encode a block of 32 values (R47): scale byte, element words, flags. -/
def encodeBlock (elem : Binary) (emax : Int) (mode : Rnd) (vs : List FVal) : Nat × List Nat × Flags :=
  let bad (v : FVal) : Bool := match v with
    | .num _ _ _ _ => false
    | _ => true
  if vs.any bad then
    (0xFF, vs.map fun _ => 0, if vs.any fun v => v.isSig || (bad v && !v.isNaN) then flagNV else 0)
  else if vs.all FVal.isZero then (0x7F, vs.map fun _ => 0, 0)
  else
    let top := (vs.filter fun v => !v.isZero).foldl (fun (acc : Option Int) v =>
      some (match acc with
        | some a => max a v.ilog
        | none => v.ilog)) none
    let x := max (-127) (top.getD 0 - emax)
    let rs := vs.map fun v => elem.deliver mode false true (v.shift (-x))
    ((x + 127).toNat, rs.map (·.1), (rs.foldl (fun a r => a ||| r.2) 0) &&& flagNX)

/-- The register image of two blocks (R123): elements, then the two scale bytes. -/
def encodeMx (tf : Fmt) (mode : Rnd) (vs : List FVal) : Nat × Flags :=
  let four := tf == .mxfp4
  let blk (l : List FVal) := if four then encodeBlock e2m1 2 mode l else encodeBlock e4m3 8 mode l
  let b0 := blk (vs.take 32)
  let b1 := blk (vs.drop 32)
  let ew := if four then 4 else 8
  (packLanes ew (b0.2.1 ++ b1.2.1) + (b0.1 + b1.1 * 256) * 2 ^ (64 * ew), b0.2.2 ||| b1.2.2)

/-- Element i of a register image of two blocks, as an exact value (R46, R123). -/
def decodeMx (sf : Fmt) (x : Nat) (i : Nat) : FVal :=
  let four := sf == .mxfp4
  let ew := if four then 4 else 8
  let sc := fld x (64 * ew + 8 * (i / 32)) 8
  if sc = 0xFF then .nan false
  else ((fmtValue ⟨8, true, 0⟩ false sf (fld x (ew * i) ew)).1).shift ((sc : Int) - 127)

/-! Lane movement. -/

/-- The first k lanes, then zeros. -/
def fillZero (n : Nat) (xs : List Nat) : List Nat := (xs ++ List.replicate n 0).take n

def zipLanes (n : Nat) (xs ys : List Nat) : List Nat :=
  ((List.zip xs ys).take (n / 2)).flatMap fun z => [z.1, z.2]

/-- Every other element of a list, from the first. -/
def evens : List Nat → List Nat
  | [] => []
  | [x] => [x]
  | x :: _ :: t => x :: evens t

/-- VEXPND (R125): the next lane of the source at every selected place. -/
def expand : List Bool → List Nat → List Nat
  | [], _ => []
  | false :: bs, xs => 0 :: expand bs xs
  | true :: bs, [] => 0 :: expand bs []
  | true :: bs, x :: xs => x :: expand bs xs

/-! Reductions. -/

/-- One level of the tree (R127). -/
def treeLevel (f : Nat → Nat → Nat × Flags) : List Nat → List Nat × Flags
  | x :: y :: t =>
    let r := f x y
    let u := treeLevel f t
    (r.1 :: u.1, r.2 ||| u.2)
  | l => (l, 0)

/-- The whole tree, at most k levels (R127). -/
def treeFold (f : Nat → Nat → Nat × Flags) : Nat → List Nat → Nat × Flags
  | 0, l => (listGet l 0 0, 0)
  | k + 1, l =>
    let r := treeLevel f l
    let u := treeFold f k r.1
    (u.1, r.2 ||| u.2)

/-- The lanes that take part, the others replaced by an identity (R126). -/
def selectLanes (c : VCtx) (p : Word) (ident : Nat) (xs : List Nat) : List Nat :=
  (List.zip (laneGuards p c.w c.n 0) xs).map fun z => if z.1 then z.2 else ident

/-- The identity of a float sum (R126). -/
def sumIdentity (f : Fmt) : Nat := if f = .ps32 then ps32Zero else 2 ^ (laneWidth f - 1)

/-- The identity of VRMAX and VRMIN for floats and PS32 (R126). -/
def extremeIdentity (maximum : Bool) (f : Fmt) : Nat :=
  if f = .ps32 then (if maximum then ps32Zero else 0x000FFFFF)
  else
    match fmtBinary f with
    | some p => p.infWord + (if maximum then 2 ^ p.low else 0)
    | none => 0

/-- A reduction's lanes: the result in lane 0, zero elsewhere (R126). -/
def reduceLanes (c : VCtx) (r : Nat × Flags) : List (Nat × Flags) := r :: List.replicate (c.n - 1) (0, 0)

/-- The selected lanes' integer values and flags (R126): the others give an identity. -/
def intLanes (c : VCtx) (p : Word) (sg : Bool) (ident : Int) (xs : List Nat) : List Int × Flags :=
  let vs := (List.zip (laneGuards p c.w c.n 0) xs).map fun z => if z.1 then c.int sg z.2 else (ident, 0)
  (vs.map (·.1), vs.foldl (fun a v => a ||| v.2) 0)

/-- VRMAX and VRMIN (R126, R127). -/
def extremeLanes (maximum : Bool) (p : Word) (c : VCtx) (xs : List Nat) : List (Nat × Flags) :=
  if fmtIsInt c.fmt then
    let sg := c.fmt != .ui32
    let r := c.range sg
    let v := intLanes c p sg (if maximum then r.1 else r.2) xs
    let m := v.1.foldl (fun (a b : Int) => if maximum then max a b else min a b) (if maximum then r.1 else r.2)
    reduceLanes c (c.wrap m, v.2)
  else reduceLanes c (treeFold (minMaxWords maximum c.fz c.fmt) 8 (selectLanes c p (extremeIdentity maximum c.fmt) xs))

/-- VRSUM (R127). -/
def sumLanes (p : Word) (c : VCtx) (xs : List Nat) : List (Nat × Flags) :=
  reduceLanes c (treeFold (addLane c) 8 (selectLanes c p (sumIdentity c.fmt) xs))

/-- VRISUM (R126): the sum modulo 2^w. -/
def isumLanes (p : Word) (c : VCtx) (xs : List Nat) : List (Nat × Flags) :=
  let v := intLanes c p true 0 xs
  reduceLanes c (c.wrap v.1.sum, v.2)

/-- One round of VSCAN (R128): lane i takes lane i − d, which stands d places to its left. -/
def scanRound (f : Nat → Nat → Nat × Flags) (d : Nat) (xs : List Nat) : List Nat × Flags :=
  let rs := (List.zip xs (xs.drop d)).map fun z => f z.1 z.2
  (xs.take d ++ rs.map (·.1), rs.foldl (fun a r => a ||| r.2) 0)

/-- The rounds of VSCAN for d = 1, 2, 4 and on. -/
def scanRounds (f : Nat → Nat → Nat × Flags) : Nat → Nat → List Nat → List Nat × Flags
  | 0, _, xs => (xs, 0)
  | k + 1, d, xs =>
    if xs.length ≤ d then (xs, 0)
    else
      let r := scanRound f d xs
      let u := scanRounds f k (2 * d) r.1
      (u.1, r.2 ||| u.2)

/-- Running sums of integers. -/
def prefixSums : Int → List Int → List Int
  | _, [] => []
  | a, x :: t => (a + x) :: prefixSums (a + x) t

/-- VSCAN (R128): the roundings' flags belong to every lane. -/
def scanLanes (p : Word) (c : VCtx) (xs : List Nat) : List (Nat × Flags) :=
  if fmtIsInt c.fmt then
    let v := intLanes c p true 0 xs
    (prefixSums 0 v.1).map fun x => (c.wrap x, v.2)
  else
    let r := scanRounds (addLane c) 8 1 (selectLanes c p (sumIdentity c.fmt) xs)
    r.1.map fun x => (x, r.2)

/-- VRAND, VROR, VRXOR (R126) on the value bits. -/
def bitReduce (f : Nat → Nat → Nat) (ones : Bool) (p : Word) (c : VCtx) (xs : List Nat) : List (Nat × Flags) :=
  let ident := if ones then 2 ^ c.vb - 1 else 0
  reduceLanes c (laneImage c.nif c.fmt ((selectLanes c p ident xs).foldl (fun a x => f a (x % 2 ^ c.vb)) ident), 0)

/-! Dot products. -/

/-- Four 8-bit products added into a 32-bit lane (R129). -/
def dot4 (sg : Bool) (x y d : Nat) : Nat :=
  let v (z : Nat) (i : Nat) : Int := if sg then sfld z (8 * i) 8 else (fld z (8 * i) 8 : Int)
  enc2 32 ((d : Int) + v x 0 * v y 0 + v x 1 * v y 1 + v x 2 * v y 2 + v x 3 * v y 3)

/-- Two products and d, exact and rounded once into FP32 (R129). -/
def dot2 (p : Binary) (rm : Rnd) (fz : Bool) (x y d : Nat) : Nat × Flags :=
  let v (z : Nat) (i : Nat) : FVal := p.value fz (fld z (16 * i) 16)
  let p0 := FVal.mul (v x 0) (v y 0)
  let p1 := FVal.mul (v x 1) (v y 1)
  let d0 := fp32.value fz d
  let isInf (n : Bool) (z : FVal) : Bool := match z with
    | .inf m => m == n
    | _ => false
  let ts := [p0.1, p1.1, d0]
  let opp : Flags := if ts.any (isInf true) && ts.any (isInf false) then flagNV else 0
  let s := FVal.add rm (FVal.add rm p0.1 p1.1).1 d0
  let r := fp32.deliver rm fz false s.1
  (r.1, p0.2 ||| p1.2 ||| sigFlags [d0] ||| opp ||| r.2)

/-- A dot product on the 32-bit lanes, whatever the effective format (R129). -/
def Tile.vecDot (h : Hdr) (d : Nat) (a b : Src) (f : VCtx → Nat → Nat → Nat → Nat × Flags) (t : Tile) : Res :=
  let c := t.vctxOf h .fp32
  match t.readV a, t.readV b with
  | some x, some y =>
    .ok (t.putLanes c 4 (.reg d)
      ((List.zip (lanesOf 32 64 x.toNat) (List.zip (lanesOf 32 64 y.toNat)
        (lanesOf 32 64 (t.vreg t.vfile d).toNat))).map fun z => f c z.1 z.2.1 z.2.2))
  | _, _ => .trap (lostTrap t)

/-! Philox (R132). -/

/-- Ten rounds of Philox4x32 on a counter of four words under a key of two. -/
def philox : Nat → Nat → Nat → Nat → Nat → Nat → Nat → Nat
  | 0, c0, c1, c2, c3, _, _ => c0 + c1 * 2 ^ 32 + c2 * 2 ^ 64 + c3 * 2 ^ 96
  | n + 1, c0, c1, c2, c3, k0, k1 =>
    let p0 := 0xD2511F53 * c0
    let p1 := 0xCD9E8D57 * c2
    philox n ((p1 / 2 ^ 32) ^^^ c1 ^^^ k0) (p1 % 2 ^ 32) ((p0 / 2 ^ 32) ^^^ c3 ^^^ k1) (p0 % 2 ^ 32)
      ((k0 + 0x9E3779B9) % 2 ^ 32) ((k1 + 0xBB67AE85) % 2 ^ 32)

/-- The 2,048 bits of a draw (R132). -/
def randomBits (u id stepc : Nat) (seed0 : Word) : Nat :=
  packLanes 128 ((List.range 16).map fun j => philox 10 u j id stepc (bits seed0 0 32) (bits seed0 32 32))

/-- The lane value of VSPLI (R130). -/
def spliLane (c : VCtx) (imm : Nat) : Nat :=
  match c.fmt with
  | .fp64 => imm * 2 ^ 48
  | .fp32 | .ps32 => imm * 2 ^ 16
  | .fp16 | .bf16 | .i16 => imm
  | .i32 | .ui32 => enc2 32 (signed 16 imm)
  | .i64 => enc2 64 (signed 16 imm)
  | f => laneImage c.nif f imm

/-- Write a slot's format register (R59, R133): stored at t + 1, in force at t + 2. -/
def Tile.putFormat (t : Tile) (v : Word) : Tile :=
  let c : Csr := match t.vfile with
    | .va => .vfmta
    | .vb => .vfmtb
  (t.put 1 (vslotOf t.vfile) (.csr c v)).put 2 (vslotOf t.vfile) (.gov c false v)

/-! Meanings. -/

/-- VADD (R108). -/
def execVadd (h : Hdr) (d : Dest) (a b : Src) (s : State) : Host.Outcome State Fault Refusal :=
  onTile (Tile.vec2 h d a b 4 okFloatPs (lanes2 addLane)) s

/-- VSUB (R108). -/
def execVsub (h : Hdr) (d : Dest) (a b : Src) (s : State) : Host.Outcome State Fault Refusal :=
  onTile (Tile.vec2 h d a b 4 okFloat (lanes2 subLane)) s

/-- VMUL (R108). -/
def execVmul (h : Hdr) (d : Dest) (a b : Src) (s : State) : Host.Outcome State Fault Refusal :=
  onTile (Tile.vec2 h d a b 4 okFloatPs (lanes2 mulLane)) s

/-- VMIN (R109, R115). -/
def execVmin (h : Hdr) (d : Dest) (a b : Src) (s : State) : Host.Outcome State Fault Refusal :=
  onTile (Tile.vec2 h d a b 4 okFloatPs (lanes2 minLane)) s

/-- VMAX (R109, R115). -/
def execVmax (h : Hdr) (d : Dest) (a b : Src) (s : State) : Host.Outcome State Fault Refusal :=
  onTile (Tile.vec2 h d a b 4 okFloatPs (lanes2 maxLane)) s

/-- VABS (R108). -/
def execVabs (h : Hdr) (d : Dest) (a : Src) (s : State) : Host.Outcome State Fault Refusal :=
  onTile (Tile.vec1 h d a 4 okSign (lanes1 absLane)) s

/-- VNEG (R108). -/
def execVneg (h : Hdr) (d : Dest) (a : Src) (s : State) : Host.Outcome State Fault Refusal :=
  onTile (Tile.vec1 h d a 4 okSign (lanes1 negLane)) s

/-- VCPS (R108). -/
def execVcps (h : Hdr) (d : Dest) (a b : Src) (s : State) : Host.Outcome State Fault Refusal :=
  onTile (Tile.vec2 h d a b 4 okSign (lanes2 cpsLane)) s

/-- VFMA (R110). -/
def execVfma (h : Hdr) (d : Nat) (a b : Src) (s : State) : Host.Outcome State Fault Refusal :=
  onTile (Tile.vec3 h d a b 4 (fmaLane false false)) s

/-- VFMS (R110). -/
def execVfms (h : Hdr) (d : Nat) (a b : Src) (s : State) : Host.Outcome State Fault Refusal :=
  onTile (Tile.vec3 h d a b 4 (fmaLane false true)) s

/-- VFNMA (R110). -/
def execVfnma (h : Hdr) (d : Nat) (a b : Src) (s : State) : Host.Outcome State Fault Refusal :=
  onTile (Tile.vec3 h d a b 4 (fmaLane true true)) s

/-- VFNMS (R110). -/
def execVfnms (h : Hdr) (d : Nat) (a b : Src) (s : State) : Host.Outcome State Fault Refusal :=
  onTile (Tile.vec3 h d a b 4 (fmaLane true false)) s

/-- VDIV (R110). -/
def execVdiv (h : Hdr) (d : Nat) (a b : Src) (s : State) : Host.Outcome State Fault Refusal :=
  onTile (Tile.vec2 h (.reg d) a b 12 okFloat (lanes2 divLane)) s

/-- VSQRT (R110, R111). -/
def execVsqrt (h : Hdr) (d : Nat) (a : Src) (s : State) : Host.Outcome State Fault Refusal :=
  onTile (Tile.vec1 h (.reg d) a 12 okFloat (lanes1 sqrtLane)) s

/-- VRCP (R110, R111). -/
def execVrcp (h : Hdr) (d : Nat) (a : Src) (s : State) : Host.Outcome State Fault Refusal :=
  onTile (Tile.vec1 h (.reg d) a 8 okFloat (lanes1 rcpLane)) s

/-- VRSQ (R110, R111). -/
def execVrsq (h : Hdr) (d : Nat) (a : Src) (s : State) : Host.Outcome State Fault Refusal :=
  onTile (Tile.vec1 h (.reg d) a 8 okFloat (lanes1 rsqLane)) s

/-- VEXP2 (R111, R112). -/
def execVexp2 (h : Hdr) (d : Dest) (a : Src) (s : State) : Host.Outcome State Fault Refusal :=
  onTile (Tile.vec1 h d a 8 okFloat (lanes1 exp2Lane)) s

/-- VLOG2 (R111, R112). -/
def execVlog2 (h : Hdr) (d : Dest) (a : Src) (s : State) : Host.Outcome State Fault Refusal :=
  onTile (Tile.vec1 h d a 8 okFloat (lanes1 log2Lane)) s

/-- VRINT (R112). -/
def execVrint (h : Hdr) (d : Dest) (a : Src) (s : State) : Host.Outcome State Fault Refusal :=
  onTile (Tile.vec1 h d a 3 okFloat (fun c => lanes1 (rintLane c.rm true) c)) s

/-- VRINTZ (R112). -/
def execVrintz (h : Hdr) (d : Dest) (a : Src) (s : State) : Host.Outcome State Fault Refusal :=
  onTile (Tile.vec1 h d a 3 okFloat (lanes1 (rintLane .rtz false))) s

/-- VCLASS (R113). -/
def execVclass (h : Hdr) (d : Dest) (a : Src) (s : State) : Host.Outcome State Fault Refusal :=
  onTile (Tile.vec1 h d a 2 okFloat (lanes1 classLane)) s

/-- VSCALE (R112). -/
def execVscale (h : Hdr) (d : Dest) (a b : Src) (s : State) : Host.Outcome State Fault Refusal :=
  onTile (Tile.vec2 h d a b 4 okFloat (lanes2 scaleLane)) s

/-- VGETEXP (R111, R112). -/
def execVgetexp (h : Hdr) (d : Dest) (a : Src) (s : State) : Host.Outcome State Fault Refusal :=
  onTile (Tile.vec1 h d a 2 okFloat (lanes1 getexpLane)) s

/-- VMINNUM (R112). -/
def execVminnum (h : Hdr) (d : Dest) (a b : Src) (s : State) : Host.Outcome State Fault Refusal :=
  onTile (Tile.vec2 h d a b 4 okFloat (lanes2 minnumLane)) s

/-- VFCEQ (R114, R115). -/
def execVfceq (h : Hdr) (d : Nat) (a b : Src) (s : State) : Host.Outcome State Fault Refusal :=
  onTile (Tile.vecCompare h d a b okFloatPs (floatCompare false false (eqVal))) s

/-- VFCNE (R114, R115). -/
def execVfcne (h : Hdr) (d : Nat) (a b : Src) (s : State) : Host.Outcome State Fault Refusal :=
  onTile (Tile.vecCompare h d a b okFloatPs (floatCompare false true (fun a b => !eqVal a b))) s

/-- VFCLT (R114, R115). -/
def execVfclt (h : Hdr) (d : Nat) (a b : Src) (s : State) : Host.Outcome State Fault Refusal :=
  onTile (Tile.vecCompare h d a b okFloatPs (floatCompare true false (FVal.lt false))) s

/-- VFCLE (R114, R115). -/
def execVfcle (h : Hdr) (d : Nat) (a b : Src) (s : State) : Host.Outcome State Fault Refusal :=
  onTile (Tile.vecCompare h d a b okFloatPs (floatCompare true false (fun a b => !FVal.lt false b a))) s

/-- VFCGT (R114, R115). -/
def execVfcgt (h : Hdr) (d : Nat) (a b : Src) (s : State) : Host.Outcome State Fault Refusal :=
  onTile (Tile.vecCompare h d a b okFloatPs (floatCompare true false (fun a b => FVal.lt false b a))) s

/-- VFCGE (R114, R115). -/
def execVfcge (h : Hdr) (d : Nat) (a b : Src) (s : State) : Host.Outcome State Fault Refusal :=
  onTile (Tile.vecCompare h d a b okFloatPs (floatCompare true false (fun a b => !FVal.lt false a b))) s

/-- VFCUNORD (R114, R115). -/
def execVfcunord (h : Hdr) (d : Nat) (a b : Src) (s : State) : Host.Outcome State Fault Refusal :=
  onTile (Tile.vecCompare h d a b okFloatPs (floatCompare false true (fun _ _ => false))) s

/-- VFCORD (R114, R115). -/
def execVfcord (h : Hdr) (d : Nat) (a b : Src) (s : State) : Host.Outcome State Fault Refusal :=
  onTile (Tile.vecCompare h d a b okFloatPs (floatCompare false false (fun _ _ => true))) s

/-- VIADD (R116, R117). -/
def execViadd (h : Hdr) (d : Dest) (a b : Src) (s : State) : Host.Outcome State Fault Refusal :=
  onTile (Tile.vec2 h d a b 2 okInt (lanes2 (intLane true (fun a b => a + b)))) s

/-- VISUB (R116, R117). -/
def execVisub (h : Hdr) (d : Dest) (a b : Src) (s : State) : Host.Outcome State Fault Refusal :=
  onTile (Tile.vec2 h d a b 2 okInt (lanes2 (intLane true (fun a b => a - b)))) s

/-- VIMUL (R116, R117). -/
def execVimul (h : Hdr) (d : Dest) (a b : Src) (s : State) : Host.Outcome State Fault Refusal :=
  onTile (Tile.vec2 h d a b 4 okInt (lanes2 (intLane true (fun a b => a * b)))) s

/-- VIMULH (R116, R117). -/
def execVimulh (h : Hdr) (d : Dest) (a b : Src) (s : State) : Host.Outcome State Fault Refusal :=
  onTile (Tile.vec2 h d a b 4 okInt (lanes2 mulhLane)) s

/-- VIMIN (R116, R117). -/
def execVimin (h : Hdr) (d : Dest) (a b : Src) (s : State) : Host.Outcome State Fault Refusal :=
  onTile (Tile.vec2 h d a b 2 okInt (lanes2 (intLane true (fun a b => min a b)))) s

/-- VIMAX (R116, R117). -/
def execVimax (h : Hdr) (d : Dest) (a b : Src) (s : State) : Host.Outcome State Fault Refusal :=
  onTile (Tile.vec2 h d a b 2 okInt (lanes2 (intLane true (fun a b => max a b)))) s

/-- VIMINU (R116, R117). -/
def execViminu (h : Hdr) (d : Dest) (a b : Src) (s : State) : Host.Outcome State Fault Refusal :=
  onTile (Tile.vec2 h d a b 2 okInt (lanes2 (intLane false (fun a b => min a b)))) s

/-- VIMAXU (R116, R117). -/
def execVimaxu (h : Hdr) (d : Dest) (a b : Src) (s : State) : Host.Outcome State Fault Refusal :=
  onTile (Tile.vec2 h d a b 2 okInt (lanes2 (intLane false (fun a b => max a b)))) s

/-- VIADDS (R118). -/
def execViadds (h : Hdr) (d : Dest) (a b : Src) (s : State) : Host.Outcome State Fault Refusal :=
  onTile (Tile.vec2 h d a b 2 okInt (lanes2 (satLane true (fun a b => a + b)))) s

/-- VIADDSU (R118). -/
def execViaddsu (h : Hdr) (d : Dest) (a b : Src) (s : State) : Host.Outcome State Fault Refusal :=
  onTile (Tile.vec2 h d a b 2 okInt (lanes2 (satLane false (fun a b => a + b)))) s

/-- VISUBS (R118). -/
def execVisubs (h : Hdr) (d : Dest) (a b : Src) (s : State) : Host.Outcome State Fault Refusal :=
  onTile (Tile.vec2 h d a b 2 okInt (lanes2 (satLane true (fun a b => a - b)))) s

/-- VISUBSU (R118). -/
def execVisubsu (h : Hdr) (d : Dest) (a b : Src) (s : State) : Host.Outcome State Fault Refusal :=
  onTile (Tile.vec2 h d a b 2 okInt (lanes2 (satLane false (fun a b => a - b)))) s

/-- VIABS (R118). -/
def execViabs (h : Hdr) (d : Dest) (a : Src) (s : State) : Host.Outcome State Fault Refusal :=
  onTile (Tile.vec1 h d a 2 okInt (lanes1 (satLane1 fun a => (a.natAbs : Int)))) s

/-- VINEG (R118). -/
def execVineg (h : Hdr) (d : Dest) (a : Src) (s : State) : Host.Outcome State Fault Refusal :=
  onTile (Tile.vec1 h d a 2 okInt (lanes1 (satLane1 fun a => -a))) s

/-- VIAVG (R118). -/
def execViavg (h : Hdr) (d : Dest) (a b : Src) (s : State) : Host.Outcome State Fault Refusal :=
  onTile (Tile.vec2 h d a b 2 okInt (lanes2 (satLane true fun a b => (a + b + 1) / 2))) s

/-- VIAVGU (R118). -/
def execViavgu (h : Hdr) (d : Dest) (a b : Src) (s : State) : Host.Outcome State Fault Refusal :=
  onTile (Tile.vec2 h d a b 2 okInt (lanes2 (satLane false fun a b => (a + b + 1) / 2))) s

/-- VAND (R119). -/
def execVand (h : Hdr) (d : Dest) (a b : Src) (s : State) : Host.Outcome State Fault Refusal :=
  onTile (Tile.vec2 h d a b 2 okLane (lanes2 (bitLane fun a b => a &&& b))) s

/-- VOR (R119). -/
def execVor (h : Hdr) (d : Dest) (a b : Src) (s : State) : Host.Outcome State Fault Refusal :=
  onTile (Tile.vec2 h d a b 2 okLane (lanes2 (bitLane fun a b => a ||| b))) s

/-- VXOR (R119). -/
def execVxor (h : Hdr) (d : Dest) (a b : Src) (s : State) : Host.Outcome State Fault Refusal :=
  onTile (Tile.vec2 h d a b 2 okLane (lanes2 (bitLane fun a b => a ^^^ b))) s

/-- VANDN (R119). -/
def execVandn (h : Hdr) (d : Dest) (a b : Src) (s : State) : Host.Outcome State Fault Refusal :=
  onTile (Tile.vec2 h d a b 2 okLane (fun c => lanes2 (bitLane fun a b => a &&& (2 ^ c.vb - 1 - b)) c)) s

/-- VSHL (R119). -/
def execVshl (h : Hdr) (d : Dest) (a b : Src) (s : State) : Host.Outcome State Fault Refusal :=
  onTile (Tile.vec2 h d a b 2 okLane (lanes2 shlLane)) s

/-- VSHR (R119). -/
def execVshr (h : Hdr) (d : Dest) (a b : Src) (s : State) : Host.Outcome State Fault Refusal :=
  onTile (Tile.vec2 h d a b 2 okLane (lanes2 shrLane)) s

/-- VSRA (R119). -/
def execVsra (h : Hdr) (d : Dest) (a b : Src) (s : State) : Host.Outcome State Fault Refusal :=
  onTile (Tile.vec2 h d a b 2 okLane (lanes2 sraLane)) s

/-- VNOT (R119). -/
def execVnot (h : Hdr) (d : Dest) (a : Src) (s : State) : Host.Outcome State Fault Refusal :=
  onTile (Tile.vec1 h d a 2 okLane (lanes1 notLane)) s

/-- VICEQ (R116, R120). -/
def execViceq (h : Hdr) (d : Nat) (a b : Src) (s : State) : Host.Outcome State Fault Refusal :=
  onTile (Tile.vecCompare h d a b okInt (intCompare true (fun a b => a == b))) s

/-- VICNE (R116, R120). -/
def execVicne (h : Hdr) (d : Nat) (a b : Src) (s : State) : Host.Outcome State Fault Refusal :=
  onTile (Tile.vecCompare h d a b okInt (intCompare true (fun a b => a != b))) s

/-- VICLT (R116, R120). -/
def execViclt (h : Hdr) (d : Nat) (a b : Src) (s : State) : Host.Outcome State Fault Refusal :=
  onTile (Tile.vecCompare h d a b okInt (intCompare true (fun a b => decide (a < b)))) s

/-- VICLTU (R116, R120). -/
def execVicltu (h : Hdr) (d : Nat) (a b : Src) (s : State) : Host.Outcome State Fault Refusal :=
  onTile (Tile.vecCompare h d a b okInt (intCompare false (fun a b => decide (a < b)))) s

/-- VICLE (R116, R120). -/
def execVicle (h : Hdr) (d : Nat) (a b : Src) (s : State) : Host.Outcome State Fault Refusal :=
  onTile (Tile.vecCompare h d a b okInt (intCompare true (fun a b => decide (a ≤ b)))) s

/-- VICLEU (R116, R120). -/
def execVicleu (h : Hdr) (d : Nat) (a b : Src) (s : State) : Host.Outcome State Fault Refusal :=
  onTile (Tile.vecCompare h d a b okInt (intCompare false (fun a b => decide (a ≤ b)))) s

/-- VICTST (R120). -/
def execVictst (h : Hdr) (d : Nat) (a b : Src) (s : State) : Host.Outcome State Fault Refusal :=
  onTile (Tile.vecCompare h d a b okInt fun c =>
    intCompare true (fun x y => (wrapInt c.vb x &&& wrapInt c.vb y) != 0) c) s

/-- The mode of a conversion (R40). -/
def RndOvr.pick (slot : Rnd) : RndOvr → Rnd
  | .slot => slot
  | .mode r => r

/-- The lanes of a conversion (R122): as many as both formats have, then zeros. -/
def cvtLanes (c : VCtx) (tf : Fmt) (mode : Rnd) (sat : Bool) (n : Nat) (xs : List Nat) : List (Nat × Flags) :=
  ((xs.map (cvtLane c tf mode sat)) ++ List.replicate n (0, 0)).take n

/-- VCVT between lane formats and the microscaled ones (R121 to R123). -/
def Tile.convert (h : Hdr) (d : Dest) (a : Src) (tf : Fmt) (r : RndOvr) (sat : Bool) (t : Tile) : Res :=
  let c := t.vctx h
  let mode := RndOvr.pick c.rm r
  if isMx c.fmt then
    if tf = .fp32 then
      match t.readV a with
      | some x =>
        .ok (t.putLanes (t.vctxOf h .fp32) 3 d ((List.range 64).map fun i => fp32.deliver mode c.fz sat (decodeMx c.fmt x.toNat i)))
      | none => .trap (lostTrap t)
    else .trap (illegalTrap t.iss.pos .badCode)
  else if isMx tf then
    if c.fmt = .fp32 then
      if h.g = 0 then
        match t.readV a with
        | some x =>
          let e := encodeMx tf mode ((lanesOf 32 64 x.toNat).map c.val)
          .ok ((t.putV 3 d (vregOf e.1)).putFlags 3 (vslotOf t.vfile) e.2)
        | none => .trap (lostTrap t)
      else .trap (illegalTrap t.iss.pos .mustBeZero)
    else .trap (illegalTrap t.iss.pos .badCode)
  else
    match t.readV a with
    | some x =>
      let k := t.vctxOf h tf
      .ok (t.putLanes k 3 d (cvtLanes c tf mode sat k.n (lanesOf c.w c.n x.toNat)))
    | none => .trap (lostTrap t)

/-- VCVT (R121 to R123). -/
def execVcvt (h : Hdr) (d : Dest) (a : Src) (t : Fmt) (r : RndOvr) (sat : Bool) (s : State) : Host.Outcome State Fault Refusal :=
  onTile (Tile.convert h d a t r sat) s

/-- VPERM (R124). -/
def execVperm (h : Hdr) (d : Dest) (a b : Src) (s : State) : Host.Outcome State Fault Refusal :=
  onTile (Tile.vec2 h d a b 2 okLane (fun c xs ys => plain (ys.map fun y => listGet xs (y % c.n) 0))) s

/-- VZIP (R124). -/
def execVzip (h : Hdr) (d : Dest) (a b : Src) (s : State) : Host.Outcome State Fault Refusal :=
  onTile (Tile.vec2 h d a b 2 okLane (fun c xs ys => plain (zipLanes c.n xs ys))) s

/-- VUNZIP (R124). -/
def execVunzip (h : Hdr) (d : Dest) (a b : Src) (s : State) : Host.Outcome State Fault Refusal :=
  onTile (Tile.vec2 h d a b 2 okLane (fun _ xs ys => plain (evens (xs ++ ys)))) s

/-- VREV (R124). -/
def execVrev (h : Hdr) (d : Dest) (a : Src) (s : State) : Host.Outcome State Fault Refusal :=
  onTile (Tile.vec1 h d a 2 okLane (fun _ xs => plain xs.reverse)) s

/-- VROT (R124). -/
def execVrot (h : Hdr) (d : Dest) (a b : Src) (s : State) : Host.Outcome State Fault Refusal :=
  onTile (Tile.vec2 h d a b 2 okLane (fun c xs ys => let k := listGet ys 0 0 % c.n; plain (xs.drop k ++ xs.take k))) s

/-- VSEL (R124): the guard selects, and every lane is written. -/
def execVsel (h : Hdr) (d : Dest) (a b : Src) (s : State) : Host.Outcome State Fault Refusal :=
  onTile (fun t =>
    let c := t.vctx h
    if okLane c.fmt then
      match t.readV a, t.readV b with
      | some x, some y =>
        .ok (t.putV 2 d (vregOf (packLanes c.w (guardLanes c.guards (lanesOf c.w c.n x.toNat) (lanesOf c.w c.n y.toNat)))))
      | _, _ => .trap (lostTrap t)
    else .trap (illegalTrap t.iss.pos .badCode)) s

/-- VCMPRS (R125). -/
def execVcmprs (h : Hdr) (d : Dest) (a : Src) (b : Nat) (s : State) : Host.Outcome State Fault Refusal :=
  onTile (fun t => Tile.vec1 h d a 2 okLane (fun c xs => plain (fillZero c.n
    (((List.zip (laneGuards (t.pred b) c.w c.n 0) xs).filter fun z => z.1).map (·.2)))) t) s

/-- VEXPND (R125). -/
def execVexpnd (h : Hdr) (d : Dest) (a : Src) (b : Nat) (s : State) : Host.Outcome State Fault Refusal :=
  onTile (fun t => Tile.vec1 h d a 2 okLane (fun c xs => plain (expand (laneGuards (t.pred b) c.w c.n 0) xs)) t) s

/-- VRSUM (R126 to R128). -/
def execVrsum (h : Hdr) (d : Dest) (a : Src) (b : Nat) (s : State) : Host.Outcome State Fault Refusal :=
  onTile (fun t => Tile.vec1 h d a 6 okFloatPs (sumLanes (t.pred b)) t) s

/-- VRMAX (R126 to R128). -/
def execVrmax (h : Hdr) (d : Dest) (a : Src) (b : Nat) (s : State) : Host.Outcome State Fault Refusal :=
  onTile (fun t => Tile.vec1 h d a 6 okSum (extremeLanes true (t.pred b)) t) s

/-- VRMIN (R126 to R128). -/
def execVrmin (h : Hdr) (d : Dest) (a : Src) (b : Nat) (s : State) : Host.Outcome State Fault Refusal :=
  onTile (fun t => Tile.vec1 h d a 6 okSum (extremeLanes false (t.pred b)) t) s

/-- VRISUM (R126 to R128). -/
def execVrisum (h : Hdr) (d : Dest) (a : Src) (b : Nat) (s : State) : Host.Outcome State Fault Refusal :=
  onTile (fun t => Tile.vec1 h d a 6 okInt (isumLanes (t.pred b)) t) s

/-- VSCAN (R126 to R128). -/
def execVscan (h : Hdr) (d : Dest) (a : Src) (b : Nat) (s : State) : Host.Outcome State Fault Refusal :=
  onTile (fun t => Tile.vec1 h d a 6 okSum (scanLanes (t.pred b)) t) s

/-- VRAND (R126 to R128). -/
def execVrand (h : Hdr) (d : Dest) (a : Src) (b : Nat) (s : State) : Host.Outcome State Fault Refusal :=
  onTile (fun t => Tile.vec1 h d a 6 okLane (bitReduce (fun x y => x &&& y) true (t.pred b)) t) s

/-- VROR (R126 to R128). -/
def execVror (h : Hdr) (d : Dest) (a : Src) (b : Nat) (s : State) : Host.Outcome State Fault Refusal :=
  onTile (fun t => Tile.vec1 h d a 6 okLane (bitReduce (fun x y => x ||| y) false (t.pred b)) t) s

/-- VRXOR (R126 to R128). -/
def execVrxor (h : Hdr) (d : Dest) (a : Src) (b : Nat) (s : State) : Host.Outcome State Fault Refusal :=
  onTile (fun t => Tile.vec1 h d a 6 okLane (bitReduce (fun x y => x ^^^ y) false (t.pred b)) t) s

/-- VSPLI (R130). -/
def execVspli (h : Hdr) (d imm : Nat) (s : State) : Host.Outcome State Fault Refusal :=
  onTile (Tile.vec0 h (.reg d) 2 okLane fun c => List.replicate c.n (spliLane c imm, 0)) s

/-- VIOTA (R131). -/
def execViota (h : Hdr) (d : Dest) (s : State) : Host.Outcome State Fault Refusal :=
  onTile (Tile.vec0 h d 2 okWide fun c => plain (List.range c.n)) s

/-- VSPLAT (R131). -/
def execVsplat (h : Hdr) (d : Dest) (a b : Src) (s : State) : Host.Outcome State Fault Refusal :=
  onTile (Tile.vec2 h d a b 2 okLane fun c xs ys =>
    List.replicate c.n (listGet xs (listGet ys 0 0 % c.n) 0, 0)) s

/-- VMOVP (R131). -/
def execVmovp (h : Hdr) (d : Dest) (a : Nat) (s : State) : Host.Outcome State Fault Refusal :=
  onTile (fun t => Tile.vec0 h d 2 okLane (fun c =>
    plain ((laneGuards (t.pred a) c.w c.n 0).map fun b => if b then laneImage c.nif c.fmt (2 ^ c.vb - 1) else 0)) t) s

/-- VPOPC (R131). -/
def execVpopc (h : Hdr) (d : Dest) (a : Nat) (s : State) : Host.Outcome State Fault Refusal :=
  onTile (fun t => Tile.vec0 h d 2 okWide (fun c => reduceLanes c (popCount 64 (t.pred a).toNat, 0)) t) s

/-- VRNG (R132). -/
def execVrng (h : Hdr) (d : Dest) (a : Src) (s : State) : Host.Outcome State Fault Refusal :=
  onTile (fun t =>
    let c := t.vctx h
    if okRandom c.fmt then
      match t.readV a with
      | some x =>
        .ok (t.putLanes c 8 d (plain (lanesOf c.w c.n
          (randomBits (bits x 0 32) t.key.id (bits t.csrs.stepcnt 0 32) (word (bits t.seed 0 64))))))
      | none => .trap (lostTrap t)
    else .trap (illegalTrap t.iss.pos .badCode)) s

/-- VFMTS (R133): bits [5:0] of vA; a reserved code is ILLEGAL with reason 11. -/
def execVfmts (h : Hdr) (a : Src) (s : State) : Host.Outcome State Fault Refusal :=
  onTile (fun t =>
    if t.guarded h then
      match t.readV a with
      | some x =>
        if bit x 4 then .trap (illegalTrap t.iss.pos .badCsrValue) else .ok (t.putFormat (word (bits x 0 6)))
      | none => .trap (lostTrap t)
    else .ok t) s

/-- VFMT (R133). -/
def execVfmt (h : Hdr) (bind : Bool) (f : Fmt) (s : State) : Host.Outcome State Fault Refusal :=
  onTile (fun t => if t.guarded h then .ok (t.putFormat (word (f.code + 32 * bind.toNat))) else .ok t) s

/-- VNOP (R134): no effect. -/
def execVnop (_e : Bool) (s : State) : Host.Outcome State Fault Refusal := onTile (fun t => .ok t) s

/-- VDOT4S (R129). -/
def execVdot4s (h : Hdr) (d : Nat) (a b : Src) (s : State) : Host.Outcome State Fault Refusal :=
  onTile (Tile.vecDot h d a b (fun _ x y d => (dot4 true x y d, 0))) s

/-- VDOT4U (R129). -/
def execVdot4u (h : Hdr) (d : Nat) (a b : Src) (s : State) : Host.Outcome State Fault Refusal :=
  onTile (Tile.vecDot h d a b (fun _ x y d => (dot4 false x y d, 0))) s

/-- VDOT2BF (R129). -/
def execVdot2bf (h : Hdr) (d : Nat) (a b : Src) (s : State) : Host.Outcome State Fault Refusal :=
  onTile (Tile.vecDot h d a b (fun c x y d => dot2 bf16 c.rm c.fz x y d)) s

/-- VDOT2H (R129). -/
def execVdot2h (h : Hdr) (d : Nat) (a b : Src) (s : State) : Host.Outcome State Fault Refusal :=
  onTile (Tile.vecDot h d a b (fun c x y d => dot2 fp16 c.rm c.fz x y d)) s

end Sys2Proof.Machine
end

