-- ==== Sys2Proof/Machine/MatrixEngine.lean ====
section
/-! DEFINITION. The matrix engine once started (R167 to R188): operand tiles, the step partial, stacks, drains, the loop
nest, the schedule of R174, faults and the shadow. -/

namespace Sys2Proof.Machine

/-! Formats and costs. -/

def isE8 : Fmt → Bool
  | .e4m3 | .e5m2 => true
  | _ => false

/-- The accumulator format and the step time of a pairing (R167, R168); none where the table has no row. -/
def mxPair (fa fb : Fmt) (nif : Word) : Option (Fmt × Nat) :=
  if fa = .ni ∧ fb = .ni then
    match (niPrimary nif).wid, (niSecondary nif).wid with
    | 8, 8 => some (.i32, 64)
    | 8, 4 => some (.i32, 64)
    | 4, 4 => some (.i32, 32)
    | _, _ => none
  else if isE8 fa && isE8 fb then some (.fp32, 64)
  else if fa ≠ fb then none
  else
    match fa with
    | .fp64 => some (.fp64, 16384)
    | .fp32 => some (.fp32, 1024)
    | .bf16 | .fp16 => some (.fp32, 128)
    | .mxfp8 | .g8 => some (.fp32, 64)
    | .mxfp4 | .g6 => some (.fp32, 32)
    | _ => none

/-- The accumulator format that the A code gives (R199). -/
def accFmt : Fmt → Fmt
  | .fp64 => .fp64
  | .ni => .i32
  | _ => .fp32

/-- Bytes of an accumulator element, of a stack slot, and ticks of a slot transfer (R174, R197). -/
def accSize (f : Fmt) : Nat := if f = .fp64 then 8 else 4
def slotSize (f : Fmt) : Nat := if f = .fp64 then 131072 else 65536
def slotTicks (f : Fmt) : Nat := if f = .fp64 then 64 else 32

/-- Bytes of a drained element (R172). -/
def drainSize (f : Fmt) : Nat :=
  match f with
  | .fp64 => 8
  | .fp16 | .bf16 => 2
  | _ => 4

/-- Whether a drain format code is allowed for an accumulator format (R172). -/
def drainOk (acc : Fmt) (code : Nat) : Bool :=
  decide (code < 16) && (fmtOf code == acc || (acc == .fp32 && (fmtOf code == .bf16 || fmtOf code == .fp16)) ||
    (acc == .fp64 && fmtOf code == .fp32))

/-- Bits of a stored element (R33, R170): NI by its shape. -/
def storedBits (ni : NiShape) (f : Fmt) : Nat :=
  match f with
  | .mxfp4 => 4
  | .ni => if ni.wid = 4 then 4 else 8
  | f => laneWidth f

/-- The NI shape of an operand: primary for A, secondary for B (R168). -/
def operandNi (nif : Word) (isA : Bool) : NiShape := if isA then niPrimary nif else niSecondary nif

/-! The fields of R169 and R172. -/

def ringBase (r : Word128) : Nat := bits r 0 21
def ringCap (r : Word128) : Nat := bits r 32 10
def ringStride (r : Word128) : Nat := bits r 48 21
def ringPitch (r : Word128) : Nat := bits r 72 16
def ringRows (r : Word128) : Nat := bits r 88 7 + 1
def ringCols (r : Word128) : Nat := bits r 96 7 + 1
def ringScale (r : Word128) : Nat := bits r 104 21
def MxCfg.ring (c : MxCfg) (r : Nat) : Word128 := listGet c.rings r 0
def MxCfg.level (c : MxCfg) (l : Nat) : Word128 := listGet c.levels l 0
def MxCfg.aRing (c : MxCfg) : Nat := bits c.ophdr 0 2
def MxCfg.bRing (c : MxCfg) : Nat := bits c.ophdr 2 2
def MxCfg.nlev (c : MxCfg) : Nat := bits c.ophdr 6 3
def MxCfg.acc0 (c : MxCfg) : Nat := bits c.ophdr 4 2
def levelCount (l : Word128) : Nat := bits l 0 24
def levelDrain (l : Word128) : Bool := bit l 66
def MxCfg.slots (c : MxCfg) (a : Nat) : Nat := bits c.stackArea (32 * a + 21) 3
def MxCfg.slotAddr (c : MxCfg) (f : Fmt) (a s : Nat) : Nat := bits c.stackArea (32 * a) 21 + s * slotSize f
def drainRows (d : Word128) : Nat := bits d 72 7 + 1
def drainCols (d : Word128) : Nat := bits d 80 7 + 1
def drainFmt (d : Word128) : Fmt := fmtOf (bits d 88 5)

/-- Ticks of a drain (R174). -/
def drainTicks (d : Word128) : Nat := 8 + ceilDiv (drainRows d * drainCols d * drainSize (drainFmt d)) 2048

/-- Whether an operation has completed: it holds its place through that tick (R196). -/
def MxOp.over (o : MxOp) : Bool := o.done.ended

/-! Reading. -/

/-- The first poisoned byte of an access (R185, R380). -/
def Spad.poisonAt (s : Spad) (a n : Nat) : Option Nat :=
  (s.poison.find? fun g => decide (g * 8 < a + n) && decide (a < g * 8 + 8) && !s.marked (g * 8)).map fun g => max a (g * 8)

/-- Reads of an engine, in order: the scratchpad with touches noted, the bytes, the first poisoned address. How many touches the fetch of an
operand counts R155 and R185 do not say: the model counts one for each stored row and one for each group of scale bytes that touches a
granule (DESIGN CHOICE, log entry 37). -/
def Spad.scan (s : Spad) (src : Nat) : List (Nat × Nat) → Spad × List (List Byte) × Option Nat
  | [] => (s, [], none)
  | (a, n) :: t =>
    let r := Spad.scan (s.note src 2 a n) src t
    (r.1, s.readBytes a n :: r.2.1, (s.poisonAt a n).or r.2.2)

/-- Element words of w bits of a stored row. -/
def rowWords (w n : Nat) (bs : List Byte) : List Nat := lanesOf w n (natOfBytes bs)

/-- The exact value of a stored operand element, with the scale byte of its block when it has one (R176, R46). -/
def operandValue (ni : NiShape) (fz : Bool) (f : Fmt) (scale : Option Nat) (w : Nat) : FVal × Flags :=
  match scale with
  | some s => if s = 0xFF then (.nan false, 0) else ((fmtValue ni fz f w).1.shift ((s : Int) - 127), 0)
  | none => fmtValue ni fz f w

/-- A list cut or filled to 128 entries. -/
def pad128 {α : Type} (z : α) (l : List α) : List α := (l ++ List.replicate 128 z).take 128

/-- What reading an operand tile brings: the bytes of its rows and of its scales, the first uncorrectable error. -/
structure Fetched where
  rows : List (List Byte)
  scales : List (List Byte)
  error : Option Nat
deriving DecidableEq, Repr

/-- Read the operand tile of number idx (R170). Of every stored row or column all four scale bytes are read, those of K-blocks in which no
element is stored too, on which R170 and R171 are silent (DESIGN CHOICE, log entry 74). -/
def Tile.fetchOperand (t : Tile) (op : MxOp) (isA : Bool) (idx : Nat) : Tile × Fetched :=
  let r := op.cfg.ring (if isA then op.cfg.aRing else op.cfg.bRing)
  let f := if isA then op.fa else op.fb
  let w := storedBits (operandNi op.nif isA) f
  let base := ringBase r + idx % max 1 (ringCap r) * ringStride r
  let data := t.spad.scan t.key.id ((List.range (ringRows r)).map fun i => (base + i * ringPitch r, ceilDiv (ringCols r * w) 8))
  let nv := if isA then ringRows r else ringCols r
  let scales := if isMx f then data.1.scan t.key.id ((List.range nv).map fun i => (base + ringScale r + 4 * i, 4)) else (data.1, [], none)
  ({ t with spad := scales.1 }, ⟨data.2.1, scales.2.1, data.2.2.or scales.2.2⟩)

/-- The elements of an operand tile (R170, R176): for A the rows m over k, for B the columns n over k, padding exact zeros; and the flags
of decoding them. -/
def operandTile (op : MxOp) (isA : Bool) (rows scales : List (List Byte)) : List (List FVal) × Flags :=
  let cols := ringCols (op.cfg.ring (if isA then op.cfg.aRing else op.cfg.bRing))
  let f := if isA then op.fa else op.fb
  let ni := operandNi op.nif isA
  let words := rows.map (rowWords (storedBits ni f) cols)
  let vecs := if isA then words else (List.range cols).map fun n => words.map fun row => listGet row n 0
  let value (i k x : Nat) : FVal × Flags :=
    operandValue ni op.fz f (if isMx f then some (listGet (listGet scales i []) (k / 32) 0).toNat else none) x
  let vals := (List.zip (List.range vecs.length) vecs).map fun v => (List.zip (List.range v.2.length) v.2).map fun e => value v.1 e.1 e.2
  (pad128 (List.replicate 128 (.zero false)) (vals.map fun v => pad128 (.zero false) (v.map (·.1))),
   vals.foldl (fun acc v => v.foldl (fun a e => a ||| e.2) acc) 0)

/-! The step partial (R176). -/

/-- One level of the tree: sums of neighbours, each rounded once. -/
def pairLevel (f : Fmt) (mode : Rnd) (fz : Bool) : List FVal → List FVal × Flags
  | a :: b :: t =>
    let x := FVal.add mode a b
    let r := fmtDeliver mode fz false f x.1
    let rest := pairLevel f mode fz t
    ((fmtValue ⟨8, true, 0⟩ false f r.1).1 :: rest.1, x.2 ||| r.2 ||| rest.2)
  | _ => ([], 0)

/-- n levels of the tree. -/
def treeSum (f : Fmt) (mode : Rnd) (fz : Bool) : Nat → List FVal → List FVal × Flags
  | 0, l => (l, 0)
  | n + 1, l =>
    let r := pairLevel f mode fz l
    let q := treeSum f mode fz n r.1
    (q.1, r.2 ||| q.2)

/-- An integer of an exact value. -/
def FVal.toInt : FVal → Int
  | .num neg m e _ => scaled neg m e 0
  | _ => 0

/-- One element of the partial: its word and flags. R170 calls the products of missing rows and columns exact zeros and R176 makes zero
times infinity the default NaN with NV: where the other operand is an infinity or a NaN the model takes R176 (DESIGN CHOICE, log entry
74). -/
def partialElem (f : Fmt) (mode : Rnd) (fz : Bool) (a b : List FVal) : Nat × Flags :=
  if f = .i32 then (wrapInt 32 ((List.zip a b).foldl (fun acc x => acc + x.1.toInt * x.2.toInt) 0), 0)
  else
    let ps := (List.zip a b).map fun x => FVal.mul x.1 x.2
    let s := treeSum f mode fz 7 (ps.map (·.1))
    ((fmtDeliver mode fz false f (s.1.headD (.zero false))).1, ps.foldl (fun acc p => acc ||| p.2) s.2)

/-- The step partial of two tiles (R167, R176): element (m, n) at place 128 m + n. -/
def stepPartial (f : Fmt) (mode : Rnd) (fz : Bool) (as bs : List (List FVal)) : Elems × Flags :=
  let es := as.flatMap fun a => bs.map fun b => partialElem f mode fz a b
  (Elems.ofListFrom 0 (es.map (·.1)), es.foldl (fun acc e => acc ||| e.2) 0)

/-- The elements of both tiles of a step, from the bytes it has read. -/
def stepTiles (op : MxOp) (ops : List (List (List Byte))) : (List (List FVal) × Flags) × (List (List FVal) × Flags) :=
  (operandTile op true (listGet ops 0 []) (listGet ops 1 []), operandTile op false (listGet ops 2 []) (listGet ops 3 []))

/-- Read both tiles and form the partial: the tile, the bytes read, the partial, its flags, the first operand error. -/
def Tile.computeStep (t : Tile) (op : MxOp) (ia ib : Nat) : Tile × List (List (List Byte)) × Elems × Flags × Option Nat :=
  let a := t.fetchOperand op true ia
  let b := a.1.fetchOperand op false ib
  let ops := [a.2.rows, a.2.scales, b.2.rows, b.2.scales]
  let v := stepTiles op ops
  let p := stepPartial (accFmt op.fa) op.rm op.fz v.1.1 v.2.1
  (b.1, ops, p.1, p.2 ||| v.1.2 ||| v.2.2, a.2.error.or b.2.error)

/-! Checks of a step (R181 to R183). -/

/-- A value as the side unit holds it: in FP32, and for I32 exact (R181). -/
def sideValue (f : Fmt) (x : FVal) : FVal :=
  if f = .i32 then x else (fmtValue ⟨8, true, 0⟩ false .fp32 (fmtDeliver .rne false false .fp32 x).1).1

/-- A sum of the side unit, from the first term to the last: the order is the implementation's (R181, log entry 9). -/
def sideSum (f : Fmt) (l : List FVal) : FVal := l.foldl (fun acc x => sideValue f (FVal.add .rne acc x).1) (.zero false)

def sideMul (f : Fmt) (x y : FVal) : FVal := sideValue f (FVal.mul x y).1

def FVal.abs (x : FVal) : FVal := x.withSign false

/-- Whether a value is a number: no NaN, no infinity. -/
def FVal.finite : FVal → Bool
  | .num _ _ _ _ => true
  | _ => false

/-- The sums over a tile for each k: a_k of the rows of A, b_k of the columns of B (R181). -/
def lineSums (f : Fmt) (ls : List (List FVal)) : List FVal :=
  (List.range 128).map fun k => sideSum f (ls.map fun l => sideValue f (listGet l k (.zero false)))

/-- Whether the check of one row or column of a partial fails (R181): its elements, the operands along k, the sums of the other
operand. -/
def lineFails (f : Fmt) (els vec sums : List FVal) : Bool :=
  let terms := (List.zip sums vec).map fun x => sideMul f x.1 x.2
  let computed := sideSum f els
  let ref := sideSum f terms
  let diff := (FVal.add .rne computed ref.negate).1
  if f = .i32 then diff.toInt % 2 ^ 32 != 0
  else
    let bound := sideSum f [sideSum f (terms.map FVal.abs), sideSum f (els.map FVal.abs)]
    (els ++ terms ++ [computed, ref, bound]).all FVal.finite && FVal.lt true (bound.shift (-16)) diff.abs

/-- The rows and the columns of a partial whose checks fail (R181). -/
def failingLines (f : Fmt) (as bs : List (List FVal)) (p : List Nat) : List Nat × List Nat :=
  let v := p.map fun w => sideValue f (fmtValue ⟨8, true, 0⟩ false f w).1
  let at_ (i : Nat) : FVal := listGet v i (.zero false)
  let a := lineSums f as
  let b := lineSums f bs
  ((List.range 128).filter fun m => lineFails f ((List.range 128).map fun n => at_ (128 * m + n)) (listGet as m []) b,
   (List.range 128).filter fun n => lineFails f ((List.range 128).map fun m => at_ (128 * m + n)) (listGet bs n []) a)

/-- What the checks of a step come to (R182, R183, R186): they pass, after a correction of one element or without one, or they fail, with
the kind of fault that it is when a replay fails so. -/
inductive StepCheck where
  | passed
  | corrected
  | failed (kind : Nat)
deriving DecidableEq, Repr

/-- Whether an operation runs in mirror mode (R183, R202). -/
def MxOp.mirrored (o : MxOp) : Bool := o.mirror && decide (ringRows (o.cfg.ring o.cfg.aRing) ≤ 64)

/-- The checks at the end of a step, in which the array may hold wrong words (R181 to R183): one failing row and one failing column name an
element, which the recompute lane forms again before the checks are repeated; in mirror mode every element is compared with its mirror. -/
def MxOp.check (o : MxOp) (x : MxStep) : StepCheck :=
  let f := accFmt o.fa
  let v := stepTiles o x.ops
  let right := Elems.toListFrom x.part 0 16384
  let found := x.wrong.foldl (fun l w => l.set w.1 w.2) right
  let mirror := x.mirror.foldl (fun l w => l.set w.1 w.2) right
  let differ := o.mirrored && found != mirror
  match failingLines f v.1.1 v.2.1 found with
  | ([], []) => if differ then .failed 3 else .passed
  | ([m], [n]) =>
    (match failingLines f v.1.1 v.2.1 (found.set (128 * m + n) (listGet right (128 * m + n) 0)) with
      | ([], []) => if differ then .failed 3 else .corrected
      | _ => .failed 2)
  | _ => .failed 2

/-! Stacks (R177). -/

/-- What a push does: a fault kind, whether it merges, the slots it folds, the slot it spills to, the new stack. -/
structure PushPlan where
  fault : Option Nat
  merge : Bool
  folds : List Nat
  spill : Option Nat
  desc : StackDesc
deriving DecidableEq, Repr

/-- Total weight of a stack. -/
def StackDesc.total (d : StackDesc) : Nat := (if d.top then 2 ^ d.wt else 0) + (d.slots.map fun w => 2 ^ w).sum

/-- Slots that a top of log2 weight w folds, newest first: the slots that stay, the folded places, the weight. -/
def foldSlots : List Nat → Nat → List Nat × List Nat × Nat
  | [], w => ([], [], w)
  | s :: t, w =>
    if s = w then
      let r := foldSlots t (w + 1)
      (r.1, t.length :: r.2.1, r.2.2)
    else (s :: t, [], w)

/-- The plan of a push of log2 weight w (R177). -/
def StackDesc.push (d : StackDesc) (w nslots maxk : Nat) : PushPlan :=
  let heavy := decide (maxk < d.total + 2 ^ w)
  if !d.top then ⟨if heavy then some 7 else none, false, [], none, { d with top := true, wt := w }⟩
  else if d.wt = w then
    let r := foldSlots d.slots.reverse (w + 1)
    ⟨if heavy then some 7 else none, true, r.2.1, none, ⟨true, r.2.2, r.1.reverse⟩⟩
  else
    ⟨if nslots ≤ d.slots.length then some 6 else if heavy then some 7 else none, false, [], some d.slots.length,
      ⟨true, w, d.slots ++ [d.wt]⟩⟩

/-- Slots read or written by a push: none by one that is an engine fault. -/
def PushPlan.moves (p : PushPlan) : Nat :=
  if p.fault.isSome then 0 else p.folds.length + (if p.spill.isSome then 1 else 0)

/-- The emptied stack of a drain (R178). -/
def StackDesc.empty : StackDesc := ⟨false, 0, []⟩

/-! Accumulators: words of all 16,384 elements; FP64 in a pair (R168). -/

def Matrix.acc (m : Matrix) (a : Nat) : List Nat := Elems.toListFrom (listGet m.accs a []) 0 16384

def Matrix.getAcc (m : Matrix) (f : Fmt) (a : Nat) : List Nat :=
  if f = .fp64 then (List.zip (m.acc a) (m.acc (a + 1))).map fun x => x.1 + x.2 * 2 ^ 32 else m.acc a

def Matrix.setAcc (m : Matrix) (f : Fmt) (a : Nat) (ws : List Nat) : Matrix :=
  if f = .fp64 then
    let lo := Elems.ofListFrom 0 (ws.map fun w => w % 2 ^ 32)
    let hi := Elems.ofListFrom 0 (ws.map fun w => w / 2 ^ 32)
    { m with accs := listSet (listSet m.accs a lo) (a + 1) hi }
  else { m with accs := m.accs.set a (Elems.ofListFrom 0 ws) }

/-- Round(acc, older + newer) of whole accumulators (R177). -/
def mergeWords (f : Fmt) (mode : Rnd) (fz : Bool) (older newer : List Nat) : List Nat × Flags :=
  let rs := (List.zip older newer).map fun x =>
    if f = .i32 then ((x.1 + x.2) % 2 ^ 32, (0 : Flags)) else addWords mode fz f x.1 x.2
  (rs.map (·.1), rs.foldl (fun acc r => acc ||| r.2) 0)

/-- Read slot s of accumulator a's stack area. R177 gives a slot's address and size and not its layout: the model keeps element (m, n)
at place 128 m + n, without a pitch (DESIGN CHOICE, log entry 53). -/
def Tile.readSlot (t : Tile) (op : MxOp) (f : Fmt) (a s : Nat) : Tile × List Nat :=
  let r := t.spad.scan t.key.id [(op.cfg.slotAddr f a s, slotSize f)]
  ({ t with spad := r.1 }, rowWords (8 * accSize f) 16384 (r.2.1.headD []))

/-- Add slots to a value, in order (R177, R178): each older than the value. -/
def Tile.foldIn (t : Tile) (op : MxOp) (f : Fmt) (a : Nat) : List Nat → List Nat → Tile × List Nat × Flags
  | [], x => (t, x, 0)
  | s :: ss, x =>
    let r := t.readSlot op f a s
    let m := mergeWords f op.rm op.fz r.2 x
    let q := Tile.foldIn r.1 op f a ss m.1
    (q.1, q.2.1, m.2 ||| q.2.2)

/-- Carry out a push (R177); a slot is laid out as Tile.readSlot says. -/
def Tile.pushPartial (t : Tile) (op : MxOp) (f : Fmt) (a w : Nat) (x : List Nat) : Tile × Flags :=
  let d := listGet t.mx.stk a StackDesc.empty
  let p := d.push w (op.cfg.slots a) op.maxk
  let top := t.mx.getAcc f a
  let r : Tile × List Nat × Flags :=
    if p.merge then
      let m := mergeWords f op.rm op.fz top x
      let q := t.foldIn op f a p.folds m.1
      (q.1, q.2.1, m.2 ||| q.2.2)
    else
      match p.spill with
      | some s =>
        ({ t with spad := t.spad.store t.key.id 2 (op.cfg.slotAddr f a s) (top.flatMap fun v => bytesOfNat (accSize f) v) }, x, 0)
      | none => (t, x, 0)
  ({ r.1 with mx := { r.1.mx.setAcc f a r.2.1 with stk := r.1.mx.stk.set a p.desc } }, r.2.2)

/-! Drains (R178). -/

/-- Write bytes at an address modulo the scratchpad's size (R197). -/
def Spad.storeWrap (s : Spad) (src a : Nat) (bs : List Byte) : Spad :=
  let b := a % 0x200000
  if b + bs.length ≤ 0x200000 then s.store src 2 b bs
  else (s.store src 2 b (bs.take (0x200000 - b))).store src 2 0 (bs.drop (0x200000 - b))

/-- An arrival on a word of this scratchpad (R155, R165). -/
def Spad.arrive (s : Spad) (src a n : Nat) : Spad :=
  let s1 := s.note src 4 a 8
  if s.marked a then s1 else s1.write a (bytesOfNat 8 (arriveWord (Mem.readWord s1.mem a) n).toNat)

/-- Convert an accumulator word into the drain format (R178, R45). A drain in the accumulator format writes its words as they are, which R178
calls exact; where DSAT is set and a word is an infinity R45 would give the largest finite value instead: the model keeps the infinity
(DESIGN CHOICE, log entry 69). -/
def drainWord (op : MxOp) (f : Fmt) (d : Word128) (w : Nat) : Nat × Flags :=
  if drainFmt d = f then (w, 0)
  else
    let v := fmtValue ⟨8, true, 0⟩ op.fz f w
    let r := fmtDeliver op.rm op.fz (bit d 93) (drainFmt d) v.1
    (r.1, r.2 ||| (if v.1.isSig then flagNV else 0))

/-- The rows of a drain, in ascending order. -/
def drainRowsGo (op : MxOp) (f : Fmt) (d : Word128) (src base : Nat) : Nat → List (List Nat) → Spad → Spad × Flags
  | _, [], s => (s, 0)
  | m, row :: rows, s =>
    let rs := (row.take (drainCols d)).map (drainWord op f d)
    let s1 := s.storeWrap src (base + m * bits d 32 16) (rs.flatMap fun r => bytesOfNat (drainSize (drainFmt d)) r.1)
    let q := drainRowsGo op f d src base (m + 1) rows s1
    (q.1, rs.foldl (fun acc r => acc ||| r.2) q.2)

/-- Rows of 128 elements. -/
def rowsOf : Nat → List Nat → List (List Nat)
  | 0, _ => []
  | n + 1, l => l.take 128 :: rowsOf n (l.drop 128)

/-- The window address of a word of another tile (R142). -/
def windowAddr (id off : Nat) : Nat := 0xFF * 2 ^ 48 + id * 2 ^ 21 + off

/-- An arrival sent to another tile's word (R161, R198). -/
def Tile.sendArrival (t : Tile) (id off n : Nat) : Tile :=
  { t with far := t.far ++ [⟨t.seq, windowAddr id off, .bar n, t.tick, 0, t.pc, none, none, .open, [0], [], none, false⟩], seq := t.seq + 1 }

/-- The arrivals of a drain: on the own word, and for a ganged operation on that of every other member of the gang that issued it,
whatever gang the tile is in now (R178, R198, R269, R273). -/
def Tile.drainArrive (t : Tile) (op : MxOp) (d : Word128) : Tile :=
  if bit d 95 then
    let n := bits d 117 11
    let a := bits d 96 21
    let u := { t with spad := t.spad.arrive t.key.id a n }
    match op.kind with
    | .go (some (first, size)) =>
      ((List.range size).filter fun i => first + i != t.key.id).foldl (fun v i => v.sendArrival (first + i) a n) u
    | _ => u
  else t

/-- Drain accumulator a to a base address (R178): its bytes. -/
def Tile.drainAcc (t : Tile) (op : MxOp) (f : Fmt) (a base : Nat) : Tile × Flags :=
  let d := op.cfg.drain
  let k := listGet t.mx.stk a StackDesc.empty
  let x := if k.top then t.mx.getAcc f a else List.replicate 16384 0
  let r := t.foldIn op f a (List.range k.slots.length).reverse x
  let w := drainRowsGo op f d t.key.id base 0 (rowsOf (drainRows d) r.2.1) r.1.spad
  ({ r.1 with spad := w.1, mx := { r.1.mx with stk := r.1.mx.stk.set a StackDesc.empty } }, r.2.2 ||| w.2)

/-! The nest (R172, R173). -/

/-- An action on a ring: the ring, and whether a BACK goes before HEAD (R173). -/
def Ring.act (r : Ring) (x mark : Nat) : Ring × Bool :=
  match x with
  | 1 => ({ r with rp := (r.rp + 1) % 65536 }, false)
  | 2 => ({ r with rp := mark }, decide (32768 ≤ (mark + 65536 - r.head) % 65536))
  | 3 => ({ r with head := r.rp }, false)
  | _ => (r, false)

/-- Where the end of a step leads: nest, rings, drained accumulators in order, and whether a BACK is at fault. Of a BACK that faults at
the end of a level R174 and R186 do not say which drains P_i counts, and so at which tick the fault is: the model counts the drains of
the levels that ended before it and none after it (DESIGN CHOICE, log entry 53). -/
structure NestEnd where
  nest : Nest
  rings : List Ring
  drains : List Nat
  back : Bool
deriving DecidableEq, Repr

/-- The end of an iteration of level l, and of the levels it completes; a BACK is looked at on the rings named. -/
def nestGo (c : MxCfg) (seen : List Nat) : Nat → Nat → Nest → List Ring → List Nat → NestEnd
  | 0, _, n, rs, ds => ⟨{ n with ended := true }, rs, ds, false⟩
  | fuel + 1, l, n, rs, ds =>
    let lv := c.level l
    let i := listGet n.index l 0
    let last := decide (levelCount lv ≤ i + 1)
    let acts := if last then bits lv 48 8 else bits lv 32 8
    let xs := (List.range 4).map fun r =>
      (listGet rs r ⟨0, 0, 0⟩).act (fld acts (2 * r) 2) (listGet (listGet n.marks l []) r 0)
    let rs1 := xs.map (·.1)
    if seen.any (fun r => (listGet xs r (⟨0, 0, 0⟩, false)).2) then ⟨{ n with ended := true }, rs1, ds, true⟩
    else
      let ds1 := if levelDrain lv then ds ++ [n.acc] else ds
      let acc := (n.acc + bits lv 64 2) % 4
      if !last then
        let rp := rs1.map fun r => r.rp
        ⟨{ index := n.index.set l (i + 1), acc := acc, ended := false,
           marks := (List.range 6).map fun k => if k ≤ l then rp else listGet n.marks k [] }, rs1, ds1, false⟩
      else
        let n1 := { n with index := n.index.set l 0, acc := acc }
        if l + 1 = c.nlev then ⟨{ n1 with ended := true }, rs1, ds1, false⟩
        else nestGo c seen fuel (l + 1) n1 rs1 ds1

/-- The end of a step (R173). -/
def nestEnd (c : MxCfg) (n : Nest) (rs : List Ring) : NestEnd := nestGo c (List.range 4) 6 0 n rs []

/-- The end of a step before its actions are applied (R171): what the rings read by the operation will be. Of the others, which RCTL
may still change (R195), nothing is looked at. Behind a step whose BACK is an engine fault no further step starts; R171 and R173 do not
say whether one still starts at E_i, reads its tiles or waits for them, before that fault ends the operation at C_i (DESIGN CHOICE, log
entry 53). -/
def nestAhead (c : MxCfg) (n : Nest) (rs : List Ring) : NestEnd := nestGo c [c.aRing, c.bRing] 6 0 n rs []

/-- The nest at its start (R173): every level in its first iteration, marks at RP. -/
def nestStart (c : MxCfg) (rs : List Ring) : Nest :=
  ⟨List.replicate 6 0, List.replicate 6 (rs.map fun r => r.rp), c.acc0, false⟩

/-! What a completion moves: costs and faults (R174, R177, R178, R185, R186). -/

/-- A push or a drain of a completion. -/
inductive MAct where
  | push (a w : Nat)
  | drain (a : Nat)
deriving DecidableEq, Repr

def MAct.acc : MAct → Nat
  | .push a _ => a
  | .drain a => a

/-- What a list of acts costs and meets. -/
structure ActPlan where
  stk : List StackDesc
  moves : Nat
  drains : Nat
  faults : List (Nat × Nat)
deriving DecidableEq, Repr

/-- One act added to a plan. R174 counts the slots that a push reads or writes, and one that is an engine fault reads and writes none, since
its effects are cancelled (R186). What P_i then counts for the drains behind it no rule says: the model counts them with the stack as
that push would leave it (DESIGN CHOICE, log entry 53). -/
def ActPlan.act (p : ActPlan) (op : MxOp) (f : Fmt) (x : MAct) : ActPlan :=
  let d := listGet p.stk x.acc StackDesc.empty
  match x with
  | .push a w =>
    let k := d.push w (op.cfg.slots a) op.maxk
    { stk := p.stk.set a k.desc, moves := p.moves + k.moves, drains := p.drains,
      faults := p.faults ++ (match k.fault with
        | some 6 => [(6, op.cfg.slotAddr f a d.slots.length)]
        | some n => [(n, 0)]
        | none => []) }
  | .drain a =>
    { stk := p.stk.set a StackDesc.empty, moves := p.moves + d.slots.length, drains := p.drains + 1, faults := p.faults }

def actPlan (stk : List StackDesc) (op : MxOp) (f : Fmt) (xs : List MAct) : ActPlan :=
  xs.foldl (fun p x => p.act op f x) ⟨stk, 0, 0, []⟩

/-- Ticks between a retirement and its completion (R174). -/
def ActPlan.ticks (p : ActPlan) (op : MxOp) (f : Fmt) : Nat :=
  slotTicks f * p.moves + p.drains * drainTicks op.cfg.drain

/-- The accumulators that an act uses. -/
def accsOf (f : Fmt) (a : Nat) : List Nat := if f = .fp64 then [a, a + 1] else [a]

/-- Uncorrectable errors of the accumulators named, and of the slots of stacks, read or not (R185): kind 4. -/
def Tile.accErrors (t : Tile) (op : MxOp) (f : Fmt) (accs areas : List Nat) : List (Nat × Nat) :=
  (accs.filter fun a => listGet t.mx.poison a false).map (fun _ => (4, 0)) ++
    areas.flatMap fun a => (List.range (listGet t.mx.stk a StackDesc.empty).slots.length).filterMap fun s =>
      (t.spad.poisonAt (op.cfg.slotAddr f a s) (slotSize f)).map fun x => (4, x)

/-- Uncorrectable errors of the accumulators that the acts of a completion use, and of their slots. -/
def Tile.actErrors (t : Tile) (op : MxOp) (f : Fmt) (xs : List MAct) : List (Nat × Nat) :=
  let as := (xs.map MAct.acc).eraseDups
  t.accErrors op f (as.flatMap (accsOf f)) as

/-- The fault of lowest kind (R186). Which of several of that kind is reported the rule does not say, nor which kinds have an address: the
model takes the first, in the order in which the completion meets them, and gives an address to an operand byte, a stack slot in error
and a slot that a push needs beyond `SLOTS`, and zero to the rest (DESIGN CHOICE, log entry 53). -/
def worstFault : List (Nat × Nat) → Option (Nat × Nat)
  | [] => none
  | x :: t =>
    match worstFault t with
    | some y => if y.1 < x.1 then some y else some x
    | none => some x

/-- The trap of an engine fault (R186). -/
def engineTrap (f : Nat × Nat) : Trap :=
  infoTrap (if f.1 ≤ 4 then .eccue else .perm) 0 (word (2 ^ 60 + f.1 * 2 ^ 57 + f.2 % 0x200000))

/-! The schedule (R174, R196). -/

/-- The operation in the active place. -/
def Tile.setOp (t : Tile) (o : MxOp) : Tile := { t with mx := { t.mx with active := some o } }

/-- End the active operation at this tick: it keeps its place through it (R196). -/
def Tile.endOp (t : Tile) (o : MxOp) : Tile :=
  { t with mx := { t.mx with active := some { o with steps := [], done := { o.done with ended := true } }, freeAt := t.tick } }

/-- The place of an operation that completed at an earlier tick is free, and the pending operation moves up (R196). -/
def Tile.mxShift (t : Tile) : Tile :=
  match t.mx.active with
  | some o =>
    if o.over && decide (t.mx.freeAt < t.tick) then
      { t with mx := { t.mx with active := t.mx.pending.map fun p => { p with start := max (p.issue + 4) (t.mx.freeAt + 1) },
                                 pending := none, mirrorUse := false } }
    else t
  | none => t

/-- Whether a replay is not done by a retirement tick (R175, R184): the domain freezes. -/
def Tile.mxLate (t : Tile) : Bool :=
  match t.mx.active with
  | some o => o.steps.any fun x => x.late && decide (x.stop + 16 ≤ t.tick)
  | none => false

/-- The retirement of a step (R174): its completion tick, and the end of the step after it. -/
def Tile.mxRetire (t : Tile) : Tile :=
  match t.mx.active with
  | some o =>
    if o.steps.any fun x => x.stop + 16 == t.tick && x.compl.isNone then
      let f := accFmt o.fa
      let e := nestEnd o.cfg o.done t.mx.rings
      let p := (actPlan t.mx.stk o f (.push o.done.acc 0 :: e.drains.map .drain)).ticks o f
      t.setOp { o with
        lastP := p,
        nextStart := if o.ahead.ended then o.nextStart else o.nextStart + p,
        steps := o.steps.map fun x =>
          if x.stop + 16 = t.tick then { x with compl := some (t.tick + p) } else { x with stop := x.stop + p } }
    else t
  | none => t

/-- Raise flags in M_FL (R174). -/
def Tile.raiseM (t : Tile) (f : Flags) : Tile := { t with csrs := { t.csrs with fpsr := raiseFlags t.csrs.fpsr .m f } }

/-- The bytes of the drains of a completion, in order; each advances the operation's drain base (R178). -/
def Tile.drainAll (t : Tile) (f : Fmt) : List Nat → MxOp → Tile × MxOp × Flags
  | [], o => (t, o, 0)
  | a :: rest, o =>
    let d := o.cfg.drain
    let r := t.drainAcc o f a (bits d 0 21)
    let o1 := { o with cfg := { o.cfg with
      drain := BitVec.ofNat 128 (putField d.toNat 0 21 (bits d 0 21 + bits d 48 21)) } }
    let q := Tile.drainAll r.1 f rest o1
    (q.1, q.2.1, r.2 ||| q.2.2)

/-- The arrivals of the drains of a completion, one for each, after the bytes of all of them (R137, R178). -/
def Tile.arriveAll (t : Tile) (o : MxOp) (n : Nat) : Tile := (List.range n).foldl (fun u _ => u.drainArrive o o.cfg.drain) t

/-- An engine fault: the operation ends; an error of an accumulator that it reports has been reported (R185, R186). -/
def Tile.mxFault (t : Tile) (o : MxOp) (accs : List Nat) (f : Nat × Nat) : Tile × List Trap :=
  let u := t.endOp o
  let marks := if f.1 = 4 then (List.range 4).map fun a => listGet u.mx.poison a false && !accs.contains a else u.mx.poison
  ({ u with mx := { u.mx with poison := marks } }, [engineTrap f])

/-- The accumulators of the acts of a completion. -/
def actAccs (f : Fmt) (xs : List MAct) : List Nat := xs.flatMap fun x => accsOf f x.acc

/-- The completion of a step (R173, R174). R137 ranks its drained bytes among the writes of a tick and does not name those of its push
into a stack slot: the model makes them with the completion, before the Cascade's, the atomics' and the stores' (DESIGN CHOICE, log
entry 53). -/
def Tile.mxStepDone (t : Tile) (o : MxOp) (x : MxStep) : Tile × List Trap :=
  let f := accFmt o.fa
  let e := nestEnd o.cfg o.done t.mx.rings
  let acts := MAct.push o.done.acc 0 :: e.drains.map .drain
  let p := actPlan t.mx.stk o f acts
  match worstFault (x.fault.toList ++ t.actErrors o f acts ++ p.faults ++ (if e.back then [(5, 0)] else [])) with
  | some k => t.mxFault o (actAccs f acts) k
  | none =>
    let r := t.pushPartial o f o.done.acc 0 (Elems.toListFrom x.part 0 16384)
    let d := r.1.drainAll f e.drains o
    let u := (d.1.arriveAll o e.drains.length).raiseM (x.flags ||| r.2 ||| d.2.2)
    let o1 := { d.2.1 with done := e.nest, completed := o.completed + 1, steps := o.steps.filter fun y => y.idx != x.idx }
    let v := { u with mx := { u.mx with rings := e.rings, marks := e.nest.marks, index := e.nest.index, curAcc := e.nest.acc,
                                        steps := o1.completed } }
    (if e.nest.ended then v.endOp o1 else v.setOp o1, [])

/-- The completion of MDRN, MCLR or MLDW (R199 to R201). An MCLR has a completion of the accumulators in its mask and of no other (R185,
R200). -/
def Tile.mxOpDone (t : Tile) (o : MxOp) : Tile × List Trap :=
  let f := accFmt o.fa
  match o.kind with
  | .go _ => (t, [])
  | .drn a =>
    match worstFault (t.actErrors o f [.drain a]) with
    | some k => t.mxFault o (accsOf f a) k
    | none =>
      let r := t.drainAcc o f a (bits o.cfg.drain 0 21)
      let u := (r.1.drainArrive o o.cfg.drain).raiseM r.2
      let d := u.mx.cfg.drain
      let w := BitVec.ofNat 128 (putField d.toNat 0 21 (bits d 0 21 + bits o.cfg.drain 48 21))
      ({ u with mx := { u.mx with cfg := { u.mx.cfg with drain := w } } }.endOp o, [])
  | .clr mask =>
    let cleared := (List.range 4).filter fun a => fld mask a 1 == 1
    match worstFault (t.accErrors o f cleared cleared) with
    | some k => t.mxFault o cleared k
    | none =>
      ({ t with mx := { t.mx with
          accs := (List.range 4).map fun a => if fld mask a 1 = 1 then [] else listGet t.mx.accs a [],
          stk := (List.range 4).map fun a => if fld mask a 1 = 1 then StackDesc.empty else listGet t.mx.stk a StackDesc.empty } }.endOp o,
       [])
  | .ldw a w _ _ =>
    let p := actPlan t.mx.stk o f [.push a w]
    match worstFault (o.fault.toList ++ t.actErrors o f [.push a w] ++ p.faults) with
    | some k => t.mxFault o (accsOf f a) k
    | none =>
      let r := t.pushPartial o f a w (Elems.toListFrom o.loaded 0 16384)
      ((r.1.raiseM r.2).endOp o, [])

/-- Every completion of this tick (R174): the tile and the engine faults raised. -/
def Tile.mxComplete (t : Tile) : Tile × List Trap :=
  match t.mx.active with
  | some o =>
    if o.over then (t, [])
    else if o.compl = some t.tick then t.mxOpDone o
    else
      match o.steps.find? fun x => x.compl == some t.tick with
      | some x => t.mxStepDone o x
      | none => (t, [])
  | none => (t, [])

/-! Begin and step start. -/

/-- The shadow bank at a begin tick (R187): kept when a region is open that had opened when the copy was taken. -/
def Tile.loadShadow (t : Tile) : Tile :=
  let keep := match t.mx.shadow with
    | some sh => t.regions.any fun g => decide (g.opened ≤ sh.taken)
    | none => false
  if keep then t
  else { t with mx := { t.mx with shadow := some ⟨t.tick, t.mx.accs, t.mx.stk⟩, reloaded := false } }

/-- Read the partial of an MLDW (R201). -/
def Tile.mldwRead (t : Tile) (o : MxOp) (f : Fmt) (p q : Nat) : Tile × MxOp :=
  let r := t.spad.scan t.key.id ((List.range 128).map fun m => (p + m * q, 128 * accSize f))
  ({ t with spad := r.1 },
   { o with loaded := Elems.ofListFrom 0 (r.2.1.flatMap fun bs => rowWords (8 * accSize f) 128 bs),
            fault := r.2.2.map fun a => (4, a) })

/-- The begin of an operation (R174, R187, R199 to R201). -/
def Tile.mxBegin (t : Tile) (o : MxOp) : Tile :=
  let u0 := t.loadShadow
  let u := { u0 with mx := { u0.mx with mirrorUse := false } }
  let f := accFmt o.fa
  let b := { o with begun := true }
  match o.kind with
  | .go _ =>
    let n := nestStart o.cfg u.mx.rings
    { u with
      mx := { u.mx with active := some { b with ahead := n, done := n, aheadRings := u.mx.rings, nextStart := t.tick },
                        marks := n.marks, index := n.index, curAcc := n.acc, nlev := o.cfg.nlev, steps := 0,
                        mirrorUse := o.mirrored } }
  | .drn a =>
    u.setOp { b with compl := some (t.tick + (actPlan u.mx.stk o f [.drain a]).ticks o f) }
  | .clr _ => u.setOp { b with compl := some (t.tick + 1) }
  | .ldw a w p q =>
    let r := u.mldwRead b f p q
    r.1.setOp { r.2 with compl := some (t.tick + slotTicks f + slotTicks f * (actPlan u.mx.stk o f [.push a w]).moves) }

/-- Whether a ring's next tile is present (R171). -/
def present (ahead live : Ring) : Bool :=
  decide ((ahead.rp + 65536 - ahead.head) % 65536 < (live.tail + 65536 - ahead.head) % 65536)

/-- The start of a step (R171, R174): both tiles are read; none when one is not present. -/
def Tile.mxStart (t : Tile) (o : MxOp) : Option Tile :=
  let ra := listGet o.aheadRings o.cfg.aRing ⟨0, 0, 0⟩
  let rb := listGet o.aheadRings o.cfg.bRing ⟨0, 0, 0⟩
  if present ra (listGet t.mx.rings o.cfg.aRing ⟨0, 0, 0⟩) && present rb (listGet t.mx.rings o.cfg.bRing ⟨0, 0, 0⟩) then
    let c := t.computeStep o ra.rp rb.rp
    let e := nestAhead o.cfg o.ahead o.aheadRings
    let ts := ((mxPair o.fa o.fb o.nif).map (·.2)).getD 0
    let bad := c.2.2.2.2.isSome
    let x : MxStep := { idx := o.nextIdx, start := t.tick, stop := t.tick + ts, compl := none, part := c.2.2.1, flags := c.2.2.2.1,
                        aTile := ra.rp, bTile := rb.rp, ops := c.2.1, late := bad, hit := bad, failed := false, fault := none, wrong := [], mirror := [], judged := false }
    some (c.1.setOp { o with steps := o.steps ++ [x], ahead := e.nest, aheadRings := e.rings, nextIdx := o.nextIdx + 1,
                             nextStart := t.tick + ts })
  else none

/-- Begins and step starts of this tick, after its writes (R171, R201); none while a tile is awaited. -/
def Tile.mxReads (t : Tile) : Option Tile :=
  match t.mx.active with
  | some o =>
    if o.over then some t
    else
      let u := if !o.begun && o.start == t.tick then t.mxBegin o else t
      match u.mx.active with
      | some p =>
        match p.kind with
        | .go _ => if p.begun && !p.ahead.ended && p.nextStart == t.tick then u.mxStart p else some u
        | _ => some u
      | none => some u
  | none => some t

/-- A step whose checks have come to something (R182 to R184): a failure is replayed, and of the replayed step it is a fault. Every path
ends in the same partial. The replayed step that R184 has fail "again" is one whose checks have failed before: a step replayed for an
operand error alone, whose checks then fail for the first time, is replayed once more (DESIGN CHOICE, log entry 9). -/
def MxStep.checked (x0 : MxStep) (c : StepCheck) : MxStep :=
  let x := { x0 with wrong := [], mirror := [], judged := true }
  match c with
  | .failed k => if x.failed then { x with fault := x.fault.orElse fun _ => some (k, 0) } else { x with late := true, failed := true }
  | _ => x

/-- The step whose checks are to be made at the end of its work (R181): one with a replay outstanding has nothing to check. -/
def Tile.mxToCheck (t : Tile) : Option (MxOp × MxStep) :=
  match t.mx.active with
  | some o => (o.steps.find? fun x => decide (x.stop ≤ t.tick) && !x.judged && !x.late).map fun x => (o, x)
  | none => none

/-- The step replaces the one of its number in the active operation. -/
def Tile.setStep (t : Tile) (o : MxOp) (y : MxStep) : Tile :=
  t.setOp { o with steps := o.steps.map fun z => if z.idx = y.idx then y else z }

/-- The replay of a step whose error was found (R184, R185): it reads its tiles again; a second operand error is a fault of kind 1, and
its first one has it replayed once more. An error of the array that meets the replay is checked for as in any step. Its reads, as those of
the work done again after a restore, touch guard granules as those of the step did: whether they count a second time R155 and R185 do
not say (DESIGN CHOICE, log entry 37). -/
def Tile.mxReplay (t : Tile) (o : MxOp) (x : MxStep) : Tile × StepCheck :=
  let c := t.computeStep o x.aTile x.bTile
  let e := c.1.mx.upset.getD ⟨true, [], []⟩
  let y := { x with part := c.2.2.1, flags := c.2.2.2.1, ops := c.2.1, late := false, wrong := e.wrong, mirror := e.mirror }
  let u := { c.1 with mx := { c.1.mx with upset := none } }
  match c.2.2.2.2 with
  | some a =>
    (u.setStep o (if x.hit then { y with fault := y.fault.orElse fun _ => some (1, a), judged := true } else { y with hit := true, late := true }),
     .passed)
  | none => (u.setStep o (y.checked (o.check y)), o.check y)

/-- An error of the array joins those of the step in hand, which the checks at the step's end judge together (R181 to R183); with no step
in hand it meets nothing. Those of a replay wait for it. -/
def Tile.mxUpset (t : Tile) (u : MxUpset) : Tile :=
  if u.replay then
    let e := t.mx.upset.getD ⟨true, [], []⟩
    { t with mx := { t.mx with upset := some ⟨true, e.wrong ++ u.wrong, e.mirror ++ u.mirror⟩ } }
  else
    match t.mx.active.bind fun o => (o.steps.find? fun x => decide (t.tick < x.stop)).map fun x => (o, x) with
    | some (o, x) => t.setStep o { x with wrong := x.wrong ++ u.wrong, mirror := x.mirror ++ u.mirror }
    | none => t

/-- Whether the engine may work on a late step (R175): while the domain advances, and in a freeze for late work on what is due already; a
freeze for any other cause holds it. -/
def Tile.mxWorks (t : Tile) (x : MxStep) : Bool :=
  t.phase == Phase.running && (match t.freeze with
    | none => true
    | some z => z.cause == FreezeCause.landing && decide (x.stop + 16 ≤ t.tick))

/-- The step whose replay is outstanding, whose array work has ended, and on which the engine may work. -/
def Tile.mxReplayable (t : Tile) : Option (MxOp × MxStep) :=
  match t.mx.active with
  | some o => (o.steps.find? fun x => x.late && decide (x.stop ≤ t.tick) && t.mxWorks x).map fun x => (o, x)
  | none => none

/-- After a restore (R188): the shadow holds the restored accumulators, and the steps under way are done again. -/
def Matrix.restore (m : Matrix) (tick : Nat) : Matrix :=
  { m with shadow := some ⟨tick, m.accs, m.stk⟩, reloaded := true,
           active := m.active.map fun o => { o with steps := o.steps.map fun x =>
             { x with late := true, hit := false, failed := false, fault := none, wrong := [], mirror := [], judged := false } } }

end Sys2Proof.Machine
end

