-- ==== Sys2Proof/Machine/Matrix.lean ====
section
/-! DEFINITION. The matrix slot's syllables (R189 to R204): configuration, the checks of an operation at issue, its
place in the queue, status. -/

namespace Sys2Proof.Machine

/-! What an operation captures at issue (R168, R193, R197). -/

/-- The format codes of A and B that MFR or the bound row gives. -/
def Tile.mxFormats (t : Tile) : Nat × Nat :=
  let r := t.gov.mfr
  if bit r 10 then
    let row := listGet t.gov.ftabMx (formatRow t.gov.ftsel t.loops) 0
    (bits row 16 5, bits row 24 5)
  else (bits r 0 5, bits r 5 5)

def Ring.zero : Ring := ⟨0, 0, 0⟩

/-- An operation with what it captures. -/
def Tile.mxOp (t : Tile) (k : MxKind) : MxOp :=
  let n : Nest := ⟨[], [], 0, false⟩
  { kind := k, issue := t.tick, seq := t.seq, start := 0, begun := false, fa := fmtOf t.mxFormats.1, fb := fmtOf t.mxFormats.2,
    nif := t.gov.nif, rm := slotRnd t.gov.fpcr .m, fz := slotFz t.gov.fpcr .m, maxk := t.csrs.maxk.toNat,
    mirror := t.mx.cfg.mirror, cfg := t.mx.cfg, ahead := n, aheadRings := [], done := n, nextIdx := 0, nextStart := 0,
    lastP := 0, steps := [], completed := 0, compl := none, loaded := [], flags := 0, fault := none }

/-! Checks. -/

/-- COMBO (R191). -/
def comboTrap (t : Tile) (reason : Nat) : Trap :=
  infoTrap .combo t.iss.pos
    (word (3 * 2 ^ 60 + t.iss.pos % 8 * 2 ^ 57 + t.mxFormats.1 + t.mxFormats.2 * 32 + reason * 1024))

/-- PERM of a configuration check (R191). -/
def configTrap (t : Tile) (field n : Nat) : Trap :=
  infoTrap .perm t.iss.pos (word (2 * 2 ^ 60 + t.iss.pos % 8 * 2 ^ 57 + field * 2 ^ 32 + n))

/-- Must-be-zero bits of the fields (R169, R172). -/
def mbzOphdr (v : Word128) : Bool := decide (bits v 9 119 ≠ 0)
def mbzLevel (v : Word128) : Bool :=
  decide (bits v 67 61 ≠ 0) || decide (bits v 56 8 ≠ 0) || decide (bits v 40 8 ≠ 0) || decide (bits v 24 8 ≠ 0)
def mbzDrain (v : Word128) : Bool :=
  bit v 94 || bit v 87 || bit v 79 || decide (bits v 69 3 ≠ 0) || decide (bits v 21 11 ≠ 0)
def mbzStack (v : Word128) (a : Nat) : Bool := decide (bits v (32 * a + 24) 8 ≠ 0)
def mbzRing (v : Word128) : Bool :=
  decide (bits v 125 3 ≠ 0) || bit v 103 || bit v 95 || decide (bits v 69 3 ≠ 0) || decide (bits v 42 6 ≠ 0) ||
    decide (bits v 21 11 ≠ 0)

/-- The levels that an operation uses. -/
def usedLevels (c : MxCfg) : List Nat := (List.range 6).filter fun l => decide (l < c.nlev)

/-- Whether an operation's nest drains (R197). -/
def usesDrain (c : MxCfg) : Bool := (usedLevels c).any fun l => levelDrain (c.level l)

/-- Whether check 10 fails for an entry of STACKS (R197). -/
def stackBad (c : MxCfg) (f : Fmt) (a : Nat) : Bool :=
  c.slots a == 7 || (decide (0 < c.slots a) &&
    (bits c.stackArea (32 * a) 21 % 256 != 0 || decide (0x200000 < c.slotAddr f a (c.slots a))))

/-- Whether check 11 fails (R197). -/
def drainBad (d : Word128) : Bool :=
  bits d 0 21 % 64 != 0 || bits d 32 16 % 64 != 0 || (bit d 95 && (bits d 117 11 == 0 || bits d 96 21 % 8 != 0))

/-- Bytes of a stored row (R197). -/
def rowBytes (op : MxOp) (isA : Bool) (r : Word128) : Nat :=
  ceilDiv (ringCols r * storedBits (operandNi op.nif isA) (if isA then op.fa else op.fb)) 8

/-- Checks 4 to 9 of a ring (R197): the numbers that fail. -/
def ringFails (op : MxOp) (isA : Bool) (r : Word128) : List Nat :=
  let b := rowBytes op isA r
  let foot := bits r 88 7 * ringPitch r + b
  let sc := ringScale r + 4 * (if isA then ringRows r else ringCols r)
  (if ringCap r = 0 ∨ ringBase r % 256 ≠ 0 then [4] else []) ++
  (if ringStride r = 0 ∨ ringStride r % 256 ≠ 0 then [5] else []) ++
  (if ringPitch r = 0 ∨ ringPitch r % 16 ≠ 0 ∨ ringPitch r < b then [6] else []) ++
  (if ringStride r < foot then [7] else []) ++
  (if 0x200000 < ringBase r + ringCap r * ringStride r then [8] else []) ++
  (if isMx (if isA then op.fa else op.fb) && (decide (ringScale r < foot) || decide (ringStride r < sc)) then [9] else [])

/-- The configuration checks that MGO and MGOG fail, as (check, field) (R197). -/
def goFails (op : MxOp) : List (Nat × Nat) :=
  let c := op.cfg
  let a := c.aRing
  let b := c.bRing
  let ls := usedLevels c
  (if mbzOphdr c.ophdr then [(1, 0)] else []) ++
  (ls.filter fun l => mbzLevel (c.level l)).map (fun l => (1, 1 + l)) ++
  (if usesDrain c && mbzDrain c.drain then [(1, 7)] else []) ++
  (if (List.range 4).any (mbzStack c.stackArea) then [(1, 8)] else []) ++
  ([a, b].filter fun r => mbzRing (c.ring r)).map (fun r => (1, 16 + r)) ++
  (if c.nlev = 0 ∨ c.nlev = 7 ∨ a = b then [(2, 0)] else []) ++
  (ls.filter fun l => levelCount (c.level l) == 0).map (fun l => (3, 1 + l)) ++
  (ringFails op true (c.ring a)).map (fun n => (n, 16 + a)) ++
  (ringFails op false (c.ring b)).map (fun n => (n, 16 + b)) ++
  (if (List.range 4).any (stackBad c (accFmt op.fa)) then [(10, 8)] else []) ++
  (if usesDrain c && drainBad c.drain then [(11, 7)] else [])

/-- The failing check of lowest number, and of its fields the lowest (R191). -/
def firstFail (l : List (Nat × Nat)) : Option (Nat × Nat) := (sortBy (fun x => x.1 * 64 + x.2) l).head?

/-- The COMBO reason of MGO (R168, R172, R191). Where reasons 3 and 4 both hold R191 does not say which is reported: the model reports 3, as it
does for MDRN (DESIGN CHOICE, log entry 74). -/
def goCombo (op : MxOp) : Option Nat :=
  match mxPair op.fa op.fb op.nif with
  | none => some (if op.fa = .ni ∧ op.fb = .ni then 2 else 1)
  | some (f, _) =>
    let ls := usedLevels op.cfg
    if f = .fp64 ∧ (op.cfg.acc0 % 2 = 1 ∨ ls.any fun l => bits (op.cfg.level l) 64 2 % 2 == 1) then some 3
    else if usesDrain op.cfg && !drainOk f (bits op.cfg.drain 88 5) then some 4
    else none

/-! The queue (R196). -/

/-- Whether both places are occupied. -/
def Matrix.full (m : Matrix) : Bool := m.active.isSome && m.pending.isSome

/-- An operation takes its place, or PERM with 0xFF (R196). -/
def Tile.mxQueue (t : Tile) (o : MxOp) : Res :=
  match t.mx.active with
  | none => .ok { t with mx := { t.mx with active := some { o with start := max (t.tick + 4) (t.mx.freeAt + 1) } }, seq := t.seq + 1 }
  | some _ =>
    if t.mx.pending.isSome then .trap (configTrap t 0 0xFF)
    else .ok { t with mx := { t.mx with pending := some o }, seq := t.seq + 1 }

/-- MGO and MGOG at issue (R191, R197, R198). -/
def Tile.mxGo (h : Hdr) (gang : Bool) (t : Tile) : Res :=
  if t.guarded h then
    let o := t.mxOp (.go (if gang && decide (1 < t.gang.size) then some (t.gang.first, t.gang.size) else none))
    match goCombo o with
    | some r => .trap (comboTrap t r)
    | none =>
      match firstFail (goFails o) with
      | some (n, f) => .trap (configTrap t f n)
      | none => t.mxQueue o
  else .ok t

/-- MGO (R197). -/
def execMgo (h : Hdr) (s : State) : Host.Outcome State Fault Refusal := onTile (Tile.mxGo h false) s

/-- MGOG (R198). -/
def execMgog (h : Hdr) (s : State) : Host.Outcome State Fault Refusal := onTile (Tile.mxGo h true) s

/-- The checks 1 and 10 of a STACKS entry (R199, R201). -/
def entryFails (o : MxOp) (a : Nat) : List (Nat × Nat) :=
  (if mbzStack o.cfg.stackArea a then [(1, 8)] else []) ++ (if stackBad o.cfg (accFmt o.fa) a then [(10, 8)] else [])

/-- MDRN (R199). -/
def execMdrn (h : Hdr) (c : Nat) (s : State) : Host.Outcome State Fault Refusal :=
  onTile (fun t =>
    if t.guarded h then
      let o := t.mxOp (.drn c)
      let f := accFmt o.fa
      if f = .fp64 ∧ c % 2 = 1 then .trap (comboTrap t 3)
      else if !drainOk f (bits o.cfg.drain 88 5) then .trap (comboTrap t 4)
      else
        match firstFail ((if mbzDrain o.cfg.drain then [(1, 7)] else []) ++ entryFails o c ++
            (if drainBad o.cfg.drain then [(11, 7)] else [])) with
        | some (n, f) => .trap (configTrap t f n)
        | none => t.mxQueue o
    else .ok t) s

/-- Whether a mask names one accumulator of a pair without the other (R199). -/
def splitPair (mask : Nat) : Bool := fld mask 0 1 != fld mask 1 1 || fld mask 2 1 != fld mask 3 1

/-- MCLR (R200). -/
def execMclr (h : Hdr) (mask : Nat) (s : State) : Host.Outcome State Fault Refusal :=
  onTile (fun t =>
    if t.guarded h then
      let o := t.mxOp (.clr mask)
      if accFmt o.fa = .fp64 ∧ splitPair mask then .trap (comboTrap t 3) else t.mxQueue o
    else .ok t) s

/-- The trap of an MLDW address (R191). -/
def mldwTrap (t : Tile) (c : Cause) (p q : Nat) : Trap :=
  infoTrap c t.iss.pos (word (t.iss.pos % 8 * 2 ^ 57 + p + q * 2 ^ 32))

/-- MLDW (R201). Where LATCHLOST of m[A] stands against COMBO R191's order does not say: the model raises LATCHLOST first, since without m[A]
the other checks have nothing to look at (DESIGN CHOICE, log entry 74). -/
def execMldw (h : Hdr) (a : MSrc) (w c : Nat) (s : State) : Host.Outcome State Fault Refusal :=
  onTile (fun t =>
    if t.guarded h then
      match t.readM a with
      | none => .trap (lostTrap t)
      | some x =>
        let p := bits x 0 21
        let q := bits x 32 16
        let o := t.mxOp (.ldw c w p q)
        let f := accFmt o.fa
        let row := 128 * accSize f
        if f = .fp64 ∧ c % 2 = 1 then .trap (comboTrap t 3)
        else if p % 64 ≠ 0 ∨ q % 64 ≠ 0 then .trap (mldwTrap t .align p q)
        else if q < row ∨ 0x200000 < p + 127 * q + row then .trap (mldwTrap t .perm p q)
        else
          match firstFail (entryFails o c) with
          | some (n, f) => .trap (configTrap t f n)
          | none => t.mxQueue o
    else .ok t) s

/-- MSTOP (R204). -/
def execMstop (h : Hdr) (s : State) : Host.Outcome State Fault Refusal :=
  onTile (fun t =>
    if t.guarded h then
      match t.mx.active with
      | some o =>
        let u := t.endOp o
        .ok { u with mx := { u.mx with pending := none } }
      | none => .ok t
    else .ok t) s

/-! Configuration (R193 to R195, R202). -/

/-- Whether an operation in the queue reads a ring (R195). -/
def Matrix.readsRing (m : Matrix) (r : Nat) : Bool :=
  [m.active, m.pending].any fun o =>
    match o with
    | some x =>
      match x.kind with
      | .go _ => x.cfg.aRing == r || x.cfg.bRing == r
      | _ => false
    | none => false

/-- MCFG (R194, R195). -/
def execMcfg (h : Hdr) (a b : MSrc) (i : MField) (s : State) : Host.Outcome State Fault Refusal :=
  onTile (fun t =>
    if t.guarded h then
      match t.readM a, t.readM b with
      | some x, some y =>
        let v := BitVec.ofNat 128 (x.toNat + y.toNat * 2 ^ 64)
        match i with
        | .rctl r =>
          if bit v 16 && t.mx.readsRing r then .trap (configTrap t (MField.index (.rctl r)) 12)
          else .ok (t.put 1 .m (.rctl r v))
        | f => .ok (t.put 1 .m (.mcfg f v))
      | _, _ => .trap (lostTrap t)
    else .ok t) s

/-- MMIRR (R202). -/
def execMmirr (h : Hdr) (on : Bool) (s : State) : Host.Outcome State Fault Refusal :=
  onTile (fun t => .ok (if t.guarded h then t.put 1 .m (.mirror on) else t)) s

/-- MFMT (R193): BIND, BCODE and ACODE. -/
def execMfmt (h : Hdr) (bind : Bool) (fb fa : Fmt) (s : State) : Host.Outcome State Fault Refusal :=
  onTile (fun t =>
    .ok (if t.guarded h then t.put 3 .m (.mfr (word (bind.toNat * 1024 + Fmt.code fb * 32 + Fmt.code fa))) else t)) s

/-- MLI (R192). -/
def execMli (h : Hdr) (d imm : Nat) (s : State) : Host.Outcome State Fault Refusal :=
  onTile (fun t => .ok (if t.guarded h then t.put 2 .m (.mreg d (wordI (signed 16 imm))) else t)) s

/-- MNOP (R192). -/
def execMnop (_e : Bool) (s : State) : Host.Outcome State Fault Refusal := .next s

/-- A write of a field of the working copy (R194). -/
def MxCfg.write (c : MxCfg) (f : MField) (v : Word128) : MxCfg :=
  match f with
  | .ophdr => { c with ophdr := v }
  | .level n => { c with levels := c.levels.set n v }
  | .drain => { c with drain := v }
  | .stacks => { c with stackArea := v }
  | .ring r => { c with rings := c.rings.set r v }
  | .rctl _ => c

/-- A write of RCTL (R195). -/
def Ring.control (r : Ring) (v : Word128) : Ring :=
  let z := if bit v 16 then Ring.zero else r
  { z with tail := (z.tail + bits v 0 16) % 65536 }

/-- TAIL advances when a copy command that names the ring completes (R171, R254). -/
def Ring.advance (r : Ring) (n : Nat) : Ring := { r with tail := (r.tail + n) % 65536 }

/-! Status (R203). -/

/-- The operations in the queue after the completions of this tick: one that completes now holds its place through the tick (R196). -/
def Matrix.current (m : Matrix) : Option MxOp × Option MxOp := (m.active, m.pending)

/-- The word of a stack descriptor (R203). -/
def StackDesc.word (d : StackDesc) : Nat :=
  d.slots.length + d.top.toNat * 8 + (if d.top then d.wt * 16 else 0) + packLanes 4 d.slots * 256 + d.total % 256 * 2 ^ 40

/-- The levels and steps of the active operation (R203). What these bits show for an operation without a nest, or with none active, R203 does
not say: 0 (DESIGN CHOICE, log entry 74). -/
def nlevAndSteps (o : MxOp) : Nat :=
  match o.kind with
  | .go _ => o.cfg.nlev * 256 + o.completed % 2 ^ 32 * 2 ^ 32
  | _ => 0

/-- Item of MSTAT (R203, R363). What [3:2] of item 0 and the items of the nest show while none is running R203 does not say: the model keeps
what the end of the last nest left, its accumulator, its marks and the index 0 of its levels (DESIGN CHOICE, log entry 74). -/
def Tile.mxStatus (t : Tile) (i : Nat) : Nat :=
  let m := t.mx
  let det := bit t.csrs.detmode 0
  if i = 0 then
    m.current.1.isSome.toNat + m.current.2.isSome.toNat * 2 + m.curAcc * 4 + (m.restored && !det).toNat * 16 +
      (m.reloaded && !det).toNat * 32 + (m.current.1.isSome && m.mirrorUse).toNat * 64 + m.cfg.mirror.toNat * 128 +
      ((m.current.1.map nlevAndSteps).getD 0)
  else if i ≤ 4 then
    let r := listGet m.rings (i - 1) Ring.zero
    r.head + r.tail * 2 ^ 16 + r.rp * 2 ^ 32
  else if i ≤ 8 then (listGet m.stk (i - 5) StackDesc.empty).word
  else if i = 9 then t.gov.mfr.toNat
  else if i ≤ 21 then packLanes 16 (listGet m.marks (i - 16) [])
  else listGet m.index (i - 24) 0

/-- MSTAT (R203). -/
def execMstat (h : Hdr) (d i : Nat) (s : State) : Host.Outcome State Fault Refusal :=
  onTile (fun t => .ok (if t.guarded h then t.put 2 .m (.mreg d (word (t.mxStatus i))) else t)) s

end Sys2Proof.Machine
end

