-- ==== Sys2Proof/Machine/Cascade.lean ====
section
/-! DEFINITION. The Cascade (R205 to R224): records, nodes, the read stage, the upward and the downward pass, row
transfers, and the syllables of major 59. -/

namespace Sys2Proof.Machine

/-! Records (R208) and entries (R205 to R207). -/

def recNleaf (r : Nat) : Nat := fld r 0 5
def recOp (r l : Nat) : Nat := fld r (5 + 2 * l) 2
def recTrace (r : Nat) : Bool := fld r 13 1 == 1
def recBatch (r : Nat) : Bool := fld r 14 1 == 1
def recLeaf (r i : Nat) : Nat := fld r (16 + 14 * i) 14
def recRoot (r : Nat) : Nat := fld r 240 14
def recAcc (r : Nat) : Bool := fld r 254 1 == 1
def recDclr (r : Nat) : Bool := fld r 255 1 == 1

/-- The planes of a record (R206). -/
def recPlanes (r : Nat) : List Nat := if recBatch r then [0, 1, 2, 3] else [0]

/-- Shift of R216: the bank moves by 8 for each plane. -/
def shiftEntry (x p : Nat) : Nat := (x / 512 + 8 * p) % 32 * 512 + x % 512

/-- Deriv of R217: the bank XOR DXOR. -/
def derivEntry (x dx : Nat) : Nat := (x / 512 % 32 ^^^ dx) % 32 * 512 + x % 512

/-- The lane format of an entry format (R207). -/
def cfmtFmt : CFmt → Fmt
  | .fp32 => .fp32
  | .bf16 => .bf16
  | .ps32 => .ps32

/-- The zero of a format (R217). -/
def cfmtZero : CFmt → Nat
  | .ps32 => ps32Zero
  | _ => 0

/-- The default NaN of a format (R209). -/
def cfmtNan : CFmt → Nat
  | .fp32 => 0x7FC00000
  | .bf16 => 0x7FC0
  | .ps32 => ps32NaP

/-- An entry as it is read and as it is written (R205): BF16 lies in [15:0]. -/
def cfmtMask (f : CFmt) (w : Nat) : Nat := if f = .bf16 then w % 2 ^ 16 else w % 2 ^ 32

def Cascade.entry (c : Cascade) (f : CFmt) (k : Nat) : Nat := cfmtMask f (Elems.get c.banks k)

/-- Write an entry; a whole entry written clears its error. -/
def Cascade.setEntry (c : Cascade) (f : CFmt) (k w : Nat) : Cascade :=
  { c with banks := Elems.set c.banks k (cfmtMask f w), poison := c.poison.filter fun x => x != k }

/-! Nodes (R209, R210). -/

/-- A node: an absent input passes the other unchanged. -/
def nodeValue (f : CFmt) (rm : Rnd) (fz : Bool) (op : Nat) (a b : Option Nat) : Option Nat × Flags :=
  match a, b with
  | none, y => (y, 0)
  | some x, none => (some x, 0)
  | some x, some y =>
    match op with
    | 0 => let r := addWords rm fz (cfmtFmt f) x y; (some r.1, r.2)
    | 1 => let r := mulWords rm fz (cfmtFmt f) x y; (some r.1, r.2)
    | 2 => let r := minMaxWords true fz (cfmtFmt f) x y; (some r.1, r.2)
    | _ => (some x, 0)

/-- The nodes of one level. -/
def nodeLevel (f : CFmt) (rm : Rnd) (fz : Bool) (op : Nat) : List (Option Nat) → List (Option Nat) × Flags
  | a :: b :: t =>
    let x := nodeValue f rm fz op a b
    let r := nodeLevel f rm fz op t
    (x.1 :: r.1, x.2 ||| r.2)
  | _ => ([], 0)

/-- The levels from l up: the trace words in order, and the flags (R206). -/
def nodeTree (f : CFmt) (rm : Rnd) (fz : Bool) (rec : Nat) : Nat → Nat → List (Option Nat) → List (Option Nat) × Flags
  | 0, _, _ => ([], 0)
  | n + 1, l, xs =>
    let x := nodeLevel f rm fz (recOp rec l) xs
    let r := nodeTree f rm fz rec n (l + 1) x.1
    (x.1 ++ r.1, x.2 ||| r.2)

/-- The sixteen leaves: absent from NLEAF on (R209). -/
def padLeaves (xs : List Nat) : List (Option Nat) := (xs.map some ++ List.replicate 16 none).take 16

/-- The upward pass over one plane: the 15 trace words, the flags (R216). -/
def upPlane (x : Subtree) (leaves : List Nat) : List (Option Nat) × Flags :=
  nodeTree x.fmt x.rm x.fz x.record 4 0 (padLeaves leaves)

/-! Adjoints (R217). -/

/-- What the two children of a node receive. -/
def childAdj (f : CFmt) (rm : Rnd) (fz : Bool) (op g : Nat) (node l r : Nat) (rPresent : Bool) :
    Option Nat × Option Nat × Flags :=
  if !rPresent then (some g, none, 0)
  else
    match op with
    | 0 => (some g, some g, 0)
    | 1 =>
      let a := mulWords rm fz (cfmtFmt f) g r
      let b := mulWords rm fz (cfmtFmt f) g l
      (some a.1, some b.1, a.2 ||| b.2)
    | 2 => if r = node ∧ l ≠ node then (none, some g, 0) else (some g, none, 0)
    | _ => (some g, none, 0)

/-- One level down: adjoints and values of the nodes, values and presence of the children. -/
def adjLevel (f : CFmt) (rm : Rnd) (fz : Bool) (op : Nat) :
    List (Option Nat) → List Nat → List (Nat × Bool) → List (Option Nat) × Flags
  | g :: gs, v :: vs, l :: r :: cs =>
    let x : Option Nat × Option Nat × Flags := match g with
      | some g => childAdj f rm fz op g v l.1 r.1 r.2
      | none => (none, none, 0)
    let q := adjLevel f rm fz op gs vs cs
    (x.1 :: x.2.1 :: q.1, x.2.2 ||| q.2)
  | _, _, _ => ([], 0)

/-- Presence of the nodes of the next level up. -/
def presentUp : List Bool → List Bool
  | a :: b :: t => (a || b) :: presentUp t
  | _ => []

/-- The adjoints of the leaves of one plane, and the flags (R217). -/
def downPlane (x : Subtree) (leaves trace : List Nat) (g : Nat) : List (Option Nat) × Flags :=
  let p0 := (List.range 16).map fun i => decide (i < recNleaf x.record)
  let p1 := presentUp p0
  let p2 := presentUp p1
  let p3 := presentUp p2
  let v0 := (leaves ++ List.replicate 16 0).take 16
  let v1 := trace.take 8
  let v2 := (trace.drop 8).take 4
  let v3 := (trace.drop 12).take 2
  let lv (l : Nat) := adjLevel x.fmt x.rm x.fz (recOp x.record l)
  let a3 := lv 3 [some g] ((trace.drop 14).take 1) (List.zip v3 p3)
  let a2 := lv 2 a3.1 v3 (List.zip v2 p2)
  let a1 := lv 1 a2.1 v2 (List.zip v1 p1)
  let a0 := lv 0 a1.1 v1 (List.zip v0 p0)
  (a0.1, a3.2 ||| a2.2 ||| a1.2 ||| a0.2)

/-! The read stage (R213). -/

/-- The entries that a subtree reads, over all its planes: leaves, and for SPDN the root's derivative entry. -/
def Subtree.entries (x : Subtree) : List Nat :=
  (recPlanes x.record).flatMap fun p =>
    ((List.range (recNleaf x.record)).map fun i => shiftEntry (recLeaf x.record i) p) ++
      (if x.down then [derivEntry (shiftEntry (recRoot x.record) p) x.dxor] else [])

/-- The reads outstanding in each bank. -/
def bankNeeds (es : List Nat) : List (Nat × Nat) :=
  (List.range 32).filterMap fun b =>
    let n := (es.filter fun e => e / 512 % 32 == b).length
    if n = 0 then none else some (b, n)

/-- The subtree in the read stage at this tick: the first that has not read. -/
def Cascade.reading (c : Cascade) : Option Subtree := c.subs.find? fun x => x.ended.isNone

/-- Subtrees whose read stage begins after this tick (R212, R221). -/
def Cascade.later (c : Cascade) : Nat :=
  let n := (c.subs.filter fun x => x.ended.isNone && x.begun.isNone).length
  if c.subs.any fun x => x.begun.isSome && x.ended.isNone then n else n - 1

def Cascade.setSub (c : Cascade) (x : Subtree) : Cascade := { c with subs := c.subs.map fun y => if y.seq = x.seq then x else y }

/-- The trace area of a plane (R208). -/
def traceAddr (x : Subtree) (p : Nat) : Nat := x.addr + 32 + 64 * p

/-- The values of a subtree at the last tick of its read stage, with the first error (R213, R222). Which of several errors a subtree reports
R222 does not say: the model reports a bank entry, by plane and leaf, before a trace word (DESIGN CHOICE, log entry 74). -/
def Tile.subRead (t : Tile) (x : Subtree) : Tile × Subtree :=
  let ps := recPlanes x.record
  let c := t.casc
  let bad := (x.entries.find? fun k => c.poison.contains k).map fun k => (1, k)
  let areas := if x.down then t.spad.scan t.key.id (ps.map fun p => (traceAddr x p, 64)) else (t.spad, [], none)
  ({ t with spad := areas.1 },
   { x with
     ended := some t.tick,
     leaves := ps.map fun p => (List.range (recNleaf x.record)).map fun i => c.entry x.fmt (shiftEntry (recLeaf x.record i) p),
     trace := areas.2.1.map fun bs => ((lanesOf 32 15 (natOfBytes bs)).map (cfmtMask x.fmt)),
     adj := if x.down then ps.map fun p => c.entry x.fmt (derivEntry (shiftEntry (recRoot x.record) p) x.dxor) else [],
     fault := bad.or (areas.2.2.map fun a => (2, a)) })

/-- Whether a row transfer takes a read port of the banks at this tick (R213, R218): one that has met an error does so still, since every
subtree keeps its own schedule (R222), cancelled by the unwind of that error or not. -/
def Xfer.readsNow (x : Xfer) (tick : Nat) : Bool :=
  (!x.gone || x.struck) && decide (x.start ≤ tick) && decide (tick < x.start + x.count) && (match x.kind with
    | .save _ => true
    | .scale _ => true
    | _ => false)

/-- One tick of the shared read stage (R213). -/
def Tile.readStage (t : Tile) (ports : Nat) : Tile :=
  match t.casc.reading with
  | none => t
  | some x =>
    let y := if x.begun.isNone then { x with begun := some t.tick } else x
    let left := (y.left.map fun n => (n.1, n.2 - ports)).filter fun n => n.2 != 0
    if left.isEmpty then
      let r := t.subRead { y with left := [] }
      { r.1 with casc := { (r.1.casc.setSub r.2) with penalty := (r.1.casc.penalty + (t.tick - (y.begun.getD t.tick))) % 2 ^ 64 } }
    else { t with casc := t.casc.setSub { y with left := left } }

/-! Row transfers (R218, R219). -/

/-- The words of a bank row. -/
def Cascade.row (c : Cascade) (r : Nat) : List Nat := (List.range 32).map fun b => Elems.get c.banks (b * 512 + r)

/-- The move of a row at this tick: what it reads, with its error (R218, R222). -/
def Tile.moveRow (t : Tile) (x : Xfer) : Tile × Xfer :=
  let j := t.tick - x.start
  let r := x.first + j
  match x.kind with
  | .load a =>
    let q := t.spad.scan t.key.id [(a + 128 * j, 128)]
    ({ t with spad := q.1 }, { x with row := some (r, lanesOf 32 32 (natOfBytes (q.2.1.headD []))), fault := q.2.2.map fun a => (5, a) })
  | .clear => (t, { x with row := some (r, []) })
  | _ =>
    let bad := (List.range 32).any fun b => t.casc.poison.contains (b * 512 + r)
    (t, { x with row := some (r, t.casc.row r), fault := if bad then some (4, r) else none })

/-- The row moves of this tick. -/
def Tile.moveRows (t : Tile) : Tile :=
  match t.casc.xfers.find? fun x => !x.gone && !x.struck && decide (x.start ≤ t.tick) && decide (t.tick < x.start + x.count) with
  | none => t
  | some x =>
    let r := t.moveRow x
    { r.1 with casc := { r.1.casc with xfers := r.1.casc.xfers.map fun y => if y.seq = x.seq then r.2 else y } }

/-- The Cascade's reads of a tick, after its bundle has issued (R213, R218). -/
def Tile.cascadeReads (t : Tile) : Tile :=
  (t.readStage (if t.casc.xfers.any fun x => x.readsNow t.tick then 1 else 2)).moveRows

/-- An entry scaled by 2^n (R219). -/
def scaleEntry (f : CFmt) (rm : Rnd) (fz : Bool) (n : Int) (w : Nat) : Nat × Flags :=
  if f = .ps32 then
    (if fld w 0 20 = 0 ∨ fld w 20 12 = 0xFFF then (w, 0) else ps32Deliver ((ps32Value w).shift n))
  else
    let v := fmtValue ⟨8, true, 0⟩ fz (cfmtFmt f) (cfmtMask f w)
    let r := fmtDeliver rm fz false (cfmtFmt f) (v.1.shift n)
    (r.1, r.2 ||| (if v.1.isSig then flagNV else 0))

/-- The words that a row writes, and the flags. -/
def Xfer.words (x : Xfer) (ws : List Nat) : List Nat × Flags :=
  match x.kind with
  | .scale n =>
    let rs := ws.map (scaleEntry x.fmt x.rm x.fz n)
    (rs.map fun r => cfmtMask x.fmt r.1, rs.foldl (fun acc r => acc ||| r.2) 0)
  | .clear => (List.replicate 32 (cfmtZero x.fmt), 0)
  | _ => (ws, 0)

/-- Write a bank row. -/
def Cascade.setRow (c : Cascade) (r : Nat) (ws : List Nat) : Cascade :=
  (List.zip (List.range 32) ws).foldl (fun (acc : Cascade) e =>
    { acc with banks := Elems.set acc.banks (e.1 * 512 + r) e.2, poison := acc.poison.filter fun k => k != e.1 * 512 + r }) c

/-- A transfer after the row that it has written, which is gone with its last. -/
def Cascade.wroteRow (c : Cascade) (x : Xfer) (tick : Nat) : Cascade :=
  if x.start + x.count ≤ tick then { c with xfers := c.xfers.filter fun y => y.seq != x.seq }
  else { c with xfers := c.xfers.map fun y => if y.seq = x.seq then { y with row := none } else y }

/-- The trap of a Cascade fault (R222). -/
def cascadeTrap (f : Nat × Nat) : Trap :=
  infoTrap .eccue 0 (word (5 * 2 ^ 60 + f.1 * 2 ^ 57 + f.2 % 0x200000))

/-- Transfers whose planned rows are over, and that move nothing more. -/
def Cascade.sweep (c : Cascade) (tick : Nat) : Cascade :=
  { c with xfers := c.xfers.filter fun x => !((x.gone || x.struck) && decide (x.start + x.count ≤ tick)) }

/-- The row whose move has met an error is not written at its write tick, nor are the rows that follow (R222). -/
def Tile.faultRow (t : Tile) : Tile × List Trap :=
  let bad (x : Xfer) : Bool := x.row.isSome && x.fault.isSome
  ({ t with casc := { t.casc with xfers := t.casc.xfers.map fun x => if bad x then { x with row := none, fault := none, struck := true } else x } },
   ((t.casc.xfers.filter bad).filterMap fun x => x.fault).map cascadeTrap)

/-- The write of the row that moved at the tick before (R218). -/
def Tile.writeRow (t0 : Tile) : Tile × List Trap :=
  let f := t0.faultRow
  let t := { f.1 with casc := f.1.casc.sweep t0.tick }
  match t.casc.xfers.find? fun x => x.row.isSome with
  | none => (t, f.2)
  | some x =>
    match x.row with
    | some (r, ws) =>
      let q := x.words ws
      let u := { t with casc := t.casc.wroteRow x t.tick }
      (match x.kind with
        | .save a =>
          { u with spad := u.spad.store u.key.id 2 (a + 128 * (r - x.first)) (q.1.flatMap fun w => bytesOfNat 4 w) }
        | _ => ({ u with casc := u.casc.setRow r q.1 }).raiseM q.2, f.2)
    | none => (t, f.2)

/-! Subtree writes (R214 to R217). -/

/-- The write tick of a subtree. -/
def Subtree.due (x : Subtree) : Option Nat := x.ended.map fun e => e + (if x.down then 12 else 8)

/-- The tree that runs a plane (R206, R214). -/
def Subtree.treeOf (x : Subtree) (p : Nat) : Nat := if recBatch x.record then p else x.tree

/-- The entries that a write of a plane reads: for accumulation or ACC (R215, R222). -/
def Subtree.lateReads (x : Subtree) (p kind : Nat) : List Nat :=
  match x.down, kind with
  | true, 1 =>
    ((List.zip (List.range (recNleaf x.record)) (downPlane x (listGet x.leaves p []) (listGet x.trace p []) (listGet x.adj p 0)).1).filter
      fun e => e.2.isSome).map fun e => derivEntry (shiftEntry (recLeaf x.record e.1) p) x.dxor
  | false, 2 => if recAcc x.record then [shiftEntry (recRoot x.record) p] else []
  | _, _ => []

/-- One write of a plane (R215): clear, accumulation, root. -/
def Tile.planeWrite (t : Tile) (x : Subtree) (p kind : Nat) : Tile :=
  let leaves := listGet x.leaves p []
  let d := shiftEntry (recRoot x.record) p
  let c := t.casc
  match x.down, kind with
  | true, 0 => if recDclr x.record then { t with casc := c.setEntry x.fmt (derivEntry d x.dxor) (cfmtZero x.fmt) } else t
  | true, 1 =>
    let a := downPlane x leaves (listGet x.trace p []) (listGet x.adj p 0)
    let r := ((List.zip (List.range (recNleaf x.record)) a.1).foldl (fun (acc : Cascade × Flags) e =>
      match e.2 with
      | some g =>
        let k := derivEntry (shiftEntry (recLeaf x.record e.1) p) x.dxor
        let v := addWords x.rm x.fz (cfmtFmt x.fmt) (acc.1.entry x.fmt k) g
        (acc.1.setEntry x.fmt k v.1, acc.2 ||| v.2)
      | none => acc) (c, a.2))
    ({ t with casc := r.1 }).raiseM r.2
  | false, 2 =>
    let u := upPlane x leaves
    let v := ((u.1.getLast?).join).getD 0
    let w : Nat × Flags :=
      if recAcc x.record then
        let n := nodeValue x.fmt x.rm x.fz (recOp x.record 3) (some v) (some (c.entry x.fmt d))
        (n.1.getD 0, n.2)
      else (v, 0)
    let t1 := ({ t with casc := c.setEntry x.fmt d w.1 }).raiseM (u.2 ||| w.2)
    if recTrace x.record then
      let bs := (u.1.flatMap fun o => bytesOfNat 4 (o.getD (cfmtNan x.fmt))) ++ bytesOfNat 4 0
      { t1 with spad := t1.spad.store t1.key.id 2 (traceAddr x p) bs }
    else t1
  | _, _ => t

/-- The writes of some subtrees at this tick in the order of R215: the tile, and the subtrees that meet an error in an entry they
accumulate to, as it stands after the writes before it (R215, R222, kind 3). -/
def Tile.subWrites (t : Tile) (xs : List Subtree) : Tile × List (Nat × Nat) :=
  let ws := xs.flatMap fun x => (recPlanes x.record).flatMap fun p => [(x, p, 0), (x, p, 1), (x, p, 2)]
  (sortBy (fun w => w.1.treeOf w.2.1 * 3 + w.2.2) ws).foldl (fun acc w =>
    (acc.1.planeWrite w.1 w.2.1 w.2.2,
     acc.2 ++ (((w.1.lateReads w.2.1 w.2.2).find? fun k => acc.1.casc.poison.contains k).map fun k => (w.1.seq, k)).toList)) (t, [])

/-- The faults of the subtrees due at this tick: those given and, as a faulting subtree writes nothing, those that come of its writes not
being made. -/
def Tile.subFaultsGo (t : Tile) : Nat → List Subtree → List (Subtree × (Nat × Nat))
  | 0, _ => []
  | n + 1, xs =>
    match (t.subWrites xs).2 with
    | [] => []
    | (q, k) :: _ => (xs.filter fun x => x.seq == q).map (fun x => (x, (3, k))) ++ Tile.subFaultsGo t n (xs.filter fun x => x.seq != q)

/-- The subtrees due at this tick. -/
def Tile.subsDue (t : Tile) : List Subtree := t.casc.subs.filter fun x => x.due == some t.tick

/-- The subtrees that fault at this tick, each with its kind and address (R222). -/
def Tile.subFaults (t : Tile) : List (Subtree × (Nat × Nat)) :=
  let due := t.subsDue
  (due.filterMap fun x => x.fault.map fun f => (x, f)) ++ t.subFaultsGo due.length (due.filter fun x => x.fault.isNone)

/-- The subtree writes of this tick, and the faults raised (R222). -/
def Tile.writeSubs (t : Tile) : Tile × List Trap :=
  let bad := t.subFaults
  let good := t.subsDue.filter fun x => !bad.any fun b => b.1.seq == x.seq
  let u := (t.subWrites good).1
  ({ u with casc := { u.casc with subs := u.casc.subs.filter fun x => x.due != some t.tick,
                                  written := (u.casc.written + good.length) % 2 ^ 32 } }, bad.map fun b => cascadeTrap b.2)

/-- Every write of the Cascade at this tick (R215, R218). -/
def Tile.cascadeWrites (t : Tile) : Tile × List Trap :=
  let a := t.writeSubs
  let b := a.1.writeRow
  (b.1, a.2 ++ b.2)

/-! The syllables (R211, R212). -/

/-- PERM of a check (R212). -/
def spTrap (pos n : Nat) : Trap := checkTrap .perm 4 pos n

/-- The entry format of CMR (R207). -/
def Cascade.fmt (c : Cascade) : CFmt := cfmtOf (fld c.cmr 0 2)

/-- SPUP and SPDN at issue (R212, R213). -/
def Tile.subtree (h : Hdr) (down : Bool) (a : MSrc) (t : Tile) : Res :=
  if t.guarded h then
    match t.readM a with
    | none => .trap (lostTrap t)
    | some x =>
      let addr := bits x 0 21
      if addr % 32 ≠ 0 then .trap (addrTrap .align t.iss.pos addr)
      else if t.spad.poisoned addr 32 then .trap (addrTrap .eccue t.iss.pos addr)
      else
        let r := natOfBytes (t.spad.readBytes addr 32)
        let area := if down || recTrace r then (if recBatch r then 256 else 64) else 0
        if 0x200000 < addr + 32 + area then .trap (spTrap t.iss.pos 1)
        else if recNleaf r = 0 ∨ 16 < recNleaf r then .trap (spTrap t.iss.pos 2)
        else if fld r 15 1 = 1 then .trap (spTrap t.iss.pos 3)
        else if 8 ≤ t.casc.later then .trap (spTrap t.iss.pos 4)
        else
          let y : Subtree := { issue := t.tick, seq := t.seq, addr := addr, record := r, down := down, fmt := t.casc.fmt,
                               dxor := fld t.casc.cmr 2 5, rm := slotRnd t.gov.fpcr .m, fz := slotFz t.gov.fpcr .m,
                               tree := t.casc.rot, begun := none, left := [], ended := none, leaves := [], trace := [],
                               adj := [], fault := none }
          .ok { t with spad := t.spad.note t.key.id 2 addr 32, seq := t.seq + 1,
                       casc := { t.casc with subs := t.casc.subs ++ [{ y with left := bankNeeds y.entries }],
                                             rot := if recBatch r then t.casc.rot else (t.casc.rot + 1) % 4 } }
  else .ok t

/-- SPUP (R216). -/
def execSpup (h : Hdr) (a : MSrc) (s : State) : Host.Outcome State Fault Refusal := onTile (Tile.subtree h false a) s

/-- SPDN (R217). -/
def execSpdn (h : Hdr) (a : MSrc) (s : State) : Host.Outcome State Fault Refusal := onTile (Tile.subtree h true a) s

/-- Whether a transfer is active, and whether one is pending (R218). -/
def Cascade.active (c : Cascade) (tick : Nat) : Bool := c.xfers.any fun x => decide (x.start ≤ tick) && decide (tick < x.start + x.count)
def Cascade.pending (c : Cascade) (tick : Nat) : Bool := c.xfers.any fun x => decide (tick < x.start)

/-- A row transfer at issue (R212, R218). -/
def Tile.transferRows (t : Tile) (addr : Option Nat) (range : Word) (k : XferKind) : Res :=
  let first := bits range 0 9
  let count := bits range 16 10
  match addr.filter fun a => a % 128 != 0 with
  | some a => .trap (addrTrap .align t.iss.pos a)
  | none =>
    if count = 0 ∨ 512 < count ∨ 512 < first + count then .trap (spTrap t.iss.pos 5)
    else if 0x200000 < addr.getD 0 + 128 * count then .trap (spTrap t.iss.pos 6)
    else if t.casc.active t.tick && t.casc.pending t.tick then .trap (spTrap t.iss.pos 7)
    else
      let start := max (t.tick + 1) t.casc.rowFree
      .ok { t with seq := t.seq + 1,
                   casc := { t.casc with
                     rowFree := start + count,
                     xfers := t.casc.xfers ++ [⟨k, first, count, t.tick, t.seq, start, t.casc.fmt, slotRnd t.gov.fpcr .m,
                       slotFz t.gov.fpcr .m, none, none, false, false⟩] } }

/-- SPLD (R218). -/
def execSpld (h : Hdr) (a b : MSrc) (s : State) : Host.Outcome State Fault Refusal :=
  onTile (fun t =>
    if t.guarded h then
      match t.readM a, t.readM b with
      | some x, some y => t.transferRows (some (bits x 0 21)) y (.load (bits x 0 21))
      | _, _ => .trap (lostTrap t)
    else .ok t) s

/-- SPST (R218). -/
def execSpst (h : Hdr) (a b : MSrc) (s : State) : Host.Outcome State Fault Refusal :=
  onTile (fun t =>
    if t.guarded h then
      match t.readM a, t.readM b with
      | some x, some y => t.transferRows (some (bits x 0 21)) y (.save (bits x 0 21))
      | _, _ => .trap (lostTrap t)
    else .ok t) s

/-- SPSCL (R219). -/
def execSpscl (h : Hdr) (a : MSrc) (n : Int) (s : State) : Host.Outcome State Fault Refusal :=
  onTile (fun t =>
    if t.guarded h then
      match t.readM a with
      | some x => t.transferRows none x (.scale n)
      | none => .trap (lostTrap t)
    else .ok t) s

/-- SPCLR (R218). -/
def execSpclr (h : Hdr) (a : MSrc) (s : State) : Host.Outcome State Fault Refusal :=
  onTile (fun t =>
    if t.guarded h then
      match t.readM a with
      | some x => t.transferRows none x .clear
      | none => .trap (lostTrap t)
    else .ok t) s

/-- SPMODE (R220). -/
def execSpmode (h : Hdr) (dx : Nat) (f : CFmt) (s : State) : Host.Outcome State Fault Refusal :=
  onTile (fun t => .ok (if t.guarded h then t.put 1 .m (.cmr (dx * 4 + CFmt.code f)) else t)) s

/-- Item of SPSTAT (R221, R363). -/
def Tile.spStatus (t : Tile) (i : Nat) : Nat :=
  let c := t.casc
  if i = 0 then
    c.cmr % 256 + min 8 c.later * 2 ^ 8 + (c.active t.tick).toNat * 2 ^ 12 + (c.pending t.tick).toNat * 2 ^ 13 + c.rot % 4 * 2 ^ 14 + c.written % 2 ^ 32 * 2 ^ 32
  else if i = 1 then c.penalty
  else if bit t.csrs.detmode 0 then 0 else c.corrected % 2 ^ 32

/-- SPSTAT (R221). -/
def execSpstat (h : Hdr) (d i : Nat) (s : State) : Host.Outcome State Fault Refusal :=
  onTile (fun t => .ok (if t.guarded h then t.put 2 .m (.mreg d (word (t.spStatus i))) else t)) s

end Sys2Proof.Machine
end

