-- ==== Sys2Proof/Machine/Tick.lean ====
section
/-! DEFINITION. What becomes due at a tick of one tile (R18, R21 to R24, R42, R72, R137): faults first, then every write in
the order of the rules, then the reads that engines make. -/

namespace Sys2Proof.Machine

/-! Copy completions (R254, R260). -/

/-- The record of a command that has ended (R255). -/
def CopyCmd.result (c : CopyCmd) (q status : Nat) : Word :=
  copyRecord (if status = 0 then cmdElems c.words else c.prog) status q (cmdTag c.words)

/-- The status with which a command has ended. -/
def CopyCmd.status (c : CopyCmd) : Option Nat :=
  match c.stage with
  | .ended n => some n
  | .running => none

/-- Whether a command may complete (R254): it has ended, and every earlier command of its queue has its record. -/
def CopyQueue.ready (q : CopyQueue) (c : CopyCmd) : Bool :=
  c.status.isSome && c.record.isNone && q.cmds.all fun e => decide (c.num ≤ e.num) || e.record.isSome

/-- Replace a command. -/
def CopyQueue.setCmd (q : CopyQueue) (c : CopyCmd) : CopyQueue := { q with cmds := q.cmds.map fun e => if e.num = c.num then c else e }

/-- Place the record of a command and advance the ring that it names (R171, R254, R260); once the tile sees the record of a command
with REL = 1 its loads see the writes (R288). -/
def Tile.complete (t : Tile) (q : Nat) (c : CopyCmd) : Tile :=
  let s := c.status.getD 0
  let shown := if c.due.isSome ∧ 1 ≤ s ∧ s ≤ 3 then s + 4 else s
  let u := { t with buffer := t.buffer.filter fun l => !c.stale.contains l.1 }.setQueue q ((t.queue q).setCmd { c with record := some (c.result q shown) })
  if s = 0 then
    let r := cmdRing c.words
    { u with mx := { u.mx with rings := u.mx.rings.set r ((listGet u.mx.rings r Ring.zero).advance (cmdRadv c.words)) } }
  else u

/-- The commands of a queue that complete at a tick (R254): the timed ones due then, and those before them in push order, which
complete first. -/
def CopyQueue.dueAt (q : CopyQueue) (tick : Nat) : List CopyCmd :=
  match (q.cmds.filter fun c => c.record.isNone && c.due == some tick).map fun c => c.num with
  | [] => []
  | n :: more => q.cmds.filter fun c => c.record.isNone && decide (c.num ≤ more.foldl max n)

/-- The commands that complete at this tick, with their queues, in push order. -/
def Tile.copiesDue (t : Tile) : List (Nat × CopyCmd) := (List.range 32).flatMap fun q => ((t.queue q).dueAt t.tick).map fun c => (q, c)

/-- Whether one of them is not done (R254). -/
def Tile.copyLate (t : Tile) : Bool := t.copiesDue.any fun x => x.2.status.isNone

def Tile.completeCopies (t : Tile) : Tile := t.copiesDue.foldl (fun u x => u.complete x.1 x.2) t

/-! Landings (R22, R23). -/

/-- The message that a RECV claims. -/
def Tile.message? (t : Tile) (src chan num : Nat) : Option Message :=
  t.basin.find? fun m => m.src == src && m.chan == chan && m.num == num

/-- What has arrived for a landing: for RECV the message in the Basin, for POP the record of its command. -/
def Tile.arrived (t : Tile) (l : Landing) : Bool :=
  match l.dest with
  | .recv _ _ src chan num _ => (t.message? src chan num).isSome
  | .pop _ _ q num => (t.queue q).cmds.any fun c => c.num == num && c.record.isSome
  | _ => l.got.isSome

/-- Landings due at this tick, in issue order. -/
def Tile.landingsDue (t : Tile) : List Landing := t.landings.filter fun l => decide (l.due ≤ t.tick)

/-- The record that a POP lands. -/
def Tile.recordOf (t : Tile) (q num : Nat) : Word :=
  (((t.queue q).cmds.find? fun c => c.num == num).bind fun c => c.record).getD 0

def LandDest.isRecv : LandDest → Bool
  | .recv _ _ _ _ _ _ => true
  | _ => false

/-- Whether landings due now are not there, and whether a RECV is among them (R22, R30). -/
def Tile.landingHold (t : Tile) : Option Bool :=
  let late := t.landingsDue.filter fun l => !t.arrived l
  if late.isEmpty then none else some (late.any fun l => l.dest.isRecv)

/-- The fault of a landing (R146, R148, R258, R380): its trap; the error of a message has a TRAPINFO that the spec does not state, a free value
(log entry 64). -/
def Tile.landingFault (t : Tile) (l : Landing) : Option Trap :=
  match l.dest with
  | .recv _ _ src chan num stamp =>
    match t.message? src chan num with
    | some m =>
      if m.bad then some (infoTrap .eccue l.pos (Config.freeWord (t.key.id * 2 ^ 64 + t.tick)))
      else if m.stamp = stamp then none
      else some (infoTrap .tsmis l.pos (word (l.addr % 2 ^ 17 + src * 2 ^ 17 + chan * 2 ^ 28 + m.stamp % 2 ^ 32 * 2 ^ 32)))
    | none => none
  | .pop _ _ q num =>
    (recordCause (t.recordOf q num)).map fun c => infoTrap c l.pos (t.recordOf q num)
  | _ =>
    match l.got with
    | some (.fault c info) => some (infoTrap c l.pos info)
    | _ => none

/-- A landing that faults goes: a RECV gives its claim back and its message stays (R148), one that met an error takes the message and its
entry with it, as a far load does (R146), a POP's record is removed (R258). -/
def Tile.dropLanding (t : Tile) (l : Landing) : Tile :=
  let u := { t with landings := t.landings.filter fun k => k.num != l.num }
  match l.dest with
  | .recv _ _ src chan num _ =>
    if ((t.message? src chan num).map fun m => m.bad).getD false then
      { u with basin := u.basin.filter fun m => !(m.src == src && m.chan == chan && m.num == num) }
    else { u with claims := u.claims ++ [(src * 16 + chan, num)] }
  | .pop _ _ q num => u.setQueue q ((u.queue q).remove num)
  | _ => u

/-- Bytes of an arrival. -/
def Arrival.data : Arrival → List Byte
  | .bytes bs => bs
  | .word v _ => bytesOfNat 8 v.toNat
  | .fault _ _ => []

def Arrival.value : Arrival → Word
  | .word v _ => v
  | .bytes bs => BitVec.ofNat 64 (natOfBytes bs)
  | .fault _ _ => 0

def Arrival.fail : Arrival → Bool
  | .word _ (some b) => b
  | _ => false

/-- Write a landing at its due tick (R22); it enters no latch. -/
def Tile.writeLanding (t : Tile) (l : Landing) : Tile :=
  let u := { t with landings := t.landings.filter fun k => k.num != l.num }
  let a := l.got.getD (.bytes [])
  match l.dest with
  | .far f n => { u with regs := u.regs.setX f n a.value }
  | .farV f n => { u with regs := u.regs.setV f n (vregOf (natOfBytes a.data)) }
  | .atom f n p =>
    let r1 := match n with
      | some n => u.regs.setX f n a.value
      | none => u.regs
    { u with regs := match p with
      | some p => r1.setP p (boolWord a.fail)
      | none => r1 }
  | .recv f n src chan num _ =>
    match t.message? src chan num with
    | some m => { u with regs := u.regs.setV f n m.body, basin := u.basin.filter fun k => k != m }
    | none => u
  | .octet f base =>
    { u with regs := (List.range 8).foldl (fun r i => r.setX f (base + i) (word (natOfBytes ((a.data.drop (8 * i)).take 8)))) u.regs }
  | .rill f n => { u with regs := u.regs.setX f n a.value }
  | .pop f n q num => ({ u with regs := u.regs.setX f n (t.recordOf q num) }).setQueue q ((u.queue q).remove num)

/-! Results. -/

/-- The rank of a slot among results of one tick (R72). -/
def Slot.rank : Slot → Nat
  | .s => 0 | .va => 1 | .vb => 2 | .m => 3 | .ca => 4 | .cb => 5

/-- Write one register result with its latch, or raise its flags (R18, R42, R67). -/
def Tile.writeResult (t : Tile) (sl : Slot) (e : Eff) : Tile :=
  match e with
  | .sreg n v => { t with regs := t.regs.setS n v, latches := t.latches.pushWord sl v }
  | .vreg f n v =>
    { t with regs := t.regs.setV f n v,
             latches := match sl with
               | .va => t.latches.pushV .va v
               | .vb => t.latches.pushV .vb v
               | _ => t.latches }
  | .xreg f n v => { t with regs := t.regs.setX f n v, latches := t.latches.pushWord sl v }
  | .xplain f n v => { t with regs := t.regs.setX f n v }
  | .mreg n v => { t with regs := t.regs.setM n v, latches := t.latches.pushWord sl v }
  | .pred n v => { t with regs := t.regs.setP n v }
  | .latchW k v => { t with latches := t.latches.pushWord k v }
  | .latchV f v => { t with latches := t.latches.pushV f v }
  | .flags k f => { t with csrs := { t.csrs with fpsr := raiseFlags t.csrs.fpsr k f } }
  | _ => t

/-- Write a control effect (R92, R194, R195, R220, R301, R309). -/
def Tile.writeControl (t : Tile) (e : Eff) : Tile :=
  match e with
  | .csr c v => { t with csrs := t.csrs.write c v }
  | .gov c mx v => { t with gov := t.gov.write c mx v }
  | .mfr v => { t with gov := { t.gov with mfr := v } }
  | .stepInc => { t with csrs := { t.csrs with stepcnt := t.csrs.stepcnt + 1 } }
  | .depth up => { t with csrs := { t.csrs with depth := if up then t.csrs.depth + 1 else t.csrs.depth - 1 } }
  | .cmr v => { t with casc := { t.casc with cmr := v } }
  | _ => t

/-- Write a configuration of the matrix engine, after its completions of the tick (R195, R199). -/
def Tile.writeMatrix (t : Tile) (e : Eff) : Tile :=
  match e with
  | .mcfg f v => { t with mx := { t.mx with cfg := t.mx.cfg.write f v } }
  | .mirror on => { t with mx := { t.mx with cfg := { t.mx.cfg with mirror := on } } }
  | .rctl r v => { t with mx := { t.mx with rings := t.mx.rings.set r ((listGet t.mx.rings r Ring.zero).control v) } }
  | _ => t

/-- The word that a local atomic reads: zero in a guard granule (R155). -/
def Tile.atomOld (t : Tile) (a : Nat) : Word := if t.spad.marked a then 0 else Mem.readWord t.spad.mem a

/-- The read and write of a local atomic (R159, R161). -/
def Tile.atomStore (t : Tile) (op : AtomOp) (a : Nat) (v v2 : Word) : Tile :=
  let s1 := t.spad.note t.key.id 1 a 8
  let old := t.atomOld a
  { t with spad := if t.spad.marked a || !atomWrites op old v v2 then s1
                   else s1.write a (bytesOfNat 8 (atomResult op old v v2).1.toNat) }

/-- Perform a local atomic (R159, R161), with the results it delivers. -/
def Tile.doAtomic (t : Tile) (op : AtomOp) (a : Nat) (v v2 : Word) (f : CFile) (d p : Option Nat) : Tile × List Eff :=
  let old := t.atomOld a
  (t.atomStore op a v v2,
   (match d with
     | some n => [Eff.xreg f n old]
     | none => if p.isNone then [Eff.latchW (fileSlot f) old] else []) ++
   (match p with
     | some p => [Eff.pred p (boolWord (atomResult op old v v2).2)]
     | none => []))

/-- Perform a local arrival and note the generation before it (R165, R299). -/
def Tile.doArrive (t : Tile) (a n wait : Nat) : Tile :=
  let g0 := t.spad.generation a
  { t with spad := t.spad.arrive t.key.id a n,
           waits := t.waits.map fun w =>
             if w.num = wait then
               (match w.kind with
                 | .bar l x _ _ m => { w with kind := .bar l x g0 true m }
                 | _ => w)
             else w }

/-- Local atomics and arrivals (R137): their results join those of the tick. -/
def Tile.doAtoms : List Pending → Tile → Tile × List Pending
  | [], t => (t, [])
  | p :: ps, t =>
    match p.eff with
    | .atom op a v v2 f d pd _ =>
      let r := t.doAtomic op a v v2 f d pd
      let q := Tile.doAtoms ps r.1
      (q.1, r.2.map (fun e => { p with eff := e }) ++ q.2)
    | .atomOnly op a v v2 _ => Tile.doAtoms ps (t.atomStore op a v v2)
    | .arrive a n w => Tile.doAtoms ps (t.doArrive a n w)
    | _ => Tile.doAtoms ps t

/-- The store syllables of the tick (R137): S, CA, CB; within one the later element remains. -/
def Tile.doStores (ps : List Pending) (t : Tile) : Tile :=
  (sortBy (fun p => p.slot.rank) ps).foldl (fun u p =>
    match p.eff with
    | .store _ ws => { u with spad := ws.foldl (fun s w => s.store u.key.id 0 w.1 w.2) u.spad }
    | _ => u) t

def Eff.isMemory : Eff → Bool
  | .atom _ _ _ _ _ _ _ _ => true
  | .atomOnly _ _ _ _ _ => true
  | .arrive _ _ _ => true
  | _ => false

def Eff.isStore : Eff → Bool
  | .store _ _ => true
  | _ => false

/-! Faults due at this tick. -/

/-- The trap of a result due now: a load's error, a late trap (R136, R63, R306), an error in an atomic's word (R162). -/
def Tile.pendingFault (t : Tile) (p : Pending) : Option Trap :=
  match p.eff with
  | .fault tr => some tr
  | .atom _ a _ _ _ _ _ pos => if t.spad.poisoned a 8 then some (addrTrap .eccue pos a) else none
  | .atomOnly _ a _ _ pos => if t.spad.poisoned a 8 then some (addrTrap .eccue pos a) else none
  | .arrive a _ w =>
    if t.spad.poisoned a 8 then
      some (addrTrap .eccue (((t.waits.find? fun x => x.num == w).map (·.pos)).getD 0) a)
    else none
  | _ => none

/-- The faults of results due now, and the tile without them. -/
def Tile.faultsInFlight (t : Tile) : Tile × List Trap :=
  let due (p : Pending) : Bool := decide (p.due ≤ t.tick)
  ({ t with inflight := t.inflight.filter fun p => !(due p && (t.pendingFault p).isSome) },
   (t.inflight.filter due).filterMap t.pendingFault)

/-- A matrix completion due now that faults (R186). -/
def Tile.faultsMatrix (t : Tile) : Tile × List Trap :=
  let r := t.mxComplete
  if r.2.isEmpty then (t, []) else ({ t with mx := r.1.mx }, r.2)

/-- Cascade writes due now that fault (R222). -/
def Tile.faultsCascade (t : Tile) : Tile × List Trap :=
  let bad := t.subFaults
  let r := { t with casc := { t.casc with subs := t.casc.subs.filter fun x => !bad.any fun b => b.1.seq == x.seq } }.faultRow
  (r.1, bad.map (fun b => cascadeTrap b.2) ++ r.2)

/-- Landings due now that fault. -/
def Tile.faultsLanding (t : Tile) : Tile × List Trap :=
  (t.landingsDue.filter fun l => (t.landingFault l).isSome).foldl (fun (acc : Tile × List Trap) l =>
    (acc.1.dropLanding l, acc.2 ++ (t.landingFault l).toList)) (t, [])

/-- Timed copy commands due now that ended with a fault (R260): reported once, the record placed with the completions. -/
def Tile.faultsCopy (t : Tile) : List Trap :=
  (t.copiesDue.filter fun x => x.2.due.isSome).filterMap fun x =>
    (x.2.status.bind fun s => recordCause (x.2.result x.1 s)).map fun c => infoTrap c x.2.pos (x.2.result x.1 (x.2.status.getD 0))

/-- The wait whose own reads or arrival faulted, at its due tick or later (R297), with its bundle. -/
def Tile.faultsWait (t : Tile) : List (Trap × Option Nat) :=
  (t.waits.filter fun w => decide (w.due ≤ t.tick)).filterMap fun w => w.fault.map fun tr => (tr, some w.addr)

/-- Every fault due at this tick, and the tile without them (R21, R310): engine faults of one kind of unit are
cancelled together (R186). The records of timed commands are placed at the tick itself, so that a POP due now finds them (R254). -/
def Tile.faultsDue (t : Tile) : Tile × List (Trap × Option Nat) :=
  let c := t.faultsCopy
  let t0 := t.completeCopies
  let m := t0.faultsMatrix
  let k := m.1.faultsCascade
  let p := k.1.faultsInFlight
  let l := p.1.faultsLanding
  (l.1, (c ++ m.2 ++ k.2 ++ p.2 ++ l.2).map (fun x => (x, none)) ++ l.1.faultsWait)

/-! The tick. -/

/-- As a tick begins, before any write due at it, a BAR on a local word sees whether the generation has changed (R299). -/
def Tile.lookWaits (t : Tile) : Tile :=
  { t with waits := t.waits.map fun w =>
      match w.kind with
      | .bar true a g0 arrived _ => { w with kind := .bar true a g0 arrived (arrived && t.spad.generation a != g0) }
      | _ => w }

/-- The start of a tick: the waits look at their words, and the schedule of the engine: places freed, retirements
(R174, R196, R299). -/
def Tile.prepare (t : Tile) : Tile := t.lookWaits.mxShift.mxRetire

/-- Every write due at this tick in the order of R21, R42, R72 and R137. -/
def Tile.applyDue (t : Tile) : Tile :=
  let due := t.inflight.filter fun p => decide (p.due ≤ t.tick)
  let t0 := ({ t with inflight := t.inflight.filter fun p => !decide (p.due ≤ t.tick) }).completeCopies
  let t1 := due.foldl (fun u p => u.writeControl p.eff) t0
  let t2 := due.foldl (fun u p => u.writeMatrix p.eff) t1.mxComplete.1
  let t3 := t2.cascadeWrites.1
  let a := Tile.doAtoms (sortBy (fun p => p.slot.rank) (due.filter fun p => p.eff.isMemory)) t3
  let t4 := a.1.doStores (due.filter fun p => p.eff.isStore)
  let results := sortBy (fun p => p.slot.rank) (sortBy (fun p => p.seq) (due ++ a.2))
  let t5 := results.foldl (fun u p => u.writeResult p.slot p.eff) t4
  t5.landingsDue.foldl (fun u l => u.writeLanding l) t5

/-- Whether a result falls due whose replay in a datapath has not ended (R380). -/
def Tile.replaying (t : Tile) : Bool := t.inflight.any fun p => decide (p.due ≤ t.tick) && t.replays.contains p.seq

/-- What holds the tick before anything is written (R22, R175, R254, R380): a landing, an engine's late work, a completion, a replay. A
POP finds the record of a command that completes at this tick. -/
def Tile.lateHold (t : Tile) : Option (FreezeCause × Bool) :=
  match t.completeCopies.landingHold with
  | some recv => some (.landing, recv)
  | none => if t.copyLate || t.mxLate || t.replaying then some (.landing, false) else none

end Sys2Proof.Machine
end

