-- ==== Sys2Proof/Machine/Bundle.lean ====
section
/-! DEFINITION. The bundle that a tile is to issue (R61 to R63, R232, R259, R267): its words, their slots, its syllables in the order
in which they act. -/

namespace Sys2Proof.Machine

/-! The bundle (R61, R62). -/

/-- The class of a major (R62): S 0, V 1, M 2, C 3. -/
def classOf (maj : Nat) : Option Nat :=
  if maj ≤ 22 then some 0 else if maj ≤ 38 then some 1 else if maj ≤ 55 then some 3 else if maj ≤ 61 then some 2 else none

/-- The slot of the n-th syllable of a class, none when the class has no such place (R62). -/
def slotOf (c n : Nat) : Option Slot :=
  match c, n with
  | 0, 0 => some .s
  | 1, 0 => some .va
  | 1, 1 => some .vb
  | 2, 0 => some .m
  | 3, 0 => some .ca
  | 3, 1 => some .cb
  | _, _ => none

/-- The slots of the syllables of a bundle: none where the class order or count is broken. -/
def placeWords : Nat → Nat → List Nat → List (Option Slot)
  | _, _, [] => []
  | last, n, w :: ws =>
    match classOf (fld w 25 6) with
    | none => none :: placeWords last n ws
    | some c =>
      if c < last then none :: placeWords last n ws
      else
        let k := if c = last then n else 0
        slotOf c k :: placeWords c (k + 1) ws

/-- A syllable of a bundle: position, slot, instruction. -/
structure Syl where
  pos : Nat
  slot : Slot
  instr : Instr
deriving DecidableEq, Repr

/-- A syllable that can be tried. -/
def wordSyl (pos w : Nat) (slot : Option Slot) : Option Syl :=
  match slot, decodeWord w with
  | some k, .ok i => some ⟨pos, k, i⟩
  | _, _ => none

/-- The words of a bundle with positions and slots. -/
def numbered (ws : List Nat) : List (Nat × Nat × Option Slot) := List.zip (List.range ws.length) (List.zip ws (placeWords 0 0 ws))

/-- The words of the bundle at an address of a tile's own instruction memory (R62, R63). -/
def Tile.wordsAt (t : Tile) (a : Nat) : List Nat := t.fetch a (min 6 ((Config.imemBytes - a) / 4))

/-- The bundle that a tile is to issue at this tick: its address, its words, and for a gang member the item of the
lead's stream (R267); none when the tile issues an empty bundle (R271). -/
structure Due where
  addr : Nat
  words : List Nat
  item : Option StreamItem
deriving DecidableEq, Repr

/-- What a tile issues at this tick. -/
def State.bundleOf (s : State) (t : Tile) : Option Due :=
  if t.gang.size ≤ 1 ∨ t.pos = 0 then
    if t.tick < t.gang.resumeAt then none else some ⟨t.pc, t.wordsAt t.pc, none⟩
  else
    ((s.leadTile t).bind fun l =>
      (l.gang.stream.find? t.gang.wants).filter fun i => decide (i.tick + t.pos ≤ t.tick)).map fun i => ⟨i.addr, i.words, some i⟩

/-- Control syllables of the S slot, which decide the next bundle (R95 to R100, R302, R306 to R308): they come after the
others, so that a bundle's other syllables have taken effect. -/
def isControl : Instr → Bool
  | .br _ _ | .call _ _ | .jmpr _ _ | .callr _ _ | .loop _ _ _ _ | .loopr _ _ _ _ | .trap _ _ | .tret _ | .tfence _ | .exit _
  | .waitt _ _ => true
  | _ => false

def isPush : Instr → Bool
  | .push _ _ _ _ => true
  | _ => false

def isGang : Instr → Bool
  | .gang _ _ _ => true
  | _ => false

def isBoard : Instr → Bool
  | .board _ => true
  | _ => false

/-- The order in which the syllables of a bundle act: BOARD first, from whose tick on the tile is boarded (R232), PUSH after POP (R259), GANG after those that name the gang of their issue tick (R151,
R265: the bundle still issues in the old one, log entry 28), control last. -/
def Syl.rank (y : Syl) : Nat :=
  if isControl y.instr then 4 else if isGang y.instr then 3 else if isPush y.instr then 2 else if isBoard y.instr then 0 else 1

/-- The syllables of a bundle in the order in which they act. -/
def sylsOf (ws : List Nat) : List Syl := sortBy Syl.rank ((numbered ws).filterMap fun x => wordSyl x.1 x.2.1 x.2.2)

/-- Whether the bundle that a tile is to issue holds a BOARD that its guard lets act (R69, R232). -/
def State.boarding (s : State) (t : Tile) : Bool :=
  match s.bundleOf t with
  | some b => (sylsOf b.words).any fun y => match y.instr with
    | .board h => t.applyDue.guarded h
    | _ => false
  | none => false

end Sys2Proof.Machine
end

