-- ==== Sys2Proof/Machine/Translate.lean ====
section
/-! DEFINITION. Translation (R330 to R336): page tables, translation caches, the check of a physical address, page
requests in the event queue. -/

namespace Sys2Proof.Machine

/-! Page-table walks. -/

/-- What a walk finds (R332): a page, no page, or an entry that raises a cause. -/
inductive Walk where
  | page (e : TlbEntry)
  | absent
  | bad (c : Cause)
deriving DecidableEq, Repr

/-- The levels of a walk (R331): first index bit, index bits, log2 of the alignment of the next table. -/
def walkLevels : List (Nat × Nat × Nat) := [(39, 18, 12), (30, 9, 12), (21, 9, 8), (16, 5, 0)]

/-- Whether an entry with V = 1 is malformed at a level (R332). -/
def entryMalformed (lo tableAlign e : Nat) : Bool :=
  let leaf := fld e 2 1 == 1
  fld e 57 7 != 0 || fld e 6 2 != 0 || fld e 1 1 != 0 || (leaf && lo == 39) || (!leaf && lo == 16) ||
    (if leaf then fld e 0 57 / 256 * 256 % 2 ^ lo != 0 else fld e 8 49 * 256 % 2 ^ tableAlign != 0 || fld e 3 3 != 0)

/-- Whether a physical address has the layout of R330. -/
def paFormed (pa : Nat) : Bool := fld pa 56 8 == 0 && fld pa 40 10 == 0 && decide (fld pa 0 36 < Config.stackBytes)

/-- The module that a physical address names (R330). -/
def paModule (pa : Nat) : Nat := fld pa 50 6

/-- An entry of a page table, read at its home (R331): in this module's HBM, where an uncorrectable error is met at its consumption
(R380), or in another module's, where what it holds is free (R357, log entry 14). An address without storage has no entry to read,
which is PERM as for any access there (R330, log entry 26). -/
def State.tableEntry (s : State) (pa : Nat) : Except Cause Nat :=
  if !paFormed pa then .error .perm
  else if paModule pa ≠ s.board.position then
    (if Config.inGroup (paModule pa) then .ok (natOfBytes ((List.range 8).map fun i => Config.remoteByte s.draws (pa + i)))
     else .error .perm)
  else if s.hbmPoisoned (localPa pa) 8 then .error .eccue
  else .ok (Mem.readNat s.hbm (localPa pa) 8)

/-- The walk from a table (R331, R332). -/
def State.walkFrom (s : State) (va : Nat) : List (Nat × Nat × Nat) → Nat → Walk
  | [], _ => .bad .xlate
  | (lo, n, al) :: more, base =>
    match s.tableEntry (base + 8 * fld va lo n) with
    | .error c => .bad c
    | .ok e =>
      if fld e 0 1 = 0 then .absent
      else if entryMalformed lo al e then .bad .xlate
      else if fld e 2 1 = 1 then
        .page ⟨va / 2 ^ lo * 2 ^ lo, lo, fld e 8 49 * 256, fld e 3 1 == 1, fld e 4 1 == 1, fld e 5 1 == 1⟩
      else State.walkFrom s va more (fld e 8 49 * 256)

/-- The walk of a virtual address under a context's tables. -/
def State.walk (s : State) (c : Context) (va : Nat) : Walk := s.walkFrom va walkLevels c.root

/-- The entries that a walk reads in another module's HBM, to which their reads are carried (R331, R357). -/
def State.walkReads (s : State) (va : Nat) : List (Nat × Nat × Nat) → Nat → List RemoteReq
  | [], _ => []
  | (lo, n, al) :: more, base =>
    let pa := base + 8 * fld va lo n
    (if paFormed pa && paModule pa != s.board.position && Config.inGroup (paModule pa) then [.read pa 8] else []) ++
      match s.tableEntry pa with
      | .ok e =>
        if fld e 0 1 = 1 ∧ !entryMalformed lo al e ∧ fld e 2 1 = 0 then State.walkReads s va more (fld e 8 49 * 256) else []
      | .error _ => []

/-- A walk is made (R331): its reads of other modules leave, and what they bring is a draw of its own. -/
def State.walked (s : State) (c : Context) (va : Nat) : State :=
  { s with draws := s.draws + 1, remoteOut := s.remoteOut ++ s.walkReads va walkLevels c.root }

/-! Translation caches (R333). -/

/-- Whether a cached entry maps an address. -/
def TlbEntry.maps (e : TlbEntry) (va : Nat) : Bool := decide (e.va ≤ va) && decide (va < e.va + 2 ^ e.logSize)

/-- Whether a page allows a kind of access (R332). -/
def TlbEntry.allows (e : TlbEntry) : AccKind → Bool
  | .read => e.r
  | .write => e.w
  | .atomic => e.r && e.w && e.at_

/-- The dies of a partition: first die and log2 of their number (R338). -/
def State.partition (s : State) (part : Nat) : Nat × Nat := listGet s.board.layout part (0, 0)

/-- The compute die of a logical tile of a context (R13, R338). -/
def State.dieOf (s : State) (c : Context) (id : Nat) : Nat := (s.partition c.part).1 + id / 160

/-- The tile whose translation cache serves an agent; the front end and the hub copy engine have the hub's (R333). -/
def agentTile : Agent → Option Nat
  | .farPath t | .copyEngine t => some t
  | _ => none

/-- The entry of a cache, under a name, that maps an address. -/
def tlbFind (l : List (Nat × TlbEntry)) (name va : Nat) : Option TlbEntry := (l.find? fun x => x.1 == name && x.2.maps va).map (·.2)

/-- Keep an entry; in a full cache it takes the place of one that a free choice names (log entry 26). -/
def tlbKeep (l : List (Nat × TlbEntry)) (same : Nat → Bool) (cap victim name : Nat) (e : TlbEntry) : List (Nat × TlbEntry) :=
  let mine := l.filter fun x => same x.1
  (name, e) :: (if mine.length < cap then l
    else match mine[victim % cap]? with
      | some x => l.erase x
      | none => l)

/-- The cached translation for an agent (R333): of its tile or of its die, or of the hub. -/
def State.cachedFor (s : State) (c : Context) (a : Agent) (va : Nat) : Option TlbEntry :=
  match agentTile a with
  | some id => (tlbFind c.tileTlb id va).orElse fun _ => tlbFind c.dieTlb (s.dieOf c id) va
  | none => tlbFind s.hubTlb c.pasid va

/-- Keep a translation where an agent looks for it (R333): in the 64 entries of its tile and the 8,192 of its die, which serve
every tile of the die, or in the 64 of the hub, which every context shares. -/
def State.keep (s : State) (c : Context) (a : Agent) (e : TlbEntry) : State :=
  let victim := Config.choose s.fresh
  match agentTile a with
  | some id =>
    let d := s.dieOf c id
    let dies := if (tlbFind c.dieTlb d e.va).isSome then c.dieTlb
      else tlbKeep c.dieTlb (fun n => n == d) Config.dieTlbEntries (victim Config.dieTlbEntries) d e
    let tiles := if (tlbFind c.tileTlb id e.va).isSome then c.tileTlb
      else tlbKeep c.tileTlb (fun n => n == id) Config.tileTlbEntries (victim Config.tileTlbEntries) id e
    s.setCtx { c with dieTlb := dies, tileTlb := tiles }
  | none =>
    if (tlbFind s.hubTlb c.pasid e.va).isSome then s
    else { s with hubTlb := tlbKeep s.hubTlb (fun _ => true) Config.hubTlbEntries (victim Config.hubTlbEntries) c.pasid e }

/-- Every cached translation of a context that a range covers is dropped (R334). -/
def State.dropTlb (s : State) (p : Nat) (gone : TlbEntry → Bool) : State :=
  { s with contexts := s.contexts.map (fun c =>
             if c.pasid == p then { c with tileTlb := c.tileTlb.filter (fun x => !gone x.2),
                                           dieTlb := c.dieTlb.filter (fun x => !gone x.2) } else c),
           hubTlb := s.hubTlb.filter fun x => !(x.1 == p && gone x.2) }

/-! Physical addresses. -/

/-- Whether a local physical address lies in a firmware-reserved range (R330). -/
def State.reservedPa (s : State) (a : Nat) : Bool := s.board.reserved.any fun r => decide (r.1 ≤ a) && decide (a < r.2)

/-- Whether n bytes of HBM from a local address run into a reserved range, or past the end of the stack (R330). -/
def State.leavesStorage (s : State) (pa n : Nat) : Bool :=
  s.board.reserved.any (fun r => overlaps pa n r.1 (r.2 - r.1)) || decide (Config.stackBytes < pa % 2 ^ 36 + n)

/-- Where an access is performed (R330, R336): at this module's home, at another module's, nowhere because a cause is
raised, or not yet, because a page request is outstanding. -/
inductive Reach where
  | home (pa : Nat)
  | away (pa : Nat)
  | fault (c : Cause)
  | wait
deriving DecidableEq, Repr

/-- The check of a translated physical address (R330). -/
def State.place (s : State) (c : Context) (pa : Nat) : Reach :=
  let p := s.partition c.part
  let die := fld pa 36 4 / 2
  if !paFormed pa then .fault .perm
  else if paModule pa ≠ s.board.position then (if Config.inGroup (paModule pa) then .away pa else .fault .perm)
  else if die < p.1 ∨ p.1 + 2 ^ p.2 ≤ die ∨ s.reservedPa (localPa pa) then .fault .perm
  else .home (localPa pa)

/-- Where an access through a page is performed. -/
def State.through (s : State) (c : Context) (e : TlbEntry) (va : Nat) (k : AccKind) : Reach :=
  if e.allows k then s.place c (e.pa + (va - e.va)) else .fault .perm

/-! Page requests (R335). -/

def AccKind.code : AccKind → Nat
  | .read => 0 | .write => 1 | .atomic => 2

/-- AGENT and TILE of a page request record. -/
def Agent.code : Agent → Nat
  | .farPath _ => 0 | .copyEngine _ => 1 | .hubCopy => 2 | .frontEnd => 3

def Agent.tileId : Agent → Nat
  | .farPath t => t
  | .copyEngine t => t
  | _ => 0xFFFF

/-- The 32 bytes of a page request record. -/
def requestRecord (c : Context) (r : PageReq) (phase : Nat) : List Byte :=
  bytesOfNat 8 (r.num % 2 ^ 32 * 2 ^ 32 + Agent.tileId r.agent * 65536 + Agent.code r.agent * 16 + AccKind.code r.kind * 2 + phase) ++
    bytesOfNat 8 (r.granule * 65536) ++ bytesOfNat 8 (c.gen * 2 ^ 20 + c.pasid) ++ bytesOfNat 8 0

/-- Requests whose record is written and not answered: they fill the ring. -/
def Context.outstanding (c : Context) : Nat := (c.requests.filter fun r => r.written.isSome).length

/-- Write the records that fit, in order: while the queue is full, requests wait (R335). -/
def State.writeRequests (s : State) (p : Nat) : List PageReq → State
  | [] => s
  | r :: more =>
    match s.ctx? p with
    | none => s
    | some c =>
      if r.written.isSome then State.writeRequests s p more
      else if 2 ^ c.evqLog ≤ c.outstanding then s
      else
        let a := localPa (c.evq + 32 * (c.evqIdx % 2 ^ c.evqLog))
        let phase := 1 - c.evqIdx / 2 ^ c.evqLog % 2
        let c1 := { c with
          evqIdx := c.evqIdx + 1,
          requests := c.requests.map fun q => if q.num = r.num then { q with written := some s.cycle } else q }
        State.writeRequests ((s.setCtx c1).hbmWrite a (requestRecord c r phase)) p more

/-- Write what fits of the requests of a context. -/
def State.postRequests (s : State) (p : Nat) : State :=
  match s.ctx? p with
  | some c => s.writeRequests p c.requests
  | none => s

/-- Raise a page request (R335): one for each context, granule and kind. -/
def State.requestPage (s : State) (p : Nat) (a : Agent) (granule : Nat) (k : AccKind) : State :=
  match s.ctx? p with
  | none => s
  | some c =>
    if c.requests.any fun r => r.granule == granule && r.kind == k then s
    else
      (s.setCtx { c with requests := c.requests ++ [⟨c.nextReq, a, granule, k, none, none⟩],
                         nextReq := (c.nextReq + 1) % 2 ^ 32 }).postRequests p

/-- Whether a request for a granule and a kind of access is outstanding. -/
def Context.requested (c : Context) (granule : Nat) (k : AccKind) : Bool := c.requests.any fun r => r.granule == granule && r.kind == k

/-- Where an access of an agent leads: from its caches, or by a walk whose page is kept (R333); a page that is not
present is requested, and the access waits until the request has its answer (R335). -/
def State.reach (s : State) (p : Nat) (a : Agent) (va : Nat) (k : AccKind) : State × Reach :=
  match s.ctx? p with
  | none => (s, .fault .xlate)
  | some c =>
    match s.cachedFor c a va with
    | some e => (s.keep c a e, s.through c e va k)
    | none =>
      if c.requested (va / 65536) k then (s, .wait)
      else
        let s1 := s.walked c va
        match s.walk c va with
        | .page e => (s1.keep c a e, s.through c e va k)
        | .absent => (s1.requestPage p a (va / 65536) k, .wait)
        | .bad cause => (s1, .fault cause)

/-! The collective table of a launch (R347 to R349). -/

def Launch.entry? (l : Launch) (e : Nat) : Option CollEntry := l.coll.find? fun x => x.num == e

/-- CBASE of an entry. -/
def CollEntry.cbase (e : CollEntry) : Nat := fld (e.words.get 1) 0 57

/-- Where a contribution byte lies in virtual space, none when the entry is not valid (R348). -/
def State.contribution (s : State) (l : LaunchKey) (e k off : Nat) : Option Nat :=
  match (s.launch? l).bind fun x => x.entry? e with
  | some c => if c.valid then some ((c.cbase + 0x20000 * k + off) % 2 ^ 57) else none
  | none => none

/-- The virtual address at which an access of a tile is performed, of a contribution too (R142, R348). -/
def State.virtOf (s : State) (t : Tile) (a : Nat) : Option Nat :=
  match farTarget t.grid a with
  | .virt va => some va
  | .aperture e o =>
    match apertureOf e o with
    | .contrib k b => s.contribution t.launchKey e k b
    | _ => none
  | _ => none

/-! Scope units (R277). -/

/-- Whether a virtual address is homed in the HBM of a die of this module (R276, R277): none where its page is not known yet, on
which the spec is silent; the model then takes it to lie in the unit until it is (log entry 20). -/
def State.homeDie (s : State) (c : Context) (id va : Nat) : Option (Option Nat) :=
  let page := (s.cachedFor c (.farPath id) va).orElse fun _ =>
    match s.walk c va with
    | .page e => some e
    | _ => none
  page.map fun e =>
    let pa := e.pa + (va - e.va)
    if paModule pa = s.board.position then some (fld pa 36 4 / 2) else none

/-- Whether a location lies within the scope unit of a tile that stands in a gang given by first id and size (R265, R277). -/
def State.inScope (s : State) (t : Tile) (gang : Nat × Nat) (sc : Scope) (a : Nat) : Bool :=
  match farTarget t.grid a with
  | .window id _ =>
    match sc with
    | .tile => id == t.key.id
    | .gang => decide (gang.1 ≤ id) && decide (id < gang.1 + gang.2)
    | .quad => quadOf id == quadOf t.key.id
    | .die => id / 160 == t.key.id / 160
    | .pkg | .sys => true
  | .virt va =>
    match sc, s.ctx? t.key.pasid with
    | .die, some c =>
      match s.homeDie c t.key.id va with
      | some d => d == some (s.dieOf c t.key.id)
      | none => true
    | .pkg, some c =>
      match s.homeDie c t.key.id va with
      | some d => d.isSome
      | none => true
    | .sys, _ => true
    | _, _ => false
  | .aperture _ _ =>
    match sc with
    | .pkg | .sys => true
    | _ => false
  | _ => false

/-- Far accesses of the tile issued before a point and not yet performed, within a scope unit (R286, R288). -/
def State.openBefore (s : State) (t : Tile) (gang : Nat × Nat) (sc : Scope) (upto : Nat) (loads : Bool) : Bool :=
  t.far.any fun f => decide (f.num < upto) && f.stage == FarStage.open && s.inScope t gang sc f.addr &&
    (match f.kind with
      | .load8 | .loadV => loads
      | .acq => false
      | .bar _ => f.wait.isSome
      | _ => true)

/-! What a release covers (R283, R300). -/

/-- Whether an access writes: a store, a non-local atomic, or an arrival on a barrier word, which is one (R289, R299). -/
def FarKind.writes : FarKind → Bool
  | .store _ | .atom _ _ _ _ | .bar _ => true
  | _ => false

/-- The regions of an object (R281): those of every binding that names it. -/
def objectRegions (bs : List Binding) (b : Nat) : List (Nat × Nat) :=
  match bs[b]? with
  | some o => (bs.filter fun x => x.obj == o.obj && x.okind == o.okind).map fun x => (x.rbase, x.rsize * 256)
  | none => []

/-- The scope of a binding (R277, R281). -/
def bindingScope (bs : List Binding) (b : Nat) : Scope := scopeOf (((bs[b]?).map fun x => x.scope).getD 0)

/-- Whether a REL of a tile through a binding, issued after the accesses below a number, covers a write that is still open (R283): one to
a region of its object within the scope unit of the binding, for the gang of the REL's issue tick (R265). -/
def State.coversOpen (s : State) (t : Tile) (bs : List Binding) (b : Nat) (gang : Nat × Nat) (upto : Nat) : Bool :=
  t.far.any fun f => decide (f.num < upto) && f.stage == FarStage.open && f.kind.writes &&
    s.inScope t gang (bindingScope bs b) f.addr &&
    (objectRegions bs b).any fun r => overlaps ((s.virtOf t f.addr).getD f.addr) f.kind.size r.1 r.2

/-- Whether the release of a TRIG or an EXIT at a tick still waits for a write to this module (R300, R308). -/
def State.releaseOpen (s : State) (t : Tile) (tick : Nat) : Bool :=
  t.far.any fun f => decide (f.issue ≤ tick) && f.stage == FarStage.open && f.kind.writes &&
    s.inScope t (t.gang.first, t.gang.size) .pkg f.addr

end Sys2Proof.Machine
end

