-- ==== Sys2Proof/Machine/Arrival.lean ====
section
/-! DEFINITION. The untimed far path (R142 to R149, R160 to R162, R276 to R291): far accesses performed unit by unit at
their homes, the far-read buffer, messages on their links, the reads of waits, the copy engine's elements. -/

namespace Sys2Proof.Machine

/-! Free choices. -/

/-- One of n choices that the spec leaves open (log entry 4). -/
def State.pick (s : State) (n : Nat) : Nat := Config.choose s.fresh n % max 1 n

def State.tickFresh (s : State) : State := { s with fresh := s.fresh + 1 }

/-- The scratchpad of every tile of a context exists, armed or not. -/
def State.ensureTile (s : State) (k : TileKey) : State :=
  if (s.tile? k).isSome then s else { s with others := s.others ++ [Tile.blank k] }

/-! Units and their order. -/

/-- Address and size of a unit of a far access (R279). -/
def FarOp.unitAt (f : FarOp) (grid u : Nat) : Nat × Nat :=
  let n := unitSize grid f.addr f.kind.size
  (f.addr + u * n, n)

/-- Address and size at which a unit is performed: one of a contribution lies in virtual space (R348). -/
def State.unitHome (s : State) (t : Tile) (f : FarOp) (u : Nat) : Nat × Nat :=
  let r := f.unitAt t.grid u
  ((s.virtOf t r.1).getD r.1, r.2)

/-- Whether a unit still open of an access lies on some bytes. -/
def State.openOn (s : State) (t : Tile) (g : FarOp) (r : Nat × Nat) : Bool :=
  g.stage == FarStage.open && g.left.any fun v => overlaps (s.unitHome t g v).1 (s.unitHome t g v).2 r.1 r.2

/-- Whether every earlier access of the tile to these bytes has been performed (R145, R280). -/
def State.inOrder (s : State) (t : Tile) (f : FarOp) (u : Nat) : Bool :=
  t.far.all fun g => decide (f.num ≤ g.num) || !s.openOn t g (s.unitHome t f u)

/-- The permission an access needs (R332). -/
def FarKind.access : FarKind → AccKind
  | .load8 | .loadV | .acq => .read
  | .store _ => .write
  | .atom _ _ _ _ | .bar _ | .rel _ _ => .atomic

/-! Ends of a far access on its tile. -/

/-- The datum of a landing arrives (R22); a landing that is gone discards it (R29). -/
def Tile.deliver (t : Tile) (n : Nat) (a : Arrival) : Tile :=
  { t with landings := t.landings.map fun l => if l.num = n then { l with got := some a } else l }

def Tile.dropFar (t : Tile) (f : FarOp) : Tile := { t with far := t.far.filter fun g => g.num != f.num }

def Tile.setFar (t : Tile) (f : FarOp) : Tile := { t with far := t.far.map fun g => if g.num = f.num then f else g }

/-- The access has been performed: its datum arrives. -/
def Tile.finishFar (t : Tile) (f : FarOp) (a : Option Arrival) : Tile :=
  match f.landing, a with
  | some n, some x => (t.dropFar f).deliver n x
  | _, _ => t.dropFar f

/-- The access has met a fault (R146, R162, R297): it arrives at the landing, at the wait, or is recorded in issue
order. -/
def Tile.failFar (t : Tile) (f : FarOp) (c : Cause) : Tile :=
  let tr := addrTrap c f.pos f.addr
  let u := t.dropFar f
  match f.landing, f.wait with
  | some n, _ => u.deliver n (.fault c tr.info)
  | none, some w => { u with waits := u.waits.map fun x => if x.num = w then { x with fault := some tr } else x }
  | none, none =>
    if f.kind.unreturned then { u with faults := insertBy (fun x => x.num) ⟨f.num, c, tr.info⟩ u.faults } else u

/-- The bytes read so far, in address order. -/
def FarOp.gathered (f : FarOp) : List Byte := (sortBy (fun x => x.1) f.part).flatMap fun x => x.2

/-- What a performed load brings. -/
def FarOp.loaded (f : FarOp) : Arrival :=
  match f.kind with
  | .loadV => .bytes f.gathered
  | _ => .word (word (natOfBytes f.gathered)) none

/-- One unit of a load has been read; the last one ends it, or leaves the reply of a window on its way. -/
def Tile.readUnit (t : Tile) (f : FarOp) (u : Nat) (bs : List Byte) (window : Bool) : Tile :=
  let g := { f with left := f.left.erase u, part := f.part ++ [(u, bs)], since := none }
  if g.left.isEmpty then (if window then t.setFar { g with stage := .done } else t.finishFar g (some g.loaded))
  else t.setFar g

/-- One unit of a store has been performed. -/
def Tile.wroteUnit (t : Tile) (f : FarOp) (u : Nat) : Tile :=
  let g := { f with left := f.left.erase u, since := none }
  if g.left.isEmpty then t.dropFar f else t.setFar g

/-! The far-read buffer (R145). -/

def Tile.line (t : Tile) (a : Nat) : Option (List Byte) := (t.buffer.find? fun l => l.1 == a / 256 * 256).map (·.2)

def Tile.dropLine (t : Tile) (a : Nat) : Tile := { t with buffer := t.buffer.filter fun l => l.1 != a / 256 * 256 }

/-- A line read at home enters the buffer; in a full buffer it takes the place of one that a free choice names (R12, log entry 30). -/
def Tile.fillLine (t : Tile) (victim a : Nat) (bs : List Byte) : Tile :=
  let kept := (t.dropLine a).buffer
  { t with bufferBad := t.bufferBad.filter (fun g => g / 32 != a / 256), buffer := (if kept.length < Config.bufferLines then kept else kept.eraseIdx (victim % Config.bufferLines)) ++
             [(a / 256 * 256, bs)] }

/-- A performed store of the tile's own reaches its own line: no copy is staler than the tile's stores. -/
def Tile.patchLine (t : Tile) (a : Nat) (bs : List Byte) : Tile :=
  { t with bufferBad := t.bufferBad.filter (fun g => !(decide (a ≤ g * 8) && decide (g * 8 + 8 ≤ a + bs.length))), buffer := t.buffer.map fun l =>
      if l.1 = a / 256 * 256 then (l.1, l.2.take (a % 256) ++ bs ++ l.2.drop (a % 256 + bs.length)) else l }

/-! A unit at its home. -/

/-- The value that an ACQ reads (R284, R297). -/
def Tile.acqRead (t : Tile) (f : FarOp) (v : Nat) : Tile :=
  let met (w : Wait) : Bool := some w.num == f.wait && (match w.kind with
    | .acq _ n _ => decide (n ≤ v)
    | _ => false)
  let upd (w : Wait) : Wait :=
    if met w then
      (match w.kind with
        | .acq b n _ => { w with kind := .acq b n true }
        | _ => w)
    else w
  if t.waits.any met then { t.dropFar f with waits := t.waits.map upd } else t

/-- A unit at a physical address of this module (R278, R279), a the address in virtual space. R380 gives SECDED at the controller and
not the width of its word: the model takes 8 bytes (DESIGN CHOICE, log entry 65), so that FST and FSTV write whole words and the
ECCUE in a read-modify-write that R146 names for them does not arise. What a tile reads at the home outdates its line (R280). Whether a
unit that is read brings its whole line at once is free (log entry 30): where it does not, the other units of an FLDV are read at
their own times (R279). -/
def State.homeUnit (s : State) (k : TileKey) (f : FarOp) (u a n pa : Nat) : State :=
  let fail := s.onKey k fun t => t.failFar f .eccue
  match f.kind with
  | .load8 | .loadV =>
    if s.hbmPoisoned pa n then fail
    else
      let lpa := pa - a % 256
      let c := s.pick (2 * Config.bufferLines)
      let fill (t : Tile) : Tile :=
        if s.hbmPoisoned lpa 256 || decide (Config.bufferLines ≤ c) then t.dropLine a else t.fillLine c a (Mem.read s.hbm lpa 256)
      s.onKey k fun t => (fill t).readUnit f u (Mem.read s.hbm pa n) false
  | .store bs =>
    let part := (bs.drop (u * n)).take n
    (s.hbmWrite pa part).onKey k fun t => (t.patchLine a part).wroteUnit f u
  | .atom op v v2 _ =>
    if s.hbmPoisoned pa 8 then fail
    else
      let old := Mem.readWord s.hbm pa
      let r := atomResult op old v v2
      let s1 := if atomWrites op old v v2 then s.hbmWrite pa (bytesOfNat 8 r.1.toNat) else s
      s1.onKey k fun t => (t.dropLine a).finishFar f (some (.word old (some r.2)))
  | .rel _ _ =>
    if s.hbmPoisoned pa 8 then fail
    else (s.hbmWrite pa (bytesOfNat 8 (Mem.readWord s.hbm pa + 1).toNat)).onKey k fun t => (t.dropLine a).dropFar f
  | .acq =>
    if s.hbmPoisoned pa 8 then fail else s.onKey k fun t => (t.dropLine a).acqRead f (Mem.readNat s.hbm pa 8)
  | .bar _ => s

/-- Free bytes from another module (log entry 14). -/
def State.awayBytes (s : State) (n : Nat) : List Byte := (List.range n).map fun i => Config.remoteByte s.draws i

/-- A unit at another module (R357, R358): the request leaves, and at a later event it has been performed there. -/
def State.awayUnit (s : State) (k : TileKey) (f : FarOp) (u n pa : Nat) : State :=
  let v := s.awayBytes n
  let w := word (natOfBytes v)
  let s1 := { s with draws := s.draws + 1 }
  let out (r : RemoteReq) : State := { s1 with remoteOut := s1.remoteOut ++ [r] }
  match f.kind with
  | .atom .incw _ _ _ => s.onKey k fun t => t.failFar f .perm
  | .atom .faab _ _ _ => s.onKey k fun t => t.failFar f .perm
  | kind =>
    if f.since.isNone then s.onKey k fun t => t.setFar { f with since := some s.cycle }
    else
      match kind with
      | .load8 | .loadV => (out (.read pa n)).onKey k fun t => t.readUnit f u v false
      | .store bs => (out (.write pa ((bs.drop (u * n)).take n))).onKey k fun t => t.wroteUnit f u
      | .atom op x y _ => (out (.atomic pa op x y)).onKey k fun t => t.finishFar f (some (.word w (some false)))
      | .rel _ _ => (out (.atomic pa .add 1 0)).onKey k fun t => t.dropFar f
      | .acq => (out (.read pa n)).onKey k fun t => (t.setFar { f with since := none }).acqRead f (natOfBytes v)
      | .bar _ => s

/-- Note the touch of a far access on a tile's guard granules, once for the access (R155, R156). -/
def Tile.touchFar (t : Tile) (src agent a n : Nat) (first : Bool) : Tile :=
  if first then { t with spad := t.spad.note src agent a n } else t

/-- A barrier arrival through a window: the generation before it, and whether it has met its own condition (R299). -/
def Tile.barArrived (t : Tile) (f : FarOp) (g0 g1 : Nat) : Tile :=
  let upd (w : Wait) : Wait :=
    if some w.num = f.wait then
      (match w.kind with
        | .bar l x _ _ _ => { w with kind := .bar l x g0 true (g1 != g0) }
        | _ => w)
    else w
  { t.dropFar f with waits := t.waits.map upd }

/-- AGENT of a touch by a far access at a window (R156): by the tile itself 0, or 1 when it is an atomic; by another tile 3. R156 names
load and store syllables for 0 and atomics for 1 and neither the reads of an ACQ nor the increment of a REL through the tile's own
window: the model takes the one for a load and the other, "one atomic step" by R283, for an atomic (DESIGN CHOICE, log entry 66). -/
def touchAgent (k o : TileKey) (kind : FarKind) : Nat :=
  if k = o then (match kind with
    | .atom _ _ _ _ | .rel _ _ => 1
    | _ => 0)
  else 3

/-- A unit at the bank of a tile, between two of that tile's ticks (R161). Each read of an ACQ is an access of its own that touches a
guard granule (R155); the later reads of a waiting BAR are not counted (DESIGN CHOICE, log entry 66). An arrival that no wait
stands behind, that of a ganged drain, writes the sum on a poisoned word as the engine's own arrival does (log entry 45). -/
def State.windowUnit (s : State) (k : TileKey) (f : FarOp) (u id n : Nat) : State :=
  let o : TileKey := ⟨k.pasid, id⟩
  let s0 := s.ensureTile o
  let base := fld f.addr 0 21
  let a := base + u * n
  let first := f.left.length * n == f.kind.size
  let s1 := s0.onKey o fun t => t.touchFar k.id (touchAgent k o f.kind) base f.kind.size first
  let sp := ((s0.tile? o).getD s0.tile).spad
  let fail (x : State) : State := x.onKey k fun t => t.failFar f .eccue
  match f.kind with
  | .load8 | .loadV =>
    if sp.poisoned a n then fail s1 else s1.onKey k fun t => t.readUnit f u (sp.readBytes a n) true
  | .store bs =>
    (s1.onKey o fun t => { t with spad := t.spad.write a ((bs.drop (u * n)).take n) }).onKey k fun t => t.wroteUnit f u
  | .atom op v v2 _ =>
    if sp.poisoned a 8 then fail s1
    else
      let old := if sp.marked a then 0 else Mem.readWord sp.mem a
      let r := atomResult op old v v2
      let s2 := if sp.marked a || !atomWrites op old v v2 then s1
        else s1.onKey o fun t => { t with spad := t.spad.write a (bytesOfNat 8 r.1.toNat) }
      s2.onKey k fun t =>
        t.setFar { f with stage := .done, left := [], part := [(0, bytesOfNat 8 old.toNat), (1, [if r.2 then 1 else 0])] }
  | .rel _ _ =>
    if sp.poisoned a 8 then fail s1
    else
      let old := if sp.marked a then 0 else Mem.readWord sp.mem a
      (s1.onKey o fun t => if sp.marked a then t else { t with spad := t.spad.write a (bytesOfNat 8 (old + 1).toNat) }).onKey k
        fun t => t.dropFar f
  | .acq =>
    if sp.poisoned a 8 then fail s1
    else s1.onKey k fun t => t.acqRead f (if sp.marked a then 0 else Mem.readNat sp.mem a 8)
  | .bar m =>
    if sp.poisoned a 8 && f.wait.isSome then fail s1
    else
      let sp1 := sp.arrive k.id a m
      (s0.onKey o fun t => { t with spad := sp1 }).onKey k fun t => t.barArrived f (sp.generation a) (sp1.generation a)

/-! The collective table of a launch (R347 to R349). -/

/-- A unit of a store into the aperture (R347, R348): to a contribution it is performed in virtual space; FSTV to the table or to
a ready flag is PERM. -/
def State.apertureStore (s : State) (k : TileKey) (l : LaunchKey) (f : FarOp) (u n e off : Nat) : Option State :=
  match apertureOf e off with
  | .contrib j o =>
    match s.contribution l e j o with
    | none => some (s.onKey k fun t => t.failFar f .perm)
    | some va =>
      match s.reach k.pasid (.farPath k.id) va .write with
      | (s1, .home pa) => some (s1.homeUnit k f u va n pa)
      | (s1, .away pa) => some (s1.awayUnit k f u n pa)
      | (s1, .fault c) => some (s1.onKey k fun t => t.failFar f c)
      | (s1, .wait) => some s1
  | _ => if f.kind.size = 256 then some (s.onKey k fun t => t.failFar f .perm) else none

/-! One event of a far access. -/

/-- Perform one unit of a far access, chosen among those that its order allows (R279, R280); data struck in the write combiner are met where
they leave it (R380). -/
def State.farUnit (s : State) (t : Tile) (f : FarOp) (u : Nat) : Option State :=
  let k := t.key
  let r := f.unitAt t.grid u
  if f.bad then some (s.onKey k fun t => t.failFar f .eccue)
  else match farTarget t.grid r.1 with
  | .window id _ => some (s.windowUnit k f u id r.2)
  | .virt va =>
    match s.reach k.pasid (.farPath k.id) va f.kind.access with
    | (s1, .home pa) => some (s1.homeUnit k f u va r.2 pa)
    | (s1, .away pa) => some (s1.awayUnit k f u r.2 pa)
    | (s1, .fault c) => some (s1.onKey k fun t => t.failFar f c)
    | (s1, .wait) => some s1
  | .aperture e o =>
    match f.kind with
    | .store _ => s.apertureStore k t.launchKey f u r.2 e o
    | _ => none
  | _ => none

/-- The tile's own latest earlier store to the bytes of a unit, still in its write combiner (R145, R280): the bytes it forwards when it
holds them all. -/
def State.forwarded (s : State) (t : Tile) (f : FarOp) (u : Nat) : Option (List Byte) :=
  let r := s.unitHome t f u
  let before := t.far.filter fun g => decide (g.num < f.num) && s.openOn t g r
  match before.getLast? with
  | some g =>
    match g.kind with
    | .store bs =>
      let a := (s.virtOf t g.addr).getD g.addr
      if a ≤ r.1 ∧ r.1 + r.2 ≤ a + bs.length then some ((bs.drop (r.1 - a)).take r.2) else none
    | _ => none
  | none => none

/-- Whether a unit of a load from virtual space finds its line in the far-read buffer, which then serves it (R280). -/
def State.hits (s : State) (t : Tile) (f : FarOp) (u : Nat) : Bool :=
  f.kind.isLoad && s.inOrder t f u && (match farTarget t.grid (f.unitAt t.grid u).1 with
    | .virt va => (t.line va).isSome
    | _ => false)

/-- What the tile holds of a unit of a load from virtual space: its own stores, before its line of the far-read buffer (R145). -/
def State.served (s : State) (t : Tile) (f : FarOp) (u : Nat) : Option (List Byte) :=
  let r := f.unitAt t.grid u
  match f.kind.isLoad, farTarget t.grid r.1 with
  | true, .virt va =>
    if s.inOrder t f u then (t.line va).map fun bs => (bs.drop (va % 256)).take r.2 else s.forwarded t f u
  | _, _ => none

/-- Whether the word that would serve a unit has an uncorrectable error (R380): of the far-read buffer, or of the write combiner. -/
def State.serverStruck (s : State) (t : Tile) (f : FarOp) (u : Nat) : Bool :=
  if s.inOrder t f u then t.bufferBad.any fun g => overlaps (g * 8) 8 (f.unitAt t.grid u).1 (f.unitAt t.grid u).2
  else t.far.any fun g => decide (g.num < f.num) && g.bad && s.openOn t g (s.unitHome t f u)

/-- A unit that the tile itself serves: it is translated as any access is, and fails as one that is not (R330, R332), or with the error
of its word. -/
def State.serveUnit (s : State) (t : Tile) (f : FarOp) (u : Nat) (bs : List Byte) : State :=
  match s.reach t.key.pasid (.farPath t.key.id) (f.unitAt t.grid u).1 .read with
  | (s1, .fault c) => s1.onKey t.key fun t => t.failFar f c
  | (s1, .wait) => s1
  | (s1, _) => s1.onKey t.key fun v => if s.serverStruck t f u then v.failFar f .eccue else v.readUnit f u bs false

/-- Whether an access has left its tile: it does not act at its own issue tick. -/
def Tile.sent? (t : Tile) (f : FarOp) : Bool := f.stage == FarStage.open && (decide (f.issue < t.tick) || t.phase != Phase.running)

/-- One event of an access that is still open: a unit served on the tile, or one performed at its home, where no unit of a load goes
that finds its line in the buffer (R280). -/
def State.farEvent (s : State) (t : Tile) (f : FarOp) (buffered : Bool) : Option State :=
  if !t.sent? f then none
  else if buffered then
    let us := f.left.filterMap fun u => (s.served t f u).map fun bs => (u, bs)
    (us[s.pick us.length]?).map fun x => s.tickFresh.serveUnit t f x.1 x.2
  else
    let us := f.left.filter fun u => s.inOrder t f u && !s.hits t f u
    (us[s.pick us.length]?).bind fun u => s.tickFresh.farUnit t f u

/-- The access of a number. -/
def Tile.farOp (t : Tile) (n : Nat) : Option FarOp := t.far.find? fun f => f.num == n

/-- Run an event on an access of a tile. -/
def State.onFar (s : State) (k : TileKey) (n : Nat) (ok : Tile → FarOp → Bool) (f : Tile → FarOp → Option State) :
    Host.Outcome State Fault Refusal :=
  match s.tile? k with
  | none => .fault .noSuchObject
  | some t =>
    match t.farOp n with
    | none => .refused .notEnabled
    | some o =>
      if ok t o then
        match f t o with
        | some s1 => .next s1
        | none => .refused .notEnabled
      else .refused .notEnabled

/-- Whether an access leads to a tile window. -/
def FarOp.isWindow (f : FarOp) (grid : Nat) : Bool :=
  match farTarget grid f.addr with
  | .window _ _ => true
  | _ => false

/-- What a reply from a window brings. -/
def FarOp.reply (f : FarOp) : Arrival :=
  match f.kind with
  | .atom _ _ _ _ => .word (word (natOfBytes (f.part.headD (0, [])).2)) (some (((f.part.drop 1).headD (0, [])).2.headD 0 == 1))
  | _ => f.loaded

/-- LANDING_ARRIVAL (R22, R143, R145, R160): a unit of a load or of an atomic that returns a value is performed at the
home in virtual space or served by the buffer, and the last one brings the datum; or the reply from a window arrives. -/
def execLandingArrival (k : TileKey) (n : Nat) (buffered : Bool) (s : State) : Host.Outcome State Fault Refusal :=
  s.onFar k n (fun t f => f.stage == FarStage.done || (f.landing.isSome && !f.isWindow t.grid))
    (fun t f =>
      if f.stage = .done then some (s.onKey k fun t => t.finishFar f (some f.reply))
      else s.farEvent t f buffered)

/-- FAR_STORE_PERFORM (R144, R278): a unit of a far store, or an atomic that returns nothing, at its home in virtual
space or in the aperture. -/
def execFarStorePerform (k : TileKey) (n : Nat) (s : State) : Host.Outcome State Fault Refusal :=
  s.onFar k n
    (fun t f => f.landing.isNone && !f.isWindow t.grid && (match f.kind with
      | .store _ => true
      | .atom _ _ _ _ => true
      | _ => false))
    (fun t f => s.farEvent t f false)

/-- REMOTE_ACCESS_APPLY (R161): a unit of an access through a tile window at the owning bank. -/
def execRemoteAccessApply (k : TileKey) (n : Nat) (s : State) : Host.Outcome State Fault Refusal :=
  s.onFar k n
    (fun t f => f.isWindow t.grid && (match f.kind with
      | .acq => false
      | .rel _ _ => false
      | _ => true))
    (fun t f => s.farEvent t f false)

/-- REL_INCREMENT (R283): the object word is incremented at its home once every write that the REL covers has been performed. -/
def execRelIncrement (k : TileKey) (n : Nat) (s : State) : Host.Outcome State Fault Refusal :=
  s.onFar k n
    (fun t f => match f.kind with
      | .rel b gang => !s.coversOpen t (s.bindingsOf t) b gang f.num
      | _ => false)
    (fun t f => s.farEvent t f false)

/-! Waits. -/

/-- A read of a remote barrier word after the arrival (R299). The touch of a guard granule is that of the arrival alone: whether the
later reads count as touches too is not said (R155; DESIGN CHOICE, log entry 66). -/
def State.barRead (s : State) (t : Tile) (w : Wait) (a g0 : Nat) : State :=
  match farTarget t.grid a with
  | .window id off =>
    let sp := (((s.ensureTile ⟨t.key.pasid, id⟩).tile? ⟨t.key.pasid, id⟩).getD t).spad
    let g := sp.generation off
    s.onKey t.key fun u => { u with waits := u.waits.map fun x =>
      if x.num = w.num then
        (if sp.poisoned off 8 then { x with fault := some (addrTrap .eccue w.pos a) }
         else { x with kind := .bar false a g0 true (g != g0) })
      else x }
  | _ => s

/-- Whether a wait is still reading at its home. -/
def Wait.reading (w : Wait) : Bool :=
  w.fault.isNone && (match w.kind with
    | .acq _ _ met => !met
    | .bar l _ _ arrived met => !l && arrived && !met
    | _ => false)

/-! Messages (R26, R27, R147). -/

/-- Whether a message has been cancelled with its RECV (R29, R310): its number was claimed, and neither a landing nor a
released claim names it. -/
def Tile.cancelled (t : Tile) (m : Message) : Bool :=
  let key := m.src * 16 + m.chan
  decide (m.num < assocGet t.received key 0) && !t.claims.contains (key, m.num) &&
    !t.landings.any fun l => match l.dest with
      | .recv _ _ src chan num _ => src == m.src && chan == m.chan && num == m.num
      | _ => false

/-- Take the first message of a flow off the link. -/
def Launch.unlink (l : Launch) (m : Message) : Launch := { l with links := l.links.erase m }

/-- The next message of a flow leaves its link for the Basin or the skid buffer (R27). -/
def State.linkArrival (s : State) (t : Tile) (src chan : Nat) : Host.Outcome State Fault Refusal :=
  match s.launch? t.launchKey with
  | none => .refused .notEnabled
  | some l =>
    match l.links.find? fun m => m.dst == t.key.id && m.src == src && m.chan == chan with
    | none => .refused .notEnabled
    | some m =>
      let s1 := s.setLaunch (l.unlink m)
      if t.cancelled m then .next s1
      else if t.skid.isEmpty && !t.basinFull then .next (s1.onKey t.key fun u => { u with basin := u.basin ++ [m] })
      else if t.skid.length < Config.skidEntries then .next (s1.onKey t.key fun u => { u with skid := u.skid ++ [m] })
      else .refused .notEnabled

/-- MESSAGE_ARRIVAL (R27): the oldest message of the skid buffer moves into the Basin, or the next one of a flow leaves
its link for the Basin or the skid buffer. -/
def execMessageArrival (k : TileKey) (src chan : Nat) (s : State) : Host.Outcome State Fault Refusal :=
  match s.tile? k with
  | none => .fault .noSuchObject
  | some t =>
    match t.skid with
    | m :: rest =>
      if m.src == src && m.chan == chan && !t.basinFull then
        .next (s.onKey k fun u => { u with skid := rest, basin := u.basin ++ [m] })
      else s.linkArrival t src chan
    | [] => s.linkArrival t src chan

end Sys2Proof.Machine
end

