-- ==== Sys2Proof/Machine/CopyMove.lean ====
section
/-! DEFINITION. The copy engine at work (R252 to R254, R260, R288): elements moved unit by unit, faults, completions of
untimed commands; the end of accesses that wait for a page or for a remote path (R335, R336, R358). -/

namespace Sys2Proof.Machine

/-! When a command may run. -/

/-- Commands of the tile with ordered delivery on a flow that were pushed earlier and have not ended (R253). -/
def Tile.flowBusy (t : Tile) (c : CopyCmd) : Bool :=
  cmdOrd c.words && t.queues.any fun q => q.cmds.any fun e =>
    decide (e.upto < c.upto) && cmdOrd e.words && cmdFlow e.words == cmdFlow c.words && e.stage == CopyStage.running

/-- Whether every earlier command of its queue has started (R247). -/
def CopyQueue.turnOf (q : CopyQueue) (c : CopyCmd) : Bool :=
  q.cmds.all fun e => decide (c.num ≤ e.num) || e.started || e.stage != CopyStage.running

/-- Whether the page request at which a command pauses is still outstanding with the host (R260, R341). -/
def State.asked (s : State) (t : Tile) (c : CopyCmd) : Bool :=
  match c.paused, s.ctx? t.key.pasid with
  | some g, some x => x.requested g.1 g.2
  | _, _ => false

/-- Whether the engine may work on a command now (R247, R253, R260, R288, R341): it runs and is not stopped, its turn has come, its
flow and its acquire let it go on, and no page request holds it. -/
def State.mayRun (s : State) (t : Tile) (q : CopyQueue) (c : CopyCmd) : Bool :=
  c.stage == CopyStage.running && !c.halted && (decide (c.issue < t.tick) || t.phase != Phase.running) && q.turnOf c &&
    !t.flowBusy c && !(cmdAcq c.words && s.openBefore t c.gang (scopeOf (cmdScope c.words)) c.upto false) && !s.asked t c

/-! Stopping or draining the commands of a tile (R341). -/

/-- Bytes a command still has to move (R341). -/
def CopyCmd.rest (c : CopyCmd) : Nat := (cmdElems c.words - c.prog) * cmdSize c.words

/-- The commands of a tile that are at work, with their queues, in queue order and push order. -/
def Tile.copiesAtWork (t : Tile) : List (Nat × CopyCmd) :=
  (List.range 32).flatMap fun q => ((t.queue q).cmds.filter fun c => c.stage == CopyStage.running && !c.halted).map fun c => (q, c)

/-- Whether a command can not go on before one that has been stopped does: one of its queue that has not started (R247), or an
earlier one of its flow (R253). -/
def Tile.behindHalted (t : Tile) (q : Nat) (c : CopyCmd) : Bool :=
  ((t.queue q).cmds.any fun e => e.halted && !e.started && decide (e.num < c.num)) ||
    (cmdOrd c.words && t.queues.any fun r => r.cmds.any fun e =>
      e.halted && cmdOrd e.words && cmdFlow e.words == cmdFlow c.words && decide (e.upto < c.upto))

/-- A command stops at its PROG (R341): of the element in hand nothing is kept, and it is moved from its first byte when the command
goes on (R261). -/
def CopyCmd.halt (c : CopyCmd) : CopyCmd := { c with halted := true, read := [], data := none, left := [], since := none }

/-- The commands that are not to be drained stop (R341): one whose page request is outstanding, one behind such a one, and one whose
bytes with those of the commands drained before it pass 2 MiB. -/
def State.haltCopies (s : State) (t : Tile) : Tile :=
  (t.copiesAtWork.foldl (fun (acc : Tile × Nat) x =>
    if s.asked t x.2 || acc.1.behindHalted x.1 x.2 || decide (0x200000 < acc.2 + x.2.rest) then
      (acc.1.setQueue x.1 ((acc.1.queue x.1).setCmd x.2.halt), acc.2)
    else (acc.1, acc.2 + x.2.rest)) (t, 0)).1

/-- The commands that were stopped go on from PROG (R261, R372). -/
def Tile.unhalt (t : Tile) : Tile :=
  { t with queues := t.queues.map fun q => { q with cmds := q.cmds.map fun c => { c with halted := false } } }

/-- Whether every command to be drained has been. -/
def Tile.drained (t : Tile) : Bool := t.copiesAtWork.isEmpty

/-- Whether an ended command may take its place in the result list now: an untimed one, or any of a retired tile, whose
records are discarded (R254, R308). -/
def Tile.mayComplete (t : Tile) (q : CopyQueue) (c : CopyCmd) : Bool :=
  q.ready c && (c.due.isNone || t.phase == Phase.retired)

/-! One unit of an element. -/

/-- STATUS of a cause (R255). -/
def statusOf : Cause → Nat
  | .xlate => 1 | .eccue => 3 | _ => 2

/-- What reading or reaching a unit of an element comes to: the bytes or the place, a STATUS, a wait for a page, or a request that
leaves for another module. -/
inductive Moved (α : Type) where
  | got (x : α)
  | stop (status : Nat)
  | page (granule : Nat) (k : AccKind)
  | away

/-- A unit of the source of the element in hand (R250, R252, R260, R279). -/
def State.sourceUnit (s : State) (t : Tile) (c : CopyCmd) (at_ n : Nat) : State × Moved (List Byte) :=
  let own (x : State) (sp : Spad) (off : Nat) : State × Moved (List Byte) :=
    if sp.poisoned (off + at_) n then (x, .stop 3) else (x, .got (sp.readBytes (off + at_) n))
  match (cmdSrc t.grid c.words c.prog).2 with
  | .spad off => own s t.spad off
  | .window id off =>
    let s1 := s.ensureTile ⟨t.key.pasid, id⟩
    own s1 ((s1.tile? ⟨t.key.pasid, id⟩).getD t).spad off
  | .virt va =>
    match s.reach t.key.pasid (.copyEngine t.key.id) (va + at_) .read with
    | (s1, .home pa) => if s1.hbmPoisoned pa n then (s1, .stop 3) else (s1, .got (Mem.read s1.hbm pa n))
    | (s1, .away pa) =>
      if c.since.isNone then (s1, .away)
      else ({ s1 with draws := s1.draws + 1, remoteOut := s1.remoteOut ++ [.read pa n] }, .got (s1.awayBytes n))
    | (s1, .fault x) => (s1, .stop (statusOf x))
    | (s1, .wait) => (s1, .page (va / 65536) .read)
  | _ => (s, .stop 2)

/-- Where a unit is written; a write that the aperture does not take is discarded, and its tile raises PERM later (R347, R348). -/
inductive Sink where
  | spad (k : TileKey) (off : Nat)
  | home (pa va : Nat)
  | away (pa : Nat)
  | refused (a : Nat)
deriving DecidableEq, Repr

/-- A virtual destination of a unit. -/
def State.sinkVirt (s : State) (t : Tile) (c : CopyCmd) (va : Nat) : State × Moved Sink :=
  match s.reach t.key.pasid (.copyEngine t.key.id) va .write with
  | (s1, .home pa) => (s1, .got (.home pa va))
  | (s1, .away pa) => if c.since.isNone then (s1, .away) else (s1, .got (.away pa))
  | (s1, .fault x) => (s1, .stop (statusOf x))
  | (s1, .wait) => (s1, .page (va / 65536) .write)

/-- A write that the aperture does not take; of a retired tile it is a context fault, as any fault of its commands (R308). -/
def Tile.refused (t : Tile) (a : Nat) : Moved Sink := if t.phase = .retired then .stop 2 else .got (.refused a)

/-- The destination of a unit of the element in hand (R250, R347, R348). -/
def State.sinkUnit (s : State) (t : Tile) (c : CopyCmd) (at_ : Nat) : State × Moved Sink :=
  let d := cmdDst t.grid c.words c.prog
  match d.2 with
  | .spad off => (s, .got (.spad t.key (off + at_)))
  | .window id off => (s.ensureTile ⟨t.key.pasid, id⟩, .got (.spad ⟨t.key.pasid, id⟩ (off + at_)))
  | .virt va => s.sinkVirt t c (va + at_)
  | .aperture e o =>
    match apertureOf e o with
    | .contrib k b =>
      match s.contribution t.launchKey e k (b + at_) with
      | some va => s.sinkVirt t c va
      | none => (s, t.refused d.1)
    | .none => (s, .stop 2)
    | _ => (s, t.refused d.1)
  | .bad => (s, .stop 2)

/-- A refused write is recorded as a fault of a store of the command's PUSH, once for the command (R146, R347, log entry 67). -/
def Tile.refuseCopy (t : Tile) (c : CopyCmd) (a : Nat) : Tile :=
  if t.faults.any fun f => f.num == c.upto then t
  else { t with faults := insertBy (fun f => f.num) ⟨c.upto, .perm, (addrTrap .perm c.pos a).info⟩ t.faults }

/-- Write one unit. -/
def State.sinkWrite (s : State) (t : Tile) (c : CopyCmd) (k : Sink) (bs : List Byte) : State :=
  match k with
  | .spad o off => s.onKey o fun u => { u with spad := u.spad.write off bs }
  | .home pa _ => s.hbmWrite pa bs
  | .away pa => { s with remoteOut := s.remoteOut ++ [.write pa bs] }
  | .refused a => s.onKey t.key fun u => u.refuseCopy c a

/-- The line of the tile's far-read buffer that a write with REL makes stale (R288). -/
def Tile.staleLine (t : Tile) (c : CopyCmd) (k : Sink) : List Nat :=
  match k with
  | .home _ va => if cmdRel c.words && (t.line va).isSome && !c.stale.contains (va / 256 * 256) then [va / 256 * 256] else []
  | _ => []

/-- AGENT of a touch that a copy engine makes (R156): 2 on its own tile, 3 on another. -/
def copyAgent (me owner : TileKey) : Nat := if me = owner then 2 else 3

/-- The touch of an element at an end of its move (R155), noted at its first unit there. -/
def State.touchCopy (s : State) (t : Tile) (c : CopyCmd) (k : Target) : State :=
  let note (x : State) (o : TileKey) (off : Nat) : State :=
    x.onKey o fun u => { u with spad := u.spad.note t.key.id (copyAgent t.key o) off (cmdSize c.words) }
  match k with
  | .spad off => note s t.key off
  | .window id off => note (s.ensureTile ⟨t.key.pasid, id⟩) ⟨t.key.pasid, id⟩ off
  | _ => s

/-- Replace a command of a tile's queue. -/
def State.setCopy (s : State) (k : TileKey) (q : Nat) (c : CopyCmd) : State :=
  s.onKey k fun t => t.setQueue q ((t.queue q).setCmd c)

/-- A command stops with a STATUS (R260); on a retired tile that is a context fault (R308), which leaves no other command to stop (R311). -/
def State.stopCopy (s : State) (t : Tile) (q : Nat) (c : CopyCmd) (status : Nat) : State :=
  if ((s.tile? t.key).map fun u => u.phase == Phase.faulted).getD false then s
  else if t.phase = .retired then
    s.contextFault t.key ((recordCause (c.result q status)).getD .perm).code (word (fld c.bundle 0 17)) (c.result q status)
  else s.setCopy t.key q { c with stage := .ended status, read := [], data := none, left := [] }

/-- What a unit of work leaves of a command: it goes on, pauses at a page (R260), has a request on its way, or has stopped. -/
def State.afterUnit {α : Type} (t : Tile) (q : Nat) (c : CopyCmd) (r : State × Moved α) (go : State → α → State) : State × Bool :=
  match r with
  | (s1, .got x) => (go s1 x, false)
  | (s1, .stop n) => (s1.stopCopy t q c n, true)
  | (s1, .page g k) => (s1.setCopy t.key q { c with paused := some (g, k) }, false)
  | (s1, .away) => (s1.setCopy t.key q { c with since := some s1.cycle }, false)

/-- The numbers of the units still to be done at an end of the element in hand. -/
def CopyCmd.units (c : CopyCmd) (unit : Nat) : List Nat :=
  if c.left.isEmpty then List.range (cmdSize c.words / max 1 unit) else c.left

/-- A command after a unit of its source: with the last one the element is in hand. -/
def CopyCmd.afterRead (c : CopyCmd) (us : List Nat) (u : Nat) (bs : List Byte) : CopyCmd :=
  let got := c.read ++ [(u, bs)]
  let rest := us.erase u
  let c1 := { c with paused := none, since := none, left := rest }
  if rest.isEmpty then { c1 with read := [], data := some ((sortBy (fun x => x.1) got).flatMap fun x => x.2) }
  else { c1 with read := got }

/-- A command after a unit of its destination: the last one ends the element, and the last element its writes. -/
def CopyCmd.afterWrite (c : CopyCmd) (us : List Nat) (u : Nat) (bs : List Byte) : CopyCmd :=
  let rest := us.erase u
  let c1 := { c with paused := none, since := none, left := rest }
  if rest.isEmpty then
    { c1 with prog := c.prog + 1, data := none, stage := if cmdElems c.words ≤ c.prog + 1 then .ended 0 else .running }
  else { c1 with data := some bs }

/-- One unit of the element in hand is read (R252): all of them before any is written. -/
def State.copyRead (s : State) (t : Tile) (q : Nat) (c : CopyCmd) : State × Bool :=
  let src := (cmdSrc t.grid c.words c.prog).2
  let n := src.unit (cmdSize c.words)
  let us := c.units n
  let u := listGet us (s.pick us.length) 0
  let s0 := if c.read.isEmpty then s.tickFresh.touchCopy t c src else s.tickFresh
  State.afterUnit t q c (s0.sourceUnit t c (u * n) n) fun s1 bs => s1.setCopy t.key q (c.afterRead us u bs)

/-- One unit of the element in hand is written. -/
def State.copyWrite (s : State) (t : Tile) (q : Nat) (c : CopyCmd) (bs : List Byte) : State × Bool :=
  let dst := (cmdDst t.grid c.words c.prog).2
  let n := dst.unit (cmdSize c.words)
  let us := c.units n
  let u := listGet us (s.pick us.length) 0
  let s0 := if c.left.isEmpty then s.tickFresh.touchCopy t c dst else s.tickFresh
  State.afterUnit t q c (s0.sinkUnit t c (u * n)) fun s1 k =>
    (s1.sinkWrite t c k ((bs.drop (u * n)).take n)).setCopy t.key q
      ({ c with stale := c.stale ++ t.staleLine c k }.afterWrite us u bs)

/-- One unit of work on a command, which starts it, and whether it has stopped at a fault (R247, R252, R260). -/
def State.copyWork (s : State) (t : Tile) (q : Nat) (c0 : CopyCmd) : State × Bool :=
  let c := { c0 with started := true }
  if cmdElems c.words ≤ c.prog then (s.setCopy t.key q { c with stage := .ended 0, left := [] }, false)
  else if cmdOp c.words = 1 then s.copyWrite t q c (fillBytes c.words)
  else
    match c.data with
    | none => s.copyRead t q c
    | some bs => s.copyWrite t q c bs

/-- The STATUS with which a command has stopped at a fault (R255). -/
def CopyCmd.faultStatus (c : CopyCmd) (q : Nat) : Option Nat :=
  match c.stage with
  | .ended n => if (recordCause (c.result q n)).isSome then some n else none
  | .running => none

/-- A record enters the result list, or is discarded by a retired tile, on which a fault is a context fault (R254, R308). -/
def State.completeCopy (s : State) (t : Tile) (q : Nat) (c : CopyCmd) : State :=
  if t.phase = .retired then
    match c.faultStatus q with
    | some n => s.stopCopy t q c n
    | none => s.onKey t.key fun u => u.setQueue q ((u.queue q).remove c.num)
  else s.onKey t.key fun u => u.complete q c

/-- One event of a queue's commands, and whether it stopped one. -/
def State.copyEvent (s : State) (t : Tile) (q : Nat) : Option (State × Bool) :=
  let cq := t.queue q
  let cs := cq.cmds.filter fun c => s.mayRun t cq c || t.mayComplete cq c
  match cs[s.pick cs.length]? with
  | none => none
  | some c =>
    if t.mayComplete cq c then some (s.tickFresh.completeCopy t q c, false) else some (s.tickFresh.copyWork t q c)

/-- COPY_COMMAND_COMPLETE (R252, R254): the engine performs a unit of a command of the queue, or an untimed command
that has done all its work takes its record. -/
def execCopyCommandComplete (k : TileKey) (q : Nat) (s : State) : Host.Outcome State Fault Refusal :=
  match s.tile? k with
  | none => .fault .noSuchObject
  | some t =>
    match s.copyEvent t q with
    | some (s1, false) => .next s1
    | _ => .refused .notEnabled

/-- COPY_COMMAND_STOP (R260): an element of a command of the queue meets a fault that no host resolves. -/
def execCopyCommandStop (k : TileKey) (q : Nat) (s : State) : Host.Outcome State Fault Refusal :=
  match s.tile? k with
  | none => .fault .noSuchObject
  | some t =>
    match s.copyEvent t q with
    | some (s1, true) => .next s1
    | _ => .refused .notEnabled

/-! Accesses that wait for a page (R335, R336). -/

/-- Whether a far access of a tile waits for a granule, be it through the aperture (R348). -/
def State.farWaits (s : State) (t : Tile) (f : FarOp) (granule : Nat) (k : AccKind) : Bool :=
  f.stage == FarStage.open && f.kind.access == k && ((s.virtOf t f.addr).map fun va => va / 65536) == some granule

/-- The commands of a tile that are paused at a granule, with their queues (R260). -/
def Tile.copiesFor (t : Tile) (granule : Nat) (k : AccKind) : List (Nat × CopyCmd) :=
  (List.range 32).flatMap fun q => ((t.queue q).cmds.filter fun c => c.stage == CopyStage.running && c.paused == some (granule, k)).map fun c => (q, c)

/-- Every access of a tile to a granule that cannot be resolved meets its cause (R336). -/
def State.failTile (s : State) (t : Tile) (granule : Nat) (k : AccKind) (c : Cause) : State :=
  let s1 := s.onKey t.key fun u => (t.far.filter fun f => s.farWaits t f granule k).foldl (fun v f => v.failFar f c) u
  (t.copiesFor granule k).foldl (fun x e => x.stopCopy t e.1 e.2 (statusOf c)) s1

/-- Every tile access of a context to a granule that cannot be resolved meets its cause. -/
def State.failTiles (s : State) (p granule : Nat) (k : AccKind) (c : Cause) : State :=
  (s.tiles.filter fun t => t.key.pasid == p).foldl (fun x t => x.failTile t granule k c) s

/-- Whether an agent of a context waits for a translation. -/
def State.agentWaits (s : State) (p va : Nat) (k : AccKind) (a : Agent) : Bool :=
  match a with
  | .farPath id => (((s.tile? ⟨p, id⟩).map fun t => t.far.any fun f => s.farWaits t f (va / 65536) k)).getD false
  | .copyEngine id => (((s.tile? ⟨p, id⟩).map fun t => !(t.copiesFor (va / 65536) k).isEmpty)).getD false
  | _ => s.queues.any fun q => q.pasid == p && q.parkedOn == some (va / 65536, k)

/-- Whether a cause that a walk met for one address is that of an access to the same granule: what the tables raise is, and PERM, which
the physical address of each access decides (R330), is for that address alone. -/
def sharesCause (c : Cause) (va : Nat) (at_ : Option Nat) : Bool := c != Cause.perm || at_ == some va

/-- A walk that ends in a cause, for the agent that asked (R332, R336). A copy command that meets PERM does so at the unit that it moves. -/
def State.walkFails (s : State) (p va : Nat) (k : AccKind) (a : Agent) (c : Cause) : State :=
  match a with
  | .farPath id =>
    s.onKey ⟨p, id⟩ fun u => (u.far.filter fun f => s.farWaits u f (va / 65536) k && sharesCause c va (s.virtOf u f.addr)).foldl
      (fun v f => v.failFar f c) u
  | .copyEngine id =>
    match s.tile? ⟨p, id⟩ with
    | some t =>
      (if c = .perm then [] else t.copiesFor (va / 65536) k).foldl (fun x e => x.stopCopy t e.1 e.2 (statusOf c)) s
    | none => s
  | _ => s

/-- TRANSLATION_WALK (R331 to R336): the walk of an access that waits ends with a translation that is kept, with XLATE
or PERM for that access, or with a page request. -/
def execTranslationWalk (p va : Nat) (k : AccKind) (a : Agent) (s : State) : Host.Outcome State Fault Refusal :=
  if s.agentWaits p va k a then
    match s.reach p a va k with
    | (s1, .fault c) => .next (s1.walkFails p va k a c)
    | (s1, _) => .next s1
  else .refused .notEnabled

/-- Whether a request to another module has waited 10 ms for a path (R358). -/
def pathLate (cycle : Nat) (since : Option Nat) : Bool :=
  match since with
  | some c => decide (c + Config.tenMsCycles ≤ cycle)
  | none => false

/-- REMOTE_PATH_TIMEOUT (R358): a far access of that number becomes PERM; with no such access, the command of that
queue whose request is late stops with STATUS 2. -/
def execRemotePathTimeout (k : TileKey) (n : Nat) (s : State) : Host.Outcome State Fault Refusal :=
  match s.tile? k with
  | none => .fault .noSuchObject
  | some t =>
    match t.far.find? fun f => f.num == n && pathLate s.cycle f.since with
    | some f => .next (s.onKey k fun u => u.failFar f .perm)
    | none =>
      match (t.queue n).cmds.find? fun c => pathLate s.cycle c.since && c.stage == CopyStage.running with
      | some c => .next (s.stopCopy t n c 2)
      | none => .refused .notEnabled

end Sys2Proof.Machine
end

