-- ==== Sys2Proof/Machine/Image.lean ====
section
/-! DEFINITION. Timetable images: their fields (R262, R266, R281, R321), the grounds on which the arm engine refuses one
(R102, R228, R264, R266, R282, R324), and the tiles that an image arms (R70, R154, R228, R230, R321, R323). -/

namespace Sys2Proof.Machine

/-! Fields. -/

/-- A little-endian field of n bytes at an offset (R321). -/
def imgNum (bs : List Byte) (off n : Nat) : Nat := natOfBytes ((bs.drop off).take n)

/-- The five sections: offset and size (R321). -/
def imgSections (bs : List Byte) : List (Nat × Nat) :=
  (List.range 5).map fun i => (imgNum bs (0x6B0 + 16 * i) 8, imgNum bs (0x6B8 + 16 * i) 8)

/-- The length of an image whose header is given: the header and every section lie in it (log entry 21). -/
def imgLength (header : List Byte) : Nat := (imgSections header).foldl (fun n x => max n (x.1 + x.2)) 0x740

/-- Word w of binding i. -/
def imgBindWord (bs : List Byte) (i w : Nat) : Nat := imgNum bs (0x0B0 + 24 * i + 8 * w) 8

def imgBinding (bs : List Byte) (i : Nat) : Binding :=
  let w2 := imgBindWord bs i 2
  { obj := fld (imgBindWord bs i 0) 0 57, okind := fld w2 0 2, rbase := fld (imgBindWord bs i 1) 0 57,
    rsize := fld w2 24 40, scope := fld w2 4 3 }

/-- The entry of tile i. -/
def imgTile (bs : List Byte) (base i : Nat) : TileEntry :=
  let o := base + 32 * i
  { progOff := imgNum bs o 4, progLen := imgNum bs (o + 4) 4, entry := imgNum bs (o + 8) 4, gangField := imgNum bs (o + 12) 2,
    board := imgNum bs (o + 14) 1, zero := imgNum bs (o + 15) 1, start := imgNum bs (o + 16) 8, regOff := imgNum bs (o + 24) 4,
    regCount := imgNum bs (o + 28) 4 }

/-- The image that bytes hold. -/
def parseImage (bs : List Byte) : Image :=
  let secs := imgSections bs
  { bytes := bs, grid := imgNum bs 8 4, flags := imgNum bs 6 2,
    levels := (List.range (min 8 (imgNum bs 0xC 1))).map fun i => imgNum bs (0x10 + 4 * i) 4,
    splits := (bs.drop 0x30).take 128,
    bindings := (List.range (min 64 (imgNum bs 0xD 1))).map (imgBinding bs),
    sections := secs, digest := (bs.drop 0x700).take 64,
    tiles := (List.range (imgNum bs 8 4)).map (imgTile bs (listGet secs 0 (0, 0)).1) }

/-- A section of an image. -/
def Image.part (i : Image) (n : Nat) : List Byte :=
  let x := listGet i.sections n (0, 0)
  (i.bytes.drop x.1).take x.2

/-- Records of n bytes. -/
def chunks (n : Nat) : Nat → List Byte → List (List Byte)
  | 0, _ => []
  | k + 1, bs => if bs.isEmpty then [] else bs.take n :: chunks n k (bs.drop n)

def Image.records (i : Image) (sec n : Nat) : List (List Byte) := chunks n ((i.part sec).length) (i.part sec)

/-- The program of a tile entry. -/
def Image.program (i : Image) (e : TileEntry) : List Byte := ((i.part 1).drop e.progOff).take e.progLen

/-- The initial register block of a tile entry: selector and value (R321). -/
def Image.regBlock (i : Image) (e : TileEntry) : List (Nat × Word) :=
  (List.range e.regCount).map fun k =>
    (imgNum i.bytes (e.regOff + 16 * k) 8, word (imgNum i.bytes (e.regOff + 16 * k + 8) 8))

/-- Position and size of a tile's gang (R266). -/
def TileEntry.gangPos (e : TileEntry) : Nat := fld e.gangField 0 4
def TileEntry.gangSize (e : TileEntry) : Nat := fld e.gangField 4 4 + 1

/-- An idle tile (R321). -/
def TileEntry.idle (e : TileEntry) : Bool := e.progLen == 0 && e.gangSize == 1

/-! Ground 16: the form (R321, R324). -/

/-- Whether a selector of an initial register names a register that an image can set. -/
def selectorOk (sel : Nat) (v : Word) : Bool :=
  let n := fld sel 8 16
  decide (fld sel 24 40 = 0) && (match fld sel 0 8 with
    | 0 => decide (n < 32)
    | 1 | 2 | 3 | 4 => decide (n < 16)
    | 5 =>
      match csrOfNumber n with
      | some c => csrAccess c == Access.rw && csrLegal c v
      | none => false
    | _ => false)

/-- Whether a tile entry has the form of R321 and lies within its sections. -/
def TileEntry.formed (e : TileEntry) (i : Image) : Bool :=
  e.zero == 0 && decide (e.board ≤ 2) && fld e.gangField 8 8 == 0 && e.progLen % 4 == 0 && decide (e.progLen ≤ 0x20000) &&
    decide (e.progOff + e.progLen ≤ (listGet i.sections 1 (0, 0)).2) && decide (e.regOff + 16 * e.regCount ≤ i.bytes.length) &&
    (i.regBlock e).all fun r => selectorOk r.1 r.2

/-- Whether a preload record has the form of R321: within the image, and within one tile's scratchpad when it names one. -/
def preloadOk (i : Image) (r : List Byte) : Bool :=
  let a := imgNum r 0 8
  let n := imgNum r 8 8
  r.length == 32 && imgNum r 24 8 == 0 && decide (imgNum r 16 8 + n ≤ i.bytes.length) &&
    (match farTarget i.grid a with
      | .window _ off => decide (off + n ≤ 0x200000)
      | .virt _ => decide (a + n ≤ 2 ^ 57)
      | _ => false)

/-- Whether an allocation record names scratchpad of a tile of the grid. -/
def allocOk (i : Image) (r : List Byte) : Bool :=
  r.length == 16 && decide (imgNum r 0 4 < i.grid) && decide (imgNum r 4 4 + imgNum r 8 8 ≤ 0x200000)

/-- Ground 16: magic, version, reserved fields, sections; a grid out of range is ground 18 or 21. -/
def Image.formed (i : Image) : Bool :=
  imgNum i.bytes 0 4 == 0x45595831 && imgNum i.bytes 4 2 == 1 && decide (i.flags < 2) && imgNum i.bytes 0xF 1 == 0 && decide (imgNum i.bytes 0xE 1 ≤ 32) &&
    (List.range 8).all (fun k => decide (k < imgNum i.bytes 0xC 1) || imgNum i.bytes (0x10 + 4 * k) 4 == 0) &&
    (List.range 32).all (fun k => decide (imgNum i.bytes (0x30 + 4 * k) 1 ≤ 7)) &&
    decide (0x740 ≤ i.bytes.length) && i.sections.all (fun x => decide (x.1 + x.2 ≤ i.bytes.length)) &&
    (listGet i.sections 0 (0, 0)).2 == 32 * i.grid && i.tiles.all (fun e => e.formed i) &&
    (i.records 2 72).all (fun r => r.length == 72 && imgNum r 2 6 == 0) && (i.records 3 32).all (preloadOk i) &&
    (i.records 4 16).all (allocOk i)

/-- Ground 17: the digest over the image with its own field as zeros (R321). -/
def Image.digestOk (i : Image) : Bool :=
  shake256 (i.bytes.take 0x700 ++ List.replicate 64 0 ++ i.bytes.drop 0x740) 64 == i.digest

/-! Ground 19: PREBOUND (R102). -/

/-- Whether a syllable ends a run of R102, and the length of a LOOP body. -/
def runSyllable (w : Nat) : Bool × Nat :=
  match decodeWord w with
  | .ok (.br _ _) | .ok (.call _ _) | .ok (.jmpr _ _) | .ok (.callr _ _) | .ok (.loopr _ _ _ _) | .ok (.exit _) => (true, 0)
  | .ok (.loop _ _ _ len) => (true, len)
  | _ => (false, 0)

/-- The search for a run of more than bound bundles with no control syllable: bundles in the run so far, and whether the
bundle in hand holds one. -/
def runsOk (bound : Nat) : Nat → Bool → List Nat → Bool
  | _, _, [] => true
  | run, ctl, w :: ws =>
    let r := runSyllable w
    let c := ctl || r.1
    if bound < r.2 then false
    else if fld w 31 1 = 1 then
      (if c then runsOk bound 0 false ws else decide (run + 1 ≤ bound) && runsOk bound (run + 1) false ws)
    else runsOk bound run c ws

/-- The syllables of a program. -/
def syllables (bs : List Byte) : List Nat := (chunks 4 bs.length bs).map natOfBytes

def Image.boundOk (i : Image) (bound : Nat) : Bool :=
  i.tiles.all fun e => runsOk bound 0 false (syllables (i.program e))

/-! Ground 21: levels (R262 to R264). -/

def lvScope (d : Nat) : Nat := fld d 20 3
def lvDomain (d : Nat) : Nat := fld d 16 3
def lvFanout (d : Nat) : Nat := fld d 0 11

/-- The least scope of a domain (R264). -/
def leastScope (d : Nat) : Nat := if d ≤ 4 then d else d - 1

/-- No step down the list rises. -/
def falling : List Nat → Bool
  | a :: b :: t => decide (b ≤ a) && falling (b :: t)
  | _ => true

/-- The hierarchy rank of a tile (R263). -/
def tileRank (id : Nat) : Nat :=
  id / 160 * 160 + 40 * (2 * (id % 160 / 16 / 5) + id % 16 / 8) + 8 * (id % 160 / 16 % 5) + id % 16 % 8

/-- The grid's tiles in ascending rank. -/
def rankOrder (grid : Nat) : List Nat := sortBy tileRank (List.range grid)

/-- Cut a list into runs of n. -/
def runsOf (n : Nat) : Nat → List Nat → List (List Nat)
  | 0, _ => []
  | k + 1, l => if l.isEmpty then [] else l.take (max 1 n) :: runsOf n k (l.drop (max 1 n))

/-- Whether a group of tiles lies within one unit of a domain (R264 check 7). -/
def Image.groupOk (i : Image) (domain : Nat) (g : List Nat) : Bool :=
  match g with
  | [] => true
  | a :: _ =>
    match domain with
    | 0 => g.length == 1
    | 1 =>
      match i.tiles[a]? with
      | none => false
      | some e =>
        let lead := a - e.gangPos
        let members := (List.range e.gangSize).map (lead + ·)
        g.length == e.gangSize && members.all fun m => g.contains m
    | 2 => g.all fun b => quadOf b == quadOf a
    | 3 => g.all fun b => b / 160 == a / 160
    | _ => true

/-- The groups of the levels below any SYS level, outermost first: fan-outs from the level in hand inward. -/
def Image.groupsOk (i : Image) (order : List Nat) : List Nat → Bool
  | [] => true
  | d :: more =>
    let size := more.foldl (fun n x => n * lvFanout x) 1
    (runsOf size order.length order).all (i.groupOk (lvDomain d)) && Image.groupsOk i order more

def Image.levelsOk (i : Image) : Bool :=
  let n := imgNum i.bytes 0xC 1
  let ds := i.levels
  let body := match ds with
    | d :: more => if lvDomain d = 6 then more else ds
    | [] => []
  decide (1 ≤ n) && decide (n ≤ 8) &&
    ds.all (fun d => fld d 23 9 == 0 && fld d 19 1 == 0 && fld d 11 5 == 0 && decide (lvScope d ≤ 5) && decide (lvDomain d ≤ 6) &&
      decide (1 ≤ lvFanout d) && decide (lvFanout d ≤ 1280)) &&
    falling (ds.map lvDomain) && falling (ds.map lvScope) &&
    ds.all (fun d => decide (leastScope (lvDomain d) ≤ lvScope d)) &&
    body.all (fun d => lvDomain d != 6) &&
    (ds.take 1).all (fun d => lvDomain d != 6 || decide (lvFanout d ≤ 64)) &&
    body.foldl (fun k d => k * lvFanout d) 1 == i.grid &&
    i.groupsOk (rankOrder i.grid) body

/-! Ground 22: gangs (R151, R266, R321). -/

def Image.gangOk (i : Image) (id : Nat) (e : TileEntry) : Bool :=
  let first := id - e.gangPos
  let n := e.gangSize
  let lead := listGet i.tiles first e
  decide (e.gangPos < n) && decide (e.gangPos ≤ id) && (gangCheck i.grid id first n).isNone && lead.gangPos == 0 &&
    lead.gangSize == n && (n == 1 || lead.progLen != 0) && e.start == lead.start && e.board == lead.board &&
    (List.range n).all fun j =>
      match i.tiles[first + j]? with
      | some m => m.gangPos == j && m.gangSize == n
      | none => false

def Image.gangsOk (i : Image) : Bool := (List.zip (List.range i.grid) i.tiles).all fun x => i.gangOk x.1 x.2

/-! Ground 23: bindings (R281, R282). -/

/-- Whether an address lies in the scratchpad window of a tile of the grid, with n bytes to go. -/
def inWindow (grid a n : Nat) : Bool :=
  match farTarget grid a with
  | .window _ off => decide (off + n ≤ 0x200000)
  | _ => false

/-- Checks 1 to 3 of one binding. -/
def bindingOk (grid : Nat) (bs : List Byte) (i : Nat) : Bool :=
  let b := imgBinding bs i
  let w2 := imgBindWord bs i 2
  let isWindow (a : Nat) : Bool := fld a 48 9 == 0xFF
  fld (imgBindWord bs i 0) 57 7 == 0 && fld (imgBindWord bs i 1) 57 7 == 0 && fld w2 7 17 == 0 && fld w2 2 2 == 0 &&
    b.okind != 3 && decide (b.scope ≤ 5) && b.rsize != 0 && b.rbase % 256 == 0 &&
    (if isWindow b.rbase then inWindow grid b.rbase (256 * b.rsize) else true) &&
    (match b.okind with
      | 2 => b.obj / 2 ^ 14 == 0 && decide (b.slot < ringLength grid)
      | 1 => b.obj % 8 == 0 && inWindow grid b.obj 8
      | _ => b.obj % 8 == 0)

/-- Whether two bindings belong to one object (R281). -/
def sameObject (a b : Binding) : Bool := a.obj == b.obj && a.okind == b.okind

def Image.bindingsOk (i : Image) : Bool :=
  decide (imgNum i.bytes 0xD 1 ≤ 64) && (List.range i.bindings.length).all (bindingOk i.grid i.bytes) &&
    i.bindings.all fun a => i.bindings.all fun b =>
      (sameObject a b || !overlaps a.rbase (256 * a.rsize) b.rbase (256 * b.rsize)) &&
        (a.okind == 2 || !overlaps a.obj 8 b.rbase (256 * b.rsize))

/-! Ground 20: the ring image (R228). -/

def Image.ringOk (i : Image) : Bool := (i.records 2 72).all fun r => decide (imgNum r 0 2 < ringLength i.grid)

/-- Why an image is refused: the lowest DETAIL (R324). -/
def Image.refusal (i : Image) (c : Context) (tiles : Nat) : Option Nat :=
  if !i.formed then some 16
  else if !i.digestOk then some 17
  else if tiles < i.grid then some 18
  else if !i.boundOk c.bound then some 19
  else if !i.ringOk then some 20
  else if !i.levelsOk then some 21
  else if !i.gangsOk then some 22
  else if !i.bindingsOk then some 23
  else if (fld i.flags 0 1 == 1) != c.det then some 24
  else none

/-! What arming loads. -/

/-- Set one register of the initial register block (R321). -/
def Tile.initReg (t : Tile) (sel : Nat) (v : Word) : Tile :=
  let n := fld sel 8 16
  match fld sel 0 8 with
  | 0 => { t with regs := t.regs.setS n v }
  | 1 => { t with regs := t.regs.setX .xa n v }
  | 2 => { t with regs := t.regs.setX .xb n v }
  | 3 => { t with regs := t.regs.setM n v }
  | 4 => { t with regs := t.regs.setP n v }
  | _ =>
    match csrOfNumber n with
    | some c =>
      let w := word (v.toNat &&& csrMask c)
      { t with csrs := t.csrs.write c w, gov := (t.gov.write c false w).write c true w }
    | none => t

/-- The guard granules of an allocation: the one below and the one above (R154). -/
def guardMarks (base size : Nat) : List Nat :=
  let lo := base / 256
  let hi := (base + size + 255) / 256
  (if lo = 0 then [] else [lo - 1]) ++ (if hi < 8192 then [hi] else [])

/-- Mark a granule and write zero to it (R154). -/
def Spad.mark (s : Spad) (g : Nat) : Spad :=
  { s with mem := Mem.write s.mem (256 * g) (List.replicate 256 0), marks := insertNat g s.marks,
           poison := s.poison.filter fun p => p / 32 != g }

/-- The guard map of a tile from the allocation list (R154). R321 gives a record 16 bytes for a tile id, a base and a size, and not the width
of each: the model takes 4, 4 and 8 bytes (DESIGN CHOICE, log entry 75). -/
def Spad.fence (s : Spad) (i : Image) (id : Nat) : Spad :=
  (i.records 4 16).foldl (fun sp r =>
    if imgNum r 0 4 = id then (guardMarks (imgNum r 4 4) (imgNum r 8 8)).foldl Spad.mark sp else sp) s

/-- The scratchpad preloads of a tile (R321). -/
def Spad.preload (s : Spad) (i : Image) (id : Nat) : Spad :=
  (i.records 3 32).foldl (fun sp r =>
    match farTarget i.grid (imgNum r 0 8) with
    | .window k off =>
      if k = id then { sp with mem := Mem.write sp.mem off ((i.bytes.drop (imgNum r 16 8)).take (imgNum r 8 8)) } else sp
    | _ => sp) s

def berthOf (flag : Nat) : Berth :=
  match flag with
  | 0 => .free
  | 1 => .berthed
  | _ => .boarded

/-- A tile as arming leaves it (R16, R70, R154, R321, R323, R325, R326). -/
def armTile (i : Image) (c : Context) (launch index : Nat) (indirect : Bool) (id : Nat) (e : TileEntry) : Tile :=
  let b := Tile.blank ⟨c.pasid, id⟩
  let first := id - e.gangPos
  let prog := i.program e
  let t0 : Tile :=
    { b with
      launch := launch, phase := if e.idle then .retired else .armed, tick := e.start, startTick := e.start,
      pc := e.entry, imem := Mem.write [] 0 prog, imemBad := [], progLen := prog.length, grid := i.grid,
      csrs := { b.csrs with prebound := word c.bound, maxk := word c.kdepth, detmode := word c.det.toNat },
      seed := c.seeds.headD 0,
      spad := ((Spad.reset).preload i id).fence i id,
      berth := if e.idle then .free else berthOf e.board,
      triggered := if e.idle then some e.start else none,
      gang := { b.gang with first := first, size := e.gangSize } }
  let t1 := (i.regBlock e).foldl (fun t r => t.initReg r.1 r.2) t0
  if indirect then { t1 with regs := t1.regs.setS 30 (word index) } else t1

/-- The tiles of an image. -/
def Image.armAll (i : Image) (c : Context) (launch index : Nat) (indirect : Bool) : List Tile :=
  (List.zip (List.range i.grid) i.tiles).map fun x => armTile i c launch index indirect x.1 x.2

/-- The slots of the Rill: words of the ring image (R228). -/
def Image.ring (i : Image) : Elems :=
  (i.records 2 72).foldl (fun (e : Elems) r =>
    (List.range 8).foldl (fun (x : Elems) w => x.set (8 * imgNum r 0 2 + w) (imgNum r (8 + 8 * w) 8)) e) []

end Sys2Proof.Machine
end

