-- ==== Sys2Proof/Machine/Packets.lean ====
section
/-! DEFINITION. What every packet of a queue shares (R312, R315 to R320): the front end's own accesses, parking, the
completion of a packet with its signal, packet errors. -/

namespace Sys2Proof.Machine

/-! The front end's accesses (R316, R336). -/

/-- What an access of the front end or of the hub copy engine comes to; a request of the copy engine may leave for another module first. -/
inductive Hub (α : Type) where
  | got (x : α)
  | left
  | fault (c : Cause)
  | page (granule : Nat) (k : AccKind)

/-- Read n bytes at a virtual address within one page. -/
def State.hubRead1 (s : State) (p : Nat) (a : Agent) (va n : Nat) : State × Hub (List Byte) :=
  match s.reach p a va .read with
  | (s1, .home pa) =>
    if s1.leavesStorage pa n then (s1, .fault .perm)
    else if s1.hbmPoisoned pa n then (s1, .fault .eccue)
    else (s1, .got (Mem.read s1.hbm pa n))
  | (s1, .away pa) => ({ s1 with draws := s1.draws + 1, remoteOut := s1.remoteOut ++ [.read pa n] }, .got (s1.awayBytes n))
  | (s1, .fault c) => (s1, .fault c)
  | (s1, .wait) => (s1, .page (va / 65536) .read)

/-- Read n bytes, granule by granule. -/
def State.hubRead (s : State) (p : Nat) (a : Agent) (va n : Nat) : Nat → State × Hub (List Byte)
  | 0 => (s, .got [])
  | k + 1 =>
    let here := min n (65536 - va % 65536)
    match s.hubRead1 p a va here with
    | (s1, .got bs) =>
      if n ≤ here then (s1, .got bs)
      else
        match State.hubRead s1 p a (va + here) (n - here) k with
        | (s2, .got more) => (s2, .got (bs ++ more))
        | r => r
    | r => r

/-- The granules that n bytes can reach. -/
def granules (n : Nat) : Nat := n / 65536 + 2

/-- Write bytes at a virtual address within one page. -/
def State.hubWrite1 (s : State) (p : Nat) (a : Agent) (va : Nat) (bs : List Byte) : State × Hub Unit :=
  match s.reach p a va .write with
  | (s1, .home pa) => if s1.leavesStorage pa bs.length then (s1, .fault .perm) else (s1.hbmWrite pa bs, .got ())
  | (s1, .away pa) => ({ s1 with remoteOut := s1.remoteOut ++ [.write pa bs] }, .got ())
  | (s1, .fault c) => (s1, .fault c)
  | (s1, .wait) => (s1, .page (va / 65536) .write)

/-- Write bytes, granule by granule. -/
def State.hubWrite (s : State) (p : Nat) (a : Agent) (va : Nat) (bs : List Byte) : Nat → State × Hub Unit
  | 0 => (s, .got ())
  | k + 1 =>
    let here := min bs.length (65536 - va % 65536)
    match s.hubWrite1 p a va (bs.take here) with
    | (s1, .got _) =>
      if bs.length ≤ here then (s1, .got ()) else State.hubWrite s1 p a (va + here) (bs.drop here) k
    | r => r

/-- One atomic step on an aligned word at its home. -/
def State.hubAtomic (s : State) (p va : Nat) (op : AtomOp) (v : Word) : State × Hub Unit :=
  match s.reach p .frontEnd va .atomic with
  | (s1, .home pa) =>
    if s1.hbmPoisoned pa 8 then (s1, .fault .eccue)
    else (s1.hbmWrite pa (bytesOfNat 8 (atomResult op (Mem.readWord s1.hbm pa) v 0).1.toNat), .got ())
  | (s1, .away pa) => ({ s1 with remoteOut := s1.remoteOut ++ [.atomic pa op v 0] }, .got ())
  | (s1, .fault c) => (s1, .fault c)
  | (s1, .wait) => (s1, .page (va / 65536) .atomic)

/-! Queues and packets. -/

def State.onQueue (s : State) (n : Nat) (f : Queue → Queue) : State :=
  { s with queues := s.queues.map fun q => if q.num = n then f q else q }

def Queue.packet? (q : Queue) (i : Nat) : Option Packet := q.packets.find? fun k => k.index == i

def Queue.setPacket (q : Queue) (k : Packet) : Queue :=
  { q with packets := q.packets.map fun m => if m.index = k.index then k else m }

def Queue.dropPacket (q : Queue) (i : Nat) : Queue := { q with packets := q.packets.filter fun m => m.index != i }

/-- Word i of a packet. -/
def Packet.word (k : Packet) (i : Nat) : Nat := (listGet k.words i 0).toNat

def Packet.type (k : Packet) : Nat := fld (k.word 0) 0 8
def Packet.barrier (k : Packet) : Bool := fld (k.word 0) 9 1 == 1
def Packet.signal (k : Packet) : Nat := fld (k.word 0) 32 32

/-- The address of a signal (R312). -/
def State.signalAddr (s : State) (q : Queue) (k : Nat) : Nat := fld (s.qword q 6) 0 57 + 8 * k

/-- Park a queue on a granule (R318): an active queue waits for the page; its clock starts. -/
def State.park (s : State) (n : Nat) (by_ : Option Nat) (granule : Nat) (k : AccKind) : State :=
  match s.queue? n with
  | none => s
  | some q =>
    if s.qstate q = 1 then
      (s.setQstate q 2).onQueue n fun q =>
        { q with parkedAt := some s.cycle, parkedOn := some (granule, k), parkedBy := by_ }
    else if s.qstate q = 2 then s
    else s.onQueue n fun q => { q with parkedOn := some (granule, k), parkedBy := by_ }

/-- An error of an accepted packet (R316, R318, R320): an ACTIVE or PARKED queue enters ERROR with RDIDX at the packet, which
completes without signalling; a queue in ERROR keeps the packet that it names (log entry 22). -/
def State.failPacket (s : State) (n i cause detail : Nat) : State :=
  match s.queue? n with
  | none => s
  | some q =>
    let s1 := if s.qstate q < 3 then (s.setQword q 2 i).queueError q cause detail 0 0 0 else s
    s1.onQueue n fun q => (q.dropPacket i).unparked

/-- The signal of a complete packet is decremented at its home (R315), and the packet is gone. -/
def State.signalPacket (s : State) (n i : Nat) : State :=
  match s.queue? n with
  | none => s
  | some q =>
    match q.packet? i with
    | none => s
    | some k =>
      if k.signal = 0 then s.onQueue n fun q => q.dropPacket i
      else
        match s.hubAtomic q.pasid (s.signalAddr q k.signal) .add (-1) with
        | (s1, .got _) => s1.onQueue n fun q => q.dropPacket i
        | (s1, .left) => s1
        | (s1, .fault c) => s1.failPacket n i c.code 4
        | (s1, .page g a) => s1.park n (some i) g a

/-- A packet completes (R315, R317): it is satisfied, its release has nothing of the front end's own left to perform, and
its signal follows. -/
def State.completePacket (s : State) (n i : Nat) : State :=
  (s.onQueue n fun q =>
    match q.packet? i with
    | some k => q.setPacket { k with complete := true, satisfied := true }
    | none => q).signalPacket n i

/-- Whether an accepted packet may start (R317, R318): its context is resident, its queue is not parked, and with BARRIER
every earlier packet is satisfied. A queue in ERROR lets the packets accepted earlier run on. -/
def State.mayStart (s : State) (q : Queue) (k : Packet) : Bool :=
  (((s.ctx? q.pasid).map Context.serves).getD false) && s.qstate q != 2 && !k.complete &&
    (!k.barrier || q.packets.all fun m => decide (k.index ≤ m.index) || m.satisfied)

/-- Run an event on a packet of a type. -/
def State.onPacket (s : State) (n i type : Nat) (ok : Packet → Bool) (f : Queue → Packet → State) :
    Host.Outcome State Fault Refusal :=
  match s.queue? n with
  | none => .fault .noSuchObject
  | some q =>
    match q.packet? i with
    | none => .refused .notEnabled
    | some k => if k.type == type && s.mayStart q k && ok k then .next (f q k) else .refused .notEnabled

/-- A fault or an absent page met by a packet. -/
def State.hubTrouble {α : Type} (s : State) (n i : Nat) : Hub α → State
  | .got _ => s
  | .left => s
  | .fault c => s.failPacket n i c.code 4
  | .page g k => s.park n (some i) g k

end Sys2Proof.Machine
end

