-- ==== Sys2Proof/Machine/Launches.lean ====
section
/-! DEFINITION. Launches (R300, R308, R321 to R325): from the packet that asks for one to arming, start, trigger and
retirement. -/

namespace Sys2Proof.Machine

/-- A new launch of a packet, waiting to be armed. -/
def State.newLaunch (s : State) (q : Queue) (k : Packet) (image : List Byte) (index : Nat) : State :=
  match s.ctx? q.pasid with
  | none => s
  | some c =>
    let l : Launch :=
      { key := ⟨c.pasid, c.nextLaunch⟩, number := 0, queue := q.num, packet := k.index, index := index,
        image := parseImage image, stage := .waiting, begun := false,
        abs := if fld (k.word 3) 63 1 = 1 then some (fld (k.word 3) 0 63) else none, g := 0, s := 0, interval := 0, rt := 0,
        slots := [], slotPoison := [], coll := [], links := [], fired := false, stopped := false, shard := none, pendingCount := [],
        taken := [], seedDigest := [] }
    { s.setCtx { c with nextLaunch := c.nextLaunch + 1 } with launches := s.launches ++ [l] }

/-- Whether a tile has left its launch for good (R308): retired, with nothing left to perform, or never at work. -/
def Tile.settled (t : Tile) : Bool :=
  !t.phase.live && (t.phase != Phase.retired ||
    (t.far.isEmpty && t.inflight.isEmpty && t.station.isEmpty && t.queues.all fun q => q.cmds.isEmpty))

/-- Whether the counter has reached the absolute start of a launch whose arming has begun and is not complete (R323). -/
def State.slipped (s : State) (l : Launch) : Bool := l.begun && decide (l.abs.getD (s.counter + 1) ≤ s.counter)

/-- Whether a launch may be armed (R323): earlier launches of its context have been armed, every tile of its grid has
retired from them, its context is resident and neither being torn down nor, unless the arming has begun (R340), pre-empted, and
its queue waits for no page, unless its start has come meanwhile. -/
def State.mayArm (s : State) (l : Launch) : Bool :=
  l.stage == LaunchStage.waiting &&
    (((s.ctx? l.key.pasid).map fun c => c.resident && (c.preempt.isNone || l.begun) && c.tearing.isNone).getD false) &&
    (((s.queue? l.queue).map fun q => s.qstate q != 2).getD false || s.slipped l) &&
    s.launches.all (fun m => m.key.pasid != l.key.pasid || decide (l.key.seq ≤ m.key.seq) || m.stage != LaunchStage.waiting) &&
    s.tiles.all (fun t => t.key.pasid != l.key.pasid || decide (l.image.grid ≤ t.key.id) || t.settled)

/-- A launch whose arming fails (R323, R324, R366): no tile starts, its record is made, its packet completes without
signalling and the queue enters ERROR. -/
def State.failLaunch (s : State) (l : Launch) (cause : Cause) (detail : Nat) : State :=
  let s1 := s.mapTiles fun t => if t.launchKey == l.key && t.phase.live then Tile.blank t.key else t
  (s1.endLaunch l 2 cause.code detail).failPacket l.queue l.packet cause.code detail

/-- Tiles of a partition (R13, R338). -/
def State.partTiles (s : State) (c : Context) : Nat := 160 * 2 ^ (s.partition c.part).2

/-- Put tiles into the state: those of a key that exists are replaced. -/
def State.placeTile (s : State) (t : Tile) : State :=
  if (s.tile? t.key).isSome then s.setTile t else { s with others := s.others ++ [t] }

/-- The preload records that write virtual space: address and bytes (R321). -/
def Image.farPreloads (i : Image) : List (Nat × List Byte) :=
  (i.records 3 32).filterMap fun r =>
    match farTarget i.grid (imgNum r 0 8) with
    | .virt va => some (va, (i.bytes.drop (imgNum r 16 8)).take (imgNum r 8 8))
    | _ => none

/-- The object words of virtual space start at zero (R282), unless a preload gives them another value. -/
def Image.objectZeros (i : Image) : List (Nat × List Byte) :=
  (i.bindings.filter fun b => b.okind == 0).map fun b => (b.obj, List.replicate 8 0)

/-- Write the preloads of virtual space. -/
def State.farPreload (s : State) (p : Nat) : List (Nat × List Byte) → State × Hub Unit
  | [] => (s, .got ())
  | (va, bs) :: more =>
    match s.hubWrite p .frontEnd va bs (granules bs.length) with
    | (s1, .got _) => State.farPreload s1 p more
    | r => r

/-- Whether an image spans modules (R264, R323). -/
def Image.isSys (i : Image) : Bool := decide (1 ≤ i.levels.length) && lvDomain (listGet i.levels 0 0) == 6

/-- Load every tile of the image, frozen until its start tick (R25), and fix the start (R227, R228, R323, R366, R371); a pre-emption that
was asked for while the arming went on stops the tiles after their start (R340). -/
def State.armNow (s : State) (c : Context) (l : Launch) (indirect : Bool) : State :=
  let g := l.image.gTick
  let l1 : Launch :=
    { l with stage := .armed, g := g, s := l.abs.getD ((s.counter + 64) % 2 ^ 64), rt := g, slots := l.image.ring,
             interval := c.ckpt.interval, pendingCount := if c.ckpt.held && !l.image.isSys then [1] else [] }
  let s1 := (s.setLaunch l1).setCtx { c with ckpt := { c.ckpt with held := false } }
  let held (t : Tile) : Tile := { t with freeze := if t.phase = .armed then some ⟨.arming, t.key.id, false, s.cycle⟩ else none,
                                         csrs := { t.csrs with stopflag := if c.preempt.isSome then 1 else 0 } }
  ((l.image.armAll c l.key.seq l.index indirect).map held).foldl State.placeTile s1

/-- The arming of a launch fails with a cause and a DETAIL. -/
def State.armFails (s : State) (l : Launch) (cause : Cause) (detail : Nat) : State :=
  s.armed l fun s1 _ m => s1.failLaunch m cause detail

/-- Why a launch is not armed before anything of it is placed (R323, R324): no image, an image that is refused, a start that has
passed as its arming begins, or one that came before it was complete. -/
def State.armTrouble (s : State) (c : Context) (l : Launch) : Option (Cause × Nat) :=
  if s.slipped l then some (.slip, 26)
  else if l.image.bytes.isEmpty then some (.qcmd, 25)
  else
    match l.image.refusal c (s.partTiles c) with
    | some d => some (.qcmd, d)
    | none => if decide (l.abs.getD (s.counter + 1) ≤ s.counter) then some (.timepast, 27) else none

/-- LAUNCH_ARM (R323, R324): the image is checked, virtual space preloaded (R282, R321) and every tile armed, or the launch
fails; while a page of a preload is asked for, the queue is parked and the arming goes on later. -/
def execLaunchArm (k : LaunchKey) (s : State) : Host.Outcome State Fault Refusal :=
  match s.launch? k, s.ctx? k.pasid with
  | some l, some c =>
    if s.mayArm l then
      match s.armTrouble c l with
      | some (x, d) => .next (s.armFails l x d)
      | none =>
        let indirect := (((s.queue? l.queue).bind fun q => q.packet? l.packet).map fun p => p.type == 2).getD false
        match s.farPreload k.pasid (l.image.objectZeros ++ l.image.farPreloads) with
        | (s1, .got _) => .next (s1.armed l fun s2 c2 m => s2.armNow c2 m indirect)
        | (s1, .left) => .next s1
        | (s1, .fault x) => .next (s1.armFails l x 4)
        | (s1, .page g a) => .next ((s1.setLaunch { l with begun := true }).park l.queue (some l.packet) g a)
    else .refused .notEnabled
  | _, _ => .fault .noSuchObject

/-- Why an absolute start fails at S (R323): the skew of its group, a tile not armed in time, another module's abort. -/
def State.startTrouble (s : State) (l : Launch) : Option (Cause × Nat) :=
  let window := ((s.queue? l.queue).map fun q => fld (s.qword q 4) 8 8).getD 255
  if l.abs.isNone then none
  else if l.image.isSys ∧ window < Config.skew s.draws then some (.skew, 28)
  else if Config.slips s.draws then some (.slip, 26)
  else if l.image.isSys ∧ Config.groupAborts s.draws then some (.slip, 26)
  else none

/-- LAUNCH_START (R323): the counter has reached S. -/
def execLaunchStart (k : LaunchKey) (s : State) : Host.Outcome State Fault Refusal :=
  match s.launch? k with
  | none => .fault .noSuchObject
  | some l =>
    if l.stage = .armed ∧ l.s ≤ s.counter then
      match s.startTrouble l with
      | some (c, d) => .next (({ s with draws := s.draws + 1 }).failLaunch l c d)
      | none => .next ({ s with draws := s.draws + 1 }.setLaunch { l with stage := .started })
    else .refused .notEnabled

/-- Whether a tile starts now (R227, R230, R245, R323): the counter has come to its start tick, and for a boarded tile the Rill
has, which a pre-emption has not stopped. -/
def State.startsNow (s : State) (t : Tile) : Bool :=
  t.phase == Phase.armed && (match s.launch? t.launchKey with
    | some l => l.stage == LaunchStage.started && decide (l.s + t.startTick - l.g ≤ s.counter) &&
        (t.berth != Berth.boarded || (l.rt == t.startTick && !l.stopped))
    | none => false)

/-- TILE_START (R323): the tile issues its first bundle in this cycle. -/
def execTileStart (k : TileKey) (s : State) : Host.Outcome State Fault Refusal :=
  match s.tile? k with
  | none => .fault .noSuchObject
  | some t =>
    if s.startsNow t then .next (s.onKey k fun u => { u with phase := .running, freeze := none }) else .refused .notEnabled

/-- The tiles of a launch. -/
def State.tilesOf (s : State) (k : LaunchKey) : List Tile :=
  s.tiles.filter fun t => t.launchKey == k && t.phase != Phase.parked

/-- Change the packet of a launch. -/
def State.onPacketOf (s : State) (l : Launch) (f : Packet → Packet) : State :=
  s.onQueue l.queue fun q =>
    match q.packet? l.packet with
    | some p => q.setPacket (f p)
    | none => q

/-- Whether a launch is the last of its packet (R325). -/
def State.lastLaunch (s : State) (l : Launch) : Bool :=
  (((s.queue? l.queue).bind fun q => q.packet? l.packet).map fun p => p.type != 2 || decide (p.count ≤ l.index + 1)).getD true

/-- LAUNCH_TRIGGER (R300, R308, R317): every tile has issued TRIG or EXIT and the writes that its release covers have been
performed; the packet of the last launch is satisfied. -/
def execLaunchTrigger (k : LaunchKey) (s : State) : Host.Outcome State Fault Refusal :=
  match s.launch? k with
  | none => .fault .noSuchObject
  | some l =>
    if !l.fired && l.stage == LaunchStage.started && 
        (s.tilesOf k).all (fun t => (t.triggered.map fun tick => !s.releaseOpen t tick).getD false) then
      let s1 := s.setLaunch { l with fired := true }
      .next (if s.lastLaunch l then s1.onPacketOf l fun p => { p with satisfied := true } else s1)
    else .refused .notEnabled

/-- LAUNCH_RETIRE (R308, R316, R325): every tile has retired and its work is performed; messages that no RECV took are
discarded (R149), the record is made, and the packet completes or asks for its next launch. -/
def execLaunchRetire (k : LaunchKey) (s : State) : Host.Outcome State Fault Refusal :=
  match s.launch? k with
  | none => .fault .noSuchObject
  | some l =>
    if l.stage == LaunchStage.started && l.shard.isNone &&
        (s.tilesOf k).all (fun t => t.phase == Phase.retired && t.settled) then
      let s1 := (s.mapTiles fun t =>
        if t.launchKey == k then { t with basin := [], skid := [], claims := [] } else t).endLaunch l 0 0 0
      if s.lastLaunch l then .next (s1.completePacket l.queue l.packet)
      else
        match (s1.queue? l.queue).bind fun q => (q.packet? l.packet).map fun p => (q, p) with
        | some (q, p) =>
          .next ((s1.newLaunch q p l.image.bytes (l.index + 1)).onPacketOf l fun p => { p with launched := l.index + 2 })
        | none => .next s1
    else .refused .notEnabled

end Sys2Proof.Machine
end

