-- ==== Sys2Proof/Machine/FrontEnd.lean ====
section
/-! DEFINITION. The front end (R312 to R320, R325 to R327, R329): polling and accepting packets, the packets of R316, the
states of a queue, watchdog restarts. -/

namespace Sys2Proof.Machine

/-! Polling (R313, R314, R327). -/

/-- The front-end core of a queue (log entry 22). -/
def coreOf (n : Nat) : Nat := n % 16

def State.coreUp (s : State) (n : Nat) : Bool := !s.board.coreDown.any fun x => x.1 == coreOf n

/-- Priority of a queue. -/
def State.prio (s : State) (q : Queue) : Nat := fld (s.qword q 4) 5 3

/-- Packets published and not taken: both indices count without wrap (R312). -/
def State.behind (s : State) (q : Queue) : Nat := s.qword q 1 - s.qword q 2

/-- log2 of the ring. -/
def State.logn (s : State) (q : Queue) : Nat := fld (s.qword q 4) 0 5

/-- Whether the front end polls a queue now: its core runs, its context is resident, it is IDLE or ACTIVE (R318, R327, R329). -/
def State.takes (s : State) (q : Queue) : Bool :=
  s.coreUp q.num && (((s.ctx? q.pasid).map Context.serves).getD false) && decide (s.qstate q < 2)

/-- Whether a queue without a hardware slot waits for one (R327). -/
def State.waitsSlot (s : State) (q : Queue) : Bool := !q.resident && s.behind q != 0 && s.takes q

/-- Whether a waiting queue comes before another on their core: by descending PRIO, then in rotation (R327). -/
def State.goesFirst (s : State) (r q : Queue) : Bool :=
  coreOf r.num == coreOf q.num && s.waitsSlot r &&
    (decide (s.prio q < s.prio r) || (s.prio q == s.prio r && (decide (r.rank < q.rank) || (r.rank == q.rank && decide (r.num < q.num)))))

/-- Whether a queue has nothing that its slot could serve: it is empty, it takes no packet in its state (R318), or its context is not
served. -/
def State.slotUnused (s : State) (r : Queue) : Bool :=
  (s.behind r == 0 && r.packets.isEmpty) || decide (3 ≤ s.qstate r) || !(((s.ctx? r.pasid).map Context.serves).getD false)

/-- A resident queue of a core that may give its slot to a waiting one (R327): without use for it, or, at a packet boundary, of lower
priority, or of equal priority once it has been polled; a PARKED queue keeps its slot (log entry 22). -/
def State.givesWay (s : State) (q r : Queue) : Bool :=
  r.resident && coreOf r.num == coreOf q.num && s.qstate r != 2 &&
    (s.slotUnused r || (r.reading.isNone && (decide (s.prio r < s.prio q) || (s.prio r == s.prio q && r.served))))

/-- The queue that gives its slot to a waiting one (R327): one without use for it before any other, then by ascending PRIO, so that the
queues that stay are those of the highest. -/
def State.displaced (s : State) (q : Queue) : Option Queue :=
  (sortBy (fun r => if s.slotUnused r then 0 else 1 + s.prio r) (s.queues.filter (s.givesWay q))).head?

/-- A queue takes a hardware slot. -/
def Queue.enter (q : Queue) : Queue := { q with resident := true, served := false }

/-- A queue gives its slot up and goes behind the queues that wait. -/
def Queue.leave (q : Queue) (rank : Nat) : Queue := { q with resident := false, rank := rank, reading := none }

/-- The residency of a queue that is to be polled (R327): it has a hardware slot, or it is the next to have one of the 16 of its core,
a free one or that of a queue that gives way. -/
def State.residency (s : State) (q : Queue) : Option State :=
  if q.resident then some s
  else if !s.waitsSlot q || s.queues.any fun r => s.goesFirst r q then none
  else if (s.queues.filter fun r => r.resident && coreOf r.num == coreOf q.num).length < 16 then some (s.onQueue q.num Queue.enter)
  else
    match s.displaced q with
    | some r => some ((s.onQueue r.num fun r => r.leave s.fresh).onQueue q.num Queue.enter)
    | none => none

/-- Whether the words from i on are zero. -/
def zeroFrom (ws : List Word) (i : Nat) : Bool := (ws.drop i).all fun w => w == 0

/-- Whether a packet's body keeps to the table of R316. -/
def bodyOk (type : Nat) (ws : List Word) : Bool :=
  let w (i : Nat) : Nat := (listGet ws i 0).toNat
  let launch := decide (w 1 < 16) &&
    (if fld (w 1) 3 1 = 1 then w 2 % 256 == 0 && decide (w 2 < 2 ^ 57) else w 2 == 0) && (fld (w 3) 63 1 == 1 || w 3 == 0)
  match type with
  | 0x01 => launch && zeroFrom ws 4
  | 0x02 => launch && w 4 % 4 == 0 && decide (w 4 < 2 ^ 57) && zeroFrom ws 5
  | 0x03 => w 1 != 0 && decide (w 3 < 4) && zeroFrom ws 4
  | 0x04 => w 1 != 0 && decide (w 2 < 3) && zeroFrom ws 4
  | 0x05 => w 1 % 64 == 0 && decide (w 1 < 2 ^ 57) && zeroFrom ws 2
  | 0x06 => zeroFrom ws 5
  | 0x08 => zeroFrom ws 2
  | 0x09 => decide (w 1 < 2 ^ 32) && decide (w 2 < 2 ^ 32) && decide (w 3 < 2) && zeroFrom ws 5
  | 0x0A => zeroFrom ws 6
  | _ => zeroFrom ws 1

/-- The DETAIL of a packet that breaks R315 or R316. -/
def packetError (ws : List Word) : Option Nat :=
  let h := (listGet ws 0 0).toNat
  let type := fld h 0 8
  if type = 0 ∨ 0x0C ≤ type then some 1
  else if fld h 16 16 ≠ 0 then some 2
  else if 6 ≤ fld h 12 4 then some 3
  else if !bodyOk type ws then some 4
  else none

/-- Accept a packet whose header has matched, or refuse it (R314, R316). -/
def State.acceptPacket (s : State) (q : Queue) (ws : List Word) : State :=
  match packetError ws with
  | some d => s.queueFail q Cause.qcmd.code d
  | none =>
    let i := s.qword q 2
    (s.setQword q 2 ((i + 1) % 2 ^ 64)).onQueue q.num fun q =>
      { q with packets := q.packets ++ [⟨i, ws, false, false, false, 0, 0, none⟩], served := true, reading := none }

/-- The virtual address of the next packet of a queue (R312, R313). -/
def State.packetAddr (s : State) (q : Queue) : Nat := fld (s.qword q 0) 0 57 + 64 * (s.qword q 2 % 2 ^ s.logn q)

/-- The phase that the next packet's header is to carry (R313). -/
def State.phaseDue (s : State) (q : Queue) : Nat := 1 - s.qword q 2 / 2 ^ s.logn q % 2

/-- Read one word of the next packet, and go on with it. -/
def State.readWord (s : State) (q : Queue) (w : Nat) (f : State → Word → State) : State :=
  match s.hubRead1 q.pasid .frontEnd (s.packetAddr q + 8 * w) 8 with
  | (s1, .got bs) => f s1 (word (natOfBytes bs))
  | (s1, .left) => s1
  | (s1, .fault c) => s1.queueFail q c.code 4
  | (s1, .page g k) => s1.park q.num none g k

/-- The packet that is being read. -/
def State.readingOf (s : State) (q : Queue) : Option RingRead := q.reading.filter fun r => r.index == s.qword q 2

/-- The words of a packet that are still to be read. -/
def RingRead.left (r : RingRead) : List Nat := (List.range 8).filter fun n => r.words[n]? == some none

/-- A word of the body has been read (R313): with the last, the packet is accepted or refused. -/
def State.bodyWord (s : State) (q : Queue) (r : RingRead) (w : Nat) (v : Word) : State :=
  let ws := r.words.set w (some v)
  if r.left = [w] then s.acceptPacket q (ws.map fun x => x.getD 0) else s.onQueue q.num fun x => { x with reading := some { r with words := ws } }

/-- Poll the next packet (R313), which is the queue's turn among those of equal priority (R327): its header alone until the phase
matches, then each word of the body once, in no stated order (log entry 4), so that one written late may be read old or new. -/
def State.pollRing (s0 : State) (q : Queue) : State :=
  let s := s0.onQueue q.num fun x => { x with served := true }
  match s.readingOf q with
  | none => s.readWord q 0 fun s1 h =>
    if fld h.toNat 8 1 = s.phaseDue q then
      s1.onQueue q.num fun x => { x with reading := some ⟨s.qword q 2, some h :: List.replicate 7 none⟩ }
    else s1
  | some r =>
    let w := listGet r.left (s.pick r.left.length) 0
    s.tickFresh.readWord q w fun s1 v => s1.bodyWord q r w v

/-- One poll of a queue that holds a slot and has packets published (R313, R314, R317, R318): an overrun is found whatever is in
progress; with 64 packets accepted and not complete no packet is taken. -/
def State.pollQueue (s : State) (q : Queue) : State :=
  if 2 ^ s.logn q < s.behind q then s.queueFail q Cause.qcmd.code 5
  else if 64 ≤ q.packets.length then s.onQueue q.num fun x => { x with served := true }
  else (if s.qstate q = 0 then s.setQstate q 1 else s).pollRing q

/-- Whether an ACTIVE queue has nothing more to do (R318). -/
def State.goesIdle (s : State) (q : Queue) : Bool := s.qstate q == 1 && q.packets.isEmpty && s.qword q 1 == s.qword q 2

/-- QUEUE_POLL (R313 to R315, R318, R327, R329): a signal that a complete packet still owes, which waits for no core and no slot; the
end of an ACTIVE queue's work; or a poll of its ring. -/
def execQueuePoll (n : Nat) (s : State) : Host.Outcome State Fault Refusal :=
  match s.queue? n with
  | none => .fault .noSuchObject
  | some q =>
    let here := ((s.ctx? q.pasid).map Context.serves).getD false
    if !s.up || !here then .refused .notEnabled
    else
      match q.packets.find? fun k => k.complete with
      | some k => .next (s.signalPacket n k.index)
      | none =>
        if s.goesIdle q then .next (s.setQstate q 0)
        else if s.behind q = 0 || !s.takes q then .refused .notEnabled
        else
          match s.residency q with
          | some s1 => .next (s1.pollQueue q)
          | none => .refused .notEnabled

/-! Packets that launch (R316, R322, R325). -/

/-- What loading an image comes to: the bytes to be checked, with the image slot written when the digest holds (R322). -/
def State.loadImage (s : State) (q : Queue) (k : Packet) : State × Hub (List Byte) :=
  let slot := fld (k.word 1) 0 3
  if fld (k.word 1) 3 1 = 0 then
    (s, .got (((s.ctx? q.pasid).bind fun c => (c.images[slot]?).join).getD []))
  else
    match s.hubRead q.pasid .frontEnd (k.word 2) 0x740 2 with
    | (s1, .got hdr) =>
      let n := imgLength hdr
      if 2 ^ 57 < k.word 2 + n then (s1, .got hdr)
      else
        match s1.hubRead q.pasid .frontEnd (k.word 2) n (granules n) with
        | (s2, .got bs) =>
          match s2.ctx? q.pasid with
          | some c =>
            (if (parseImage bs).digestOk then s2.setCtx { c with images := c.images.set slot (some bs) } else s2, .got bs)
          | none => (s2, .got bs)
        | r => r
    | r => r

/-- Start the first launch of a packet. -/
def State.startLaunch (s : State) (q : Queue) (k : Packet) (count : Nat) : State :=
  match s.loadImage q k with
  | (s1, .got bs) =>
    let k1 := { k with started := true, count := count, launched := 1 }
    (s1.newLaunch q k1 bs 0).onQueue q.num fun q => q.setPacket k1
  | (s1, e) => s1.hubTrouble q.num k.index e

def Packet.fresh (k : Packet) : Bool := !k.started

/-- TIMETABLE (R316, R322). -/
def execTimetable (n i : Nat) (s : State) : Host.Outcome State Fault Refusal :=
  s.onPacket n i 0x01 Packet.fresh fun q k => s.startLaunch q k 1

/-- TIMETABLE_INDIRECT (R325): the count is read once the packet may start. -/
def execTimetableIndirect (n i : Nat) (s : State) : Host.Outcome State Fault Refusal :=
  s.onPacket n i 0x02 Packet.fresh fun q k =>
    match s.hubRead1 q.pasid .frontEnd (k.word 4) 4 with
    | (s1, .got bs) => if natOfBytes bs = 0 then s1.completePacket n i else s1.startLaunch q k (natOfBytes bs)
    | (s1, e) => s1.hubTrouble n i e

/-! Signals (R316). -/

/-- Read a signal at its home. -/
def State.readSignal (s : State) (q : Queue) (k : Nat) : State × Hub (List Byte) :=
  s.hubRead1 q.pasid .frontEnd (s.signalAddr q k) 8

/-- Whether the condition of a WAIT holds (R316). -/
def waitHolds (cond v x : Nat) : Bool :=
  match cond with
  | 0 => x == v
  | 1 => x != v
  | 2 => decide (x < v)
  | _ => decide (v ≤ x)

/-- Test signals: all of them must meet the condition. -/
def State.testSignals (s : State) (q : Queue) (ok : Nat → Bool) : List Nat → State × Hub Bool
  | [] => (s, .got true)
  | k :: more =>
    match s.readSignal q k with
    | (s1, .got bs) => if ok (natOfBytes bs) then State.testSignals s1 q ok more else (s1, .got false)
    | (s1, .left) => (s1, .left)
    | (s1, .fault c) => (s1, .fault c)
    | (s1, .page g a) => (s1, .page g a)

/-- The test of a WAIT or a BARRIER_AND packet. -/
def State.testPacket (s : State) (q : Queue) (k : Packet) : State × Hub Bool :=
  if k.type = 0x03 then s.testSignals q (waitHolds (fld (k.word 3) 0 2) (k.word 2)) [k.word 1]
  else s.testSignals q (fun x => x == 0) (([1, 2, 3, 4, 5].map k.word).filter fun x => x != 0)

/-- A packet that waits on signals starts, and completes when its test holds; in DRAINING it is discarded (R318). -/
def State.waitPacket (s : State) (q : Queue) (k : Packet) : State :=
  if s.qstate q = 4 then s.onQueue q.num fun q => q.dropPacket k.index
  else
    let s0 := s.onQueue q.num fun q => q.setPacket { k with started := true }
    match s0.testPacket q k with
    | (s1, .got true) => s1.completePacket q.num k.index
    | (s1, .got false) => s1
    | (s1, e) => s1.hubTrouble q.num k.index e

/-- WAIT (R316). -/
def execWait (n i : Nat) (s : State) : Host.Outcome State Fault Refusal :=
  s.onPacket n i 0x03 Packet.fresh fun q k => s.waitPacket q k

/-- BARRIER_AND (R316). -/
def execBarrierAnd (n i : Nat) (s : State) : Host.Outcome State Fault Refusal :=
  s.onPacket n i 0x0A Packet.fresh fun q k => s.waitPacket q k

/-- SIGNAL_CONDITION_MET (R316): a later read at the homes finds the condition of a started packet. -/
def execSignalConditionMet (n i : Nat) (s : State) : Host.Outcome State Fault Refusal :=
  match s.queue? n with
  | none => .fault .noSuchObject
  | some q =>
    match q.packet? i with
    | none => .refused .notEnabled
    | some k =>
      if (k.type == 0x03 || k.type == 0x0A) && k.started && s.mayStart q k then
        (match s.testPacket q k with
          | (_, .got false) => .refused .notEnabled
          | _ => .next (s.waitPacket q k))
      else .refused .notEnabled

/-- SIGNAL (R316). -/
def execSignal (n i : Nat) (s : State) : Host.Outcome State Fault Refusal :=
  s.onPacket n i 0x04 Packet.fresh fun q k =>
    let v := word (k.word 3)
    let r := match k.word 2 with
      | 0 => s.hubAtomic q.pasid (s.signalAddr q (k.word 1)) .xchg v
      | 1 => s.hubAtomic q.pasid (s.signalAddr q (k.word 1)) .add v
      | _ => s.hubAtomic q.pasid (s.signalAddr q (k.word 1)) .add (0 - v)
    match r with
    | (s1, .got _) => s1.completePacket n i
    | (s1, e) => s1.hubTrouble n i e

/-! COPY (R316): the hub 0 copy engine. -/

/-- Why a command is no command of the hub copy engine (R249 to R251, R316, R257). -/
def hubCommandError (grid : Nat) (ws : List Word) : Option Cause :=
  if (qcmdCheck ws).isSome || cmdCdue ws != 0 || cmdRing ws != 0 || cmdRadv ws != 0 || (usedBases ws).any fun a => decide (2 ^ 63 ≤ a)
  then some .qcmd
  else if (baseAlign ws).isSome then some .align
  else if (basePerm grid ws).isSome then some .perm
  else none

/-- Whether a unit of a command is one of another module whose request has not left yet (R357, R358). -/
def State.hubLeaves (s : State) (q : Queue) (c : CopyCmd) (va : Nat) (k : AccKind) : Bool :=
  c.since.isNone && (match (s.reach q.pasid .hubCopy va k).2 with
    | .away _ => true
    | _ => false)

/-- Read a unit of the element in hand. R156 names no agent of the hub: at a tile window its copies touch guard granules as AGENT 3, from a
source that is no tile, 0xFFFF, here and where they write (DESIGN CHOICE, log entry 48). -/
def State.hubSource (s : State) (q : Queue) (c : CopyCmd) (grid at_ n : Nat) : State × Hub (List Byte) :=
  match (cmdSrc grid c.words c.prog).2 with
  | .window id off =>
    let s1 := s.ensureTile ⟨q.pasid, id⟩
    let sp := ((s1.tile? ⟨q.pasid, id⟩).getD s1.tile).spad
    let s2 := s1.onKey ⟨q.pasid, id⟩ fun t => t.touchFar 0xFFFF 3 off (cmdSize c.words) c.read.isEmpty
    if sp.poisoned (off + at_) n then (s2, .fault .eccue) else (s2, .got (sp.readBytes (off + at_) n))
  | .virt va => if s.hubLeaves q c (va + at_) .read then (s, .left) else s.hubRead1 q.pasid .hubCopy (va + at_) n
  | _ => (s, .fault .perm)

/-- Where a contribution byte of a context lies for the hub: in the table of its newest launch that holds the entry (R348, log
entry 68). -/
def State.hubContribution (s : State) (p e k off : Nat) : Option Nat :=
  (s.launches.filter fun l => l.key.pasid == p && ((l.entry? e).map fun x => x.valid).getD false).getLast?.bind fun l =>
    s.contribution l.key e k off

/-- Write a unit of the element in hand at a virtual address. -/
def State.hubSinkVirt (s : State) (q : Queue) (c : CopyCmd) (va : Nat) (bs : List Byte) : State × Hub Unit :=
  if s.hubLeaves q c va .write then (s, .left) else s.hubWrite1 q.pasid .hubCopy va bs

/-- Write a unit of the element in hand; a touch of a guard granule is that of State.hubSource (DESIGN CHOICE, log entry 48). -/
def State.hubSink (s : State) (q : Queue) (c : CopyCmd) (grid at_ : Nat) (bs : List Byte) : State × Hub Unit :=
  match (cmdDst grid c.words c.prog).2 with
  | .window id off =>
    ((s.ensureTile ⟨q.pasid, id⟩).onKey ⟨q.pasid, id⟩ fun t =>
      let u := t.touchFar 0xFFFF 3 off (cmdSize c.words) c.left.isEmpty
      { u with spad := u.spad.write (off + at_) bs }, .got ())
  | .virt va => s.hubSinkVirt q c (va + at_) bs
  | .aperture e o =>
    match apertureOf e o with
    | .contrib k b =>
      match s.hubContribution q.pasid e k (b + at_) with
      | some va => s.hubSinkVirt q c va bs
      | none => (s, .fault .perm)
    | _ => (s, .fault .perm)
  | _ => (s, .fault .perm)

/-- Whether an earlier ordered command of the queue on the same flow still has writes to perform, or may have since it has not been read
(R253, R316). -/
def Queue.flowBusy (q : Queue) (k : Packet) (c : CopyCmd) : Bool :=
  cmdOrd c.words && q.packets.any fun m => decide (m.index < k.index) && m.type == 0x05 && !m.complete && (match m.copy with
    | some e => cmdOrd e.words && cmdFlow e.words == cmdFlow c.words && decide (e.prog < cmdElems e.words)
    | none => true)

/-- Whether a COPY packet can go on: its command is still to be read, its flow lets it, or it completes, after the earlier commands of
the queue (R252, R254, R316). -/
def Queue.copyTurn (q : Queue) (k : Packet) : Bool :=
  match k.copy with
  | none => true
  | some c =>
    if cmdElems c.words ≤ c.prog then q.packets.all fun m => decide (k.index ≤ m.index) || m.type != 0x05 || m.complete
    else !q.flowBusy k c

/-- Read the command of a COPY packet and check it. -/
def State.copyRead1 (s : State) (q : Queue) (k : Packet) (grid : Nat) : State :=
  match s.hubRead1 q.pasid .frontEnd (k.word 1) 64 with
  | (s1, .got bs) =>
    let ws := (chunks 8 8 bs).map fun b => word (natOfBytes b)
    match hubCommandError grid ws with
    | some c => s1.failPacket q.num k.index c.code 4
    | none =>
      let c : CopyCmd := { num := k.index, words := ws, issue := 0, pos := 0, bundle := 0, due := none, upto := 0, gang := (0, 1),
                           started := true, halted := false, paused := none, prog := 0, read := [], data := none, left := [], stale := [],
                           stage := .running, record := none, since := none }
      s1.onQueue q.num fun q => q.setPacket { k with started := true, copy := some c }
  | (s1, e) => s1.hubTrouble q.num k.index e

/-- Whether the request of a COPY packet to another module has waited 10 ms for a path (R358). -/
def State.copyLate (s : State) (k : Packet) : Bool := pathLate s.cycle (k.copy.bind fun c => c.since)

/-- Move a unit of the element in hand (R252, R279); a request that leaves for another module is a unit moved at a later event (R357). -/
def State.copyUnit (s : State) (q : Queue) (k : Packet) (c : CopyCmd) (grid : Nat) : State :=
  let put (x : State) (d : CopyCmd) : State := x.onQueue q.num fun q => q.setPacket { k with copy := some d }
  let write (bs : List Byte) : State :=
    let n := (cmdDst grid c.words c.prog).2.unit (cmdSize c.words)
    let us := c.units n
    let u := listGet us (s.pick us.length) 0
    match s.tickFresh.hubSink q c grid (u * n) ((bs.drop (u * n)).take n) with
    | (s1, .got _) => put s1 (c.afterWrite us u bs)
    | (s1, .left) => put s1 { c with since := some s1.cycle }
    | (s1, e) => s1.hubTrouble q.num k.index e
  if cmdOp c.words = 1 then write (fillBytes c.words)
  else
    match c.data with
    | some bs => write bs
    | none =>
      let n := (cmdSrc grid c.words c.prog).2.unit (cmdSize c.words)
      let us := c.units n
      let u := listGet us (s.pick us.length) 0
      match s.tickFresh.hubSource q c grid (u * n) n with
      | (s1, .got bs) => put s1 (c.afterRead us u bs)
      | (s1, .left) => put s1 { c with since := some s1.cycle }
      | (s1, e) => s1.hubTrouble q.num k.index e

/-- A COPY packet: the command is read and checked, then a unit moves at each event (R252, R316); with no path to another module for 10 ms
it stops with STATUS 2, which is PERM (R358). -/
def State.copyPacket (s : State) (q : Queue) (k : Packet) : State :=
  let grid := ((s.ctx? q.pasid).map s.partTiles).getD 0
  match k.copy with
  | none => s.copyRead1 q k grid
  | some c =>
    if cmdElems c.words ≤ c.prog then s.completePacket q.num k.index
    else if s.copyLate k then s.failPacket q.num k.index Cause.perm.code 4
    else s.copyUnit q k c grid

/-- COPY (R316). -/
def execCopy (n i : Nat) (s : State) : Host.Outcome State Fault Refusal :=
  s.onPacket n i 0x05 (fun k => ((s.queue? n).map fun q => q.copyTurn k).getD false) fun q k => s.copyPacket q k

/-! The seed stack (R326). -/

/-- Change the seed stack, or fail with DETAIL. -/
def State.seedPacket (s : State) (q : Queue) (k : Packet) (f : List (BitVec 256) → Option (List (BitVec 256))) (detail : Nat) : State :=
  match s.ctx? q.pasid with
  | none => s
  | some c =>
    match f c.seeds with
    | some l => (s.setCtx { c with seeds := l }).completePacket q.num k.index
    | none => s.failPacket q.num k.index Cause.qcmd.code detail

/-- SEED_PUSH (R326). -/
def execSeedPush (n i : Nat) (s : State) : Host.Outcome State Fault Refusal :=
  s.onPacket n i 0x06 Packet.fresh fun q k =>
    s.seedPacket q k (fun l =>
      if l.length < 16 then
        some (BitVec.ofNat 256 (k.word 1 + k.word 2 * 2 ^ 64 + k.word 3 * 2 ^ 128 + k.word 4 * 2 ^ 192) :: l)
      else none) 6

/-- SEED_POP (R326). -/
def execSeedPop (n i : Nat) (s : State) : Host.Outcome State Fault Refusal :=
  s.onPacket n i 0x07 Packet.fresh fun q k =>
    s.seedPacket q k (fun l =>
      match l with
      | _ :: more => some more
      | [] => none) 7

/-- The child of a seed (R326). -/
def seedChild (parent : BitVec 256) (f : Nat) : BitVec 256 :=
  BitVec.ofNat 256 (natOfBytes (shake256 (bytesOfNat 32 parent.toNat ++ bytesOfNat 8 f) 32))

/-- SEED_FORK (R326): an empty stack first, then a full one. -/
def execSeedFork (n i : Nat) (s : State) : Host.Outcome State Fault Refusal :=
  s.onPacket n i 0x08 Packet.fresh fun q k =>
    let depth := ((s.ctx? q.pasid).map fun c => c.seeds.length).getD 0
    s.seedPacket q k (fun l =>
      match l with
      | top :: _ => if l.length < 16 then some (seedChild top (k.word 1) :: l) else none
      | [] => none) (if depth = 0 then 7 else 6)

/-! Policy and NOP. -/

/-- CHECKPOINT_POLICY (R370). -/
def execCheckpointPolicy (n i : Nat) (s : State) : Host.Outcome State Fault Refusal :=
  s.onPacket n i 0x09 Packet.fresh fun q k =>
    match s.ctx? q.pasid with
    | none => s
    | some c =>
      if c.ckpt.store = 0 ∧ (k.word 1 ≠ 0 ∨ k.word 2 ≠ 0) then s.failPacket n i Cause.qcmd.code 4
      else
        let p := { c.ckpt with interval := k.word 1, period := k.word 2, stream := k.word 3 == 1, handle := k.word 4,
                               timerFrom := if k.word 2 = 0 then none else some s.cycle }
        (s.setCtx { c with ckpt := p }).completePacket n i

/-- NOP (R316). -/
def execNop (n i : Nat) (s : State) : Host.Outcome State Fault Refusal :=
  s.onPacket n i 0x0B Packet.fresh fun _ _ => s.completePacket n i

/-! Queue states (R318). -/

/-- QUEUE_RESTART (R318): CTRL = 1 in ERROR. -/
def execQueueRestart (n : Nat) (s : State) : Host.Outcome State Fault Refusal :=
  match s.queue? n with
  | none => .fault .noSuchObject
  | some q =>
    if s.up ∧ s.qword q 3 = 1 ∧ s.qstate q = 3 then
      let s1 := ((s.setQword q 3 0).setQword q 5 0).setQword q 8 0
      let s2 := s1.setQword q 9 0
      .next ((s2.setQstate q (if s2.qword q 2 < s2.qword q 1 then 1 else 0)).onQueue n Queue.unparked)
    else .refused .notEnabled

/-- QUEUE_DESTROY (R318): CTRL = 2; what only waits on signals is discarded without signalling. -/
def execQueueDestroy (n : Nat) (s : State) : Host.Outcome State Fault Refusal :=
  match s.queue? n with
  | none => .fault .noSuchObject
  | some q =>
    if s.up ∧ s.qword q 3 = 2 ∧ s.qstate q < 4 then
      .next (((s.setQword q 3 0).setQstate q 4).onQueue n fun q =>
        { q.unparked with packets := q.packets.filter fun k => k.type != 0x03 && k.type != 0x0A })
    else .refused .notEnabled

/-- QUEUE_DESTROYED (R318). -/
def execQueueDestroyed (n : Nat) (s : State) : Host.Outcome State Fault Refusal :=
  match s.queue? n with
  | none => .fault .noSuchObject
  | some q => if s.up ∧ s.qstate q = 4 ∧ q.packets.isEmpty then .next (s.setQstate q 5) else .refused .notEnabled

/-- A queue whose page cannot be had enters ERROR with XLATE and DETAIL 12 (R318); the packet that needed it completes
without signalling, and a launch whose arming needed it has its record (R366). -/
def State.parkFails (s : State) (q : Queue) : State :=
  match q.parkedBy with
  | some i =>
    match s.launches.find? fun l => l.queue == q.num && l.packet == i && l.begun && l.stage == LaunchStage.waiting with
    | some l => s.armFails l .xlate 12
    | none => s.failPacket q.num i Cause.xlate.code 12
  | none => s.queueFail q Cause.xlate.code 12

/-- QUEUE_PARK_TIMEOUT (R318). -/
def execQueueParkTimeout (n : Nat) (s : State) : Host.Outcome State Fault Refusal :=
  match s.queue? n with
  | none => .fault .noSuchObject
  | some q =>
    if s.qstate q = 2 ∧ (q.parkedAt.getD s.cycle) + Config.tenMsCycles ≤ s.cycle then .next (s.parkFails q)
    else .refused .notEnabled

/-! The end of a page request (R335, R336). -/

/-- Queues parked on a page that has come are active again. -/
def State.unparkAll (s : State) (p granule : Nat) (k : AccKind) : State :=
  (s.queues.filter fun q => q.pasid == p && q.parkedOn == some (granule, k)).foldl (fun x q =>
    (if x.qstate q = 2 then x.setQstate q 1 else x).onQueue q.num Queue.unparked) s

/-- The packets of a context that are complete but for their signal. -/
def State.owing (s : State) (p : Nat) : List (Queue × Packet) :=
  (s.queues.filter fun q => q.pasid == p).flatMap fun q => (q.packets.filter fun k => k.complete).map fun k => (q, k)

/-- Every access of a context to a page that cannot be had meets XLATE (R336). -/
def State.pageFails (s : State) (p granule : Nat) (k : AccKind) : State :=
  let s1 := (s.queues.filter fun q => q.pasid == p && q.parkedOn == some (granule, k)).foldl (fun x q => x.parkFails q)
    (s.failTiles p granule k .xlate)
  if k = .atomic then
    (s1.owing p).foldl (fun x e =>
      if s.signalAddr e.1 e.2.signal / 65536 = granule then x.failPacket e.1.num e.2.index Cause.xlate.code 12 else x) s1
  else s1

/-- The signals that wait for no page any more are decremented, with no need of a core or a slot (R315, R329). -/
def State.signalAll (s : State) (p : Nat) : State := (s.owing p).foldl (fun x e => x.signalPacket e.1.num e.2.index) s

/-- A request is answered: a resolved one is walked again (R335). -/
def State.endRequest (s : State) (p : Nat) (r : PageReq) (resolved : Bool) : State :=
  match s.ctx? p with
  | none => s
  | some c =>
    let c1 := { c with requests := c.requests.filter fun x => x.num != r.num }
    let s1 := (s.setCtx c1).postRequests p
    if resolved then
      let s2 := s1.walked c1 (r.granule * 65536)
      match s1.walk c1 (r.granule * 65536) with
      | .page _ => (s2.unparkAll p r.granule r.kind).signalAll p
      | _ => s2.pageFails p r.granule r.kind
    else s1.pageFails p r.granule r.kind

/-- An answer that comes while the context is saved is kept until it is restored (R341). -/
def State.keepAnswer (s : State) (c : Context) (n : Nat) (resolved : Bool) : State :=
  s.setCtx { c with requests := c.requests.map fun x => if x.num = n then { x with answer := some resolved } else x }

/-- PAGE_REQUEST_TIMEOUT (R335): across a save the 10 ms count on. -/
def execPageRequestTimeout (p n : Nat) (s : State) : Host.Outcome State Fault Refusal :=
  match s.ctx? p with
  | none => .fault .noSuchObject
  | some c =>
    match c.requests.find? fun r => r.num == n with
    | none => .refused .notEnabled
    | some r =>
      match r.written with
      | some w =>
        if r.answer.isNone && decide (w + Config.tenMsCycles ≤ s.cycle) then
          .next (if c.resident then s.endRequest p r false else s.keepAnswer c n false)
        else .refused .notEnabled
      | none => .refused .notEnabled

end Sys2Proof.Machine
end

