-- ==== Sys2Proof/Machine/Collectives.lean ====
section
/-! DEFINITION. Collectives (R347 to R356): the table of a launch, ready writes, rounds folded by the reduction switch, and
requests from other modules (R357, R358). -/

namespace Sys2Proof.Machine

/-! Fields of an entry (R349, R350). -/

def CollEntry.desc (e : CollEntry) : Nat := fld (e.words.get 0) 0 32
def CollEntry.npeer (e : CollEntry) : Nat := fld (e.words.get 0) 32 6
def CollEntry.baddr (e : CollEntry) : Nat := fld (e.words.get 2) 42 21
def CollEntry.saddr (e : CollEntry) : Nat := fld (e.words.get 2) 21 21
def CollEntry.raddr (e : CollEntry) : Nat := fld (e.words.get 2) 0 21
def CollEntry.barn (e : CollEntry) : Nat := fld (e.words.get 3) 0 11

/-- The 32-bit field of peer k, its tile and its module. -/
def CollEntry.peerField (e : CollEntry) (k : Nat) : Nat := fld (e.words.get (4 + k / 2)) (32 * (k % 2)) 32
def CollEntry.peerId (e : CollEntry) (k : Nat) : Nat := fld (e.peerField k) 0 11
def CollEntry.peerModule (e : CollEntry) (k : Nat) : Nat := fld (e.peerField k) 11 6

def CollEntry.peers (e : CollEntry) : List Nat := List.range (min 32 e.npeer)

/-- The peers of a module, in list order. -/
def CollEntry.peersOf (e : CollEntry) (m : Nat) : List Nat := e.peers.filter fun k => e.peerModule k == m

/-- Distinct values of a rising list. -/
def distinct : List Nat → List Nat
  | a :: b :: t => if a = b then distinct (b :: t) else a :: distinct (b :: t)
  | l => l

/-- The modules of an entry, in list order. -/
def CollEntry.modules (e : CollEntry) : List Nat := distinct (e.peers.map e.peerModule)

def descOp (d : Nat) : Nat := fld d 23 2
def descFmt (d : Nat) : Fmt := fmtOf (fld d 18 5)
def descCount (d : Nat) : Nat := fld d 0 18

/-- Bytes of an element of a descriptor's format. -/
def descSize (d : Nat) : Nat :=
  match fld d 18 5 with
  | 0x00 => 8
  | 0x01 => 4
  | 0x0A => 4
  | 0x02 => 2
  | 0x03 => 2
  | _ => 1

/-- Whether a descriptor is legal (R350). -/
def descOk (d : Nat) : Bool :=
  fld d 25 7 == 0 && [0, 1, 2, 3, 4, 5, 0x0A].contains (fld d 18 5) && decide (1 ≤ descCount d) &&
    decide (descCount d * descSize d ≤ 0x20000) && (descOp d != 3 || fld d 18 5 == 0x0A)

/-- No step of a list falls. -/
def rising : List Nat → Bool
  | a :: b :: t => decide (a ≤ b) && rising (b :: t)
  | _ => true

/-- Whether an entry is bad (R349). -/
def CollEntry.isBad (e : CollEntry) (grid position : Nat) : Bool :=
  let ms := e.peers.map e.peerModule
  !(fld (e.words.get 0) 38 25 == 0 && fld (e.words.get 1) 57 7 == 0 && fld (e.words.get 2) 63 1 == 0 &&
    fld (e.words.get 3) 11 53 == 0 && (List.range 32).all (fun k => fld (e.peerField k) 17 15 == 0) &&
    (List.range 12).all (fun i => e.words.get (20 + i) == 0) && descOk e.desc && decide (1 ≤ e.npeer) &&
    decide (e.npeer ≤ 32) && e.peers.all (fun k => decide (e.peerId k < grid)) &&
    ms.all (fun m => m == position || Config.inGroup m) &&
    e.peers.all (fun k => e.peers.all fun j => k == j || e.peerField k % 2 ^ 17 != e.peerField j % 2 ^ 17) && rising ms &&
    e.barn != 0 && decide (e.raddr + descCount e.desc * descSize e.desc ≤ 0x200000))

/-- An entry that nothing has written. -/
def CollEntry.empty (n : Nat) : CollEntry := ⟨n, [], false, false, [], [], none, [], [], [], none, [], 0⟩

/-- Change an entry of a launch's table. -/
def Launch.onEntry (l : Launch) (n : Nat) (f : CollEntry → CollEntry) : Launch :=
  if (l.entry? n).isSome then { l with coll := l.coll.map fun e => if e.num = n then f e else e }
  else { l with coll := l.coll ++ [f (CollEntry.empty n)] }

def State.onEntry (s : State) (k : LaunchKey) (n : Nat) (f : CollEntry → CollEntry) : State :=
  { s with launches := s.launches.map fun l => if l.key == k then l.onEntry n f else l }

/-- Whether the round of an entry has fired: its partial results are being formed, or its result is being written. -/
def CollEntry.fired (e : CollEntry) : Bool := e.since.isSome || e.running.isSome

/-- Whether a round of an entry is in progress: some peer is ready, or the round has fired. -/
def CollEntry.busy (e : CollEntry) : Bool := !e.ready.isEmpty || e.fired

/-- The ready writes of other modules' peers that no round in progress holds up are performed (R351). -/
def CollEntry.takeEarly (e : CollEntry) : CollEntry :=
  if !e.valid || e.fired then e
  else
    let go (x : Nat × Nat) : Bool := decide (x.1 < e.npeer) && !e.ready.any fun r => r.1 == x.1
    { e with ready := e.ready ++ e.early.filter go, early := e.early.filter fun x => !go x }

/-- What the reduction switch tells the switches of the other modules of an entry (R351, R353, R358). -/
def State.tell (s : State) (e : CollEntry) (f : Nat → RemoteReq) : State :=
  { s with remoteOut := s.remoteOut ++ (e.modules.filter fun m => m != s.board.position).map f }

/-- The entry of a launch's table, as it is while nothing has written it. -/
def State.entryOf (s : State) (k : LaunchKey) (n : Nat) : CollEntry := ((s.launch? k).bind fun l => l.entry? n).getD (CollEntry.empty n)

/-! Stores into the aperture by FST (R347, R349, R351). -/

/-- The entry and the offset that an open FST names, with its value. -/
def FarOp.apertureFst (f : FarOp) (grid : Nat) : Option (Nat × Nat × Nat) :=
  match f.kind, farTarget grid f.addr with
  | .store bs, .aperture e o => if bs.length = 8 then some (e, o, natOfBytes bs) else none
  | _, _ => none

/-- Whether a write of the table is held at the switch (R349): to words 1 to 31 of a valid entry, or to word 0, while a round is in
progress. -/
def CollEntry.holdsTable (e : CollEntry) (off : Nat) : Bool := e.busy && (off / 8 == 0 || e.valid)

/-- Whether a ready write of the tile listed as peer j is one that the switch takes (R351). -/
def CollEntry.isPeer (e : CollEntry) (j id position : Nat) : Bool :=
  e.valid && decide (j < e.npeer) && e.peerId j == id && e.peerModule j == position

/-- Whether a ready write is held at the switch until the round in progress completes (R351). -/
def CollEntry.holdsReady (e : CollEntry) (j : Nat) : Bool := e.fired || e.ready.any fun r => r.1 == j

/-- Whether an access is a write that the switch holds now: it is saved with the entries (R291, R349, R351, R356). -/
def State.atSwitch (s : State) (t : Tile) (f : FarOp) : Bool :=
  match f.apertureFst t.grid with
  | some (e, o, _) =>
    let c := s.entryOf t.launchKey e
    (match apertureOf e o with
      | .table off => c.holdsTable off
      | .ready j => c.isPeer j t.key.id s.board.position && c.holdsReady j
      | _ => false)
  | none => false

/-- COLLECTIVE_TABLE_WRITE (R349): a write to words 1 to 31 of a valid entry, or to word 0, is held while a round is in
progress; word 0 with VALID set makes the entry valid and checks it. -/
def execCollectiveTableWrite (k : TileKey) (n : Nat) (s : State) : Host.Outcome State Fault Refusal :=
  s.onFar k n (fun t f => (f.apertureFst t.grid).isSome && f.stage == FarStage.open && s.inOrder t f 0)
    (fun t f =>
      match f.apertureFst t.grid with
      | some (e, o, v) =>
        match apertureOf e o with
        | .table off =>
          if (s.entryOf t.launchKey e).holdsTable off then none
          else
            let put (x : CollEntry) : CollEntry :=
              let y := { x with words := x.words.set (off / 8) v }
              if off / 8 = 0 then ({ y with valid := fld v 63 1 == 1, bad := y.isBad t.grid s.board.position } : CollEntry).takeEarly else y
            some ((s.onEntry t.launchKey e put).onKey k fun t => t.dropFar f)
        | _ => none
      | none => none)

/-- COLLECTIVE_READY_WRITE (R351): checked at home against the peer list; a peer that is ready already is held until its
round completes. The switches of the other modules listed hear of it. -/
def execCollectiveReadyWrite (k : TileKey) (n : Nat) (s : State) : Host.Outcome State Fault Refusal :=
  s.onFar k n (fun t f => (f.apertureFst t.grid).isSome && f.stage == FarStage.open && s.inOrder t f 0)
    (fun t f =>
      match f.apertureFst t.grid with
      | some (e, o, v) =>
        match apertureOf e o with
        | .ready j =>
          let c := s.entryOf t.launchKey e
          if !c.isPeer j k.id s.board.position then some (s.onKey k fun t => t.failFar f .perm)
          else if c.holdsReady j then none
          else
            some (((s.onEntry t.launchKey e fun x => { x with ready := x.ready ++ [(j, v % 2 ^ 32)] }).tell c
              fun m => .ready m t.launchKey e j (v % 2 ^ 32)).onKey k fun t => t.dropFar f)
        | _ => none
      | none => none)

/-! Rounds (R352, R353). -/

/-- Read a unit of a contribution as the switch does, at its home in this module or in another one (R276, R357): a fault, or a page that
is not present, gives none (log entry 23). -/
def State.switchRead (s : State) (c : Context) (va n : Nat) : State × Option (List Byte) :=
  let s1 := s.walked c va
  match s.walk c va with
  | .page e =>
    match s.through c e va .read with
    | .home pa => (s1, if s.hbmPoisoned pa n || s.leavesStorage pa n then none else some (Mem.read s.hbm pa n))
    | .away pa => ({ s1 with draws := s1.draws + 1, remoteOut := s1.remoteOut ++ [.read pa n] }, some (s1.awayBytes n))
    | _ => (s1, none)
  | _ => (s1, none)

/-- The pieces of n bytes from an address, cut at the multiples of a unit (R279): offset and length of each. -/
def piecesOf (unit a n : Nat) : List (Nat × Nat) :=
  (List.range (n / unit + 2)).filterMap fun i =>
    let lo := max a ((a / unit + i) * unit)
    let hi := min (a + n) ((a / unit + i + 1) * unit)
    if lo < hi then some (lo - a, hi - lo) else none

/-- Bytes of a contribution and of the result of an entry. -/
def CollEntry.bytesOf (e : CollEntry) : Nat := descCount e.desc * descSize e.desc

/-- Where peer k's contribution lies in virtual space (R348). -/
def CollEntry.peerBase (e : CollEntry) (k : Nat) : Nat := (e.cbase + 0x20000 * k) % 2 ^ 57

/-- The units of the contributions of some peers: peer and offset (R279). -/
def CollEntry.readUnits (e : CollEntry) (ks : List Nat) : List (Nat × Nat) :=
  ks.flatMap fun k => (piecesOf 8 (e.peerBase k) e.bytesOf).map fun p => (k, p.1)

/-- Address and length of a unit of a contribution. -/
def CollEntry.readAt (e : CollEntry) (x : Nat × Nat) : Nat × Nat :=
  let a := e.peerBase x.1 + x.2
  (a % 2 ^ 57, min (8 - a % 8) (e.bytesOf - x.2))

/-- Op on two elements (R353). -/
def collOp (d : Nat) (a b : Nat) : Nat × Flags :=
  if fld d 18 5 = 0x0A then
    (match descOp d with
      | 0 => (a + b) % 2 ^ 32
      | 1 => if signed 32 a < signed 32 b then b else a
      | 2 => if signed 32 b < signed 32 a then b else a
      | _ => a ||| b, 0)
  else
    match descOp d with
    | 0 => addWords .rne false (descFmt d) a b
    | 1 => minMaxWords true false (descFmt d) a b
    | _ => minMaxWords false false (descFmt d) a b

/-- Fold lists of elements from left to right, with every flag. -/
def collFold (d : Nat) : List (List Nat) → List Nat × Flags
  | [] => ([], 0)
  | x :: more => more.foldl (fun acc y =>
      let r := (List.zip acc.1 y).map fun p => collOp d p.1 p.2
      (r.map (·.1), (r.map (·.2)).foldl (fun a b => a ||| b) acc.2)) (x, 0)

/-- Elements of bytes. -/
def elemsOf (size : Nat) (bs : List Byte) : List Nat := (chunks size bs.length bs).map natOfBytes

/-- The poisoned element of a format (R353). -/
def poisonElem (d : Nat) : Nat :=
  match fmtBinary (descFmt d) with
  | some p => p.nanWord
  | none => 0x80000000

/-- What has been read of a peer's contribution, in address order. -/
def CollEntry.contribution (e : CollEntry) (k : Nat) : List Byte :=
  (sortBy (fun x => x.2.1) (e.got.filter fun x => x.1 == k)).flatMap fun x => x.2.2

/-- The poisoned result of a descriptor (R353). -/
def poisonResult (d : Nat) : List Byte := (List.replicate (descCount d) (bytesOfNat (descSize d) (poisonElem d))).flatten

/-- Hop 1 of a round (R353): what the peers of this module bring, in list order, once their contributions have been read. -/
def CollEntry.ownPart (e : CollEntry) (here : Nat) : CollPart :=
  let r := collFold e.desc ((e.peersOf here).map fun k => elemsOf (descSize e.desc) (e.contribution k))
  ⟨here, r.1.flatMap (bytesOfNat (descSize e.desc)), r.2.toNat, false⟩

/-- Hop 2 of a round, along the chain of its modules, once what each of them brings is here (R353): the result, its status and flags. -/
def CollEntry.result (e : CollEntry) : Option (List Byte × Nat) :=
  let ps := e.modules.map fun m => e.parts.find? fun p => p.module == m
  if ps.any Option.isNone then none
  else if ps.any fun p => (p.map CollPart.fault).getD true then some (poisonResult e.desc, 2)
  else
    let size := descSize e.desc
    let r := collFold e.desc (ps.map fun p => elemsOf size ((p.map CollPart.bytes).getD []))
    let flags := ps.foldl (fun acc p => acc ||| (p.map CollPart.flags).getD 0) r.2.toNat
    some (r.1.flatMap (bytesOfNat size), flags * 256)

/-- A round that has fired takes its result as soon as it can be formed. -/
def CollEntry.settle (e : CollEntry) : CollEntry :=
  if e.since.isSome && e.running.isNone then { e with running := e.result } else e

/-- What a round that fires comes to at once (R353): a bad table, a mismatch of descriptors, or nothing yet. -/
def CollEntry.early? (e : CollEntry) : Option (List Byte × Nat) :=
  if e.bad then some ([], 3) else if e.ready.any fun r => r.2 != e.desc then some (poisonResult e.desc, 1) else none

/-- Whether every peer of an entry is ready, on every module listed (R351). -/
def CollEntry.allReady (e : CollEntry) : Bool := !e.ready.isEmpty && e.peers.all fun j => e.ready.any fun r => r.1 == j

/-- The peers of this module that a round writes, with the units of its result, none for STATUS 3 (R279, R354). -/
def CollEntry.toWrite (e : CollEntry) (here : Nat) : List PeerLeft :=
  (e.peersOf here).map fun k => ⟨k, if e.bad then [] else List.range (piecesOf 64 e.raddr e.bytesOf).length, true⟩

/-- What this module's peers bring enters the entry, and the switch tells the other modules (R353, R358). -/
def State.bringPart (s : State) (k : LaunchKey) (e : CollEntry) (p : CollPart) : State :=
  (s.onEntry k e.num fun x => { x with parts := x.parts ++ [p], toRead := [], got := [] }.settle).tell e fun m =>
    .part m k e.num p.module p.bytes p.flags p.fault

/-- A round fires (R351 to R353): it has its result at once, or the switch begins to read the contributions of this module's peers. -/
def State.fireRound (s : State) (k : LaunchKey) (e : CollEntry) : State :=
  let left := e.toWrite s.board.position
  match e.early? with
  | some r => s.onEntry k e.num fun x => { x with since := some s.cycle, running := some r, left := left }
  | none =>
    let units := e.readUnits (e.peersOf s.board.position)
    let s1 := s.onEntry k e.num fun x => { x with since := some s.cycle, toRead := units, got := [], left := left }
    if units.isEmpty then s1.bringPart k e (e.ownPart s.board.position) else s1

/-- The switch reads one unit of the contributions, in no stated order (R279, R352); the last one ends hop 1, as a fault does (R353). -/
def State.readRound (s : State) (k : LaunchKey) (c : Context) (e : CollEntry) : State :=
  let u := listGet e.toRead (s.pick e.toRead.length) (0, 0)
  let at_ := e.readAt u
  match s.tickFresh.switchRead c at_.1 at_.2 with
  | (s1, none) => s1.bringPart k e ⟨s.board.position, [], 0, true⟩
  | (s1, some bs) =>
    let x : CollEntry := { e with toRead := e.toRead.erase u, got := e.got ++ [(u.1, u.2, bs)] }
    let s2 := s1.onEntry k e.num fun _ => x
    if x.toRead.isEmpty then s2.bringPart k x (x.ownPart s.board.position) else s2

/-- Whether a round that has fired waits for another module: for what its peers bring, or for a contribution page that lies there. -/
def State.awaitsModule (s : State) (c : Context) (e : CollEntry) : Bool :=
  e.modules.any (fun m => m != s.board.position && !e.parts.any fun p => p.module == m) ||
    e.toRead.any fun u =>
      match s.walk c (e.readAt u).1 with
      | .page x => (match s.through c x (e.readAt u).1 .read with
        | .away _ => true
        | _ => false)
      | _ => false

/-- COLLECTIVE_ROUND_FIRE (R351 to R353, R358): every peer is ready; or a round that has fired reads on; or it has waited 10 ms for
another module, which is STATUS 2. -/
def execCollectiveRoundFire (k : LaunchKey) (n : Nat) (s : State) : Host.Outcome State Fault Refusal :=
  match s.launch? k, s.ctx? k.pasid with
  | some l, some c =>
    match l.entry? n with
    | none => .refused .notEnabled
    | some e =>
      if e.valid && !e.fired && e.allReady then .next (s.fireRound k e)
      else if e.running.isNone && pathLate s.cycle e.since && s.awaitsModule c e then
        .next (s.onEntry k n fun x => { x with running := some (poisonResult e.desc, 2), toRead := [], got := [] })
      else if e.running.isNone && !e.toRead.isEmpty then .next (s.readRound k c e)
      else .refused .notEnabled
  | _, _ => .fault .noSuchObject

/-- The status word of a round (R354). -/
def CollEntry.statusWord (e : CollEntry) (st : Nat) : Nat := st + (e.rounds + 1) % 65536 * 65536 + e.num % 1024 * 2 ^ 32

/-- One step of completing a round in a peer's scratchpad, with AGENT 5 (R354, R279): a unit of the result, whose guard touch is noted once
with the first of them; then the status word; then the arrival. -/
def Spad.collect (sp : Spad) (e : CollEntry) (id : Nat) (bs : List Byte) (st : Nat) (y : PeerLeft) (u : Nat) : Spad :=
  let pieces := piecesOf 64 e.raddr bs.length
  if !y.units.isEmpty then
    let sp1 := if y.units.length = pieces.length then sp.note id 5 e.raddr bs.length else sp
    let p := listGet pieces u (0, 0)
    sp1.write (e.raddr + p.1) ((bs.drop p.1).take p.2)
  else if y.status then sp.store id 5 e.saddr (bytesOfNat 8 (e.statusWord st))
  else
    let sp1 := sp.note id 5 e.baddr 8
    if sp1.marked e.baddr then sp1 else sp1.write e.baddr (bytesOfNat 8 (arriveWord (Mem.readWord sp1.mem e.baddr) e.barn).toNat)

/-- What is left of a peer after one step, none after the arrival. -/
def PeerLeft.after (y : PeerLeft) (u : Nat) : List PeerLeft :=
  if !y.units.isEmpty then [{ y with units := y.units.erase u }] else if y.status then [{ y with status := false }] else []

/-- An entry after a step in a peer's scratchpad: with the last one the round is over and its ready flags are cleared (R354). -/
def CollEntry.wrote (e : CollEntry) (y : PeerLeft) (u : Nat) : CollEntry :=
  let rest := e.left.flatMap fun x => if x.peer = y.peer then x.after u else [x]
  if rest.isEmpty then
    ({ e with running := none, since := none, parts := [], left := [], ready := [], rounds := e.rounds + 1 } : CollEntry).takeEarly
  else { e with left := rest }

/-- COLLECTIVE_ROUND_COMPLETE (R354): the switch does one step of the round's completion in one of this module's peers, which a free choice
names, as it names the unit of the result. -/
def execCollectiveRoundComplete (k : LaunchKey) (n : Nat) (s : State) : Host.Outcome State Fault Refusal :=
  match (s.launch? k).bind fun l => l.entry? n with
  | none => .fault .noSuchObject
  | some e =>
    match e.running with
    | none => .refused .notEnabled
    | some (bs, st) =>
      let y := listGet e.left (s.pick e.left.length) ⟨0, [], false⟩
      let u := listGet y.units (s.tickFresh.pick y.units.length) 0
      let o : TileKey := ⟨k.pasid, e.peerId y.peer⟩
      let s1 := if e.left.isEmpty then s
        else (s.ensureTile o).onKey o fun t => { t with spad := t.spad.collect e o.id bs st y u }
      .next (s1.tickFresh.tickFresh.onEntry k n fun x => x.wrote y u)

/-! Requests from other modules (R357, R358). -/

/-- Whether a physical address names storage of this module (R330, R357). -/
def State.ownPa (s : State) (pa n : Nat) : Bool :=
  paFormed pa && paModule pa == s.board.position && decide (localPa pa % 2 ^ 36 + n ≤ Config.stackBytes)

/-- Whether a request is one that comes to this module (R357, R358). -/
def State.addressed (s : State) : RemoteReq → Bool
  | .read pa n => s.ownPa pa n
  | .write pa bs => s.ownPa pa bs.length
  | .atomic pa op _ _ => s.ownPa pa 8 && op != AtomOp.incw && op != AtomOp.faab
  | .ready m _ _ _ _ => m == s.board.position
  | .part m _ _ _ _ _ _ => m == s.board.position

/-- UALINK_REMOTE_REQUEST (R357, R358): a read, write or atomic at a physical address of this module is performed at its home, and a read
changes nothing here; what another switch tells of a round enters the launch's table. -/
def execUalinkRemoteRequest (r : RemoteReq) (s : State) : Host.Outcome State Fault Refusal :=
  if s.board.power ≠ .ready ∨ !s.addressed r then .refused .notEnabled
  else
    match r with
    | .read _ _ => .next s
    | .write pa bs => .next (s.hbmWrite (localPa pa) bs)
    | .atomic pa op v v2 =>
      let old := Mem.readWord s.hbm (localPa pa)
      if s.hbmPoisoned (localPa pa) 8 || !atomWrites op old v v2 then .next s
      else .next (s.hbmWrite (localPa pa) (bytesOfNat 8 (atomResult op old v v2).1.toNat))
    | .ready _ l n j d => .next (s.onEntry l n fun e => ({ e with early := e.early ++ [(j, d)] } : CollEntry).takeEarly)
    | .part _ l n m bs fl fault => .next (s.onEntry l n fun e => ({ e with parts := e.parts ++ [⟨m, bs, fl, fault⟩] } : CollEntry).settle)

end Sys2Proof.Machine
end

