-- ==== Sys2Proof/Machine/Contexts.lean ====
section
/-! DEFINITION. Contexts (R337 to R346) and the management operations on contexts, queues, translations and records
(R312, R334, R335, R366 to R368, R389, R390). -/

namespace Sys2Proof.Machine

/-! Management requests (R385, R389, R390). -/

/-- The answer to a request. -/
def State.reply (s : State) (h : MgmtHdr) (status : Nat) (body : List Byte) : State :=
  { s with replies := s.replies ++ [⟨h, status, body⟩] }

/-- What a power state answers (R385): changes, reads, status reads, firmware staging, reset. -/
inductive MgmtClass where
  | write | read | status | staging | reset
deriving DecidableEq, Repr

/-- Whether a power state answers a class of operation. -/
def Power.answers : Power → MgmtClass → Bool
  | .ready, _ => true
  | .fatal, .read => true
  | .fatal, .status => true
  | .fatal, .reset => true
  | .recovery, .staging => true
  | .recovery, .status => true
  | _, _ => false

/-- Perform a management request (R390): without a connection it is not authorised, in the wrong power state it is
refused; OFF and BOOT have no management. -/
def State.manage (s : State) (h : MgmtHdr) (k : MgmtClass) (f : State) : Host.Outcome State Fault Refusal :=
  match s.board.power with
  | .off => .refused .notEnabled
  | .boot => .refused .notEnabled
  | p =>
    if s.board.conns ≤ h.conn then .next (s.reply h 4 [])
    else if p.answers k then .next f
    else .next (s.reply h 3 [])

/-! Creation (R337). -/

/-- Whether a word has only the bits of a PA and is a multiple. -/
def paField (w m : Nat) : Bool := fld w 57 7 == 0 && w % m == 0

/-- Whether a partition exists (R338): none is formed that holds an unusable die (R383). -/
def State.hasPart (s : State) (p : Nat) : Bool :=
  decide (p < s.board.layout.length) &&
    (List.range (2 ^ (s.partition p).2)).all fun d => !s.board.unusable.contains ((s.partition p).1 + d)

/-- Whether a word is a PA of this module in a reserved range, a multiple of 4 KiB (R330, R337). -/
def State.ownReserved (s : State) (w : Nat) : Bool :=
  paField w 4096 && paFormed w && paModule w == s.board.position && s.reservedPa (localPa w)

/-- Whether a configuration block keeps its limits. -/
def State.blockOk (s : State) (b : List Word) : Bool :=
  let w (i : Nat) : Nat := (listGet b i 0).toNat
  let part := fld (w 0) 48 3
  let lay := s.partition part
  b.length == 16 && fld (w 0) 51 13 == 0 && fld (w 0) 20 12 == 0 && s.hasPart part && (s.ctx? (fld (w 0) 0 20)).isNone &&
    paField (w 1) (2 ^ 21) && fld (w 2) 25 39 == 0 && decide (1 ≤ fld (w 2) 16 8) && decide (fld (w 2) 16 8 ≤ 128) &&
    decide (64 ≤ fld (w 2) 0 16) && s.ownReserved (w 3) && decide (6 ≤ w 4) && decide (w 4 ≤ 12) &&
    w 5 == 0 && w 6 == 0 && w 7 == 0 &&
    (List.range (2 ^ lay.2)).all (fun d =>
      s.ownReserved (w (8 + d)) && fld (w (8 + d)) 36 4 / 2 == lay.1 + d)

/-- No checkpoints (R369, R370). -/
def Checkpoints.none : Checkpoints :=
  { interval := 0, period := 0, stream := false, handle := 0, store := 0, key := [], targets := [], trusted := [], slotA := .none,
    slotB := .none, latest := .none, taken := 0, timerFrom := .none, held := false, failure := .none }

/-- The context of a block. -/
def contextOf (b : List Word) (resident : Bool) (number : Nat) : Context :=
  let w (i : Nat) : Nat := (listGet b i 0).toNat
  { pasid := fld (w 0) 0 20, part := fld (w 0) 48 3, gen := 0, root := fld (w 1) 0 57, det := fld (w 2) 24 1 == 1,
    kdepth := fld (w 2) 16 8, bound := fld (w 2) 0 16, evq := w 3, evqLog := w 4,
    save := (List.range 8).map fun d => w (8 + d), resident := resident, number := number, seq := 0,
    images := List.replicate 8 none, seeds := [], requests := [], nextReq := 0, evqIdx := 0, tileTlb := [], dieTlb := [],
    invals := [], launchSeq := 0, nextLaunch := 0, records := [], ckpt := Checkpoints.none, saved := none, preempt := none,
    tearing := none, lost := false }

/-- Whether a partition holds a resident context. -/
def State.partBusy (s : State) (p : Nat) : Bool := s.contexts.any fun c => c.resident && c.part == p

/-- CREATE_CONTEXT (R337): resident at once when its partition is free. -/
def execCreateContext (h : MgmtHdr) (block : List Word) (s : State) : Host.Outcome State Fault Refusal :=
  s.manage h .write
    (if !s.blockOk block then s.reply h 2 []
     else if 64 ≤ s.contexts.length then s.reply h 3 []
     else
       let c := contextOf block (!s.partBusy (fld (listGet block 0 0).toNat 48 3)) s.draws
       ({ s with contexts := s.contexts ++ [c], draws := s.draws + 1 }).reply h 0 [])

/-! Teardown (R339). -/

/-- Change every queue of a context. -/
def State.onQueues (s : State) (p : Nat) (f : Queue → Queue) : State :=
  { s with queues := s.queues.map fun q => if q.pasid == p then f q else q }

/-- TEARDOWN_CONTEXT (R339): every tile stops, queues enter ERROR and their packets are discarded, GEN increments in the same step and
what the caches keep goes, which performs and answers every invalidation of the context (R390); the launches of a saved context end too
(R366). The answer follows completion. -/
def execTeardownContext (h : MgmtHdr) (p : Nat) (s : State) : Host.Outcome State Fault Refusal :=
  s.manage h .write
    (match s.ctx? p with
      | none => s.reply h 2 []
      | some c =>
        if c.tearing.isSome then s.reply h 3 []
        else
          let s1 := (s.abandonPreempt p).mapTiles fun t => if t.key.pasid == p then t.faultStop else t
          let s2 := { s1 with launches := s1.launches ++ ((c.saved.map SavedContext.launches).getD []) }
          let s3 := (s2.queues.filter fun q => q.pasid == p).foldl (fun x q => x.queueErrorNow q 0x10 13 0xFFFF 0 0) s2
          let s4 := ((s3.discardLaunches p none 0).dropTlb p fun _ => true).onQueues p fun q => { q.unparked with packets := [] }
          match s4.ctx? p with
          | some d => c.invals.foldl (fun x y => x.reply y.2 0 [])
              (s4.setCtx { d with gen := (d.gen + 1) % 2 ^ 16, tearing := some h, requests := [], saved := none, invals := [] })
          | none => s4)

/-- TEARDOWN_COMPLETE (R339): no traffic of the old generation remains, and everything of the context is released, what the hub has cached
for it since with it (R333). -/
def execTeardownComplete (p : Nat) (s : State) : Host.Outcome State Fault Refusal :=
  match s.ctx? p with
  | none => .fault .noSuchObject
  | some c =>
    match c.tearing with
    | none => .refused .notEnabled
    | some h =>
      if !s.up then .refused .notEnabled
      else .next (({ s.dropTlb p fun _ => true with
        tile := if s.tile.key.pasid = p then Tile.blank s.tile.key else s.tile,
        others := s.others.filter fun t => t.key.pasid != p,
        launches := s.launches.filter fun l => l.key.pasid != p,
        queues := s.queues.filter fun q => q.pasid != p,
        contexts := s.contexts.filter fun d => d.pasid != p }).reply h 0 [])

/-! Pre-emption (R340 to R342). -/

/-- The compute dies of a context's partition. -/
def State.diesOf (s : State) (c : Context) : List Nat :=
  (List.range (2 ^ (s.partition c.part).2)).map fun d => (s.partition c.part).1 + d

/-- Duties below 32/64 of a partition that is being pre-empted are raised (R387). -/
def State.raiseDuty (s : State) (c : Context) : State :=
  { s with board := { s.board with
      duty := (List.range 8).map fun d =>
        if (s.diesOf c).contains d then max 32 (listGet s.board.duty d 64) else listGet s.board.duty d 64 } }

/-- PREEMPT_CONTEXT (R340): STOPFLAG is raised on every tile in one cycle; a shard in progress is abandoned (R376). -/
def execPreemptContext (h : MgmtHdr) (p : Nat) (s : State) : Host.Outcome State Fault Refusal :=
  s.manage h .write
    (match s.ctx? p with
      | none => s.reply h 2 []
      | some c =>
        if !c.resident || c.preempt.isSome || c.tearing.isSome then s.reply h 3 []
        else
          let s1 := ((s.setCtx { c with preempt := some (s.counter, h) }).raiseDuty c).mapTiles fun t =>
            if t.key.pasid == p then { t.unhalt with csrs := { t.csrs with stopflag := 1 } } else t
          { s1 with launches := s1.launches.map fun l => if l.key.pasid == p then { l with shard := none } else l })

/-- Whether a tile has come to rest (R245, R308, R340): it has stopped, or it boards a Rill that has. -/
def State.atRest (s : State) (t : Tile) : Bool :=
  t.phase != Phase.running &&
    (t.phase != Phase.armed || (t.berth == Berth.boarded && ((s.launch? t.launchKey).map Launch.stopped).getD false)) &&
    (t.phase != Phase.retired || t.inflight.isEmpty)

/-- Whether a tile has reached its save point (R166, R291, R340, R341): it is at rest, its copy commands are drained or stopped, and its
far stores are performed, but for those that the reduction switch holds (R356). -/
def State.saveReady (s : State) (t : Tile) : Bool :=
  s.atRest t && t.drained &&
    t.far.all fun f => f.stage != FarStage.open || s.atSwitch t f || (!f.kind.unreturned && (match f.kind with
      | .bar _ => false
      | _ => true))

/-- Whether a launch lets its context be saved (R340, R356): its arming is over, its Rill stops, none of its rounds has fired. -/
def Launch.saveReady (l : Launch) : Bool :=
  l.stage != LaunchStage.armed && (l.stage != LaunchStage.waiting || !l.begun) && (l.stage != LaunchStage.started || l.stopped) &&
    l.coll.all fun e => !e.fired

/-- A tile as its save area holds it (R68, R188, R291, R342, R343): without latches, buffer, shadow bank and instruction memory. -/
def Tile.saved (t : Tile) : Tile :=
  { t with latches := Latches.invalid, buffer := [], bufferBad := [], freeze := none,
           far := t.far.map fun f => { f with since := none }, csrs := { t.csrs with stopflag := 0 }, imem := [], imemBad := [],
           replays := [], mx := { t.mx with shadow := none } }

/-- Copy entries of a tile that are saved (R341, R343). -/
def Tile.liveCopies (t : Tile) : Nat := (t.queues.flatMap fun q => q.cmds).length

/-- The header block of a save area (R343). -/
def saveHeader (c : Context) (seq : Nat) (t : Tile) : List Byte :=
  padTo 4096 (bytesOfNat 4 0x45595853 ++ bytesOfNat 4 1 ++ bytesOfNat 4 c.pasid ++ bytesOfNat 4 c.gen ++ bytesOfNat 8 seq ++
    bytesOfNat 8 t.key.id ++ bytesOfNat 8 t.tick ++ bytesOfNat 8 t.liveCopies)

/-- Blocks of the save area of a collective table, by the model's choice: 1,024 entries of 256 bytes (log entry 13). -/
def tableBlocks : Nat := 64

/-- The logical id of the area of the collective tables (R356). -/
def tableArea : Nat := 0xFFFF

/-- The physical address of a save area (R343, R356). -/
def Context.saveArea (c : Context) (id : Nat) : Nat :=
  if id = tableArea then listGet c.save 0 0 + 0x19960000 else listGet c.save (id / 160) 0 + 0x28F000 * (id % 160)

/-- The tag of block i of a save area (R344). -/
def saveTag (c : Context) (seq id i : Nat) (block : List Byte) : List Byte :=
  kmac256 ((List.range 32).map (Config.saveKey c.number))
    (bytesOfNat 4 c.pasid ++ bytesOfNat 2 c.gen ++ bytesOfNat 8 seq ++ bytesOfNat 2 id ++ bytesOfNat 2 i ++ block) saveString

/-- The blocks of a tile's area that are written and tagged (R343): of the 40 of the copy region, those with live entries. -/
def areaBlocks (live : Nat) : List Nat := (List.range 649).filter fun i => decide (i < 17 + ceilDiv (80 * live) 4096) || decide (57 ≤ i)

def Tile.areaBlocks (t : Tile) : List Nat := Sys2Proof.Machine.areaBlocks t.liveCopies

/-- Block i of a tile's area under a header (R343): the header, the scratchpad in address order, and blocks laid out privately (log
entry 13). -/
def Tile.areaBlock (t : Tile) (header : List Byte) (draw i : Nat) : List Byte :=
  if i = 0 then header
  else if 0x89 ≤ i ∧ i < 0x289 then Mem.read t.spad.mem (4096 * (i - 0x89)) 4096
  else (List.range 4096).map fun j => Config.savePrivate draw t.key.id (4096 * i + j)

/-- The tile of a logical id as it is saved: one that has been given no work is idle (R4, R340). -/
def SavedContext.tileOf (v : SavedContext) (p id : Nat) : Tile := (v.tiles.find? fun t => t.key.id == id).getD (Tile.blank ⟨p, id⟩)

/-- The areas of a saved context: every logical id of its partition in rising order with the written blocks (R340), the collective tables'
last (R343, R356). -/
def State.areasOf (s : State) (c : Context) (v : SavedContext) : List (Nat × List Nat) :=
  (List.range (s.partTiles c)).map (fun id => (id, (v.tileOf c.pasid id).areaBlocks)) ++ [(tableArea, List.range tableBlocks)]

/-- Block i of an area as it is written. -/
def SavedContext.block (v : SavedContext) (c : Context) (id i : Nat) : List Byte :=
  if id = tableArea then (List.range 4096).map fun j => Config.savePrivate v.draw id (4096 * i + j)
  else (v.tileOf c.pasid id).areaBlock (saveHeader c v.seq (v.tileOf c.pasid id)) v.draw i

/-- Write block i of an area and its tag (R343, R344). -/
def State.writeBlock (s : State) (c : Context) (v : SavedContext) (id i : Nat) : State :=
  let b := v.block c id i
  let a := localPa (c.saveArea id)
  (s.hbmWrite (a + 4096 * i) b).hbmWrite (a + 0x289000 + 32 * i) (saveTag c v.seq id i b)

/-- Write every area of a saved context. -/
def State.writeAreas (s : State) (c : Context) (v : SavedContext) : State :=
  (s.areasOf c v).foldl (fun x a => a.2.foldl (fun y i => y.writeBlock c v a.1 i) x) s

/-- A packet whose context is saved: a request of its command to another module is made again (R358). -/
def Packet.recalled (k : Packet) : Packet := { k with copy := k.copy.map fun c => { c with since := none } }

/-- CONTEXT_SAVE_COMPLETE (R340): every save area is written and tagged, SEQ advances, and the partition is free. -/
def execContextSaveComplete (p : Nat) (s : State) : Host.Outcome State Fault Refusal :=
  match s.ctx? p with
  | none => .fault .noSuchObject
  | some c =>
    match c.preempt with
    | none => .refused .notEnabled
    | some (_, h) =>
      let mine := s.tiles.filter fun t => t.key.pasid == p
      let ls := s.launches.filter fun l => l.key.pasid == p
      if mine.all s.saveReady && ls.all Launch.saveReady then
        let v : SavedContext := ⟨c.seq + 1, s.draws, mine.map Tile.saved, ls⟩
        let s1 := ({ s with draws := s.draws + 1 }.writeAreas c v).setCtx
          { c with preempt := none, resident := false, seq := c.seq + 1, saved := some v }
        .next (({ s1 with
          tile := if s1.tile.key.pasid = p then Tile.blank s1.tile.key else s1.tile,
          others := s1.others.filter fun t => t.key.pasid != p,
          launches := s1.launches.filter fun l => l.key.pasid != p }.onQueues p fun q =>
            { q with packets := q.packets.map Packet.recalled, reading := none }).reply h 0 [])
      else .refused .notEnabled

/-! Restore (R345, R346). -/

/-- The instruction memory of a tile of a launch, loaded again from an image slot of the context that holds its image (R343, R345). -/
def Context.program (c : Context) (l : Launch) (id : Nat) : List Byte :=
  let held := (c.images.filterMap fun b => b.map parseImage).find? fun i => i.digest == l.image.digest
  let i := held.getD l.image
  ((i.tiles[id]?).map i.program).getD []

/-- A tile resumes at its saved tick (R345): with its instruction memory, the registers of its context, its shadow bank (R188) and its
copy commands (R261) again. -/
def Tile.resumed (t : Tile) (c : Context) (ls : List Launch) (cycle : Nat) : Tile :=
  let prog := ((ls.find? fun l => l.key == t.launchKey).map fun l => c.program l t.key.id).getD []
  { t.unhalt with phase := if t.phase = .stopped then .running else t.phase, mx := t.mx.restore t.tick, stopAt := none,
                  freeze := if t.phase = .armed then some ⟨.arming, t.key.id, false, cycle⟩ else none,
                  imem := Mem.write [] 0 prog,
                  csrs := { t.csrs with prebound := word c.bound, maxk := word c.kdepth, detmode := word c.det.toNat } }

/-- Whether a block of an area fails as it is read back (R345, R346): it meets an uncorrectable error, which is true, or its tag or its
header's SEQ is not that of the save, which is false. -/
def State.blockFault (s : State) (c : Context) (id i : Nat) : Option Bool :=
  let a := localPa (c.saveArea id)
  let b := Mem.read s.hbm (a + 4096 * i) 4096
  if s.hbmPoisoned (a + 4096 * i) 4096 || s.hbmPoisoned (a + 0x289000 + 32 * i) 32 then some true
  else if saveTag c c.seq id i b != Mem.read s.hbm (a + 0x289000 + 32 * i) 32 ||
      (i == 0 && id != tableArea && natOfBytes ((b.drop 16).take 8) != c.seq) then some false
  else none

/-- The first block that fails in the areas of a saved context: its tile, its PA, and whether an uncorrectable error is why. -/
def State.badBlock (s : State) (c : Context) (v : SavedContext) : Option (Nat × Nat × Bool) :=
  (s.areasOf c v).findSome? fun a => a.2.findSome? fun i => (s.blockFault c a.1 i).map fun e => (a.1, c.saveArea a.1 + 4096 * i, e)

/-- A restore that finds a block it can not trust (R346): the context is marked lost, its launches are discarded, its queues enter ERROR
with the tile and the block's address. -/
def State.loseContext (s : State) (c : Context) (ls : List Launch) (tile pa : Nat) (ecc : Bool) : State :=
  let s1 := ({ s with launches := s.launches ++ ls }).setCtx { c with resident := true, saved := none, lost := true }
  let s2 := (s1.queues.filter fun q => q.pasid == c.pasid).foldl (fun x q =>
    x.queueErrorNow q (if ecc then 0x08 else 0x06) 13 tile 0 pa) s1
  (s2.discardLaunches c.pasid none 0).onQueues c.pasid Queue.unparked

/-- Apply the answers that came while the context was saved (R341). -/
def State.applyAnswers (s : State) (p : Nat) : List PageReq → State
  | [] => s
  | r :: more =>
    match r.answer with
    | some a => State.applyAnswers (s.endRequest p r a) p more
    | none => State.applyAnswers s p more

/-- RESTORE_CONTEXT (R345, R346): onto a free partition of the context's size, every tile resuming in one cycle. -/
def execRestoreContext (h : MgmtHdr) (p part : Nat) (s : State) : Host.Outcome State Fault Refusal :=
  s.manage h .write
    (match s.ctx? p with
      | none => s.reply h 2 []
      | some c =>
        if !s.hasPart part || (s.partition part).2 != (s.partition c.part).2 then s.reply h 2 []
        else if c.resident || c.tearing.isSome || s.partBusy part then s.reply h 3 []
        else
          match c.saved with
          | none => (s.setCtx { c with part := part, resident := true }).reply h 0 []
          | some v =>
            match s.badBlock c v with
            | some (tile, pa, ecc) =>
              ((s.loseContext { c with part := part } v.launches tile pa ecc).applyAnswers p c.requests).reply h 0 []
            | none =>
              let c1 := { c with part := part, resident := true, saved := none }
              let s1 := { (s.setCtx c1).dropTlb p (fun _ => true) with
                          launches := s.launches ++ v.launches.map fun l => { l with stopped := false } }
              let s2 := (v.tiles.map fun t => t.resumed c1 v.launches s.cycle).foldl State.placeTile s1
              (s2.applyAnswers p c1.requests).reply h 0 [])

/-! Queues (R312). -/

/-- Whether a state block keeps the form of R312. -/
def blockForm (b : List Nat) (p : Nat) : Bool :=
  let w (i : Nat) : Nat := listGet b i 0
  let n := fld (w 4) 0 5
  decide (4 ≤ n) && decide (n ≤ 16) && fld (w 0) 57 7 == 0 && w 0 % (64 * 2 ^ n) == 0 && fld (w 4) 44 20 == 0 &&
    fld (w 4) 19 5 == 0 && fld (w 4) 24 20 == p && decide (1 ≤ fld (w 4) 8 8) && fld (w 6) 57 7 == 0 && w 6 % 8 == 0

/-- REGISTER_QUEUE (R312): the block at a virtual address of the context; the answer names the queue. -/
def execRegisterQueue (h : MgmtHdr) (p va : Nat) (s : State) : Host.Outcome State Fault Refusal :=
  s.manage h .write
    (match s.ctx? p with
      | none => s.reply h 2 []
      | some c =>
        if decide (4096 ≤ (s.queues.filter fun q => q.pasid == p).length) then s.reply h 3 []
        else if va % 128 ≠ 0 ∨ 2 ^ 57 ≤ va then s.reply h 2 []
        else
          let found := s.walk c va
          let s := s.walked c va
          match found with
          | .page e =>
            (match s.through c e va .write with
              | .home pa =>
                let b := (List.range 16).map fun i => Mem.readNat s.hbm (pa + 8 * i) 8
                if blockForm b p then
                  let num := (s.queues.foldl (fun n q => max n (q.num + 1)) 0)
                  let q : Queue := { num := num, pasid := p, block := pa, packets := [], resident := false, rank := 0, served := false, parkedAt := none,
                                     parkedOn := none, parkedBy := none, reading := none }
                  (({ s with queues := s.queues ++ [q] }).setQstate q 0).reply h 0 (bytesOfNat 8 num)
                else s.reply h 2 []
              | _ => s.reply h 2 [])
          | _ => s.reply h 2 [])

/-- UNREGISTER_QUEUE (R312): a queue with packets accepted and not complete is refused (log entry 22). -/
def execUnregisterQueue (h : MgmtHdr) (n : Nat) (s : State) : Host.Outcome State Fault Refusal :=
  s.manage h .write
    (match s.queue? n with
      | none => s.reply h 2 []
      | some q =>
        if q.packets.isEmpty then { s with queues := s.queues.filter fun r => r.num != n }.reply h 0 [] else s.reply h 3 [])

/-! Translations and pages (R334, R335). -/

/-- INVALIDATE_TRANSLATIONS (R334): over one range of 64 KiB granules, or over the whole context. -/
def execInvalidateTranslations (h : MgmtHdr) (p : Nat) (range : Option (Nat × Nat)) (s : State) :
    Host.Outcome State Fault Refusal :=
  s.manage h .write
    (match s.ctx? p with
      | none => s.reply h 2 []
      | some c => s.setCtx { c with invals := c.invals ++ [(range, h)] })

/-- Whether a cached entry lies outside a range of granules. -/
def TlbEntry.outside (e : TlbEntry) : Option (Nat × Nat) → Bool
  | none => false
  | some (g, n) => !overlaps e.va (2 ^ e.logSize) (g * 65536) (n * 65536)

/-- INVALIDATION_COMPLETE (R334): no cache holds an entry of the range, and every access that used one has been performed,
since an access is translated at the instant at which it is performed. -/
def execInvalidationComplete (p : Nat) (s : State) : Host.Outcome State Fault Refusal :=
  match s.ctx? p with
  | none => .fault .noSuchObject
  | some c =>
    match c.invals with
    | [] => .refused .notEnabled
    | (r, h) :: more =>
      .next (((s.setCtx { c with invals := more }).dropTlb p fun e => !e.outside r).reply h 0 [])

/-- ANSWER_PAGE_REQUEST (R335, R341). -/
def execAnswerPageRequest (h : MgmtHdr) (p n : Nat) (resolved : Bool) (s : State) : Host.Outcome State Fault Refusal :=
  s.manage h .write
    (match s.ctx? p with
      | none => s.reply h 2 []
      | some c =>
        match c.requests.find? fun r => r.num == n && r.written.isSome && r.answer.isNone with
        | none => s.reply h 2 []
        | some r =>
          if c.resident then (s.endRequest p r resolved).reply h 0 []
          else (s.keepAnswer c n resolved).reply h 0 [])

/-! Records and identity (R366 to R368). -/

/-- READ_LAUNCH_RECORD (R368): a number that is not kept returns none. -/
def execReadLaunchRecord (h : MgmtHdr) (p n : Nat) (s : State) : Host.Outcome State Fault Refusal :=
  s.manage h .read
    (match s.ctx? p with
      | none => s.reply h 2 []
      | some c => s.reply h 0 (((c.records.find? fun r => r.1 == n).map (·.2)).getD []))

/-- READ_IDENTITY_KEY (R367): the key and its certificate. -/
def execReadIdentityKey (h : MgmtHdr) (s : State) : Host.Outcome State Fault Refusal :=
  s.manage h .read
    (s.reply h 0 (identityKeyBytes ++ (List.range Config.certificateLength).map Config.certificate))

/-- The challenge that the module has given out (R389). -/
def State.challengeBytes (s : State) : List Byte := (List.range 32).map (Config.challenge s.board.challenge)

/-- MANAGEMENT_CONNECT (R389): a provisioned peer that signs the module's challenge is accepted, and the module gives the next one a new
challenge, of a number that none before it had; another peer is not. -/
def execManagementConnect (key challenge sig : List Byte) (s : State) : Host.Outcome State Fault Refusal :=
  match s.board.power with
  | .off => .refused .notEnabled
  | .boot => .refused .notEnabled
  | _ =>
    if s.board.provisioned.contains key && challenge == s.challengeBytes && Config.verifies key challenge [] sig then
      .next { s with board := { s.board with conns := s.board.conns + 1, challenge := s.draws + 1 }, draws := s.draws + 1 }
    else .next s

end Sys2Proof.Machine
end

