-- ==== Sys2Proof/Machine/Checkpoint.lean ====
section
/-! DEFINITION. Checkpoints (R369 to R378): when a count is pending, the timer, taking a shard with its manifest, restoring
one, and the management operations on them. -/

namespace Sys2Proof.Machine

/-! Pending counts and the timer (R370, R371). -/

/-- Whether a checkpoint is pending for a count of a launch (R301, R370, R371). -/
def Launch.pending (l : Launch) (n : Nat) : Bool :=
  ((l.interval != 0 && n % l.interval == 0 && decide (l.interval ≤ n)) || l.pendingCount.contains n) && !l.taken.contains n

/-- The largest count that a tile of a launch has reached or will reach by a STEP already issued (R371). -/
def State.countReached (s : State) (k : LaunchKey) : Nat :=
  (s.tilesOf k).foldl (fun m t => max m ((t.csrs.stepcnt.toNat + t.stepsInFlight) % 2 ^ 64)) 0

/-- The mark of an expired timer (R371): count m + 1 of each running launch, nothing under a level 0 of domain SYS, and
held with no launch running. The timer counts from the time that is given, if it does. -/
def State.timerMark (s : State) (c : Context) (from_ : Option Nat) : State :=
  let s1 := s.setCtx { c with ckpt := { c.ckpt with timerFrom := from_ } }
  let running := s.launches.filter fun l => l.key.pasid == c.pasid && l.stage.armedYet
  if running.isEmpty then s.setCtx { c with ckpt := { c.ckpt with timerFrom := from_, held := true } }
  else
    running.foldl (fun (x : State) l =>
      if l.image.isSys then x else x.setLaunch { l with pendingCount := l.pendingCount ++ [s.countReached l.key + 1] }) s1

/-- Whether the timer of a context has expired (R371). -/
def Checkpoints.expired (k : Checkpoints) (cycle : Nat) : Bool :=
  k.period != 0 && (k.timerFrom.map fun c => decide (c + k.period * Config.usCycles ≤ cycle)).getD false

/-- Whether a launch of a context has a shard in progress. -/
def State.takingShard (s : State) (p : Nat) : Bool := s.launches.any fun l => l.key.pasid == p && l.shard.isSome

/-- CHECKPOINT_TIMER (R371, R376): an expiry while a shard is being taken is held until it is taken. -/
def execCheckpointTimer (p : Nat) (s : State) : Host.Outcome State Fault Refusal :=
  match s.ctx? p with
  | none => .fault .noSuchObject
  | some c =>
    if c.resident && c.ckpt.expired s.cycle && !s.takingShard p then .next (s.timerMark c none) else .refused .notEnabled

/-! Taking a shard (R372 to R377). -/

/-- The counts on whose STEP waits a tile is held: a bundle may hold two STEPs, one in each of the slots CA and CB. -/
def Tile.stepWaits (t : Tile) : List Nat :=
  t.waits.filterMap fun w => match w.kind with
    | .step n => some n
    | _ => none

/-- The count at which every tile of a launch is held, or has retired (R301, R372). -/
def State.shardCount (s : State) (l : Launch) : Option Nat :=
  let ts := s.tilesOf l.key
  ((ts.filter fun t => t.phase == Phase.running).flatMap Tile.stepWaits).find? fun n =>
    l.stage == LaunchStage.started && l.pending n &&
      ts.all fun t => t.phase == Phase.retired || (t.phase == Phase.running && t.stepWaits.contains n)

/-- Bindings whose regions are in the shard (R373): an object in virtual space, a region in virtual space. -/
def Launch.shardRegions (l : Launch) : List (Nat × Nat) :=
  l.image.bindings.filterMap fun b =>
    match b.okind, farTarget l.image.grid b.rbase with
    | 0, .virt va => some (va, b.rsize * 256)
    | _, _ => none

/-- Whole blocks of n bytes. -/
def blocks (n : Nat) : Nat := ceilDiv n 4096

/-- Blocks of the regions of a shard. -/
def regionBlocks (rs : List (Nat × Nat)) : Nat := rs.foldl (fun n r => n + blocks r.2) 0

/-- Bytes of a shard (R373). -/
def shardSize (grid : Nat) (rs : List (Nat × Nat)) : Nat :=
  4096 * (1 + grid * 0x28F + 1 + regionBlocks rs + blocks (32 * (1 + regionBlocks rs)))

/-- Bytes of a slot: half of the store (R369). -/
def Checkpoints.slotBytes (k : Checkpoints) : Nat := k.store * 2 ^ 20 / 2

def Checkpoints.slot (k : Checkpoints) (b : Bool) : Option Shard := if b then k.slotB else k.slotA

def Checkpoints.setSlot (k : Checkpoints) (b : Bool) (x : Option Shard) : Checkpoints :=
  if b then { k with slotB := x } else { k with slotA := x }

/-- The slot that does not hold the latest valid shard (R369). -/
def Checkpoints.nextSlot (k : Checkpoints) : Bool := k.latest == some false

/-- The copy commands of a launch that were stopped for a shard go on from PROG (R372). -/
def State.unhaltTiles (s : State) (k : LaunchKey) : State := s.mapTiles fun t => if t.launchKey == k then t.unhalt else t

/-- A shard is not taken (R373, R377): the STEP condition holds without it, and the count and reason are reported:
1 it does not fit, 2 a block could not be read. -/
def State.shardFails (s : State) (c : Context) (l : Launch) (n reason : Nat) : State :=
  ((s.setCtx { c with ckpt := { c.ckpt with failure := some (n, reason) } }).setLaunch
    { l with shard := none, taken := n :: l.taken }).unhaltTiles l.key

/-- CHECKPOINT_SHARD_TAKE (R372): in the cycle in which the last tile issues its STEP or retires, every domain of the
launch freezes; the slot to be written is valid no longer. -/
def execCheckpointShardTake (k : LaunchKey) (s : State) : Host.Outcome State Fault Refusal :=
  match s.launch? k with
  | none => .fault .noSuchObject
  | some l =>
    match s.ctx? k.pasid with
    | none => .fault .noSuchObject
    | some c =>
      match s.shardCount l with
      | none => .refused .notEnabled
      | some n =>
        if l.shard.isSome || c.preempt.isSome then .refused .notEnabled
        else if c.ckpt.slotBytes < shardSize l.image.grid l.shardRegions then .next (s.shardFails c l n 1)
        else
          .next ((s.setCtx { c with ckpt := c.ckpt.setSlot c.ckpt.nextSlot none }).setLaunch { l with shard := some n })

/-- The bytes of the regions, read under the context's tables. -/
def State.readRegions (s : State) (p : Nat) : List (Nat × Nat) → State × Hub (List (Nat × List Byte))
  | [] => (s, .got [])
  | (va, n) :: more =>
    match s.hubRead p .frontEnd va n (granules n) with
    | (s1, .got bs) =>
      (match State.readRegions s1 p more with
        | (s2, .got rest) => (s2, .got ((va, bs) :: rest))
        | r => r)
    | (s1, .left) => (s1, .left)
    | (s1, .fault c) => (s1, .fault c)
    | (s1, .page g k) => (s1, .page g k)

/-- Whether what is saved of a tile's storage holds an uncorrectable error (R377): its SRAM, register files, accumulators, Cascade
banks, or a datum or a message that has come to the Basin or the skid buffer. -/
def Tile.hasPoison (t : Tile) : Bool :=
  !t.spad.poison.isEmpty || !t.regs.bad.isEmpty || t.mx.poison.any id || !t.casc.poison.isEmpty ||
    (t.basin ++ t.skid).any (fun m => m.bad) ||
    t.landings.any fun l => match l.got with
      | some (.fault .eccue _) => true
      | _ => false

/-- The region table (R373): base, size and block offset of each region, regions starting at the block given. -/
def regionTable : Nat → List (Nat × Nat) → List Byte
  | _, [] => []
  | b, (va, n) :: more => bytesOfNat 8 va ++ bytesOfNat 8 n ++ bytesOfNat 8 b ++ regionTable (b + blocks n) more

/-- Fill bytes to whole blocks. -/
def padBlocks (bs : List Byte) : List Byte := padTo (4096 * blocks bs.length) bs

/-- Part 2 of a shard: the region table and the bytes (R373, R374). -/
def regionPart (grid : Nat) (rs : List (Nat × List Byte)) : List Byte :=
  padTo 4096 (regionTable (1 + grid * 0x28F + 1) (rs.map fun r => (r.1, r.2.length))) ++ rs.flatMap fun r => padBlocks r.2

/-- A tagged block of a shard (R374): the tile whose state it belongs to, 0xFFFF for a region's; its number in the shard; the part, the
tile and the number within the part under which it is tagged; where its tag stands. -/
structure TaggedBlock where
  tile : Nat
  block : Nat
  name : List Byte
  tag : Nat
deriving DecidableEq, Repr

/-- n bytes at an offset. -/
def slice (bs : List Byte) (off n : Nat) : List Byte := (bs.drop off).take n

/-- Bytes put over those at an offset. -/
def putSlice (bs : List Byte) (off : Nat) (new : List Byte) : List Byte := bs.take off ++ new ++ bs.drop (off + new.length)

/-- A number of a byte string. -/
def numAt (bs : List Byte) (off n : Nat) : Nat := natOfBytes (slice bs off n)

/-- The tagged blocks of the state of tile t (R343, R373, R374). -/
def tilePlan (bs : List Byte) (t : Nat) : List TaggedBlock :=
  let first := 1 + t * 0x28F
  (areaBlocks (numAt bs (4096 * first + 40) 8)).map fun i =>
    ⟨t, first + i, bytesOfNat 1 1 ++ bytesOfNat 2 t ++ bytesOfNat 4 i, 4096 * first + 0x289000 + 32 * i⟩

/-- The tagged blocks of a shard in part and block order: tile states, then the region table and the region bytes (R373, R374). -/
def shardPlan (bs : List Byte) (grid regions : Nat) : List TaggedBlock :=
  let first := 1 + grid * 0x28F
  (List.range grid).flatMap (tilePlan bs) ++
    (List.range regions).map fun i => ⟨0xFFFF, first + i, bytesOfNat 1 2 ++ bytesOfNat 4 i, 4096 * (first + regions) + 32 * i⟩

/-- The tag of a block (R374). -/
def TaggedBlock.mac (x : TaggedBlock) (key : List Byte) (pasid seq module : Nat) (bs : List Byte) : List Byte :=
  kmac256 key (bytesOfNat 4 pasid ++ bytesOfNat 8 seq ++ bytesOfNat 1 module ++ x.name ++ slice bs (4096 * x.block) 4096) ckptString

/-- SHAKE256 over every tag of a shard in part and block order (R375). -/
def tagDigest (bs : List Byte) (plan : List TaggedBlock) : List Byte := shake256 (plan.flatMap fun x => slice bs x.tag 32) 64

/-- The area of a tile in a shard, before its tags (R343, R373); blocks that are not written hold zeros. -/
def Tile.areaBytes (t : Tile) (c : Context) (seq draw : Nat) : List Byte :=
  padTo 0x28F000 ((List.range 649).flatMap fun i =>
    if t.areaBlocks.contains i then t.areaBlock (saveHeader c seq t) draw i else List.replicate 4096 0)

/-- The manifest (R375), bytes 0 to 311. -/
def manifestBody (c : Context) (l : Launch) (module dies seq n regions size : Nat) (timer : Bool) (digest : List Byte) : List Byte :=
  bytesOfNat 4 0x45595843 ++ bytesOfNat 2 1 ++ bytesOfNat 2 (timer.toNat + 2 * c.det.toNat) ++ bytesOfNat 4 c.pasid ++
    bytesOfNat 1 module ++ bytesOfNat 1 dies ++ bytesOfNat 2 0 ++ bytesOfNat 8 seq ++ bytesOfNat 8 n ++
    bytesOfNat 8 l.number ++ bytesOfNat 4 l.image.grid ++ bytesOfNat 4 regions ++ padTo 64 l.image.digest ++
    padTo 64 l.seedDigest ++ digest ++ shake256 identityKeyBytes 64 ++ bytesOfNat 8 size

/-- The manifest with its signature (R375). -/
def manifest (body : List Byte) (draw : Nat) : List Byte := padTo 4096 (body ++ signatureBytes body ckptString draw)

/-- The tiles of the grid of a launch, in ascending logical id. -/
def State.gridTiles (s : State) (l : Launch) : List Tile :=
  (List.range l.image.grid).map fun id => (s.tile? ⟨l.key.pasid, id⟩).getD (Tile.blank ⟨l.key.pasid, id⟩)

/-- The bytes of a shard of a launch at a count (R373 to R375): its tile states and regions, every block tagged, and its manifest. -/
def State.shardBytes (s : State) (c : Context) (l : Launch) (n seq : Nat) (rs : List (Nat × List Byte)) : List Byte :=
  let sizes := rs.map fun r => (r.1, r.2.length)
  let m := s.board.position
  let raw := padTo (shardSize l.image.grid sizes)
    (List.replicate 4096 0 ++ (s.gridTiles l).flatMap (fun t => t.areaBytes c seq s.draws) ++ regionPart l.image.grid rs)
  let plan := shardPlan raw l.image.grid (1 + regionBlocks sizes)
  let tagged := plan.foldl (fun bs x => putSlice bs x.tag (x.mac c.ckpt.key c.pasid seq m raw)) raw
  let body := manifestBody c l m (s.partition c.part).2 seq n rs.length (shardSize l.image.grid sizes) (l.pendingCount.contains n)
    (tagDigest tagged plan)
  putSlice tagged 0 (manifest body s.draws)

/-- A shard of a launch at a count (R373). -/
def State.shardOf (s : State) (c : Context) (l : Launch) (n : Nat) (rs : List (Nat × List Byte)) : Shard :=
  let seq := c.ckpt.taken + 1
  ⟨seq, s.shardBytes c l n seq rs, [], { l with shard := none, taken := n :: l.taken }, (s.gridTiles l).map Tile.saved⟩

/-- Whether what R372 does before the shard is written has been done: copy commands stopped or drained, far stores
performed, but for those that the reduction switch holds, which stand in no write combiner (R349, R351). -/
def State.shardReady (s : State) (l : Launch) : Bool :=
  (s.tilesOf l.key).all fun t => t.drained && t.far.all fun f =>
    !(f.kind.unreturned && f.stage == FarStage.open && decide (f.issue < t.tick)) || s.atSwitch t f

/-- The shard is taken (R369 to R372): its slot is the latest, the timer starts again, an expiry that was held marks now (R376), every held
tile's condition holds, stopped copies go on, and the shard is streamed to a registered target, its manifest last, when streaming is on. -/
def State.shardDone (s : State) (c : Context) (l : Launch) (n : Nat) (rs : List (Nat × List Byte)) : State :=
  let x := s.shardOf c l n rs
  let k := c.ckpt.setSlot c.ckpt.nextSlot (some x)
  let from_ := if c.ckpt.period = 0 then none else some s.cycle
  let c1 := { c with ckpt := { k with latest := some c.ckpt.nextSlot, taken := x.seq, timerFrom := from_ } }
  let s0 := ((s.setCtx c1).setLaunch { l with shard := none, taken := n :: l.taken }).unhaltTiles l.key
  let s1 := if c.ckpt.expired s.cycle then s0.timerMark c1 from_ else s0
  { s1 with draws := s.draws + 1,
            streamed := if k.stream && k.targets.contains k.handle then s.streamed ++ [(k.handle, x.bytes.drop 4096 ++ x.bytes.take 4096)]
              else s.streamed }

/-- CHECKPOINT_SHARD_TAKEN (R372 to R377). -/
def execCheckpointShardTaken (k : LaunchKey) (s : State) : Host.Outcome State Fault Refusal :=
  match s.launch? k with
  | none => .fault .noSuchObject
  | some l =>
    match s.ctx? k.pasid, l.shard with
    | none, _ => .fault .noSuchObject
    | _, none => .refused .notEnabled
    | some c, some n =>
      if !s.shardReady l then .refused .notEnabled
      else if (s.tilesOf k).any Tile.hasPoison || !l.slotPoison.isEmpty then .next (s.shardFails c l n 2)
      else
        match s.readRegions k.pasid l.shardRegions with
        | (s1, .got rs) => .next (s1.shardDone ((s1.ctx? k.pasid).getD c) l n rs)
        | (s1, .fault _) => .next (s1.shardFails ((s1.ctx? k.pasid).getD c) l n 2)
        | (s1, _) => .next s1

/-! Management (R369, R374, R375, R378). -/

/-- SET_CHECKPOINT_CONFIG (R369, R374, R378): a new store size leaves no shard in the store. -/
def execSetCheckpointConfig (h : MgmtHdr) (p : Nat) (x : CkptSetting) (s : State) : Host.Outcome State Fault Refusal :=
  s.manage h .write
    (match s.ctx? p with
      | none => s.reply h 2 []
      | some c =>
        let put (k : Checkpoints) : State := (s.setCtx { c with ckpt := k }).reply h 0 []
        match x with
        | .storeSize n => put { c.ckpt with store := n, slotA := none, slotB := none, latest := none }
        | .key kc => if kc.length = 32 then put { c.ckpt with key := kc } else s.reply h 2 []
        | .target n => put { c.ckpt with targets := n :: c.ckpt.targets }
        | .trusted key => put { c.ckpt with trusted := key :: c.ckpt.trusted })

/-- READ_LATEST_SHARD (R375, R377): the sequence and the slot of the latest shard, and the count and reason of the last
one that was not taken. -/
def execReadLatestShard (h : MgmtHdr) (p : Nat) (s : State) : Host.Outcome State Fault Refusal :=
  s.manage h .read
    (match s.ctx? p with
      | none => s.reply h 2 []
      | some c =>
        let seq := ((c.ckpt.latest.bind c.ckpt.slot).map fun x => x.seq).getD 0
        let f := c.ckpt.failure.getD (0, 0)
        s.reply h 0 (bytesOfNat 8 seq ++ bytesOfNat 8 ((c.ckpt.latest.map fun b => b.toNat + 1).getD 0) ++ bytesOfNat 8 f.1 ++
          bytesOfNat 8 f.2))

/-- Entries of the region table of a shard (R373). -/
def regionsAt (bs : List Byte) (grid regions : Nat) : List (Nat × Nat × Nat) :=
  let a := 4096 * (1 + grid * 0x28F)
  (List.range regions).map fun i => (numAt bs (a + 24 * i) 8, numAt bs (a + 24 * i + 8) 8, numAt bs (a + 24 * i + 16) 8)

/-- The regions of a shard and their bytes. -/
def Shard.regions (x : Shard) : List (Nat × List Byte) :=
  (regionsAt x.bytes (numAt x.bytes 40 4) (numAt x.bytes 44 4)).map fun r => (r.1, slice x.bytes (4096 * r.2.2) r.2.1)

/-- The tagged blocks of a shard as its manifest and its table give them. -/
def Shard.plan (x : Shard) : List TaggedBlock :=
  let rs := regionsAt x.bytes (numAt x.bytes 40 4) (numAt x.bytes 44 4)
  shardPlan x.bytes (numAt x.bytes 40 4) (1 + regionBlocks (rs.map fun r => (r.1, r.2.1)))

/-- Where a check of R378 fails: the tile, 0xFFFF where it is of no tile, the block of the shard, and whether an uncorrectable error is
why. -/
abbrev ShardFault := Nat × Nat × Bool

/-- The first tagged block that can not be read or whose tag is not its own (R374, R378). -/
def Shard.badBlock (x : Shard) (key : List Byte) : Option ShardFault :=
  let b := x.bytes
  x.plan.findSome? fun y =>
    if x.bad.contains y.block || x.bad.contains (y.tag / 4096) then some (y.tile, y.block, true)
    else if y.mac key (numAt b 8 4) (numAt b 16 8) (numAt b 12 1) b != slice b y.tag 32 then some (y.tile, y.block, false)
    else none

/-- What the checks of R378 come to in a context: the signature, every tag and their digest, the image, DET. What is of no tagged block is
put to the manifest's (log entry 13). -/
def State.shardChecks (s : State) (c : Context) (x : Shard) (key : List Byte) : Option ShardFault :=
  let b := x.bytes
  if x.bad.contains 0 then some (0xFFFF, 0, true)
  else if !(c.ckpt.trusted.contains key && shake256 key 64 == slice b 240 64 && s.verifies key (b.take 312) ckptString (slice b 312 3309))
  then some (0xFFFF, 0, false)
  else
    (x.badBlock c.ckpt.key).orElse fun _ =>
      if tagDigest b x.plan == slice b 176 64 &&
          c.images.any (fun i => (i.map fun y => padTo 64 (parseImage y).digest == slice b 48 64).getD false) &&
          fld (numAt b 6 2) 1 1 == c.det.toNat then none
      else some (0xFFFF, 0, false)

/-- Write the regions of a shard under a context's tables (R378); where a write fails, whether an uncorrectable error is why. -/
def State.writeRegions (s : State) (p : Nat) : List (Nat × List Byte) → State × Option Bool
  | [] => (s, none)
  | (va, bs) :: more =>
    match s.hubWrite p .frontEnd va bs (granules bs.length) with
    | (s1, .got _) => State.writeRegions s1 p more
    | (s1, .fault c) => (s1, some (c == Cause.eccue))
    | (s1, _) => (s1, some false)

/-- Load a shard (R345, R378): its launch takes the context's own numbers and belongs to no queue; every tile is held at its STEP wait
with the condition met. -/
def State.loadShard (s : State) (c : Context) (x : Shard) : State :=
  let l := { x.launch with key := ⟨c.pasid, c.nextLaunch⟩, number := c.launchSeq, queue := 2 ^ 64, packet := 0 }
  let s1 := s.setCtx { c with nextLaunch := c.nextLaunch + 1, launchSeq := c.launchSeq + 1 }
  let own (t : Tile) : Tile := { t with key := ⟨c.pasid, t.key.id⟩, launch := c.nextLaunch }
  (x.tiles.map fun t => (own t).resumed c [l] s.cycle).foldl State.placeTile { s1 with launches := s1.launches ++ [l] }

/-- The physical address of a block of a slot of a context's store (R369, log entry 13). -/
def Context.shardPa (c : Context) (slot : Bool) (block : Nat) : Nat :=
  Config.storeBase c.pasid + (if slot then c.ckpt.slotBytes else 0) + 4096 * block

/-- A restore of a shard that fails aborts as R346 gives. -/
def State.loseShard (s : State) (p : Nat) (slot : Bool) (f : ShardFault) : State :=
  match s.ctx? p with
  | some c => s.loseContext c [] f.1 (c.shardPa slot f.2.1) f.2.2
  | none => s

/-- RESTORE_CHECKPOINT (R378): any failure aborts the whole restore as R346 gives. -/
def execRestoreCheckpoint (h : MgmtHdr) (p : Nat) (slot : Bool) (key : List Byte) (s : State) :
    Host.Outcome State Fault Refusal :=
  s.manage h .write
    (match s.ctx? p with
      | none => s.reply h 2 []
      | some c =>
        if !c.resident || c.preempt.isSome || c.tearing.isSome ||
            s.launches.any (fun l => l.key.pasid == p && l.stage.armedYet) then s.reply h 3 []
        else
          match c.ckpt.slot slot with
          | none => s.reply h 2 []
          | some x =>
            if numAt x.bytes 13 1 ≠ (s.partition c.part).2 then s.reply h 2 []
            else
              match s.shardChecks c x key with
              | some f => (s.loseShard p slot f).reply h 0 []
              | none =>
                match s.writeRegions p x.regions with
                | (s1, none) => (s1.loadShard ((s1.ctx? p).getD c) x).reply h 0 []
                | (s1, some ecc) => (s1.loseShard p slot (0xFFFF, 0, ecc)).reply h 0 [])

end Sys2Proof.Machine
end

