-- ==== Sys2Proof/Machine/Device.lean ====
section
/-! DEFINITION. The module as a device (R379 to R388, R391, R392): fatal errors, watchdogs, soft errors and scrubbing, duties,
power, bring-up. -/

namespace Sys2Proof.Machine

/-! Physical tiles (R14, R382, R383). -/

/-- The disabled column of a row of a die: 16 when it has none (R14, R383). -/
def Board.hole (b : Board) (die row : Nat) : Nat :=
  ((b.repair.find? fun p => p.die == die && p.row == row).map fun p => p.col).getD 16

/-- The physical tile of a context's logical id (R13, R14, R338). -/
def State.physOf (s : State) (k : TileKey) : Option PhysTile :=
  (s.ctx? k.pasid).map fun c =>
    let die := (s.partition c.part).1 + k.id / 160
    let row := k.id % 160 / 16
    let col := k.id % 16
    ⟨die, row, if col < s.board.hole die row then col else col + 1⟩

/-- Whether a physical tile exists (R14). -/
def physExists (p : PhysTile) : Bool := decide (p.die < 8) && decide (p.row < 10) && decide (p.col < 17)

def SoftErrors.zero : SoftErrors := ⟨0, 0, 0, 0, 0, 0, 0, 0⟩

/-- The soft-error block of a physical tile (R382). -/
def Board.softOf (b : Board) (p : PhysTile) : SoftErrors := ((b.soft.find? fun x => x.1 == p).map (·.2)).getD SoftErrors.zero

def Board.setSoft (b : Board) (p : PhysTile) (e : SoftErrors) : Board :=
  { b with soft := (p, e) :: b.soft.filter fun x => x.1 != p }

/-- A saturating count (R382). -/
def bump (n : Nat) : Nat := min 0xFFFFFFFF (n + 1)

/-- Count a soft error of a physical tile. -/
def State.countAt (s : State) (o : Option PhysTile) (f : SoftErrors → SoftErrors) : State :=
  match o with
  | some p => { s with board := s.board.setSoft p (f (s.board.softOf p)) }
  | none => s

/-- Count a soft error of a logical tile. -/
def State.countSoft (s : State) (k : TileKey) (f : SoftErrors → SoftErrors) : State := s.countAt (s.physOf k) f

def SoftErrors.scrubbed (e : SoftErrors) : SoftErrors := { e with scrub := bump e.scrub }
def SoftErrors.lostWord (e : SoftErrors) : SoftErrors := { e with uncor := bump e.uncor }

/-- A correctable error found on a path or on a read (R380, R382). -/
def SoftErrors.fixed (e : SoftErrors) : SoftCounter → SoftErrors
  | .sramc => { e with sramc := bump e.sramc }
  | .rillc => { e with rillc := bump e.rillc }
  | .casc => { e with casc := bump e.casc }
  | .parr => { e with parr := bump e.parr }

/-- A corrected Cascade error is also the tile's own count (R222). -/
def State.corrected (s : State) (k : TileKey) (c : SoftCounter) : State :=
  let s1 := s.countSoft k fun e => e.fixed c
  match c with
  | .casc => s1.onKey k fun t => { t with casc := { t.casc with corrected := t.casc.corrected + 1 } }
  | _ => s1

/-! Places (R380, R381). -/

/-- The tile whose station holds a slot of a Rill now (R227): station (s + t) mod L at ring tick t. -/
def State.holder (s : State) (l : Launch) (slot : Nat) : Option TileKey :=
  ((s.tilesOf l.key).find? fun t => stationOf t.key.id == (slot + l.rt) % ringLength l.image.grid).map (·.key)

/-- The tile in which a place lies. -/
def placeKey : Place → Option TileKey
  | .spad k _ | .bank k _ | .reg k _ _ | .imem k _ | .message k _ _ | .landing k _ | .line k _ | .combiner k _ => some k
  | _ => none

/-- The physical tile in whose soft-error block a place counts (R382). -/
def State.placeTileOf (s : State) (p : Place) : Option PhysTile :=
  match p with
  | .slot l n => ((s.launch? l).bind fun x => s.holder x n).bind s.physOf
  | .hbm _ => none
  | .idle p => some p
  | p => (placeKey p).bind s.physOf

/-- Whether a register has a granule (R70): a vector register has 32, any other one. -/
def regHas (r : RegName) (g : Nat) : Bool :=
  match r with
  | .v _ n => decide (n < 32) && decide (g < 32)
  | .s n => decide (n < 32) && g == 0
  | .x _ n | .m n | .p n => decide (n < 16) && g == 0

/-- The messages of a Basin or of a skid buffer. -/
def Tile.inbox (t : Tile) (skid : Bool) : List Message := if skid then t.skid else t.basin

/-- Whether a place is one of a tile's. -/
def Tile.hasPlace (t : Tile) : Place → Bool
  | .spad _ g => decide (g < 0x40000)
  | .bank _ n => decide (n < 16384)
  | .reg _ r g => regHas r g
  | .imem _ g => decide (g < Config.imemBytes / 8)
  | .message _ skid n => decide (n < (t.inbox skid).length)
  | .landing _ n => t.landings.any fun l => l.num == n && l.got.isSome
  | .line _ g => (t.line (g * 8)).isSome
  | .combiner _ n => ((t.farOp n).map fun f => match f.kind with
      | .store _ => f.stage == FarStage.open
      | _ => false).getD false
  | _ => false

/-- Whether a place is one of the machine's. -/
def State.hasPlace (s : State) (p : Place) : Bool :=
  match p with
  | .slot l n => ((s.launch? l).map fun x => decide (n < ringLength x.image.grid)).getD false
  | .hbm g => decide (g * 8 % 2 ^ 36 < Config.stackBytes) && decide (g * 8 < 2 ^ 40)
  | .idle p => physExists p && s.tiles.all fun t => s.physOf t.key != some p
  | p => (((placeKey p).bind s.tile?).map fun t => t.hasPlace p).getD false

/-- A list with one element more, which it holds once. -/
def withOne {α : Type} [BEq α] (x : α) (l : List α) : List α := x :: l.filter fun y => y != x

/-- The message at a place of a list is struck. -/
def strikeAt (n : Nat) (ms : List Message) : List Message := (ms[n]?).elim ms fun m => ms.set n { m with bad := true }

/-- Poison a word of a tile (R380). A datum that waits in the Basin is ECCUE at its tick; the spec states no TRAPINFO for it, which is a free
value (log entry 64). -/
def Tile.poison (t : Tile) (info : Word) : Place → Tile
  | .spad _ g => { t with spad := { t.spad with poison := withOne g t.spad.poison } }
  | .bank _ n => { t with casc := { t.casc with poison := withOne n t.casc.poison } }
  | .reg _ r g => { t with regs := { t.regs with bad := withOne (r, g) t.regs.bad } }
  | .imem _ g => { t with imemBad := withOne g t.imemBad }
  | .message _ true n => { t with skid := strikeAt n t.skid }
  | .message _ false n => { t with basin := strikeAt n t.basin }
  | .landing _ n => { t with landings := t.landings.map fun l => if l.num = n ∧ l.got.isSome then { l with got := some (.fault .eccue info) } else l }
  | .line _ g => { t with bufferBad := withOne g t.bufferBad }
  | .combiner _ n => { t with far := t.far.map fun f => if f.num = n then { f with bad := true } else f }
  | _ => t

/-- Poison a word (R380, R243); nothing consumes one of an idle tile before it is written. -/
def State.poison (s : State) (p : Place) : State :=
  match p with
  | .slot l n =>
    match s.launch? l with
    | some x => s.setLaunch { x with slotPoison := withOne n x.slotPoison }
    | none => s
  | .hbm g => { s with hbmPoison := withOne g s.hbmPoison }
  | .idle _ => s
  | p =>
    match placeKey p with
    | some k => { s with draws := s.draws + 1 }.onKey k fun t => t.poison (Config.freeWord s.draws) p
    | none => s

/-- An uncorrectable error at a place: the word is poisoned and the owner's UNCOR counts (R380, R382). -/
def State.uncorrectable (s : State) (p : Place) : State :=
  (s.poison p).countAt (s.placeTileOf p) SoftErrors.lostWord

/-- SCRUB (R381): the scrubber finds an error in a word; a correctable one changes no value that can be read, an
uncorrectable one poisons the word and delivers nothing. R382 counts what the scrubber corrects in `SCRUB`, and R221 and R222 count
corrected bank entries without saying whether the scrubber's are among them: the model counts them in `SCRUB` alone (DESIGN CHOICE, log
entry 75). -/
def execScrub (p : Place) (uncor : Bool) (s : State) : Host.Outcome State Fault Refusal :=
  if !s.up || !s.hasPlace p then .refused .notEnabled
  else .next (if uncor then s.uncorrectable p else s.countAt (s.placeTileOf p) SoftErrors.scrubbed)

/-! Fatal errors (R379). -/

/-- The header of the dump that a fatal error leaves in the cistern; the rest is laid out privately, and named by a number. -/
def cisternHeader (code counter unit : Nat) : List Byte :=
  padTo 64 (bytesOfNat 4 0x45595844 ++ bytesOfNat 4 1 ++ bytesOfNat 8 code ++ bytesOfNat 8 counter ++ bytesOfNat 8 unit)

/-- A context under a fatal error: nothing of it is in flight. -/
def Context.stopped (c : Context) : Context := { c with requests := [], invals := [], preempt := none, tearing := none }

/-- The answers to the requests on a context that a fatal error ends: the module serves reads alone from then on (R379, R385, log entry
18). -/
def Context.refusals (c : Context) : List Reply :=
  (c.invals.map fun x => (⟨x.2, 3, []⟩ : Reply)) ++ (c.tearing.map fun h => (⟨h, 3, []⟩ : Reply)).toList

/-- A fatal error (R379): every context suffers a context fault and every queue enters ERROR; no launch record is made. -/
def State.fatal (s : State) (code unit : Nat) : State :=
  let s1 := s.contexts.foldl (fun (x : State) c => x.abandonPreempt c.pasid) s
  let s2 := s1.mapTiles fun t => { t.faultStop with csrs := { t.csrs with stopflag := 0 } }
  let s3 := s2.queues.foldl (fun (x : State) q => x.queueErrorNow q 0x10 13 0xFFFF 0 0) s2
  { s3 with
    launches := [],
    contexts := s3.contexts.map Context.stopped,
    replies := s3.replies ++ s3.contexts.flatMap Context.refusals,
    queues := s3.queues.map fun q => { q.unparked with packets := [] },
    board := { s3.board with power := .fatal, cistern := some (cisternHeader code s.counter unit, s.draws) },
    draws := s3.draws + 1,
    turn := [] }

/-- FATAL_ERROR (R379). -/
def execFatalError (code unit : Nat) (s : State) : Host.Outcome State Fault Refusal :=
  if s.up then .next (s.fatal code unit) else .refused .notEnabled

/-! Watchdogs (R329). -/

/-- The code and the unit of a fatal watchdog (R379; log entry 24). -/
def watchdogCode : Nat := 3

/-- WATCHDOG_RESTART (R329, R379): the core alone restarts and what its queues have started goes on; a packet that it had not accepted is
read again. A core that fails again within 1 ms of a restart is a fatal error. -/
def execWatchdogRestart (core : Nat) (s : State) : Host.Outcome State Fault Refusal :=
  if core < 16 ∧ s.up ∧ (s.board.coreDown.all fun x => x.1 != core) then
    if s.board.coreUp.any fun x => x.1 == core && decide (s.cycle < x.2 + Config.oneMsCycles) then .next (s.fatal watchdogCode core)
    else .next { s with board := { s.board with coreDown := s.board.coreDown ++ [(core, s.cycle)] },
                        queues := s.queues.map fun q => if coreOf q.num = core then { q with reading := none } else q }
  else .refused .notEnabled

/-- FRONT_END_CORE_RESTARTED (R329): the core takes new packets again. -/
def execFrontEndCoreRestarted (core : Nat) (s : State) : Host.Outcome State Fault Refusal :=
  if s.up ∧ s.board.coreDown.any fun x => x.1 == core then
    .next { s with board := { s.board with coreDown := s.board.coreDown.filter fun x => x.1 != core,
                                           coreUp := (core, s.cycle) :: s.board.coreUp.filter fun x => x.1 != core } }
  else .refused .notEnabled

/-! Duties (R28, R387). -/

/-- The dies whose duty may not fall now, and may not be below 32/64: those of partitions being pre-empted (R387). -/
def State.dutyHeld (s : State) (die : Nat) : Bool := s.contexts.any fun c => c.preempt.isSome && (s.diesOf c).contains die

/-- The allowed duty of a die at an update: 8/64 to 64/64 (log entry 11). -/
def State.dutyAt (s : State) (die : Nat) : Nat :=
  let d := 8 + Config.duty s.draws die % 57
  if s.dutyHeld die then max (max 32 d) (listGet s.board.duty die 64) else d

/-- DUTY_UPDATE (R387). -/
def execDutyUpdate (s : State) : Host.Outcome State Fault Refusal :=
  if s.up then
    .next { s with board := { s.board with duty := (List.range 8).map s.dutyAt }, draws := s.draws + 1 }
  else .refused .notEnabled

/-! Bring-up (R391, R392). -/

/-- The security version that the image of a firmware slot carries (R392), free but for the image of no bytes that State.reset has booted:
its version is 0, the fused minimum there (DESIGN CHOICE, log entry 15). -/
def FwSlot.version (f : FwSlot) : Nat := if f.image = [] then 0 else Config.imageVersion f.image

/-- Whether a firmware slot passes (R392), by the version that its image carries (log entry 8). -/
def Board.passes (b : Board) (i : Nat) : Bool :=
  ((b.fw[i]?).map fun f => f.verified && decide (b.minVersion ≤ f.version)).getD false

/-- The slot that boots (R392): the active one, else the other. -/
def Board.bootSlot (b : Board) : Option Nat :=
  if b.passes b.active then some b.active else if b.passes (1 - b.active) then some (1 - b.active) else none

/-- Whether two repair entries name one row. -/
def sameRow (p q : PhysTile) : Bool := p.die == q.die && p.row == q.row

/-- The repair map in use (R383): the fuses, and the field entries of rows that have none. -/
def Board.formRepair (b : Board) : List PhysTile := b.fuses ++ b.field.filter fun p => !b.fuses.any fun q => sameRow p q

/-- Dies that a second entry for one row marks unusable (R383). -/
def Board.formUnusable (b : Board) : List Nat :=
  (List.range 8).filter fun d =>
    (List.range 10).any fun r => decide (1 < ((b.fuses ++ b.field).filter fun p => p.die == d && p.row == r).length)

/-- The board after a module reset (R391): what the fuses, the flash and the configuration store hold stays. -/
def Board.bringUp (b : Board) : Board :=
  let r := { Board.reset with
    fuses := b.fuses, field := b.field, nextLayout := b.nextLayout, nextPosition := b.nextPosition, fw := b.fw, active := b.active,
    booted := b.active, minVersion := b.minVersion, provisioned := b.provisioned, nextPort := b.nextPort, port := b.nextPort,
    measurement := [], challenge := b.challenge, reserved := b.reserved }
  match b.bootSlot with
  | none => { r with power := .recovery, fwFailed := true }
  | some i =>
    let f := listGet b.fw i ⟨[], [], false⟩
    { r with power := .ready, booted := i, fwFailed := i != b.active, minVersion := max b.minVersion f.version,
             measurement := shake256 f.image 64, repair := b.formRepair, unusable := b.formUnusable,
             layout := b.nextLayout, position := b.nextPosition }

/-- Every span of R4 ended, SRAM and HBM zero, on a board: the model's own fields and what has left the module go on. -/
def State.cleared (s : State) (b : Board) : State :=
  { State.reset with
    board := b, cycle := s.cycle, inputs := s.inputs, replies := s.replies, streamed := s.streamed, hostReads := s.hostReads,
    remoteOut := s.remoteOut, fresh := s.fresh, draws := s.draws }

/-- The board with nothing but what the fuses, the flash and the configuration store hold, in a power state. -/
def Board.bare (b : Board) (p : Power) : Board :=
  { Board.reset with
    power := p, fuses := b.fuses, field := b.field, nextLayout := b.nextLayout, nextPosition := b.nextPosition, fw := b.fw,
    active := b.active, booted := b.booted, minVersion := b.minVersion, provisioned := b.provisioned, nextPort := b.nextPort,
    measurement := [], challenge := b.challenge, reserved := b.reserved }

/-- Cycles within which bring-up ends: 8 s (R391). -/
def bootBound : Nat := 7840000000

/-- The module as bring-up begins (R385, R391): BOOT, in which the root of trust runs alone; when it ends is free within 8 s (log entry
12). -/
def State.bringUp (s : State) : State :=
  { s.cleared { s.board.bare .boot with bootAt := s.cycle + Config.bootCycles s.draws % (bootBound + 1) } with draws := s.draws + 1 }

/-- The end of bring-up (R391 steps 2 to 8): READY, or RECOVERY when neither slot passes. -/
def State.booted (s : State) : State := s.cleared s.board.bringUp

/-- The module without power (R385, R388): no part of it keeps state but the fuses, the flash and the store. -/
def State.powerDown (s : State) : State := s.cleared (s.board.bare .off)

/-- POWER_GOOD (R391): a module reset; bring-up begins. -/
def execPowerGood (s : State) : Host.Outcome State Fault Refusal :=
  if s.board.power = .off then .next s.bringUp else .refused .notEnabled

/-- POWER_OFF (R385). -/
def execPowerOff (s : State) : Host.Outcome State Fault Refusal :=
  if s.board.power = .off then .refused .notEnabled else .next s.powerDown

/-- THERMAL_TRIP (R388): hardware removes power; no dump, no launch record. -/
def execThermalTrip (s : State) : Host.Outcome State Fault Refusal :=
  if s.board.power = .off then .refused .notEnabled else .next s.powerDown

end Sys2Proof.Machine
end

