-- ==== Sys2Proof/Machine/Management.lean ====
section
/-! DEFINITION. The management operations on the module itself (R14, R338, R379, R382, R383, R386, R387, R390 to R392). -/

namespace Sys2Proof.Machine

/-! The header of a request (R390). -/

/-- The header that a management request carries, its `OP`, and the context or die that it names as its target. -/
def mgmtParts : Instr → Option (MgmtHdr × Nat × Option Nat)
  | .registerQueue h p _ => some (h, 0x0001, some p)
  | .unregisterQueue h _ => some (h, 0x0001, none)
  | .invalidateTranslations h p _ => some (h, 0x0002, some p)
  | .answerPageRequest h p _ _ => some (h, 0x0003, some p)
  | .createContext h _ => some (h, 0x0004, none)
  | .teardownContext h p => some (h, 0x0005, some p)
  | .preemptContext h p => some (h, 0x0006, some p)
  | .restoreContext h p _ => some (h, 0x0007, some p)
  | .readLaunchRecord h p _ => some (h, 0x0008, some p)
  | .readIdentityKey h => some (h, 0x0009, none)
  | .setCheckpointConfig h p _ => some (h, 0x000A, some p)
  | .restoreCheckpoint h p _ _ => some (h, 0x000B, some p)
  | .readLatestShard h p => some (h, 0x000B, some p)
  | .readSoftErrorBlock h _ => some (h, 0x000C, none)
  | .clearSoftErrorBlock h _ => some (h, 0x000C, none)
  | .writeFieldRepair h _ => some (h, 0x000D, none)
  | .readRemap h die => some (h, 0x000E, some die)
  | .readCistern h _ _ => some (h, 0x000F, none)
  | .setPowerCap h _ => some (h, 0x0010, none)
  | .readTelemetry h => some (h, 0x0011, none)
  | .setModulePosition h _ _ => some (h, 0x0012, none)
  | .stageFirmware h _ _ _ => some (h, 0x0013, none)
  | .resetModule h => some (h, 0x0014, none)
  | _ => none

/-- A management request whose header fits what it asks for: the `OP`, a length of 16 bits, a tag of 32, and the target where the request
names a context or a die; where it names a tile or a queue, how the target writes it is not said (log entry 24). -/
def mgmtOf (i : Instr) : Option (MgmtHdr × Nat × Option Nat) :=
  (mgmtParts i).filter fun x => x.1.op == x.2.1 && decide (x.1.length < 2 ^ 16) && decide (x.1.tag < 2 ^ 32) &&
    (x.2.2.map fun n => x.1.target == n).getD true

/-- An answer as it is sent (R390): the request's header with the status in bytes 8 to 15, then the body. -/
def Reply.bytes (r : Reply) : List Byte :=
  bytesOfNat 2 r.h.op ++ bytesOfNat 2 r.h.length ++ bytesOfNat 4 r.h.tag ++ bytesOfNat 8 r.status ++ r.body

/-- The four words of a soft-error block (R382). -/
def SoftErrors.bytes (e : SoftErrors) : List Byte :=
  bytesOfNat 4 e.sramc ++ bytesOfNat 4 e.scrub ++ bytesOfNat 4 e.mxcor ++ bytesOfNat 4 e.mxrep ++ bytesOfNat 4 e.casc ++
    bytesOfNat 4 e.rillc ++ bytesOfNat 4 e.parr ++ bytesOfNat 4 e.uncor

/-- READ_SOFT_ERROR_BLOCK (R382). -/
def execReadSoftErrorBlock (h : MgmtHdr) (t : PhysTile) (s : State) : Host.Outcome State Fault Refusal :=
  s.manage h .read (if physExists t then s.reply h 0 (s.board.softOf t).bytes else s.reply h 2 [])

/-- CLEAR_SOFT_ERROR_BLOCK (R382). -/
def execClearSoftErrorBlock (h : MgmtHdr) (t : PhysTile) (s : State) : Host.Outcome State Fault Refusal :=
  s.manage h .write
    (if physExists t then { s with board := { s.board with soft := s.board.soft.filter fun x => x.1 != t } }.reply h 0 []
     else s.reply h 2 [])

/-- WRITE_FIELD_REPAIR (R383): it takes effect at the next reset. -/
def execWriteFieldRepair (h : MgmtHdr) (t : PhysTile) (s : State) : Host.Outcome State Fault Refusal :=
  s.manage h .write
    (if physExists t then { s with board := { s.board with field := s.board.field ++ [t] } }.reply h 0 [] else s.reply h 2 [])

/-- READ_REMAP (R14): the disabled column of each row of a die. -/
def execReadRemap (h : MgmtHdr) (die : Nat) (s : State) : Host.Outcome State Fault Refusal :=
  s.manage h .read
    (if die < 8 then s.reply h 0 ((List.range 10).flatMap fun r => bytesOfNat 8 (s.board.hole die r)) else s.reply h 2 [])

/-- Bytes of the cistern (R379). -/
def cisternBytes : Nat := 2 ^ 32

/-- A byte of the cistern: the header, then the private part (log entry 24). -/
def cisternByte (header : List Byte) (draw i : Nat) : Byte := if i < 64 then listGet header i 0 else Config.dumpByte draw i

/-- READ_CISTERN (R379): there is something to read after a fatal error, until the next module reset. -/
def execReadCistern (h : MgmtHdr) (off len : Nat) (s : State) : Host.Outcome State Fault Refusal :=
  s.manage h .read
    (match s.board.cistern with
      | none => s.reply h 3 []
      | some c =>
        if cisternBytes < off + len then s.reply h 2 []
        else s.reply h 0 ((List.range len).map fun i => cisternByte c.1 c.2 (off + i)))

/-- SET_POWER_CAP (R386): 4.0 to 9.2 kW. -/
def execSetPowerCap (h : MgmtHdr) (watts : Nat) (s : State) : Host.Outcome State Fault Refusal :=
  s.manage h .write
    (if 4000 ≤ watts ∧ watts ≤ 9200 then { s with board := { s.board with cap := watts } }.reply h 0 [] else s.reply h 2 [])

/-- READ_TELEMETRY (R387, R390, R392): the duties, free temperatures and power, the power cap, and whether the active
firmware slot failed (layout and free readings: log entries 11 and 24). -/
def execReadTelemetry (h : MgmtHdr) (s : State) : Host.Outcome State Fault Refusal :=
  s.manage h .status
    ({ s with draws := s.draws + 1 }.reply h 0
      (s.board.duty.flatMap (bytesOfNat 8) ++
        ((List.range 9).flatMap fun i => bytesOfNat 8 (Config.telemetry s.draws i).toNat) ++ bytesOfNat 8 s.board.cap ++
        bytesOfNat 8 s.board.fwFailed.toNat))

/-- Whether a partition layout keeps R338: aligned partitions of 1, 2, 4 or 8 dies that share none. -/
def layoutOk (parts : List (Nat × Nat)) : Bool :=
  parts.all (fun p => decide (p.2 ≤ 3) && p.1 % 2 ^ p.2 == 0 && decide (p.1 + 2 ^ p.2 ≤ 8)) &&
    (List.range 8).all fun d => decide ((parts.filter fun p => decide (p.1 ≤ d) && decide (d < p.1 + 2 ^ p.2)).length ≤ 1)

/-- SET_MODULE_POSITION (R338, R357): from the next reset. -/
def execSetModulePosition (h : MgmtHdr) (pos : Nat) (parts : List (Nat × Nat)) (s : State) : Host.Outcome State Fault Refusal :=
  s.manage h .write
    (if pos < 64 ∧ layoutOk parts then
      { s with board := { s.board with nextPosition := pos, nextLayout := parts } }.reply h 0 []
     else s.reply h 2 [])

/-- STAGE_FIRMWARE (R392): the inactive slot is written and named active from the next reset; the version is the one that the image
carries, under its signature, and what the request says of it beside the image has no effect. -/
def execStageFirmware (h : MgmtHdr) (_version : Nat) (image sig : List Byte) (s : State) : Host.Outcome State Fault Refusal :=
  s.manage h .staging
    (let i := 1 - s.board.booted
     let f : FwSlot := ⟨image, sig, Config.firmwareSigned (shake256 image 64) sig⟩
     { s with board := { s.board with fw := s.board.fw.set i f, active := i } }.reply h 0 [])

/-- RESET_MODULE (R391): performed after its answer is sent. -/
def execResetModule (h : MgmtHdr) (s : State) : Host.Outcome State Fault Refusal := s.manage h .reset (s.reply h 0 []).bringUp

end Sys2Proof.Machine
end

