-- ==== Sys2Proof/Machine/Timed.lean ====
section
/-! DEFINITION. What falls due on the tiles of a timed domain (R19 to R30, R229, R231, R269, R292): waits, the forming of a
gang, faults entered, freezes and DEADLOCK, the Rill's pass, and the events that name one such happening. -/

namespace Sys2Proof.Machine

/-! Waits (R292). -/

/-- Whether the condition of a wait holds now (R292, R297 to R302); the forming of a gang is the domain's (R151). -/
def State.waitMet (s : State) (t : Tile) (w : Wait) : Bool :=
  match w.kind with
  | .tick => true
  | .step n => ((s.launch? t.launchKey).map fun l => !l.pending n).getD true
  | .fence sc gang upto => !s.openBefore t gang sc upto true
  | .bar _ _ _ _ met => met
  | .acq _ _ met => met
  | .acqRill _ _ met _ => met.isSome
  | .gang _ _ _ => false

/-- An ACQ on a Rill word does not freeze its domain (R297). -/
def Wait.patient (w : Wait) : Bool :=
  match w.kind with
  | .acqRill _ _ _ _ => true
  | _ => false

/-- A wait that is due with its condition unmet. -/
def State.waitHeld (s : State) (t : Tile) : Bool :=
  t.waits.any fun w => decide (w.due ≤ t.tick) && !w.patient && !s.waitMet t w

/-- Whether every wait of a tile is over, so that its next bundle issues. -/
def State.waitsOver (s : State) (t : Tile) : Bool := t.waits.all fun w => decide (w.due ≤ t.tick) && s.waitMet t w

/-- What the end of a wait does to the far-read buffer and to the reads of an ACQ (R284, R286, R297, R298). -/
def Tile.endWait (t : Tile) (bs : List Binding) (w : Wait) : Tile :=
  match w.kind with
  | .fence _ _ _ => { t with buffer := [] }
  | .acq b _ _ =>
    { t with buffer := t.buffer.filter (fun l => !(objectRegions bs b).any fun r => overlaps l.1 256 r.1 r.2),
             far := t.far.filter fun f => !(f.wait == some w.num) }
  | .acqRill b _ _ _ =>
    { t with buffer := t.buffer.filter fun l => !(objectRegions bs b).any fun r => overlaps l.1 256 r.1 r.2 }
  | _ => t

/-- The waits of a tile end. -/
def State.endWaits (s : State) (k : TileKey) : State :=
  s.onKey k fun t => { t.waits.foldl (fun (u : Tile) w => u.endWait (s.bindingsOf t) w) t with waits := [] }

/-! The forming of a gang (R151, R269). -/

/-- The descriptor of a tile's GANG wait: first id, size, due tick of the lead. -/
def Tile.gangWait (t : Tile) : Option (Nat × Nat × Nat) :=
  t.waits.findSome? fun w => match w.kind with
    | .gang f n b => some (f, n, b)
    | _ => none

/-- Whether two tiles wait in GANG for one gang, whose domain each joined at its issue tick (R19, R151). -/
def sameCohort (t u : Tile) : Bool :=
  u.key.pasid == t.key.pasid && u.launch == t.launch && u.phase.live && u.gangWait.isSome && u.gangWait == t.gangWait

/-- The tiles that wait with the same descriptor. -/
def State.cohort (s : State) (t : Tile) : List Tile := s.tiles.filter (sameCohort t)

/-- A tile of a newly formed gang (R68, R151, R230, R268, R269): what it waits for besides the gang it still waits for, and for its
own due tick b + j (R292). -/
def Tile.joinGang (t lead : Tile) (f n : Nat) : Tile :=
  { t with
    waits := t.waits.map fun w => match w.kind with
      | .gang _ _ _ => { w with kind := .tick }
      | _ => w,
    latches := Latches.invalid, loops := LoopUnit.reset, regions := [],
    csrs := { t.csrs with depth := 0 },
    inflight := t.inflight.filter fun p => match p.eff with
      | .depth _ => false
      | _ => true,
    gang := { t.gang with first := f, size := n, next := lead.gang.count, saved := [], resumeAt := 0 },
    berth := lead.berth, stopAt := none }

/-- When every tile named has issued its GANG, the grouping takes effect at the due tick b of the lead (R151, R292): they are one domain
from their issue ticks on, and those behind have come up to b (State.lowest, log entries 27 and 28). A member that had passed b on the
way to its own due tick b + j is ahead, and issues the lead's bundles no earlier than j ticks after it (R267). -/
def State.formGang (s : State) (k : TileKey) : State :=
  match s.tile? k with
  | none => s
  | some t =>
    match t.gangWait with
    | none => s
    | some (f, n, b) =>
      let c := s.cohort t
      if t.key.id = f ∧ t.tick = b ∧ c.length = n ∧ c.all fun u => decide (b ≤ u.tick) then
        s.mapTiles fun u => if c.any fun v => v.key == u.key then u.joinGang t f n else u
      else s

/-- Every gang of these tiles whose condition holds forms, before the waits of the tick are tested (R151, R292). -/
def State.regroup (s : State) (ks : List TileKey) : State := ks.foldl State.formGang s

/-! Faults at a tick (R21, R271, R305, R310, R311). -/

/-- A trap raised in a cycle: the tile, the trap, and for a fault of a wait's own reads the bundle to report (R297). -/
abbrev Raised := TileKey × Trap × Option Nat

/-- Whether the traps of one gang unwind a region (R272, R305): one is an ECCUE that a region catches. -/
def State.unwinds (s : State) (t : Tile) (rs : List Raised) : Bool :=
  let g := s.gangOf t
  match deciding (rs.map fun x => (x.1.id, x.2.1, x.2.2)) with
  | some d =>
    d.2.1.cause == .eccue && ((g.find? fun u => u.key.id == d.1).bind fun u => catching g u).isSome
  | none => false

/-- Which traps of a cycle are entered: those that unwind, before the writes of the tick, or all of them. -/
inductive Entered where
  | unwinding | every
deriving DecidableEq, Repr

/-- Enter the traps of one cycle, gang by gang. A tile that a context fault has stopped takes none (R311). -/
def State.raise (e : Entered) : Nat → List Raised → State → State
  | 0, _, s => s
  | _, [], s => s
  | n + 1, r :: rest, s =>
    match s.tile? r.1 with
    | none => State.raise e n rest s
    | some t =>
      if t.phase = .faulted then State.raise e n rest s
      else
        let g := s.gangOf t
        let inG (x : Raised) : Bool := g.any fun u => u.key == x.1
        let mine := sortBy (fun x => x.1.id) ((r :: rest).filter inG)
        State.raise e n (rest.filter fun x => !inG x)
          (if e = .every || s.unwinds t mine then s.enterTraps r.1 (mine.map fun x => (x.1.id, x.2.1, x.2.2)) else s)

/-- The fault of each tile at a place of its list. -/
def nthFaults (n : Nat) (fs : List (TileKey × List (Trap × Option Nat))) : List Raised :=
  fs.filterMap fun x => (x.2[n]?).map fun y => (x.1, y.1, y.2)

/-- Whether a tile is inside the wait of a STEP whose count is pending: its traps are delivered once the shard is taken (R305). -/
def State.inStep (s : State) (t : Tile) : Bool :=
  t.waits.any fun w => match w.kind with
    | .step _ => !s.waitMet t w
    | _ => false

/-- What a tile has to deliver at this tick: what was put off before, then the faults due now. -/
def Tile.allFaults (t : Tile) : List (Trap × Option Nat) := t.deferred ++ t.faultsDue.2

/-- Faults of a tile that have not been delivered. -/
def Tile.faultsLeft (t : Tile) (gone : List Raised) : List (Trap × Option Nat) :=
  (gone.filter fun x => x.1 == t.key).foldl (fun l x => l.erase (x.2.1, x.2.2)) t.allFaults

/-- The fault of a tile that is raised first: an ECCUE that unwinds before any other. -/
def State.firstFault (s : State) (gone : List Raised) (k : TileKey) : Option Raised :=
  (s.tile? k).bind fun t =>
    if s.inStep t then none
    else
      let fs := t.faultsLeft gone
      ((fs.find? fun x => s.unwinds t [(k, x.1, x.2)]).orElse fun _ => fs.head?).map fun x => (k, x.1, x.2)

/-- Take the faults due out of the tiles of a domain: those to deliver, without the ones that have been, and those to put off. -/
def State.collectFaults (s : State) (ks : List TileKey) (gone : List Raised) : State × List (TileKey × List (Trap × Option Nat)) :=
  ks.foldl (fun (acc : State × List (TileKey × List (Trap × Option Nat))) k =>
    match acc.1.tile? k with
    | some t =>
      let fs := t.faultsLeft gone
      if s.inStep t then (acc.1.setTile { t.faultsDue.1 with deferred := fs }, acc.2)
      else (acc.1.setTile { t.faultsDue.1 with deferred := [] }, acc.2 ++ [(k, fs)])
    | none => acc) (s, [])

def State.onKeys (s : State) (ks : List TileKey) (f : Tile → Tile) : State :=
  s.mapTiles fun t => if ks.contains t.key then f t else t

/-- The operation of a matrix engine whose fault is raised has ended, whatever an unwind leaves of the engine (R186). -/
def Tile.endFaulted (t : Tile) (tr : Trap) : Tile := if t.faultsMatrix.2.contains tr then t.faultsMatrix.1 else t

/-- The unwinds of a tick (R310), which cancel work that is due now, until no fault that is left unwinds: the state, and the faults
delivered. An unwind closes the region that caught its fault, so that an outer one catches the next. -/
def State.unwindAll (ks : List TileKey) : Nat → State → List Raised → State × List Raised
  | 0, s, gone => (s, gone)
  | n + 1, s, gone =>
    let first := ks.filterMap (s.firstFault gone)
    let early := first.filter fun x => ((s.tile? x.1).map fun t =>
      s.unwinds t (first.filter fun y => (s.gangOf t).any fun u => u.key == y.1)).getD false
    if early.isEmpty then (s, gone)
    else
      let s1 := early.foldl (fun (y : State) x => y.onKey x.1 fun t => t.endFaulted x.2.1) s
      State.unwindAll ks n (State.raise .unwinding ks.length first s1) (gone ++ early)

/-- Everything due at the tick of these tiles takes effect (R21, R310): unwinds, the writes, the other traps, and the further faults of
one tile, which its handler cannot take. -/
def State.deliverDue (s : State) (ks : List TileKey) : State :=
  let n := ks.length
  let u := State.unwindAll ks (4 * n) s []
  let c := u.1.collectFaults ks u.2
  let s2 := c.1.onKeys ks fun t => if t.phase = .faulted then t else t.applyDue
  (List.range ((c.2.map fun x => x.2.length).foldl max 0)).foldl (fun x i => State.raise .every n (nthFaults i c.2) x) s2

/-! Freezes (R25, R29, R30). -/

/-- The number of a freeze cause (R29). -/
def FreezeCause.code : FreezeCause → Nat
  | .landing => 1 | .wait => 2 | .basin => 3 | .skid => 4 | .arming => 5 | .shard => 6

/-- The trap of a DEADLOCK (R29). -/
def deadlockTrap (c : FreezeCause) (tile : Nat) : Trap := infoTrap .deadlock 0 (word (c.code + tile % 65536 * 65536))

/-- DEADLOCK on every tile of a frozen domain: its outstanding landings are cancelled (R29). -/
def State.deadlock (s : State) (ks : List TileKey) (f : Freeze) : State :=
  let s1 := s.onKeys ks fun t => { t.dropLandings (fun _ => true) with freeze := none }
  State.raise .every ks.length (ks.map fun k => (k, deadlockTrap f.cause f.tile, none)) s1

/-- The freeze of a domain that has lasted more than 50 ms. -/
def State.overdue (s : State) (ks : List TileKey) : Option Freeze :=
  ks.findSome? fun k => ((s.tile? k).bind fun t => t.freeze).filter fun f => decide (Config.deadlockCycles < s.cycle - f.since)

/-- A stop inside a freeze (R30, R245, R294): on a RECV or a skid entry every tile of the domain stops at its held bundle, and
the Rill with them, but a berthed tile, which stops at its ring stop tick alone; on a wait or a hold of R293 the tile that waits, which
is neither boarded nor berthed and leads its gang, stops at this tick; and so does a berthed tile whose BOARD is held because its Rill has
stopped, which the spec does not speak of: nothing else could end its freeze before the save (log entry 33). A BOARD that waits for a
Rill that runs stays held until RT = T (R232). -/
def State.stopFrozen (s : State) (ks : List TileKey) (rill : Option LaunchKey) (f : Freeze) : State :=
  let stopping := ks.any fun k => ((s.tile? k).map fun t => t.csrs.stopflag != 0).getD false
  if !stopping then s
  else if f.recv then
    let s1 := s.onKeys ks fun t => if t.berth = .berthed then t else { t with phase := .stopped, freeze := none }
    match rill.bind s1.launch? with
    | some l => s1.setLaunch { l with stopped := true }
    | none => s1
  else if f.cause = .wait then
    s.onKeys ks fun t =>
      if t.key.id = f.tile ∧ (t.berth = .free ∨ (t.berth = .berthed ∧ s.rillStopped t ∧ t.waits.isEmpty ∧ s.boarding t)) ∧
          (t.gang.size ≤ 1 ∨ t.pos = 0) then
        { t with phase := .stopped, freeze := none, stopAt := if t.tick = 0 then none else some (t.tick - 1) }
      else t
  else s

/-- Freeze a domain, or go on with its freeze (R25, R29). -/
def State.freezeDomain (s : State) (ks : List TileKey) (rill : Option LaunchKey) (c : FreezeCause) (tile : Nat) (recv : Bool) : State :=
  match s.overdue ks with
  | some f => s.deadlock ks f
  | none =>
    let mark (t : Tile) : Tile := { t with freeze := some ⟨c, tile, recv, (t.freeze.map fun f => f.since).getD s.cycle⟩ }
    (s.onKeys ks mark).stopFrozen ks rill ⟨c, tile, recv, s.cycle⟩

/-! The domain of a tile (R19). -/

/-- Whether two tiles at work are coupled (R19): members of a gang, formed or forming, or both boarded on the Rill of one launch. -/
def coupled (joins : List TileKey) (t u : Tile) : Bool :=
  let on (x : Tile) : Bool := x.berth == Berth.boarded || joins.contains x.key
  sameGang t u || sameCohort t u || (on t && on u && t.launchKey == u.launchKey)

/-- The tiles joined to some tiles by chains of coupling. -/
def closure (joins : List TileKey) (all : List Tile) : Nat → List Tile → List Tile
  | 0, c => c
  | n + 1, c => closure joins all n (all.filter fun u => c.any fun t => coupled joins t u)

/-- The tiles at work. -/
def State.running (s : State) : List Tile := s.tiles.filter fun t => t.phase == Phase.running

/-- The tiles in the domain of a tile that are at work as it is, or that are being armed with it (R25), rising by id. -/
def State.domainOf (s : State) (k : TileKey) : List TileKey :=
  match s.tile? k with
  | some t =>
    let all := s.tiles.filter fun u => u.phase == t.phase
    (sortBy (fun u => u.key.id) (closure [] all all.length [t])).map fun u => u.key
  | none => []

/-- The Rill that a domain belongs to. -/
def State.rillOf (s : State) (ks : List TileKey) : Option LaunchKey :=
  ks.findSome? fun k => (s.tile? k).bind fun t => if t.berth = .boarded then some t.launchKey else none

/-! The Rill's pass (R229, R236 to R239, R243, R283, R297). -/

/-- Word w of a slot. -/
def Launch.slotWord (l : Launch) (slot w : Nat) : Word := word (Elems.get l.slots (8 * slot + w))

def Launch.setSlotWord (l : Launch) (slot w : Nat) (v : Word) : Launch := { l with slots := Elems.set l.slots (8 * slot + w) v.toNat }

/-- TRAPINFO of a poisoned slot (R243). -/
def slotInfo (pos slot w : Nat) : Word := word (6 * 2 ^ 60 + pos % 8 * 2 ^ 57 + w % 8 * 2 ^ 27 + slot * 2 ^ 16)

/-- A capture (R238). -/
def State.capture (s : State) (l : Launch) (k : TileKey) (o : RillOp) : State :=
  match o.landing with
  | none => s
  | some n =>
    s.onKey k fun t => t.deliver n
      (if l.slotPoison.contains o.slot then .fault .eccue (slotInfo o.pos o.slot 0)
       else .bytes ((List.range 8).flatMap fun w => bytesOfNat 8 (l.slotWord o.slot w).toNat))

/-- The word that an update writes, none when it writes nothing (R239, R283). -/
def RillKind.result (k : RillKind) (old : Word) : Option Word :=
  match k with
  | .add v => some (old + v)
  | .cas v v2 => if old = v then some v2 else none
  | .maxu v => some (if old.toNat < v.toNat then v else old)
  | .or v => some (old ||| v)
  | .rel _ _ => some (old + 1)
  | _ => none

/-- An update (R238, R239): on a poisoned slot it leaves the slot as it is and delivers ECCUE, RPUT aside. -/
def State.update (s : State) (lk : LaunchKey) (k : TileKey) (o : RillOp) : State :=
  match s.launch? lk with
  | none => s
  | some l =>
    match o.kind with
    | .put v =>
      s.setLaunch { (List.range 8).foldl (fun (x : Launch) w => x.setSlotWord o.slot w (listGet v w 0)) l with
        slotPoison := l.slotPoison.filter fun n => n != o.slot }
    | kind =>
      if l.slotPoison.contains o.slot then
        let info := slotInfo o.pos o.slot o.word
        s.onKey k fun t =>
          match o.landing with
          | some n => t.deliver n (.fault .eccue info)
          | none => { t with faults := insertBy (fun f => f.num) ⟨o.seq, .eccue, info⟩ t.faults }
      else
        let old := l.slotWord o.slot o.word
        let s1 := match kind.result old with
          | some v => s.setLaunch (l.setSlotWord o.slot o.word v)
          | none => s
        match o.landing with
        | some n => s1.onKey k fun t => t.deliver n (.word old none)
        | none => s1

def RillKind.isCap : RillKind → Bool
  | .cap => true
  | _ => false

/-- The test of an ACQ on a Rill word at a pass of its slot (R297). -/
def Wait.rillTest (w : Wait) (l : Launch) (bs : List Binding) (id : Nat) : Wait :=
  match w.kind with
  | .acqRill b n none passes =>
    match bs[b]? with
    | some o =>
      if w.issue < l.rt && passTick (stationOf id) o.slot (l.rt - 1) (ringLength l.image.grid) == l.rt then
        if l.slotPoison.contains o.slot then { w with fault := some (infoTrap .eccue w.pos (slotInfo w.pos o.slot o.wordNo)) }
        else if n ≤ (l.slotWord o.slot o.wordNo).toNat then { w with kind := .acqRill b n (some l.rt) passes }
        else { w with kind := .acqRill b n none (if w.due < l.rt then passes + 1 else passes) }
      else w
    | none => w
  | _ => w

/-- The operations of a launch whose pass tick is RT. -/
def State.passing (s : State) (l : Launch) : List (TileKey × RillOp) :=
  (s.tilesOf l.key).flatMap fun t => (t.station.filter fun o => o.pass == l.rt).map fun o => (t.key, o)

/-- The tile whose REL on a Rill word passes at this ring tick while a write that it covers is open (R283). -/
def State.relHold (s : State) (l : Launch) : Option Nat :=
  ((s.passing l).find? fun x => match x.2.kind with
    | .rel b gang => ((s.tile? x.1).map fun t => s.coversOpen t l.image.bindings b gang x.2.seq).getD false
    | _ => false).map fun x => x.1.id

/-- Every pass of one ring tick (R229): captures, tests of ACQ among them, then updates in order of issue. -/
def State.ringPass (s : State) (l : Launch) : State :=
  let ops := s.passing l
  let s1 := (ops.filter fun x => x.2.kind.isCap).foldl (fun x o => x.capture l o.1 o.2) s
  let s2 := s1.mapTiles fun t =>
    if t.launchKey == l.key then { t with waits := t.waits.map fun w => w.rillTest l l.image.bindings t.key.id } else t
  let s3 := (sortBy (fun x => x.2.seq) (ops.filter fun x => !x.2.kind.isCap)).foldl (fun x o => x.update l.key o.1 o.2) s2
  s3.mapTiles fun t =>
    if t.launchKey == l.key then { t with station := t.station.filter fun o => o.pass != l.rt } else t

/-- The tile whose berth holds the Rill at RT (R231): a berthed tile that has not gone past it. -/
def State.berthHold (s : State) (l : Launch) (ks : List TileKey) : Option Nat :=
  ((s.tilesOf l.key).find? fun t => t.phase.live && t.berth == Berth.berthed && decide (t.tick ≤ l.rt) &&
    !ks.contains t.key).map fun t => t.key.id

/-- A tile that has tested 65,536 later passes without success (R297). -/
def Tile.passLimit (t : Tile) : Bool :=
  t.waits.any fun w => match w.kind with
    | .acqRill _ _ none passes => decide (65536 ≤ passes)
    | _ => false

/-! The events of this file. -/

/-- Run an event on a tile that it names. -/
def State.onNamed (s : State) (k : TileKey) (f : Tile → Option State) : Host.Outcome State Fault Refusal :=
  match s.tile? k with
  | none => .fault .noSuchObject
  | some t =>
    match f t with
    | some s1 => .next s1
    | none => .refused .notEnabled

/-- The domain of a tile is held at this tick. -/
def State.holdAt (s : State) (k : TileKey) (c : FreezeCause) (recv : Bool) : State :=
  let ks := s.domainOf k
  s.freezeDomain ks (s.rillOf ks) c k.id recv

/-- LANDING_DUE (R22): the data due at this tick are written, or the domain freezes. -/
def execLandingDue (k : TileKey) (s : State) : Host.Outcome State Fault Refusal :=
  s.onNamed k fun t =>
    if t.landingsDue.isEmpty then none
    else
      match t.landingHold with
      | some recv => some (s.holdAt k .landing recv)
      | none =>
        let r := t.faultsLanding
        let u := r.1.landingsDue.foldl (fun u l => u.writeLanding l) r.1
        some (State.raise .every 1 ((r.2.take 1).map fun tr => (k, tr, none)) (s.setTile u))

/-- WAIT_DUE_TICK (R292): the waits of a tile that are due end, a gang forms, or the domain freezes. -/
def execWaitDueTick (k : TileKey) (s : State) : Host.Outcome State Fault Refusal :=
  s.onNamed k fun t =>
    if !t.waits.any fun w => decide (w.due ≤ t.tick) then none
    else
      let s1 := (s.setTile t.lookWaits).formGang k
      match s1.tile? k with
      | none => none
      | some u =>
        if u.waits.isEmpty then some s1
        else if s1.waitHeld u then some (s1.holdAt k .wait false)
        else if s1.waitsOver u then some (s1.endWaits k)
        else none

/-- WAIT_CONDITION_MET (R24, R297, R299): a waiting ACQ or BAR reads its word at the home; with nothing left to read, the
freeze of a domain whose waits are met ends. -/
def execWaitConditionMet (k : TileKey) (s : State) : Host.Outcome State Fault Refusal :=
  s.onNamed k fun t =>
    let ws := t.waits.filter Wait.reading
    match ws[s.pick ws.length]? with
    | some w =>
      match w.kind with
      | .bar _ a g0 _ _ => some (s.tickFresh.barRead t w a g0)
      | _ => (t.far.find? fun f => f.wait == some w.num).bind fun f => s.tickFresh.farEvent t f false
    | none =>
      if t.freeze.isSome && !t.waits.isEmpty && !s.waitHeld t.lookWaits then
        some (s.onKeys (s.domainOf k) fun u => { u with freeze := none })
      else none

/-- ACQ_PASS_LIMIT (R297): DEADLOCK with freeze cause 2. -/
def execAcqPassLimit (k : TileKey) (s : State) : Host.Outcome State Fault Refusal :=
  s.onNamed k fun t =>
    if t.passLimit then some (State.raise .every 1 [(k, deadlockTrap .wait k.id, none)] s) else none

/-- DEADLOCK (R29): a freeze of the tile's domain has lasted more than 50 ms. -/
def execDeadlock (k : TileKey) (s : State) : Host.Outcome State Fault Refusal :=
  s.onNamed k fun _ =>
    let ks := s.domainOf k
    (s.overdue ks).map fun f => s.deadlock ks f

/-- MATRIX_OP_BEGIN (R174, R187). -/
def execMatrixOpBegin (k : TileKey) (s : State) : Host.Outcome State Fault Refusal :=
  s.onNamed k fun t =>
    match t.mx.active with
    | some o => if !o.over && !o.begun && o.start == t.tick then some (s.setTile (t.mxBegin o)) else none
    | none => none

/-- Whether the operation in the active place starts a step now (R171, R174). -/
def MxOp.startsNow (o : MxOp) (tick : Nat) : Bool :=
  (match o.kind with
    | .go _ => true
    | _ => false) && !o.over && o.begun && !o.ahead.ended && o.nextStart == tick

/-- MATRIX_STEP_START (R171): both tiles are read, or the domain freezes while one is awaited. -/
def execMatrixStepStart (k : TileKey) (s : State) : Host.Outcome State Fault Refusal :=
  s.onNamed k fun t =>
    match t.mx.active with
    | some o =>
      if o.startsNow t.tick then
        match t.mxStart o with
        | some u => some (s.setTile u)
        | none => some (s.holdAt k .landing false)
      else none
    | none => none

/-- MATRIX_STEP_RETIRE (R174, R181): the checks of a step end. -/
def execMatrixStepRetire (k : TileKey) (s : State) : Host.Outcome State Fault Refusal :=
  s.onNamed k fun t =>
    match t.mx.active with
    | some o => if o.steps.any fun x => x.stop + 16 == t.tick && x.compl.isNone then some (s.setTile t.mxRetire) else none
    | none => none

/-- A corrected element counts (R182, R382). -/
def State.countCheck (s : State) (k : TileKey) (c : StepCheck) : State :=
  if c = .corrected then s.countSoft k fun e => { e with mxcor := bump e.mxcor } else s

/-- The checks of the steps whose work has ended on these tiles (R181 to R184). -/
def State.checkSteps (s : State) (ks : List TileKey) : State :=
  ks.foldl (fun (x : State) k =>
    match x.tile? k with
    | some t =>
      (match t.mxToCheck with
        | some (o, y) => (x.setTile (t.setStep o (y.checked (o.check y)))).countCheck k (o.check y)
        | none => x)
    | none => x) s

/-- MATRIX_STEP_REPLAY (R184, R185): the step that was found wrong is computed again; a replay is a soft error of the
tile, the work done again after a restore is none (R188). -/
def execMatrixStepReplay (k : TileKey) (s : State) : Host.Outcome State Fault Refusal :=
  s.onNamed k fun t =>
    t.mxReplayable.map fun x =>
      let r := t.mxReplay x.1 x.2
      let s1 := (s.setTile r.1).countCheck k r.2
      if x.2.hit || x.2.failed then s1.countSoft k fun e => { e with mxrep := bump e.mxrep } else s1

/-- The trap of an engine that completes with a fault is entered (R186). -/
def State.engineDone (s : State) (r : Tile × List Trap) : State :=
  State.raise .every 1 ((r.2.take 1).map fun tr => (r.1.key, tr, none)) (s.setTile r.1)

/-- MATRIX_STEP_COMPLETE (R173, R174, R186). -/
def execMatrixStepComplete (k : TileKey) (s : State) : Host.Outcome State Fault Refusal :=
  s.onNamed k fun t =>
    match t.mx.active with
    | some o =>
      if o.over then none else (o.steps.find? fun x => x.compl == some t.tick).map fun x => s.engineDone (t.mxStepDone o x)
    | none => none

/-- Whether an operation of a kind completes now. -/
def MxOp.completesNow (o : MxOp) (tick : Nat) : Bool := !o.over && o.compl == some tick

/-- MDRN_COMPLETE (R199). -/
def execMdrnComplete (k : TileKey) (s : State) : Host.Outcome State Fault Refusal :=
  s.onNamed k fun t =>
    match t.mx.active with
    | some o =>
      match o.kind with
      | .drn _ => if o.completesNow t.tick then some (s.engineDone (t.mxOpDone o)) else none
      | _ => none
    | none => none

/-- MCLR_COMPLETE (R200). -/
def execMclrComplete (k : TileKey) (s : State) : Host.Outcome State Fault Refusal :=
  s.onNamed k fun t =>
    match t.mx.active with
    | some o =>
      match o.kind with
      | .clr _ => if o.completesNow t.tick then some (s.engineDone (t.mxOpDone o)) else none
      | _ => none
    | none => none

/-- MLDW_COMPLETE (R201). -/
def execMldwComplete (k : TileKey) (s : State) : Host.Outcome State Fault Refusal :=
  s.onNamed k fun t =>
    match t.mx.active with
    | some o =>
      match o.kind with
      | .ldw _ _ _ _ => if o.completesNow t.tick then some (s.engineDone (t.mxOpDone o)) else none
      | _ => none
    | none => none

/-- The bank ports that a read stage has at this tick (R213): one while a row transfer reads the banks. -/
def Tile.ports (t : Tile) : Nat := if t.casc.xfers.any fun x => x.readsNow t.tick then 1 else 2

/-- CASCADE_READ_STAGE (R213). -/
def execCascadeReadStage (k : TileKey) (s : State) : Host.Outcome State Fault Refusal :=
  s.onNamed k fun t => if t.casc.reading.isSome then some (s.setTile (t.readStage t.ports)) else none

/-- CASCADE_SUBTREE_WRITE (R214, R215, R222). -/
def execCascadeSubtreeWrite (k : TileKey) (s : State) : Host.Outcome State Fault Refusal :=
  s.onNamed k fun t => if t.casc.subs.any fun x => x.due == some t.tick then some (s.engineDone t.writeSubs) else none

/-- CASCADE_ROW_MOVE (R218). -/
def execCascadeRowMove (k : TileKey) (s : State) : Host.Outcome State Fault Refusal :=
  s.onNamed k fun t =>
    if t.casc.xfers.any fun x => !x.gone && !x.struck && decide (x.start ≤ t.tick) && decide (t.tick < x.start + x.count) then some (s.setTile t.moveRows)
    else none

/-- CASCADE_ROW_WRITE (R218, R222). -/
def execCascadeRowWrite (k : TileKey) (s : State) : Host.Outcome State Fault Refusal :=
  s.onNamed k fun t => if t.casc.xfers.any fun x => x.row.isSome then some (s.engineDone t.writeRow) else none

/-- RILL_PASS (R229): the operations whose pass tick is RT are performed, once what a REL among them covers is (R283). -/
def execRillPass (k : LaunchKey) (s : State) : Host.Outcome State Fault Refusal :=
  match s.launch? k with
  | none => .fault .noSuchObject
  | some l => if (s.passing l).isEmpty || (s.relHold l).isSome then .refused .notEnabled else .next (s.ringPass l)

/-- COPY_COMPLETION_DUE (R254, R260): the timed commands due at this tick have their records, or the domain freezes. -/
def execCopyCompletionDue (k : TileKey) (s : State) : Host.Outcome State Fault Refusal :=
  s.onNamed k fun t =>
    if t.copiesDue.isEmpty then none
    else if t.copyLate then some (s.holdAt k .landing false)
    else
      some (State.raise .every 1 ((t.faultsCopy.take 1).map fun tr => (k, tr, none)) (s.setTile t.completeCopies))

end Sys2Proof.Machine
end

