-- ==== Sys2Proof/Machine/Dispatch.lean ====
section
/-! DEFINITION. The dispatch of every step of the opcode table to its meaning. -/

namespace Sys2Proof.Machine

def exec (i : Instr) (s : State) : Host.Outcome State Fault Refusal :=
  match i with
  | .snop e => Sys2Proof.Machine.execSnop e s
  | .add h d a b => Sys2Proof.Machine.execAdd h d a b s
  | .sub h d a b => Sys2Proof.Machine.execSub h d a b s
  | .and h d a b => Sys2Proof.Machine.execAnd h d a b s
  | .or h d a b => Sys2Proof.Machine.execOr h d a b s
  | .xor h d a b => Sys2Proof.Machine.execXor h d a b s
  | .shl h d a b => Sys2Proof.Machine.execShl h d a b s
  | .shr h d a b => Sys2Proof.Machine.execShr h d a b s
  | .sra h d a b => Sys2Proof.Machine.execSra h d a b s
  | .mul h d a b => Sys2Proof.Machine.execMul h d a b s
  | .mulh h d a b => Sys2Proof.Machine.execMulh h d a b s
  | .mulhu h d a b => Sys2Proof.Machine.execMulhu h d a b s
  | .div h d a b => Sys2Proof.Machine.execDiv h d a b s
  | .divu h d a b => Sys2Proof.Machine.execDivu h d a b s
  | .rem h d a b => Sys2Proof.Machine.execRem h d a b s
  | .remu h d a b => Sys2Proof.Machine.execRemu h d a b s
  | .clz h d a => Sys2Proof.Machine.execClz h d a s
  | .min h d a b => Sys2Proof.Machine.execMin h d a b s
  | .max h d a b => Sys2Proof.Machine.execMax h d a b s
  | .minu h d a b => Sys2Proof.Machine.execMinu h d a b s
  | .maxu h d a b => Sys2Proof.Machine.execMaxu h d a b s
  | .rotl h d a b => Sys2Proof.Machine.execRotl h d a b s
  | .popc h d a => Sys2Proof.Machine.execPopc h d a s
  | .ctz h d a => Sys2Proof.Machine.execCtz h d a s
  | .bswap h d a => Sys2Proof.Machine.execBswap h d a s
  | .addi h d a imm => Sys2Proof.Machine.execAddi h d a imm s
  | .andi h d a imm => Sys2Proof.Machine.execAndi h d a imm s
  | .ori h d a imm => Sys2Proof.Machine.execOri h d a imm s
  | .xori h d a imm => Sys2Proof.Machine.execXori h d a imm s
  | .shli h d a n => Sys2Proof.Machine.execShli h d a n s
  | .shri h d a n => Sys2Proof.Machine.execShri h d a n s
  | .srai h d a n => Sys2Proof.Machine.execSrai h d a n s
  | .rotli h d a n => Sys2Proof.Machine.execRotli h d a n s
  | .lis h d imm => Sys2Proof.Machine.execLis h d imm s
  | .ins1 h d imm => Sys2Proof.Machine.execIns1 h d imm s
  | .ins2 h d imm => Sys2Proof.Machine.execIns2 h d imm s
  | .ins3 h d imm => Sys2Proof.Machine.execIns3 h d imm s
  | .cmpeq h d a b => Sys2Proof.Machine.execCmpeq h d a b s
  | .cmpne h d a b => Sys2Proof.Machine.execCmpne h d a b s
  | .cmplt h d a b => Sys2Proof.Machine.execCmplt h d a b s
  | .cmpltu h d a b => Sys2Proof.Machine.execCmpltu h d a b s
  | .cmple h d a b => Sys2Proof.Machine.execCmple h d a b s
  | .cmpleu h d a b => Sys2Proof.Machine.execCmpleu h d a b s
  | .cmptst h d a b => Sys2Proof.Machine.execCmptst h d a b s
  | .pand h d a b => Sys2Proof.Machine.execPand h d a b s
  | .por h d a b => Sys2Proof.Machine.execPor h d a b s
  | .pxor h d a b => Sys2Proof.Machine.execPxor h d a b s
  | .pandn h d a b => Sys2Proof.Machine.execPandn h d a b s
  | .pnot h d a => Sys2Proof.Machine.execPnot h d a s
  | .pmov h d a => Sys2Proof.Machine.execPmov h d a s
  | .pset h d => Sys2Proof.Machine.execPset h d s
  | .pclr h d => Sys2Proof.Machine.execPclr h d s
  | .csrr h d c => Sys2Proof.Machine.execCsrr h d c s
  | .csrw h d c => Sys2Proof.Machine.execCsrw h d c s
  | .csrs h d c => Sys2Proof.Machine.execCsrs h d c s
  | .csrc h d c => Sys2Proof.Machine.execCsrc h d c s
  | .sel h d a b => Sys2Proof.Machine.execSel h d a b s
  | .movp h d a => Sys2Proof.Machine.execMovp h d a s
  | .movtp h d a => Sys2Proof.Machine.execMovtp h d a s
  | .br h o => Sys2Proof.Machine.execBr h o s
  | .call h o => Sys2Proof.Machine.execCall h o s
  | .jmpr h a => Sys2Proof.Machine.execJmpr h a s
  | .callr h a => Sys2Proof.Machine.execCallr h a s
  | .loopr h l a b => Sys2Proof.Machine.execLoopr h l a b s
  | .trap h a => Sys2Proof.Machine.execTrap h a s
  | .tret h => Sys2Proof.Machine.execTret h s
  | .tfence h => Sys2Proof.Machine.execTfence h s
  | .exit h => Sys2Proof.Machine.execExit h s
  | .waitt h a => Sys2Proof.Machine.execWaitt h a s
  | .loop h l a len => Sys2Proof.Machine.execLoop h l a len s
  | .sld h d a size sx o => Sys2Proof.Machine.execSld h d a size sx o s
  | .sst h d a size o => Sys2Proof.Machine.execSst h d a size o s
  | .vadd h d a b => Sys2Proof.Machine.execVadd h d a b s
  | .vsub h d a b => Sys2Proof.Machine.execVsub h d a b s
  | .vmul h d a b => Sys2Proof.Machine.execVmul h d a b s
  | .vmin h d a b => Sys2Proof.Machine.execVmin h d a b s
  | .vmax h d a b => Sys2Proof.Machine.execVmax h d a b s
  | .vabs h d a => Sys2Proof.Machine.execVabs h d a s
  | .vneg h d a => Sys2Proof.Machine.execVneg h d a s
  | .vcps h d a b => Sys2Proof.Machine.execVcps h d a b s
  | .vfma h d a b => Sys2Proof.Machine.execVfma h d a b s
  | .vfms h d a b => Sys2Proof.Machine.execVfms h d a b s
  | .vfnma h d a b => Sys2Proof.Machine.execVfnma h d a b s
  | .vfnms h d a b => Sys2Proof.Machine.execVfnms h d a b s
  | .vdiv h d a b => Sys2Proof.Machine.execVdiv h d a b s
  | .vsqrt h d a => Sys2Proof.Machine.execVsqrt h d a s
  | .vrcp h d a => Sys2Proof.Machine.execVrcp h d a s
  | .vrsq h d a => Sys2Proof.Machine.execVrsq h d a s
  | .vexp2 h d a => Sys2Proof.Machine.execVexp2 h d a s
  | .vlog2 h d a => Sys2Proof.Machine.execVlog2 h d a s
  | .vrint h d a => Sys2Proof.Machine.execVrint h d a s
  | .vrintz h d a => Sys2Proof.Machine.execVrintz h d a s
  | .vclass h d a => Sys2Proof.Machine.execVclass h d a s
  | .vscale h d a b => Sys2Proof.Machine.execVscale h d a b s
  | .vgetexp h d a => Sys2Proof.Machine.execVgetexp h d a s
  | .vminnum h d a b => Sys2Proof.Machine.execVminnum h d a b s
  | .vfceq h d a b => Sys2Proof.Machine.execVfceq h d a b s
  | .vfcne h d a b => Sys2Proof.Machine.execVfcne h d a b s
  | .vfclt h d a b => Sys2Proof.Machine.execVfclt h d a b s
  | .vfcle h d a b => Sys2Proof.Machine.execVfcle h d a b s
  | .vfcgt h d a b => Sys2Proof.Machine.execVfcgt h d a b s
  | .vfcge h d a b => Sys2Proof.Machine.execVfcge h d a b s
  | .vfcunord h d a b => Sys2Proof.Machine.execVfcunord h d a b s
  | .vfcord h d a b => Sys2Proof.Machine.execVfcord h d a b s
  | .viadd h d a b => Sys2Proof.Machine.execViadd h d a b s
  | .visub h d a b => Sys2Proof.Machine.execVisub h d a b s
  | .vimul h d a b => Sys2Proof.Machine.execVimul h d a b s
  | .vimulh h d a b => Sys2Proof.Machine.execVimulh h d a b s
  | .vimin h d a b => Sys2Proof.Machine.execVimin h d a b s
  | .vimax h d a b => Sys2Proof.Machine.execVimax h d a b s
  | .viminu h d a b => Sys2Proof.Machine.execViminu h d a b s
  | .vimaxu h d a b => Sys2Proof.Machine.execVimaxu h d a b s
  | .viadds h d a b => Sys2Proof.Machine.execViadds h d a b s
  | .viaddsu h d a b => Sys2Proof.Machine.execViaddsu h d a b s
  | .visubs h d a b => Sys2Proof.Machine.execVisubs h d a b s
  | .visubsu h d a b => Sys2Proof.Machine.execVisubsu h d a b s
  | .viabs h d a => Sys2Proof.Machine.execViabs h d a s
  | .vineg h d a => Sys2Proof.Machine.execVineg h d a s
  | .viavg h d a b => Sys2Proof.Machine.execViavg h d a b s
  | .viavgu h d a b => Sys2Proof.Machine.execViavgu h d a b s
  | .vand h d a b => Sys2Proof.Machine.execVand h d a b s
  | .vor h d a b => Sys2Proof.Machine.execVor h d a b s
  | .vxor h d a b => Sys2Proof.Machine.execVxor h d a b s
  | .vandn h d a b => Sys2Proof.Machine.execVandn h d a b s
  | .vshl h d a b => Sys2Proof.Machine.execVshl h d a b s
  | .vshr h d a b => Sys2Proof.Machine.execVshr h d a b s
  | .vsra h d a b => Sys2Proof.Machine.execVsra h d a b s
  | .vnot h d a => Sys2Proof.Machine.execVnot h d a s
  | .viceq h d a b => Sys2Proof.Machine.execViceq h d a b s
  | .vicne h d a b => Sys2Proof.Machine.execVicne h d a b s
  | .viclt h d a b => Sys2Proof.Machine.execViclt h d a b s
  | .vicltu h d a b => Sys2Proof.Machine.execVicltu h d a b s
  | .vicle h d a b => Sys2Proof.Machine.execVicle h d a b s
  | .vicleu h d a b => Sys2Proof.Machine.execVicleu h d a b s
  | .victst h d a b => Sys2Proof.Machine.execVictst h d a b s
  | .vcvt h d a t r sat => Sys2Proof.Machine.execVcvt h d a t r sat s
  | .vperm h d a b => Sys2Proof.Machine.execVperm h d a b s
  | .vzip h d a b => Sys2Proof.Machine.execVzip h d a b s
  | .vunzip h d a b => Sys2Proof.Machine.execVunzip h d a b s
  | .vrev h d a => Sys2Proof.Machine.execVrev h d a s
  | .vrot h d a b => Sys2Proof.Machine.execVrot h d a b s
  | .vsel h d a b => Sys2Proof.Machine.execVsel h d a b s
  | .vcmprs h d a b => Sys2Proof.Machine.execVcmprs h d a b s
  | .vexpnd h d a b => Sys2Proof.Machine.execVexpnd h d a b s
  | .vrsum h d a b => Sys2Proof.Machine.execVrsum h d a b s
  | .vrmax h d a b => Sys2Proof.Machine.execVrmax h d a b s
  | .vrmin h d a b => Sys2Proof.Machine.execVrmin h d a b s
  | .vrisum h d a b => Sys2Proof.Machine.execVrisum h d a b s
  | .vscan h d a b => Sys2Proof.Machine.execVscan h d a b s
  | .vrand h d a b => Sys2Proof.Machine.execVrand h d a b s
  | .vror h d a b => Sys2Proof.Machine.execVror h d a b s
  | .vrxor h d a b => Sys2Proof.Machine.execVrxor h d a b s
  | .vspli h d imm => Sys2Proof.Machine.execVspli h d imm s
  | .viota h d => Sys2Proof.Machine.execViota h d s
  | .vsplat h d a b => Sys2Proof.Machine.execVsplat h d a b s
  | .vmovp h d a => Sys2Proof.Machine.execVmovp h d a s
  | .vpopc h d a => Sys2Proof.Machine.execVpopc h d a s
  | .vrng h d a => Sys2Proof.Machine.execVrng h d a s
  | .vfmts h a => Sys2Proof.Machine.execVfmts h a s
  | .vfmt h bind f => Sys2Proof.Machine.execVfmt h bind f s
  | .vnop e => Sys2Proof.Machine.execVnop e s
  | .vdot4s h d a b => Sys2Proof.Machine.execVdot4s h d a b s
  | .vdot4u h d a b => Sys2Proof.Machine.execVdot4u h d a b s
  | .vdot2bf h d a b => Sys2Proof.Machine.execVdot2bf h d a b s
  | .vdot2h h d a b => Sys2Proof.Machine.execVdot2h h d a b s
  | .cld h f d a imm => Sys2Proof.Machine.execCld h f d a imm s
  | .cst h f d a imm => Sys2Proof.Machine.execCst h f d a imm s
  | .cgath h f d a wide x => Sys2Proof.Machine.execCgath h f d a wide x s
  | .cscat h f d a wide x => Sys2Proof.Machine.execCscat h f d a wide x s
  | .xcpsx h d a => Sys2Proof.Machine.execXcpsx h d a s
  | .xcpxs h d a => Sys2Proof.Machine.execXcpxs h d a s
  | .xcpmx h d a => Sys2Proof.Machine.execXcpmx h d a s
  | .xcpxm h d a => Sys2Proof.Machine.execXcpxm h d a s
  | .xcpvax h d a lane => Sys2Proof.Machine.execXcpvax h d a lane s
  | .xcpvbx h d a lane => Sys2Proof.Machine.execXcpvbx h d a lane s
  | .xcpxva h d a lane => Sys2Proof.Machine.execXcpxva h d a lane s
  | .xcpxvb h d a lane => Sys2Proof.Machine.execXcpxvb h d a lane s
  | .fld h d a n => Sys2Proof.Machine.execFld h d a n s
  | .fldv h f d a n => Sys2Proof.Machine.execFldv h f d a n s
  | .fst h d a => Sys2Proof.Machine.execFst h d a s
  | .fstv h f d a => Sys2Proof.Machine.execFstv h f d a s
  | .send h f v x => Sys2Proof.Machine.execSend h f v x s
  | .recv h f v x n => Sys2Proof.Machine.execRecv h f v x n s
  | .push h q hi p => Sys2Proof.Machine.execPush h q hi p s
  | .pop h q d p => Sys2Proof.Machine.execPop h q d p s
  | .popStall h q d n => Sys2Proof.Machine.execPopStall h q d n s
  | .rcap h d a => Sys2Proof.Machine.execRcap h d a s
  | .rput h a b => Sys2Proof.Machine.execRput h a b s
  | .radd h d a b => Sys2Proof.Machine.execRadd h d a b s
  | .rcas h d a b => Sys2Proof.Machine.execRcas h d a b s
  | .rmaxu h d a b => Sys2Proof.Machine.execRmaxu h d a b s
  | .ror h d a b => Sys2Proof.Machine.execRor h d a b s
  | .board h => Sys2Proof.Machine.execBoard h s
  | .alight h => Sys2Proof.Machine.execAlight h s
  | .alightFree h => Sys2Proof.Machine.execAlightFree h s
  | .aadd h d a b => Sys2Proof.Machine.execAadd h d a b s
  | .aincw h d a b => Sys2Proof.Machine.execAincw h d a b s
  | .afaab h d a b => Sys2Proof.Machine.execAfaab h d a b s
  | .acas h d a b => Sys2Proof.Machine.execAcas h d a b s
  | .axchg h d a b => Sys2Proof.Machine.execAxchg h d a b s
  | .amins h d a b => Sys2Proof.Machine.execAmins h d a b s
  | .amaxu h d a b => Sys2Proof.Machine.execAmaxu h d a b s
  | .aorb h d a b => Sys2Proof.Machine.execAorb h d a b s
  | .acq h k a b => Sys2Proof.Machine.execAcq h k a b s
  | .rel h b => Sys2Proof.Machine.execRel h b s
  | .bar h k a b => Sys2Proof.Machine.execBar h k a b s
  | .fence h k sc => Sys2Proof.Machine.execFence h k sc s
  | .trig h => Sys2Proof.Machine.execTrig h s
  | .step h k => Sys2Proof.Machine.execStep h k s
  | .crgo h a => Sys2Proof.Machine.execCrgo h a s
  | .crgc h => Sys2Proof.Machine.execCrgc h s
  | .cnop e => Sys2Proof.Machine.execCnop e s
  | .ltime h d => Sys2Proof.Machine.execLtime h d s
  | .seedr h d k => Sys2Proof.Machine.execSeedr h d k s
  | .gang h a b => Sys2Proof.Machine.execGang h a b s
  | .mcfg h a b f => Sys2Proof.Machine.execMcfg h a b f s
  | .mgo h => Sys2Proof.Machine.execMgo h s
  | .mgog h => Sys2Proof.Machine.execMgog h s
  | .mdrn h c => Sys2Proof.Machine.execMdrn h c s
  | .mclr h mask => Sys2Proof.Machine.execMclr h mask s
  | .mstat h d k => Sys2Proof.Machine.execMstat h d k s
  | .mldw h a w c => Sys2Proof.Machine.execMldw h a w c s
  | .mmirr h on => Sys2Proof.Machine.execMmirr h on s
  | .mstop h => Sys2Proof.Machine.execMstop h s
  | .mfmt h bind fb fa => Sys2Proof.Machine.execMfmt h bind fb fa s
  | .spup h a => Sys2Proof.Machine.execSpup h a s
  | .spdn h a => Sys2Proof.Machine.execSpdn h a s
  | .spld h a b => Sys2Proof.Machine.execSpld h a b s
  | .spst h a b => Sys2Proof.Machine.execSpst h a b s
  | .spscl h a n => Sys2Proof.Machine.execSpscl h a n s
  | .spmode h dx f => Sys2Proof.Machine.execSpmode h dx f s
  | .spclr h a => Sys2Proof.Machine.execSpclr h a s
  | .spstat h d k => Sys2Proof.Machine.execSpstat h d k s
  | .mli h d imm => Sys2Proof.Machine.execMli h d imm s
  | .mnop e => Sys2Proof.Machine.execMnop e s
  | .landingArrival k n buffered => Sys2Proof.Machine.execLandingArrival k n buffered s
  | .landingDue k => Sys2Proof.Machine.execLandingDue k s
  | .messageArrival k src chan => Sys2Proof.Machine.execMessageArrival k src chan s
  | .waitDueTick k => Sys2Proof.Machine.execWaitDueTick k s
  | .waitConditionMet k => Sys2Proof.Machine.execWaitConditionMet k s
  | .acqPassLimit k => Sys2Proof.Machine.execAcqPassLimit k s
  | .deadlock k => Sys2Proof.Machine.execDeadlock k s
  | .farStorePerform k n => Sys2Proof.Machine.execFarStorePerform k n s
  | .remoteAccessApply k n => Sys2Proof.Machine.execRemoteAccessApply k n s
  | .relIncrement k n => Sys2Proof.Machine.execRelIncrement k n s
  | .matrixOpBegin k => Sys2Proof.Machine.execMatrixOpBegin k s
  | .matrixStepStart k => Sys2Proof.Machine.execMatrixStepStart k s
  | .matrixStepRetire k => Sys2Proof.Machine.execMatrixStepRetire k s
  | .matrixStepReplay k => Sys2Proof.Machine.execMatrixStepReplay k s
  | .matrixStepComplete k => Sys2Proof.Machine.execMatrixStepComplete k s
  | .mdrnComplete k => Sys2Proof.Machine.execMdrnComplete k s
  | .mclrComplete k => Sys2Proof.Machine.execMclrComplete k s
  | .mldwComplete k => Sys2Proof.Machine.execMldwComplete k s
  | .cascadeReadStage k => Sys2Proof.Machine.execCascadeReadStage k s
  | .cascadeSubtreeWrite k => Sys2Proof.Machine.execCascadeSubtreeWrite k s
  | .cascadeRowMove k => Sys2Proof.Machine.execCascadeRowMove k s
  | .cascadeRowWrite k => Sys2Proof.Machine.execCascadeRowWrite k s
  | .rillPass l => Sys2Proof.Machine.execRillPass l s
  | .copyCommandComplete k q => Sys2Proof.Machine.execCopyCommandComplete k q s
  | .copyCompletionDue k => Sys2Proof.Machine.execCopyCompletionDue k s
  | .copyCommandStop k q => Sys2Proof.Machine.execCopyCommandStop k q s
  | .translationWalk pasid va kind agent => Sys2Proof.Machine.execTranslationWalk pasid va kind agent s
  | .pageRequestTimeout pasid req => Sys2Proof.Machine.execPageRequestTimeout pasid req s
  | .remotePathTimeout k n => Sys2Proof.Machine.execRemotePathTimeout k n s
  | .invalidationComplete pasid => Sys2Proof.Machine.execInvalidationComplete pasid s
  | .teardownComplete pasid => Sys2Proof.Machine.execTeardownComplete pasid s
  | .contextSaveComplete pasid => Sys2Proof.Machine.execContextSaveComplete pasid s
  | .queuePoll q => Sys2Proof.Machine.execQueuePoll q s
  | .timetable q n => Sys2Proof.Machine.execTimetable q n s
  | .timetableIndirect q n => Sys2Proof.Machine.execTimetableIndirect q n s
  | .wait q n => Sys2Proof.Machine.execWait q n s
  | .signal q n => Sys2Proof.Machine.execSignal q n s
  | .copy q n => Sys2Proof.Machine.execCopy q n s
  | .seedPush q n => Sys2Proof.Machine.execSeedPush q n s
  | .seedPop q n => Sys2Proof.Machine.execSeedPop q n s
  | .seedFork q n => Sys2Proof.Machine.execSeedFork q n s
  | .checkpointPolicy q n => Sys2Proof.Machine.execCheckpointPolicy q n s
  | .barrierAnd q n => Sys2Proof.Machine.execBarrierAnd q n s
  | .nop q n => Sys2Proof.Machine.execNop q n s
  | .launchArm l => Sys2Proof.Machine.execLaunchArm l s
  | .launchStart l => Sys2Proof.Machine.execLaunchStart l s
  | .tileStart k => Sys2Proof.Machine.execTileStart k s
  | .launchTrigger l => Sys2Proof.Machine.execLaunchTrigger l s
  | .launchRetire l => Sys2Proof.Machine.execLaunchRetire l s
  | .queueRestart q => Sys2Proof.Machine.execQueueRestart q s
  | .queueDestroy q => Sys2Proof.Machine.execQueueDestroy q s
  | .queueDestroyed q => Sys2Proof.Machine.execQueueDestroyed q s
  | .queueParkTimeout q => Sys2Proof.Machine.execQueueParkTimeout q s
  | .watchdogRestart core => Sys2Proof.Machine.execWatchdogRestart core s
  | .fatalError code unit => Sys2Proof.Machine.execFatalError code unit s
  | .collectiveTableWrite k n => Sys2Proof.Machine.execCollectiveTableWrite k n s
  | .collectiveReadyWrite k n => Sys2Proof.Machine.execCollectiveReadyWrite k n s
  | .collectiveRoundFire l n => Sys2Proof.Machine.execCollectiveRoundFire l n s
  | .collectiveRoundComplete l n => Sys2Proof.Machine.execCollectiveRoundComplete l n s
  | .checkpointTimer pasid => Sys2Proof.Machine.execCheckpointTimer pasid s
  | .checkpointShardTake l => Sys2Proof.Machine.execCheckpointShardTake l s
  | .checkpointShardTaken l => Sys2Proof.Machine.execCheckpointShardTaken l s
  | .scrub place uncor => Sys2Proof.Machine.execScrub place uncor s
  | .dutyUpdate => Sys2Proof.Machine.execDutyUpdate s
  | .thermalTrip => Sys2Proof.Machine.execThermalTrip s
  | .powerGood => Sys2Proof.Machine.execPowerGood s
  | .powerOff => Sys2Proof.Machine.execPowerOff s
  | .managementConnect key challenge sig => Sys2Proof.Machine.execManagementConnect key challenge sig s
  | .registerQueue h pasid va => Sys2Proof.Machine.execRegisterQueue h pasid va s
  | .unregisterQueue h q => Sys2Proof.Machine.execUnregisterQueue h q s
  | .invalidateTranslations h pasid range => Sys2Proof.Machine.execInvalidateTranslations h pasid range s
  | .answerPageRequest h pasid req resolved => Sys2Proof.Machine.execAnswerPageRequest h pasid req resolved s
  | .createContext h block => Sys2Proof.Machine.execCreateContext h block s
  | .teardownContext h pasid => Sys2Proof.Machine.execTeardownContext h pasid s
  | .preemptContext h pasid => Sys2Proof.Machine.execPreemptContext h pasid s
  | .restoreContext h pasid part => Sys2Proof.Machine.execRestoreContext h pasid part s
  | .readLaunchRecord h pasid seq => Sys2Proof.Machine.execReadLaunchRecord h pasid seq s
  | .readIdentityKey h => Sys2Proof.Machine.execReadIdentityKey h s
  | .setCheckpointConfig h pasid c => Sys2Proof.Machine.execSetCheckpointConfig h pasid c s
  | .restoreCheckpoint h pasid slot key => Sys2Proof.Machine.execRestoreCheckpoint h pasid slot key s
  | .readLatestShard h pasid => Sys2Proof.Machine.execReadLatestShard h pasid s
  | .readSoftErrorBlock h t => Sys2Proof.Machine.execReadSoftErrorBlock h t s
  | .clearSoftErrorBlock h t => Sys2Proof.Machine.execClearSoftErrorBlock h t s
  | .writeFieldRepair h t => Sys2Proof.Machine.execWriteFieldRepair h t s
  | .readRemap h die => Sys2Proof.Machine.execReadRemap h die s
  | .readCistern h off len => Sys2Proof.Machine.execReadCistern h off len s
  | .setPowerCap h watts => Sys2Proof.Machine.execSetPowerCap h watts s
  | .readTelemetry h => Sys2Proof.Machine.execReadTelemetry h s
  | .setModulePosition h pos parts => Sys2Proof.Machine.execSetModulePosition h pos parts s
  | .stageFirmware h version image sig => Sys2Proof.Machine.execStageFirmware h version image sig s
  | .resetModule h => Sys2Proof.Machine.execResetModule h s
  | .ualinkRemoteRequest r => Sys2Proof.Machine.execUalinkRemoteRequest r s
  | .frontEndCoreRestarted core => Sys2Proof.Machine.execFrontEndCoreRestarted core s
  | .signalConditionMet q n => Sys2Proof.Machine.execSignalConditionMet q n s

end Sys2Proof.Machine
end

