-- ==== Sys2Proof/Machine/Reads.lean ====
section
/-! DEFINITION. The registers that a syllable reads, so that an uncorrectable error in one of them is met where it is consumed (R136,
R380). -/

namespace Sys2Proof.Machine

/-- A register of a slot's own file (R65). -/
def Slot.own (k : Slot) (n : Nat) : RegName :=
  match k with
  | .s => .s n
  | .va => .v .va n
  | .vb => .v .vb n
  | .m => .m n
  | .ca => .x .xa n
  | .cb => .x .xb n

/-- What a source code reads: a register of one slot's file; latches are taken with the results (Input.strike). -/
def Slot.source (k : Slot) : Src → List RegName
  | .reg n => [k.own n]
  | .latch _ => []

def mSource : MSrc → Src
  | .reg n => .reg n
  | .latch n => .latch n

/-- An octet of a copy file (R64). -/
def Slot.octet (k : Slot) (upper : Bool) : List RegName := (List.range 8).map fun i => k.own (octetBase upper + i)

def Slot.dest (k : Slot) : Dest → List RegName
  | .reg n => [k.own n]
  | .suppressed => []

/-- A destination whose guarded-off lanes or bits keep what they hold (R69, log entry 64). -/
def keptBy (h : Hdr) (rs : List RegName) : List RegName := if h.g = 0 then [] else rs

/-- The registers a syllable in a slot reads, its guard first. -/
def readsOf (k : Slot) : Instr → List RegName
  | .add h _ a b | .sub h _ a b | .and h _ a b | .or h _ a b | .xor h _ a b | .shl h _ a b | .shr h _ a b | .sra h _ a b | .mul h
    _ a b | .mulh h _ a b | .mulhu h _ a b | .div h _ a b | .divu h _ a b | .rem h _ a b | .remu h _ a b | .min h _ a b | .max h _
    a b | .minu h _ a b | .maxu h _ a b | .rotl h _ a b | .cmpeq h _ a b | .cmpne h _ a b | .cmplt h _ a b | .cmpltu h _ a b |
    .cmple h _ a b | .cmpleu h _ a b | .cmptst h _ a b | .sel h _ a b | .loopr h _ a b | .radd h _ a b | .rmaxu h _ a b | .ror h _
    a b | .aadd h _ a b | .aincw h _ a b | .axchg h _ a b | .amins h _ a b | .amaxu h _ a b | .aorb h _ a b | .bar h _ a b | .gang
    h a b => .p h.g :: k.source a ++ k.source b
  | .clz h _ a | .popc h _ a | .ctz h _ a | .bswap h _ a | .addi h _ a _ | .andi h _ a _ | .ori h _ a _ | .xori h _ a _ | .shli h
    _ a _ | .shri h _ a _ | .srai h _ a _ | .rotli h _ a _ | .movtp h _ a | .jmpr h a | .callr h a | .trap h a | .waitt h a |
    .loop h _ a _ | .sld h _ a _ _ _ | .vfmts h a | .cld h _ _ a _ | .xcpxs h _ a | .xcpxm h _ a | .fld h _ a _ | .fldv h _ _ a _
    | .rcap h _ a | .acq h _ a _ | .crgo h a => .p h.g :: k.source a
  | .lis h _ _ | .pset h _ | .pclr h _ | .csrr h _ _ | .br h _ | .call h _ | .tret h | .tfence h | .exit h | .vfmt h _ _ | .pop h
    _ _ _ | .popStall h _ _ _ | .board h | .alight h | .alightFree h | .rel h _ | .fence h _ _ | .trig h | .step h _ | .crgc h |
    .ltime h _ | .seedr h _ _ | .mgo h | .mgog h | .mdrn h _ | .mclr h _ | .mstat h _ _ | .mmirr h _ | .mstop h | .mfmt h _ _ _ |
    .spmode h _ _ | .spstat h _ _ | .mli h _ _ => .p h.g :: []
  | .ins1 h d _ | .ins2 h d _ | .ins3 h d _ | .csrw h d _ | .csrs h d _ | .csrc h d _ => .p h.g :: [.s d]
  | .pand h _ a b | .por h _ a b | .pxor h _ a b | .pandn h _ a b => .p h.g :: [.p a, .p b]
  | .pnot h _ a | .pmov h _ a | .movp h _ a => .p h.g :: [.p a]
  | .sst h d a _ _ => .p h.g :: k.source a ++ [.s d]
  | .vadd h d a b | .vsub h d a b | .vmul h d a b | .vmin h d a b | .vmax h d a b | .vcps h d a b | .vscale h d a b | .vminnum h d
    a b | .viadd h d a b | .visub h d a b | .vimul h d a b | .vimulh h d a b | .vimin h d a b | .vimax h d a b | .viminu h d a b |
    .vimaxu h d a b | .viadds h d a b | .viaddsu h d a b | .visubs h d a b | .visubsu h d a b | .viavg h d a b | .viavgu h d a b |
    .vand h d a b | .vor h d a b | .vxor h d a b | .vandn h d a b | .vshl h d a b | .vshr h d a b | .vsra h d a b | .vperm h d a b
    | .vzip h d a b | .vunzip h d a b | .vrot h d a b | .vsel h d a b | .vsplat h d a b => .p h.g :: k.source a ++ k.source b ++
    keptBy h (k.dest d)
  | .vabs h d a | .vneg h d a | .vexp2 h d a | .vlog2 h d a | .vrint h d a | .vrintz h d a | .vclass h d a | .vgetexp h d a |
    .viabs h d a | .vineg h d a | .vnot h d a | .vcvt h d a _ _ _ | .vrev h d a | .vrng h d a => .p h.g :: k.source a ++ keptBy h
    (k.dest d)
  | .vfma h d a b | .vfms h d a b | .vfnma h d a b | .vfnms h d a b | .vdot4s h d a b | .vdot4u h d a b | .vdot2bf h d a b |
    .vdot2h h d a b => .p h.g :: k.source a ++ k.source b ++ [k.own d]
  | .vdiv h d a b => .p h.g :: k.source a ++ k.source b ++ keptBy h [k.own d]
  | .vsqrt h d a | .vrcp h d a | .vrsq h d a => .p h.g :: k.source a ++ keptBy h [k.own d]
  | .vfceq h d a b | .vfcne h d a b | .vfclt h d a b | .vfcle h d a b | .vfcgt h d a b | .vfcge h d a b | .vfcunord h d a b |
    .vfcord h d a b | .viceq h d a b | .vicne h d a b | .viclt h d a b | .vicltu h d a b | .vicle h d a b | .vicleu h d a b |
    .victst h d a b => .p h.g :: k.source a ++ k.source b ++ keptBy h [.p d]
  | .vcmprs h d a b | .vexpnd h d a b | .vrsum h d a b | .vrmax h d a b | .vrmin h d a b | .vrisum h d a b | .vscan h d a b |
    .vrand h d a b | .vror h d a b | .vrxor h d a b => .p h.g :: k.source a ++ keptBy h (k.dest d) ++ [.p b]
  | .vspli h d _ => .p h.g :: keptBy h [k.own d]
  | .viota h d => .p h.g :: keptBy h (k.dest d)
  | .vmovp h d a | .vpopc h d a => .p h.g :: keptBy h (k.dest d) ++ [.p a]
  | .cst h f d a _ | .fstv h f d a => .p h.g :: k.source a ++ [.v f d]
  | .cgath h f _ a _ x => .p h.g :: k.source a ++ [.v f x]
  | .cscat h f d a _ x => .p h.g :: k.source a ++ [.v f d, .v f x]
  | .xcpsx h _ a => .p h.g :: Slot.source .s a
  | .xcpmx h _ a => .p h.g :: [.m a]
  | .xcpvax h _ a _ => .p h.g :: [.v .va a]
  | .xcpvbx h _ a _ => .p h.g :: [.v .vb a]
  | .xcpxva h d a _ => .p h.g :: k.source a ++ (Dest.num d).toList.map (RegName.v .va)
  | .xcpxvb h d a _ => .p h.g :: k.source a ++ (Dest.num d).toList.map (RegName.v .vb)
  | .fst h d a => .p h.g :: k.source a ++ [k.own d]
  | .send h f v x => .p h.g :: [.v f v, k.own x]
  | .recv h _ _ x _ => .p h.g :: [k.own x]
  | .push h _ hi _ => .p h.g :: k.octet hi
  | .rput h a b => .p h.g :: k.source a ++ k.octet b
  | .rcas h _ a b | .afaab h _ a b | .acas h _ a b => .p h.g :: k.source a ++ [k.own b, k.own (b + 1)]
  | .mcfg h a b _ | .spld h a b | .spst h a b => .p h.g :: Slot.source .m (mSource a) ++ Slot.source .m (mSource b)
  | .mldw h a _ _ | .spup h a | .spdn h a | .spscl h a _ | .spclr h a => .p h.g :: Slot.source .m (mSource a)
  | _ => []

/-- The 8-byte granule of a vector register that a syllable reads alone: the lane of an XCP (R74). -/
def laneOf : Instr → Option Nat
  | .xcpvax _ _ _ l => some l
  | .xcpvbx _ _ _ l => some l
  | _ => none

/-- Whether the reading of some registers meets a granule that an error has struck (R380). -/
def Regs.struck (r : Regs) (rs : List RegName) (lane : Option Nat) : Bool :=
  r.bad.any fun b => rs.contains b.1 && (match b.1, lane with
    | .v _ _, some l => b.2 == l
    | _, _ => true)

/-- Whether a syllable consumes a register that an error has struck: one that its guard turns off reads its guard alone (R69, R136). -/
def Tile.consumes (t : Tile) (k : Slot) (i : Instr) : Bool :=
  let rs := readsOf k i
  let off := (k == .s || k == .m || k == .ca || k == .cb) && (rs.head?.map fun g => match g with
    | .p n => !bit (t.pred n) 0
    | _ => false).getD false
  t.regs.struck (match i with
    | .sel _ _ _ _ => rs
    | _ => if off then rs.take 1 else rs) (laneOf i)

/-- ECCUE at the consumption of a word of the tile's own storage (R136, R380): the spec states no TRAPINFO for it, which is a free value
of the tile's id and tick (log entry 64). -/
def struckTrap (t : Tile) (pos : Nat) : Trap := infoTrap .eccue pos (Config.freeWord (t.key.id * 2 ^ 64 + t.tick))

/-- Whether the words of a bundle lie in a granule of instruction memory that an error has struck (R380). -/
def Tile.imemStruck (t : Tile) (a n : Nat) : Bool := t.imemBad.any fun g => decide (g * 8 < a + 4 * n) && decide (a < g * 8 + 8)

end Sys2Proof.Machine
end

