-- ==== Sys2Proof/Machine/Issue.lean ====
section
/-! DEFINITION. Issuing a bundle (R71, R75, R97, R100, R101, R267, R271, R293): the checks of its syllables in order, their
effects, and the stream of a gang. -/

namespace Sys2Proof.Machine

/-! Encoding faults (R75). -/

/-- What is wrong with a syllable word (R75): no place although its major has a class, or an illegal encoding. -/
def wordFault (pos w : Nat) (slot : Option Slot) : Option Trap :=
  match slot with
  | none => some (illegalTrap pos (if (classOf (fld w 25 6)).isSome then .classOrder else .badMajor))
  | some _ =>
    match decodeWord w with
    | .illegal r => some (illegalTrap pos r)
    | .ok _ => none

/-- A vector word whose faulty fields stand aside: D, A and B, as few of them as let it decode. -/
def repairedWord (w : Nat) : Option Instr :=
  let d (x : Nat) : Nat := putField x 15 6 1
  let a (x : Nat) : Nat := putField x 9 6 0
  let b (x : Nat) : Nat := putField x 3 6 0
  [a w, b w, d w, a (b w), a (d w), b (d w), a (b (d w))].findSome? fun x => match decodeWord x with
    | .ok i => some i
    | .illegal _ => none

/-- The format of a vector word that has an encoding fault of a higher reason is looked at too, since the lowest reason met is the one
reported (R75, R105, R123). -/
def State.formatFault (s : State) (pos w : Nat) (slot : Option Slot) : Option Trap :=
  match slot, decodeWord w with
  | some k, .illegal r =>
    if 4 < r.code ∧ classOf (fld w 25 6) = some 1 then
      (match (repairedWord w).map fun i => exec i { s with tile := { s.tile with iss := { s.tile.iss with slot := k, pos := pos } } } with
        | some (.next s1) => s1.tile.iss.trap.filter fun tr => tr.cause == Cause.illegal && tr.reason == 4
        | _ => none)
    else none
  | _, _ => none

/-- Encoding faults of a bundle (R75): those of its syllables, and an end that is missing. -/
def bundleFaults (ws : List Nat) : List Trap :=
  (numbered ws).filterMap (fun x => wordFault x.1 x.2.1 x.2.2) ++
    (if ws.any fun w => fld w 31 1 == 1 then [] else [illegalTrap (min 5 ws.length) .noEnd])

/-- Formats that the words of a bundle with another encoding fault may not have. -/
def State.formatFaults (s : State) (ws : List Nat) : List Trap := (numbered ws).filterMap fun x => s.formatFault x.1 x.2.1 x.2.2

/-! Effects of syllables. -/

/-- Syllables that make a bundle a stop point (R101). -/
def isStopPoint : Instr → Bool
  | .br _ _ | .call _ _ | .jmpr _ _ | .callr _ _ | .loop _ _ _ _ | .loopr _ _ _ _ => true
  | _ => false

/-- Syllables whose hold comes before every trap of the bundle but ILLEGAL and PRIV: those that R293 names, and BOARD, whose bundle is not
issued before RT has come (R232). -/
def isSettled : Instr → Bool
  | .board _ | .rel _ _ | .fence _ _ _ | .bar _ _ _ _ | .trig _ | .tfence _ | .exit _ => true
  | _ => false

/-- What the syllables of a bundle have come to so far: the state, the traps raised, whether R293 holds the bundle,
and another hold. -/
structure Issued where
  s : State
  traps : List Trap
  settled : Option (FreezeCause × Nat)
  held : Option (FreezeCause × Nat)

/-- A transfer to no bundle start that a control syllable has left pending (R63, R75). -/
def lateIllegal (before after : Tile) : List Trap :=
  (after.inflight.filter fun p => decide (before.seq ≤ p.seq)).filterMap fun p => match p.eff with
    | .fault tr => if tr.cause = .illegal then some tr else none
    | _ => none

/-- A syllable that consumes a struck register raises ECCUE (R136, R380). -/
def Issued.struck (p : Issued) (y : Syl) : Issued :=
  if p.s.tile.consumes y.slot y.instr then { p with traps := p.traps ++ [struckTrap p.s.tile y.pos] } else p

/-- One more syllable acts, on the tile in focus. -/
def Issued.act (q : Issued) (addr next : Nat) (follow : Option Bool) (y : Syl) : Issued :=
  let p := q.struck y
  let t := p.s.tile
  let s0 : State := { p.s with tile := { t with iss := ⟨y.slot, y.pos, addr, next, follow, t.iss.taken, t.iss.record, none, none, t.iss.edge, t.iss.lost, t.iss.back⟩ } }
  match exec y.instr s0 with
  | .next s1 =>
    match s1.tile.iss.trap, s1.tile.iss.held with
    | some tr, _ => { p with traps := p.traps ++ [tr] }
    | none, some h =>
      if isSettled y.instr then { p with settled := some h } else { p with held := some (p.held.getD h) }
    | none, none =>
      { p with s := s1, traps := p.traps ++ (if isControl y.instr && !p.traps.isEmpty then lateIllegal t s1.tile else []) }
  | _ => p

/-- The order in which traps of one bundle are reported (R75, R293): ILLEGAL by reason, PRIV, GUARD, faults of recorded stores,
the others by position. -/
def Trap.order (tr : Trap) : Nat :=
  (match tr.cause with
    | .illegal => tr.reason
    | .priv => 20
    | .guard => 21
    | _ => if tr.recorded then 22 else 23) * 8 + tr.pos % 8

/-- The trap that is reported. -/
def worst (ts : List Trap) : Option Trap := (sortBy Trap.order ts).head?

/-- What a bundle comes to. -/
inductive Verdict where
  | done (s : State)
  | trap (t : Trap)
  | hold (c : FreezeCause) (tile : Nat)

/-- The judgement on a bundle (R75, R293): ILLEGAL and PRIV, the hold of R293, the other traps, the other holds. -/
def Issued.verdict (p : Issued) (encoding : List Trap) : Verdict :=
  match worst (p.traps ++ encoding), p.settled, p.held with
  | some tr, none, _ => .trap tr
  | some tr, some h, _ => if tr.order < 21 * 8 then .trap tr else .hold h.1 h.2
  | none, some h, _ => .hold h.1 h.2
  | none, none, some h => .hold h.1 h.2
  | none, none, none => .done p.s

/-- The syllables of a bundle act on the tile in focus; a bundle without a control syllable goes on as the loop unit decides
(R100), and a gang member as its stream does (R97). -/
def State.runBundle (s : State) (addr : Nat) (ws : List Nat) (follow : Option Bool) : Verdict :=
  let next := addr + 4 * ws.length
  let ys := sylsOf ws
  let t := s.tile
  let s0 : State := { s with tile := { t with iss := ⟨.s, 0, addr, next, follow, false, t.spad.touched, none, none, false, false, none⟩ } }
  match (ys.foldl (fun (p : Issued) y => p.act addr next follow y) ⟨s0, [], none, none⟩).verdict (bundleFaults ws ++ s0.formatFaults ws) with
  | .done s1 =>
    if follow.isSome || ys.any (fun y => isControl y.instr) then .done s1
    else .done { s1 with tile := ({ s1.tile with iss := { s1.tile.iss with addr := addr, next := next } }).advance }
  | v => v

/-! The stream of a gang (R267). -/

/-- Keep the bundles that a member has still to issue, and those in whose waits one is: a fault of such a wait issues its bundle again
(R297). -/
def State.prune (s : State) (k : TileKey) : State :=
  match s.tile? k with
  | none => s
  | some l =>
    if l.gang.stream.isEmpty then s
    else
      let ms := s.tiles.filter fun u => u.key.pasid == k.pasid && u.launch == l.launch && u.phase.live &&
        u.gang.first == k.id && decide (1 < u.gang.size) && u.pos != 0
      let low := ms.foldl (fun n u => min n (if u.waits.isEmpty then u.gang.next else u.gang.next - 1)) l.gang.count
      s.onKey k fun t => { t with gang := { t.gang with stream := t.gang.stream.filter fun i => decide (low ≤ i.num) } }

/-- A lead broadcasts its bundle before it acts, with the loop unit that the bundle sees (R60, R97). -/
def Tile.broadcast (t : Tile) (b : Due) : Tile :=
  if t.gang.size ≤ 1 then t
  else { t with gang := { t.gang with
    stream := t.gang.stream ++ [⟨t.gang.count, t.tick, b.addr, b.words, false, b.addr, none, t.loops⟩], count := t.gang.count + 1 } }

/-- What the lead decided, written into its bundle (R97). -/
def Tile.decided (t : Tile) (num : Nat) : Tile :=
  { t with gang := { t.gang with stream := t.gang.stream.map fun i =>
      if i.num = num then { i with taken := t.iss.taken, link := t.pc, back := t.iss.back } else i } }

/-- Whether a bundle holds a TRET. -/
def returns (ws : List Nat) : Bool :=
  (sylsOf ws).any fun y => match y.instr with
    | .tret _ => true
    | _ => false

/-- A member goes on to the next bundle of the stream, after a TRET that its lead took to the one that it held (R271). -/
def Tile.followed (t : Tile) (i : StreamItem) : Tile :=
  let u := { t with pc := i.link, gang := { t.gang with next := i.num + 1, seek := none } }
  if i.taken && returns i.words then u.rejoin i.back else u

/-- Issue the bundle due on the tile in focus. The loop unit that a member sees (R60, R97) is the lead's as it issued that bundle, carried
with the stream as its decision is: nothing that stops the lead alone, as a pre-emption may, changes it (R360; log entry 31). -/
def State.issue (s : State) (b : Due) : Verdict :=
  match b.item with
  | none =>
    let t := s.tile
    if t.imemStruck b.addr b.words.length then .trap (struckTrap t 0)
    else match State.runBundle { s with tile := t.broadcast b } b.addr b.words none with
    | .done s1 =>
      .done (if t.gang.size ≤ 1 then s1 else { s1 with tile := s1.tile.decided t.gang.count })
    | v => v
  | some i =>
    let t := s.tile
    match State.runBundle { s with tile := { t with loops := i.loops } } b.addr b.words (some i.taken) with
    | .done s1 => .done ({ s1 with tile := s1.tile.followed i }.prune ⟨t.key.pasid, t.gang.first⟩)
    | v => v

/-- Whether the bundle that a tile in no gang, or a lead, has issued is a stop point (R101): it holds a transfer or a loop, or took a
back edge; one whose transfer traps is none (R342). -/
def Tile.stopsAt (t : Tile) (b : Due) : Bool :=
  b.item.isNone && !t.iss.lost && ((sylsOf b.words).any (fun y => isStopPoint y.instr) || t.iss.edge)

end Sys2Proof.Machine
end

