-- ==== Sys2Proof/Machine/Turn.lean ====
section
/-! DEFINITION. The schedule (R17 to R30, R101, R227, R231, R241, R245, R294): one tick of a timed domain as a trial that is kept or
discarded whole, the domains of a cycle, what the start of a cycle brings, the untimed events that can happen between
two turns, and what the outside world does. -/

namespace Sys2Proof.Machine

/-! One tick of the tiles of a domain. -/

/-- The issue of the tiles so far: the state now, the traps raised, a hold, the tiles at a stop point (R101, R294). -/
structure Issuing where
  s : State
  traps : List (TileKey × Trap × Option Nat)
  held : Option (FreezeCause × Nat)
  points : List TileKey

/-- One more tile issues its bundle, or an empty one (R17). -/
def Issuing.tile (p : Issuing) (k : TileKey) : Issuing :=
  match p.s.tile? k with
  | none => p
  | some t =>
    if t.phase ≠ .running then p
    else if !t.waits.isEmpty then { p with points := k :: p.points }
    else
      match p.s.bundleOf t with
      | none => p
      | some b =>
        match (p.s.focus k).issue b with
        | .done s1 => { p with s := s1, points := if s1.tile.stopsAt b then k :: p.points else p.points }
        | .trap tr => { p with traps := p.traps ++ [(k, tr, none)] }
        | .hold c who => { p with held := some (p.held.getD (c, who)) }

/-- What a tick comes to: it happens, with the tiles at a stop point, or the domain is held and nothing of it does. -/
inductive Trial where
  | go (s : State) (points : List TileKey)
  | held (c : FreezeCause) (tile : Nat) (recv : Bool)

/-- Issue on every tile; traps are entered and the gangs concerned issue again, their handlers' first bundles, at the same
tick (R271, R305). -/
def State.issueAll : Nat → List TileKey → State → Trial
  | 0, _, s => .go s []
  | n + 1, ks, s =>
    let p := ks.foldl Issuing.tile ⟨s, [], none, []⟩
    match p.held with
    | some h => .held h.1 h.2 (h.1 == FreezeCause.skid)
    | none =>
      if p.traps.isEmpty then .go p.s p.points else State.issueAll n ks (State.raise .every p.traps.length p.traps s)

/-- The begins and step starts of the engines of these tiles (R171, R175), or the tile whose engine awaits one. -/
def State.readAll : List TileKey → State → State ⊕ Nat
  | [], s => .inl s
  | k :: ks, s =>
    match s.tile? k with
    | some t =>
      if t.phase = .running then
        match t.mxReads with
        | some u => State.readAll ks (s.setTile u)
        | none => .inr k.id
      else State.readAll ks s
    | none => State.readAll ks s

/-- The first of these tiles with a property, by what it gives. -/
def State.firstOf {α : Type} (s : State) (ks : List TileKey) (f : Tile → Option α) : Option (Nat × α) :=
  ks.findSome? fun k => (s.tile? k).bind fun t => (f t).map fun x => (k.id, x)

/-- The waits of a tick (R292): those that are met end, an unmet one holds the domain. -/
def State.settleWaits (s : State) (ks : List TileKey) : State × Option Nat :=
  match s.firstOf ks fun t => if t.phase = .running && s.waitHeld t then some () else none with
  | some h => (s, some h.1)
  | none =>
    (ks.foldl (fun (x : State) k =>
      match x.tile? k with
      | some t => if !t.waits.isEmpty && x.waitsOver t then x.endWaits k else x
      | none => x) s, none)

/-- Whether a RECV is among the landings that hold these tiles (R30). -/
def State.recvLate (s : State) (ks : List TileKey) : Bool :=
  ks.any fun k => ((s.tile? k).map fun t => t.completeCopies.landingHold == some true).getD false

/-- Everything that falls due on the tiles of a domain before their bundles issue (R21, R22, R23, R292): the state in which they
issue, or why the domain is held, at which tile, and whether on a RECV. Where several causes hold one domain at once, R29 does not
say which one a DEADLOCK's `TRAPINFO` names: the model names a landing before a wait before a Basin or skid entry, and the tile of the
lowest id among those of that cause (DESIGN CHOICE, log entry 32). -/
def State.fallDue (s : State) (ks : List TileKey) : State ⊕ (FreezeCause × Nat × Bool) :=
  let s1 := (s.onKeys ks Tile.prepare).checkSteps ks
  match s1.firstOf ks Tile.lateHold with
  | some (id, c, _) => .inr (c, id, s1.recvLate ks)
  | none =>
    let s2 := s1.deliverDue ks
    let late := ks.filter fun k => ((s2.tile? k).map Tile.passLimit).getD false
    let s3 := State.raise .every late.length (late.map fun k => (k, deadlockTrap .wait k.id, none)) s2
    match s3.readAll ks with
    | .inr id => .inr (.landing, id, false)
    | .inl s4 =>
      match (s4.regroup ks).settleWaits ks with
      | (_, some id) => .inr (.wait, id, false)
      | (s5, none) => .inl s5

/-- One tick of the tiles of a domain that are at its lowest tick (R17, R21). -/
def State.trial (s : State) (ks : List TileKey) : Trial :=
  match s.fallDue ks with
  | .inr (c, id, recv) => .held c id recv
  | .inl s1 => State.issueAll (8 * ks.length + 8) ks s1

/-- The end of a tick on a tile (R17): the Cascade's reads, the next tick. -/
def Tile.finish (t : Tile) : Tile :=
  match t.phase with
  | .running => { t.cascadeReads with tick := t.tick + 1, freeze := none, iss := Issue.idle }
  | .retired => { t with tick := t.tick + 1, freeze := none, iss := Issue.idle }
  | _ => t

/-- A stop of a tile in no gang, or of a lead, after the bundle of a tick (R101, R245, R294). -/
def Tile.stopAfter (t : Tile) (point : Bool) (tick : Nat) : Tile :=
  if t.csrs.stopflag ≠ 0 ∧ t.phase = .running ∧ (t.gang.size ≤ 1 ∨ t.pos = 0) ∧
      (if t.berth = .free then point else decide (tick % 1024 = 0)) then
    { t with phase := .stopped, stopAt := some tick }
  else t

/-- A member stops after the bundle after which its lead stopped (R101). -/
def State.stopMember (s : State) (k : TileKey) (tick : Nat) : State :=
  match s.tile? k with
  | none => s
  | some t =>
    if t.csrs.stopflag ≠ 0 ∧ t.phase = .running ∧ 1 < t.gang.size ∧ t.pos ≠ 0 ∧
        ((s.leadTile t).bind fun l => l.stopAt) = some (tick - t.pos) ∧ t.pos ≤ tick then
      s.setTile { t with phase := .stopped }
    else s

/-- The tick ends on these tiles. -/
def State.finish (s : State) (ks points : List TileKey) (tick : Nat) : State :=
  let s1 := s.onKeys ks fun t => t.finish.stopAfter (points.contains t.key) tick
  ks.foldl (fun (x : State) k => x.stopMember k tick) s1

/-- The tick at which the tiles of a domain are (R20). The members of a gang are at one tick in every cycle (R267) but after a restore
from a stop point, where R101 has left member j's counter j ticks ahead of the lead's: those behind come up first, as they
would with the others not yet resumed (log entry 27). -/
def State.lowTick (s : State) (ks : List TileKey) : Nat :=
  let ts := ks.filterMap fun k => (s.tile? k).map fun t => t.tick
  ts.foldl min (ts.headD 0)

/-- The tiles of a domain that advance now. -/
def State.lowest (s : State) (ks : List TileKey) : List TileKey :=
  ks.filter fun k => ((s.tile? k).map fun t => t.tick == s.lowTick ks).getD false

/-- The freeze of a domain ends, on each of its tiles, as the domain advances: its timer stops (R29). -/
def State.thaw (s : State) (ks : List TileKey) : State := s.onKeys ks fun t => { t with freeze := none }

/-- A turn of a domain that moves no Rill. -/
def State.plainTurn (s : State) (ks : List TileKey) (rill : Option LaunchKey) : State :=
  let now := s.lowest ks
  match s.trial now with
  | .go s1 points => (s1.finish now points (s.lowTick ks)).thaw ks
  | .held c id recv => s.freezeDomain ks rill c id recv

/-- The Rill's ring tick ends (R227, R245): it stops after a ring stop tick when its context is being pre-empted. -/
def State.ringStep (s : State) (k : LaunchKey) : State :=
  match s.launch? k with
  | none => s
  | some l =>
    let s1 := s.ringPass l
    let stop := (((s.ctx? k.pasid).map fun c => c.preempt.isSome).getD false) && l.rt % 1024 == 0
    match s1.launch? k with
    | some m => s1.setLaunch { m with rt := m.rt + 1, stopped := m.stopped || stop }
    | none => s1

/-- The coupled parts of some tiles. -/
def parts (joins : List TileKey) (all : List Tile) : Nat → List Tile → List (List Tile)
  | 0, _ => []
  | _, [] => []
  | n + 1, t :: rest =>
    let c := closure joins all all.length [t]
    c :: parts joins all n (rest.filter fun u => !c.any fun v => v.key == u.key)

/-- The parts of the Rill's domain that join it in this cycle, if their BOARD issues: until then they are berthed, each a domain of its
own (R19, R232). -/
def State.joining (s : State) (ks : List TileKey) : List (List TileKey) :=
  let ts := ks.filterMap s.tile?
  ((parts [] ts ts.length ts).filter fun c => !c.any fun t => t.berth == Berth.boarded).map fun c => c.map fun t => t.key

/-- The tiles of the Rill's domain without those that have still to join it. -/
def State.joined (s : State) (ks : List TileKey) : List TileKey := ks.filter fun x => !(s.joining ks).any fun p => p.contains x

/-- The tiles whose BOARD is held stay behind, each part in a freeze of its own with its own timer (R29): on what holds its own bundle, or
on RT, which does not reach its tick (R232). -/
def State.holdJoining (s : State) (now : List TileKey) (js : List (List TileKey)) : State :=
  js.foldl (fun (x : State) p =>
    match s.trial (now.filter p.contains) with
    | .held c id recv => x.freezeDomain p none c id recv
    | .go _ _ => x.freezeDomain p none .wait ((p.head?.map fun k => k.id).getD 0) false) s

/-- The first tile that holds its part of those that are to join. -/
def State.joinHold (s : State) (now : List TileKey) (js : List (List TileKey)) : Option Nat :=
  js.findSome? fun p => match s.trial (now.filter p.contains) with
    | .held _ id _ => some id
    | .go _ _ => none

/-- A turn of the Rill's domain (R227, R231, R241, R245): it waits for a berthed tile, one whose BOARD is due among them (R242), and for
the writes that a REL passing now covers (R283). -/
def State.rillTurn (s : State) (k : LaunchKey) (ks : List TileKey) : State :=
  match s.launch? k with
  | none => s
  | some l =>
    let js := s.joining ks
    let on := s.joined ks
    if l.stage ≠ .started then s
    else if l.stopped || (!on.isEmpty && decide (s.lowTick on < l.rt)) then (s.holdJoining [] js).plainTurn on (some k)
    else
      let now := if s.lowTick ks = l.rt then s.lowest ks else []
      match ((s.berthHold l ks).orElse fun _ => s.relHold l).orElse fun _ => s.joinHold now js with
      | some id => (s.holdJoining now js).freezeDomain on (some k) .wait id false
      | none =>
        match s.trial now with
        | .go s1 points => ((s1.finish now points l.rt).thaw ks).ringStep k
        | .held c id recv => (s.holdJoining now js).freezeDomain on (some k) c id recv

/-- A retired tile's stores and atomics reach their ticks (R308). -/
def State.drainTurn (s : State) (k : TileKey) : State :=
  match s.tile? k with
  | none => s
  | some t =>
    let r := t.faultsInFlight
    let due := r.1.inflight.filter fun p => decide (p.due ≤ t.tick)
    let a := Tile.doAtoms (sortBy (fun p => p.slot.rank) (due.filter fun p => p.eff.isMemory))
      { r.1 with inflight := r.1.inflight.filter fun p => !decide (p.due ≤ t.tick) }
    let u := a.1.doStores (due.filter fun p => p.eff.isStore)
    State.raise .every 1 ((r.2.take 1).map fun tr => (k, tr, none)) (s.setTile { u with tick := t.tick + 1 })

/-! Throttling (R28, R387). -/

/-- The tiles that a domain holds: those at work, and on a Rill those that are being armed boarded (R230, R323). -/
def State.dutyTiles (s : State) (d : Domain) : List TileKey :=
  d.tiles ++ (d.rill.map fun k => ((s.tilesOf k).filter fun t => t.phase == Phase.armed && t.berth == Berth.boarded).map fun t => t.key).getD []

/-- The dies whose duty a domain keeps to: those of its tiles, or those that a Rill without boarded tiles spans. -/
def State.dutyDies (s : State) (d : Domain) : List Nat :=
  match s.dutyTiles d, d.rill.bind s.launch? with
  | [], some l => (((s.ctx? l.key.pasid).map s.diesOf).getD []).take (ceilDiv l.image.grid 160)
  | ks, _ => ks.filterMap fun k => (s.physOf k).map fun p => p.die

/-- The duty of a domain, in steps of 1/64 (R387): the smallest of its dies, raised to 32/64 while its partition is being
pre-empted. -/
def State.domainDuty (s : State) (d : Domain) : Nat :=
  let m := (s.dutyDies d).foldl (fun m x => min m (listGet s.board.duty x 64)) 64
  if (s.dutyDies d).any s.dutyHeld then max 32 m else m

/-- The places of a period of 64 cycles that come before one in the free order of Config.swallowKey. -/
def swallowRank (domain duty place : Nat) : Nat :=
  let key := Config.swallowKey domain duty
  ((List.range 64).filter fun q => decide (key q < key place) || (key q == key place && decide (q < place))).length

/-- Whether this cycle is swallowed for a domain (R28): of any 64 cycles in a row at one duty, 64 less the duty are, wherever they begin;
which ones is free (log entry 11). -/
def State.swallows (s : State) (d : Domain) : Bool :=
  let domain := (d.tiles.head?.map fun k => k.id).getD 1280
  let out := 64 - s.domainDuty d
  out != 0 && decide (swallowRank domain (s.domainDuty d) (s.cycle % 64) < out)

/-! Turns. -/

/-- The launch that a domain belongs to has a shard in progress (R372). -/
def State.shardFreeze (s : State) (ks : List TileKey) : Bool :=
  ks.any fun k => (((s.tile? k).bind fun t => s.launch? t.launchKey).map fun l => l.shard.isSome).getD false

/-- Perform an event, or nothing when it is not enabled. -/
def State.attempt (s : State) (f : State → Host.Outcome State Fault Refusal) : State :=
  match f s with
  | .next t => t
  | _ => s

/-- A shard is begun in the cycle in which the last tile issues its STEP or retires (R372). -/
def State.shardCheck (s : State) : State :=
  s.launches.foldl (fun (x : State) l => x.attempt (execCheckpointShardTake l.key)) s

/-- A domain is frozen while a shard of its launch is in progress (R372), a part that has still to join it in a freeze of its own. -/
def State.freezeForShard (s : State) (ks : List TileKey) (rill : Option LaunchKey) : State :=
  let ps : List (List TileKey) := if rill.isSome then s.joined ks :: s.joining ks else [ks]
  ps.foldl (fun (x : State) p => x.freezeDomain p (if p == ps.headD [] then rill else none) .shard ((p.head?.map fun k => k.id).getD 0) false) s

/-- The turn of a domain in a cycle (R17). -/
def State.domainTurn (s : State) (d : Domain) : State :=
  let ks := d.tiles.filter fun k => ((s.tile? k).map fun t => t.phase == Phase.running).getD false
  let rillShard := ((d.rill.bind s.launch?).map fun l => l.shard.isSome).getD false
  if s.swallows d then s
  else if s.shardFreeze ks || rillShard then s.freezeForShard ks d.rill
  else
    (match d.rill with
      | some k => s.rillTurn k ks
      | none =>
        if ks.isEmpty then d.tiles.foldl (fun (x : State) k => x.drainTurn k) s else s.plainTurn ks none).shardCheck

/-! The domains of a cycle (R19, R20). -/

/-- Whether a berthed tile issues a BOARD in this cycle with RT at its tick, so that it is in the Rill's domain from this
tick (R232). -/
def State.boardsNow (s : State) (t : Tile) : Bool :=
  t.phase == Phase.running && t.berth == Berth.berthed && (decide (t.gang.size ≤ 1) || t.pos == 0) &&
    (((s.launch? t.launchKey).map fun l => l.rt == t.tick && !l.stopped).getD false) && (t.waits.all fun w => decide (w.due ≤ t.tick)) &&
    s.boarding t

/-- The domains that take their turn in this cycle, the Rills' last (R231). -/
def State.domains (s : State) : List Domain :=
  let joins := (s.running.filter s.boardsNow).map fun t => t.key
  let coupledTiles := parts joins s.running s.running.length s.running
  let rill (c : List Tile) : Option LaunchKey :=
    (c.find? fun t => t.berth == Berth.boarded || joins.contains t.key).map fun t => t.launchKey
  let ds : List Domain := coupledTiles.map fun c => ⟨(sortBy (fun t => t.key.id) c).map fun t => t.key, rill c⟩
  let drains : List Domain := (s.tiles.filter fun t => t.phase == Phase.retired && !t.inflight.isEmpty).map fun t => ⟨[t.key], none⟩
  let bare : List Domain := (s.launches.filter fun l => l.stage == LaunchStage.started && !ds.any fun d => d.rill == some l.key).map
    fun l => ⟨[], some l.key⟩
  (ds.filter fun d => d.rill.isNone) ++ drains ++ (ds.filter fun d => d.rill.isSome) ++ bare

/-! The start of a cycle. -/

/-- Cycles within which a front-end core restarts: 20 microseconds (R329). -/
def coreRestartCycles : Nat := 20 * Config.usCycles

/-- What has come due on the wall clock (R318, R329, R335, R358, R371, R387). -/
def State.wallClock (s : State) : State :=
  let s1 := if s.cycle % Config.dutyCycles = 0 then s.attempt execDutyUpdate else s
  let s2 := (s1.board.coreDown.filter fun x => decide (x.2 + coreRestartCycles ≤ s.cycle)).foldl
    (fun (x : State) c => x.attempt (execFrontEndCoreRestarted c.1)) s1
  let s3 := s2.contexts.foldl (fun (x : State) c =>
    (c.requests.foldl (fun (y : State) r => y.attempt (execPageRequestTimeout c.pasid r.num)) x).attempt (execCheckpointTimer c.pasid)) s2
  let s4 := s3.queues.foldl (fun (x : State) q => (q.packets.filter fun k => x.copyLate k).foldl
    (fun (y : State) k => y.attempt (execCopy q.num k.index)) (x.attempt (execQueueParkTimeout q.num))) s3
  let late (t : Tile) : List Nat :=
    (t.far.filter fun f => f.since.isSome).map (fun f => f.num) ++
      (List.range 32).filter fun q => (t.queue q).cmds.any fun c => c.since.isSome
  let s5 := s4.tiles.foldl (fun (x : State) t => (late t).foldl (fun (y : State) n => y.attempt (execRemotePathTimeout t.key n)) x) s4
  s5.launches.foldl (fun (x : State) l => (l.coll.filter fun e => pathLate x.cycle e.since).foldl
    (fun (y : State) e => y.attempt (execCollectiveRoundFire l.key e.num)) x) s5

/-- Launches and tiles whose time has come start (R323), and an arming that lasts too long ends (R29). -/
def State.starts (s : State) : State :=
  let s1 := s.launches.foldl (fun (x : State) l => x.attempt (execLaunchStart l.key)) s
  let armed := (s1.tiles.filter fun t => t.phase == Phase.armed).map fun t => t.key
  let s2 := armed.foldl (fun (x : State) k => x.attempt (execTileStart k)) s1
  armed.foldl (fun (x : State) k =>
    if ((x.tile? k).map fun t => t.phase == Phase.armed).getD false then x.attempt (execDeadlock k) else x) s2

/-- The copy commands that are not to be drained stop (R341): those of a tile at rest whose context is being pre-empted, and those of a
launch of which a shard is being taken. -/
def State.haltDue (s : State) : State :=
  s.mapTiles fun t =>
    let saved := ((s.ctx? t.key.pasid).map fun c => c.preempt.isSome).getD false && s.atRest t
    if saved || ((s.launch? t.launchKey).map fun l => l.shard.isSome).getD false then s.haltCopies t else t

/-- A main-clock cycle starts (R17, R323): the counter counts while the front end runs, and bring-up may end (R385, R391). -/
def State.startCycle (s : State) : State :=
  let s1 := { s with cycle := s.cycle + 1 }
  match s.board.power with
  | .ready =>
    let s2 := { s1 with counter := (s.counter + 1) % 2 ^ 64 }.wallClock.starts.shardCheck.haltDue
    { s2 with turn := s2.domains }
  | .fatal => { s1 with counter := (s.counter + 1) % 2 ^ 64 }
  | .boot => if s.board.bootAt ≤ s1.cycle then s1.booted else s1
  | _ => s1

/-! Untimed events (R22, R137, R161). -/

/-- A step of the table that is ready to be tried: its meaning on its operands. -/
abbrev Move := State → Host.Outcome State Fault Refusal

/-- The events that a tile's own work may bring. -/
def Tile.events (t : Tile) : List Move :=
  let k := t.key
  (t.far.flatMap fun f => [execLandingArrival k f.num false, execLandingArrival k f.num true, execFarStorePerform k f.num,
      execRemoteAccessApply k f.num, execRelIncrement k f.num, execCollectiveTableWrite k f.num, execCollectiveReadyWrite k f.num,
      execTranslationWalk k.pasid f.addr f.kind.access (.farPath k.id)]) ++
    (if t.waits.any Wait.reading then [execWaitConditionMet k] else []) ++
    t.skid.map (fun m => execMessageArrival k m.src m.chan) ++
    ((List.range 32).filter fun q => !(t.queue q).cmds.isEmpty).flatMap (fun q => [execCopyCommandComplete k q, execCopyCommandStop k q]) ++
    (if t.mxReplayable.isSome then [execMatrixStepReplay k] else [])

/-- The event that moves a packet on (R316, R317). -/
def Packet.event (q : Queue) (p : Packet) : List Move :=
  let i := p.index
  match p.type with
  | 0x01 => [execTimetable q.num i]
  | 0x02 => [execTimetableIndirect q.num i]
  | 0x03 => [execWait q.num i, execSignalConditionMet q.num i]
  | 0x04 => [execSignal q.num i]
  | 0x05 => [execCopy q.num i]
  | 0x06 => [execSeedPush q.num i]
  | 0x07 => [execSeedPop q.num i]
  | 0x08 => [execSeedFork q.num i]
  | 0x09 => [execCheckpointPolicy q.num i]
  | 0x0A => [execBarrierAnd q.num i, execSignalConditionMet q.num i]
  | _ => [execNop q.num i]

/-- The events of a launch. -/
def Launch.events (l : Launch) : List Move :=
  [execLaunchArm l.key, execLaunchTrigger l.key, execLaunchRetire l.key, execCheckpointShardTaken l.key] ++
    (l.links.map fun m => execMessageArrival ⟨l.key.pasid, m.dst⟩ m.src m.chan) ++
    l.coll.flatMap fun e => [execCollectiveRoundFire l.key e.num, execCollectiveRoundComplete l.key e.num]

/-- The events that may happen between two turns. -/
def State.workEvents (s : State) : List Move :=
  s.tiles.flatMap Tile.events ++ s.launches.flatMap Launch.events ++
    (s.queues.flatMap fun q => [execQueuePoll q.num, execQueueRestart q.num, execQueueDestroy q.num, execQueueDestroyed q.num] ++
      q.packets.flatMap (Packet.event q)) ++
    s.contexts.flatMap fun c => [execInvalidationComplete c.pasid, execTeardownComplete c.pasid, execContextSaveComplete c.pasid]

/-! The outside world. -/

/-- The steps of the table that the outside world makes: management, power, errors, other modules. -/
def isExternal : Instr → Bool
  | .watchdogRestart _ | .fatalError _ _ | .scrub _ _ | .thermalTrip | .powerGood | .powerOff | .managementConnect _ _ _
  | .registerQueue _ _ _ | .unregisterQueue _ _ | .invalidateTranslations _ _ _ | .answerPageRequest _ _ _ _
  | .createContext _ _ | .teardownContext _ _ | .preemptContext _ _ | .restoreContext _ _ _ | .readLaunchRecord _ _ _
  | .readIdentityKey _ | .setCheckpointConfig _ _ _ | .restoreCheckpoint _ _ _ _ | .readLatestShard _ _
  | .readSoftErrorBlock _ _ | .clearSoftErrorBlock _ _ | .writeFieldRepair _ _ | .readRemap _ _ | .readCistern _ _ _
  | .setPowerCap _ _ | .readTelemetry _ | .setModulePosition _ _ _ | .stageFirmware _ _ _ _ | .resetModule _
  | .ualinkRemoteRequest _ => true
  | _ => false

/-- A host write under a context's tables (R389). -/
def State.hostWrite (s : State) (p va : Nat) (bs : List Byte) : State := (s.hubWrite p .frontEnd va bs (granules bs.length)).1

/-- What a host read brings leaves the module (R389): nothing where it has no translation yet or meets a fault. -/
def State.hostRead (s : State) (p va n : Nat) : State :=
  match s.hubRead p .frontEnd va n (granules n) with
  | (s1, .got bs) => { s1 with hostReads := s1.hostReads ++ [bs] }
  | (s1, _) => s1

/-- Whether the host may move data (R385, R389): over a connection that has been accepted, while the front end runs. -/
def State.hostConn (s : State) (conn : Nat) : Bool := s.up && decide (conn < s.board.conns)

/-- An error of the array of a matrix engine (R181 to R184). -/
def State.arrayError (s : State) (k : TileKey) (u : MxUpset) : State :=
  match s.tile? k with
  | some t => s.setTile (t.mxUpset u)
  | none => s

/-- An uncorrectable error in a tile, whose UNCOR counts (R380, R382). -/
def State.tilePoison (s : State) (k : TileKey) (f : Tile → Tile) : State := (s.onKey k f).countSoft k SoftErrors.lostWord

/-- A replay in a datapath begins or ends for a result in flight (R380). -/
def Tile.replay (t : Tile) (n : Nat) (on : Bool) : Tile :=
  { t with replays := if on then n :: t.replays.filter (fun m => m != n) else t.replays.filter fun m => m != n }

/-- A register, a latch, the Basin or a datapath fails beyond repair (R380): the result in flight, or the landing that has
arrived, of a number is ECCUE at its tick. The spec states no TRAPINFO for it, which is a free value (log entry 64). -/
def Tile.strike (t : Tile) (n : Nat) (info : Word) : Tile :=
  { t with
    inflight := t.inflight.map fun p => if p.seq = n then { p with eff := .fault (infoTrap .eccue 0 info) } else p,
    landings := t.landings.map fun l => if l.num = n ∧ l.got.isSome then { l with got := some (.fault .eccue info) } else l }

/-- A replay in a datapath begins, which counts in PARR, or ends (R380, R382). -/
def State.replay (s : State) (k : TileKey) (n : Nat) (on : Bool) : State :=
  let s1 := s.onKey k fun t => t.replay n on
  if on then s1.countSoft k fun e => e.fixed .parr else s1

def State.strike (s : State) (k : TileKey) (n : Nat) : State :=
  (({ s with draws := s.draws + 1 }.onKey k fun t => t.strike n (Config.freeWord s.draws)).countSoft k SoftErrors.lostWord)

/-- A management request whose `OP` is not one of R390's: answered wherever management runs at all (R385). -/
def State.unknownOp (s : State) (h : MgmtHdr) : State :=
  match s.board.power with
  | .off => s
  | .boot => s
  | _ => s.reply h (if s.board.conns ≤ h.conn then 4 else 1) []

/-! Management requests in order (R390). -/

/-- The header of a management request. -/
def Input.header : Input → Option MgmtHdr
  | .op i => (mgmtParts i).map fun x => x.1
  | .unknownOp h => some h
  | _ => none

/-- Perform a management request in its turn: one whose `OP` is none of R390's is answered so, whatever it brings; another whose header does
not fit what it asks for is no message of R390 and has no effect (log entry 24). -/
def State.perform (s : State) (i : Input) : State :=
  match i.header with
  | none => s
  | some h =>
    if h.op = 0 ∨ 0x0014 < h.op then s.unknownOp h
    else
      match i with
      | .op x => if (mgmtOf x).isSome then s.attempt (exec x) else s
      | _ => s

/-- Whether an earlier request of a connection has no answer yet: a pre-emption, a teardown or an invalidation in progress. -/
def State.connBusy (s : State) (conn : Nat) : Bool :=
  s.contexts.any fun c => (c.preempt.map fun x => x.2.conn) == some conn || (c.tearing.map fun h => h.conn) == some conn ||
    c.invals.any fun x => x.2.conn == conn

/-- A request arrives: requests on one connection are performed in order, so that it may have to wait (R390). -/
def State.request (s : State) (i : Input) (h : MgmtHdr) : State :=
  match s.board.power with
  | .off => s
  | .boot => s
  | _ =>
    if s.connBusy h.conn || s.waiting.any fun x => (x.header.map fun y => y.conn) == some h.conn then { s with waiting := s.waiting ++ [i] }
    else s.perform i

/-- The first waiting request of each connection that may be performed now. -/
def State.nextRequests (s : State) : List Move :=
  (s.waiting.filter fun i => (i.header.map fun h =>
      !s.connBusy h.conn && (s.waiting.find? fun x => (x.header.map fun y => y.conn) == some h.conn) == some i).getD false).map
    fun i => fun x => .next ({ x with waiting := x.waiting.erase i }.perform i)

/-- The events that may happen between two turns: while the front end runs, the work of the module, and the requests that have waited. -/
def State.events (s : State) : List Move := s.nextRequests ++ if s.up then s.workEvents else []

/-- What happens between two cycles: one of the events, or the next cycle (log entry 4). -/
def State.between (s : State) : State :=
  match s.events[s.pick (s.events.length + 1)]? with
  | some m => s.tickFresh.attempt m
  | none => s.tickFresh.startCycle

/-- An input that is no management request. -/
def State.receiveData (s : State) (i : Input) : State :=
  match i with
  | .op i => if isExternal i then s.attempt (exec i) else s
  | .unknownOp _ => s
  | .portMode full => { s with board := { s.board with nextPort := full } }
  | .provision key => { s with board := { s.board with provisioned := key :: s.board.provisioned } }
  | .hostWrite n p va bs => if s.hostConn n then s.hostWrite p va bs else s
  | .hostWritePa n pa bs => if s.hostConn n then s.hbmWrite (localPa pa) bs else s
  | .hostRead n p va len => if s.hostConn n then s.hostRead p va len else s
  | .hostReadPa n pa len => if s.hostConn n then { s with hostReads := s.hostReads ++ [Mem.read s.hbm (localPa pa) len] } else s
  | .poison p => if s.up && s.hasPlace p then s.uncorrectable p else s
  | .poisonAcc k a => if s.up then s.tilePoison k fun t => { t with mx := { t.mx with poison := t.mx.poison.set a true } } else s
  | .corrected k c => if s.up then s.corrected k c else s
  | .upset k u => if s.up then s.arrayError k u else s
  | .strike k n => if s.up then s.strike k n else s
  | .replay k n on => if s.up then s.replay k n on else s
  | .store p slot x =>
    match s.up, s.ctx? p with
    | true, some c => s.setCtx { c with ckpt := { c.ckpt.setSlot slot (some x) with
        latest := if c.ckpt.latest = some slot then none else c.ckpt.latest } }
    | _, _ => s
  | .poisonStore p slot b =>
    match s.up, s.ctx? p with
    | true, some c => s.setCtx { c with ckpt := c.ckpt.setSlot slot ((c.ckpt.slot slot).map fun x => { x with bad := b :: x.bad }) }
    | _, _ => s

/-- What the outside world does. -/
def State.receive (s : State) (i : Input) : State :=
  match i.header with
  | some h => s.request i h
  | none => s.receiveData i

end Sys2Proof.Machine
end

