-- ==== Sys2Proof/Machine/Step.lean ====
section
/-! DEFINITION. One step of the machine, and an instruction placed where the next step fetches it. -/

namespace Sys2Proof.Machine

/-- One step (R17): what the outside world does, the turn of a domain, or what happens between two cycles. -/
def step (s : State) : Host.Outcome State Fault Refusal :=
  match s.inputs with
  | i :: rest => .next ({ s with inputs := rest }.receive i)
  | [] =>
    match s.turn with
    | d :: ds => .next ({ s with turn := ds }.domainTurn d)
    | [] => .next s.between

/-- The word that ends a bundle whose syllable has no E: CNOP with E (R73). -/
def endWord : Nat := 0xEE000000

/-- The state with an instruction of the opcode table at the pc of the tile in focus, whose turn comes at the next step
(log entry 3); a bundle without E is ended by a CNOP. -/
def State.withFetchWord (s : State) (nbits w : Nat) : State :=
  let x := w % 2 ^ nbits
  let bs := bytesOfNat 4 x ++ (if fld x 31 1 = 1 then [] else bytesOfNat 4 endWord)
  let t := s.tile
  { s with
    tile := { t with phase := .running, imem := Mem.write t.imem t.pc bs, imemBad := [], progLen := max t.progLen (t.pc + bs.length), waits := [],
                     freeze := none },
    inputs := [], turn := [⟨[t.key], none⟩] }

end Sys2Proof.Machine
end

