-- ==== Sys2Proof/Safety.lean ====
section
/-! DEFINITION. What the statements about whole steps speak of: the invariant of the module, what a change keeps, the frames of
syllables (which parts of a tile and of the module stay as they were), and the classes of syllables that share one. -/

namespace Sys2Proof.Machine

/-! The invariant. -/

/-- The invariant of the module: HBM keeps its canonical form, and the global counter is a 64-bit value (R323). -/
def State.Inv (s : State) : Prop := Mem.wf s.hbm = true ∧ s.counter < 2 ^ 64

/-- What everything but the start of a cycle and a module reset keeps: the wall clock, the global counter, and the canonical
form of HBM. -/
structure State.Kept (s u : State) : Prop where
  cycle : u.cycle = s.cycle
  counter : u.counter = s.counter
  mem : Mem.wf s.hbm = true → Mem.wf u.hbm = true

/-- The steps of the table that reset the module or take its power (R385, R388, R391): they clear the global counter. -/
def resetsModule : Instr → Bool
  | .thermalTrip | .powerGood | .powerOff | .resetModule _ => true
  | _ => false

/-! How statements name a state. -/

/-- The answer of a syllable that leaves its tile as given and everything else as it was. -/
def State.nextTile (s : State) (t : Tile) : Host.Outcome State Fault Refusal := .next { s with tile := t }

/-- The state in which the one syllable of a bundle issues in a slot, on a tile in no gang: the issue record names its slot,
its place, its bundle, and the guard record as the bundle began. -/
def State.issuing (s : State) (sl : Slot) : State :=
  { s with tile := { s.tile with iss := ⟨sl, 0, s.tile.pc, s.tile.pc + 4, none, false, s.tile.spad.touched, none, none, false, false, none⟩ } }

/-- A bundle of one syllable goes on to the next bundle in address order, or back to the start of a loop body (R100). -/
def State.goOn (s : State) (pc : Nat) : State :=
  { s with tile := ({ s.tile with iss := { s.tile.iss with addr := pc, next := pc + 4 } }).advance }

/-- A tile on which an engine operation has taken its place (R196): the active one, with its start four ticks away at the earliest and
one after the engine is free, else the pending one. -/
def Tile.placed (t : Tile) (o : MxOp) : Tile :=
  { t with
    seq := t.seq + 1,
    mx := if t.mx.active.isNone then { t.mx with active := some { o with start := max (t.tick + 4) (t.mx.freeAt + 1) } }
          else { t.mx with pending := some o } }

/-- A request of the management controller that is served: the module is READY and the connection exists (R385, R389). -/
def State.managed (s : State) (h : MgmtHdr) : Prop := s.board.power = .ready ∧ h.conn < s.board.conns

/-! Frames. -/

/-- The register files and latches read as before. -/
structure Tile.SameRegs (t u : Tile) : Prop where
  s : ∀ n, u.sreg n = t.sreg n
  v : ∀ f n, u.vreg f n = t.vreg f n
  x : ∀ f n, u.xreg f n = t.xreg f n
  m : ∀ n, u.mreg n = t.mreg n
  p : ∀ n, u.pred n = t.pred n
  latches : u.latches = t.latches

/-- The CSRs, the governing formats, the seed, the loop unit, the containment regions and recorded faults as before. -/
structure Tile.SameControl (t u : Tile) : Prop where
  csrs : u.csrs = t.csrs
  gov : u.gov = t.gov
  seed : u.seed = t.seed
  loops : u.loops = t.loops
  regions : u.regions = t.regions
  faults : u.faults = t.faults
  phase : u.phase = t.phase
  tick : u.tick = t.tick

/-- Every byte of the scratchpad and of instruction memory reads as before, with its marks and errors. -/
structure Tile.SameMemory (t u : Tile) : Prop where
  spad : ∀ a, Mem.read1 u.spad.mem a = Mem.read1 t.spad.mem a
  imem : ∀ a, Mem.read1 u.imem a = Mem.read1 t.imem a
  marks : u.spad.marks = t.spad.marks
  poison : u.spad.poison = t.spad.poison

/-- The matrix engine, the Cascade and the copy queues as before. -/
structure Tile.SameEngines (t u : Tile) : Prop where
  mx : u.mx = t.mx
  casc : u.casc = t.casc
  queues : u.queues = t.queues

/-- Far accesses, landings, messages, the Rill station and the gang as before. -/
structure Tile.SameTraffic (t u : Tile) : Prop where
  far : u.far = t.far
  buffer : u.buffer = t.buffer
  bufferBad : u.bufferBad = t.bufferBad
  landings : u.landings = t.landings
  basin : u.basin = t.basin
  skid : u.skid = t.skid
  sent : u.sent = t.sent
  received : u.received = t.received
  claims : u.claims = t.claims
  berth : u.berth = t.berth
  station : u.station = t.station
  gang : u.gang = t.gang

/-- Everything of the module but the tile in focus as before: every byte of HBM reads as before. -/
structure State.SameModule (s u : State) : Prop where
  others : u.others = s.others
  launches : u.launches = s.launches
  contexts : u.contexts = s.contexts
  queues : u.queues = s.queues
  hbm : ∀ a, Mem.read1 u.hbm a = Mem.read1 s.hbm a
  hbmPoison : u.hbmPoison = s.hbmPoison
  board : u.board = s.board
  cycle : u.cycle = s.cycle
  counter : u.counter = s.counter

/-- The syllable was issued without a trap: the issue record holds none. -/
def State.untrapped (s : State) : Prop := s.tile.iss.trap = none

/-! Classes of syllables. -/

/-- Syllables of slot S that write registers, predicates or CSRs and nothing else: all of R82 to R93. -/
def isScalar : Instr → Bool
  | .snop _ | .add _ _ _ _ | .sub _ _ _ _ | .and _ _ _ _ | .or _ _ _ _ | .xor _ _ _ _ | .shl _ _ _ _ | .shr _ _ _ _
  | .sra _ _ _ _ | .mul _ _ _ _ | .mulh _ _ _ _ | .mulhu _ _ _ _ | .div _ _ _ _ | .divu _ _ _ _ | .rem _ _ _ _
  | .remu _ _ _ _ | .clz _ _ _ | .min _ _ _ _ | .max _ _ _ _ | .minu _ _ _ _ | .maxu _ _ _ _ | .rotl _ _ _ _
  | .popc _ _ _ | .ctz _ _ _ | .bswap _ _ _ | .addi _ _ _ _ | .andi _ _ _ _ | .ori _ _ _ _ | .xori _ _ _ _
  | .shli _ _ _ _ | .shri _ _ _ _ | .srai _ _ _ _ | .rotli _ _ _ _ | .lis _ _ _ | .ins1 _ _ _ | .ins2 _ _ _
  | .ins3 _ _ _ | .cmpeq _ _ _ _ | .cmpne _ _ _ _ | .cmplt _ _ _ _ | .cmpltu _ _ _ _ | .cmple _ _ _ _ | .cmpleu _ _ _ _
  | .cmptst _ _ _ _ | .pand _ _ _ _ | .por _ _ _ _ | .pxor _ _ _ _ | .pandn _ _ _ _ | .pnot _ _ _ | .pmov _ _ _
  | .pset _ _ | .pclr _ _ | .csrr _ _ _ | .csrw _ _ _ | .csrs _ _ _ | .csrc _ _ _ | .sel _ _ _ _ | .movp _ _ _
  | .movtp _ _ _ => true
  | _ => false

/-- Syllables of the vector slots: all of R104 to R135. -/
def isVector : Instr → Bool
  | .vadd _ _ _ _ | .vsub _ _ _ _ | .vmul _ _ _ _ | .vmin _ _ _ _ | .vmax _ _ _ _ | .vabs _ _ _ | .vneg _ _ _
  | .vcps _ _ _ _ | .vfma _ _ _ _ | .vfms _ _ _ _ | .vfnma _ _ _ _ | .vfnms _ _ _ _ | .vdiv _ _ _ _ | .vsqrt _ _ _
  | .vrcp _ _ _ | .vrsq _ _ _ | .vexp2 _ _ _ | .vlog2 _ _ _ | .vrint _ _ _ | .vrintz _ _ _ | .vclass _ _ _
  | .vscale _ _ _ _ | .vgetexp _ _ _ | .vminnum _ _ _ _ | .vfceq _ _ _ _ | .vfcne _ _ _ _ | .vfclt _ _ _ _
  | .vfcle _ _ _ _ | .vfcgt _ _ _ _ | .vfcge _ _ _ _ | .vfcunord _ _ _ _ | .vfcord _ _ _ _ | .viadd _ _ _ _
  | .visub _ _ _ _ | .vimul _ _ _ _ | .vimulh _ _ _ _ | .vimin _ _ _ _ | .vimax _ _ _ _ | .viminu _ _ _ _
  | .vimaxu _ _ _ _ | .viadds _ _ _ _ | .viaddsu _ _ _ _ | .visubs _ _ _ _ | .visubsu _ _ _ _ | .viabs _ _ _
  | .vineg _ _ _ | .viavg _ _ _ _ | .viavgu _ _ _ _ | .vand _ _ _ _ | .vor _ _ _ _ | .vxor _ _ _ _ | .vandn _ _ _ _
  | .vshl _ _ _ _ | .vshr _ _ _ _ | .vsra _ _ _ _ | .vnot _ _ _ | .viceq _ _ _ _ | .vicne _ _ _ _ | .viclt _ _ _ _
  | .vicltu _ _ _ _ | .vicle _ _ _ _ | .vicleu _ _ _ _ | .victst _ _ _ _ | .vcvt _ _ _ _ _ _ | .vperm _ _ _ _
  | .vzip _ _ _ _ | .vunzip _ _ _ _ | .vrev _ _ _ | .vrot _ _ _ _ | .vsel _ _ _ _ | .vcmprs _ _ _ _ | .vexpnd _ _ _ _
  | .vrsum _ _ _ _ | .vrmax _ _ _ _ | .vrmin _ _ _ _ | .vrisum _ _ _ _ | .vscan _ _ _ _ | .vrand _ _ _ _ | .vror _ _ _ _
  | .vrxor _ _ _ _ | .vspli _ _ _ | .viota _ _ | .vsplat _ _ _ _ | .vmovp _ _ _ | .vpopc _ _ _ | .vrng _ _ _
  | .vfmts _ _ | .vfmt _ _ _ | .vnop _ | .vdot4s _ _ _ _ | .vdot4u _ _ _ _ | .vdot2bf _ _ _ _ | .vdot2h _ _ _ _ => true
  | _ => false

/-- Loads and stores of the local scratchpad (R136 to R140) and moves between files (R74, R150). -/
def isLocal : Instr → Bool
  | .sld _ _ _ _ _ _ | .sst _ _ _ _ _ | .cld _ _ _ _ _ | .cst _ _ _ _ _ | .cgath _ _ _ _ _ _ | .cscat _ _ _ _ _ _
  | .xcpsx _ _ _ | .xcpxs _ _ _ | .xcpmx _ _ _ | .xcpxm _ _ _ | .xcpvax _ _ _ _ | .xcpvbx _ _ _ _ | .xcpxva _ _ _ _
  | .xcpxvb _ _ _ _ | .cnop _ | .ltime _ _ | .seedr _ _ _ => true
  | _ => false

/-- Transfers of control that change no register of the tile at their issue (R95 to R100, R302, R307). -/
def isTransfer : Instr → Bool
  | .br _ _ | .call _ _ | .jmpr _ _ | .callr _ _ | .loopr _ _ _ _ | .loop _ _ _ _ | .waitt _ _ | .tfence _ => true
  | _ => false

/-- Far accesses, messages, atomics, ring accesses and copy commands at their issue (R142 to R148, R157 to R163, R236 to R239,
R256 to R258). -/
def isTraffic : Instr → Bool
  | .fld _ _ _ _ | .fldv _ _ _ _ _ | .fst _ _ _ | .fstv _ _ _ _ | .recv _ _ _ _ _ | .aadd _ _ _ _ | .aincw _ _ _ _
  | .afaab _ _ _ _ | .acas _ _ _ _ | .axchg _ _ _ _ | .amins _ _ _ _ | .amaxu _ _ _ _ | .aorb _ _ _ _ | .rcap _ _ _
  | .rput _ _ _ | .radd _ _ _ _ | .rcas _ _ _ _ | .rmaxu _ _ _ _ | .ror _ _ _ _ | .push _ _ _ _ | .pop _ _ _ _
  | .popStall _ _ _ _ => true
  | _ => false

/-- Messages sent, the SYNC group and GANG at their issue (R147, R151, R283 to R301, R309). -/
def isSync : Instr → Bool
  | .send _ _ _ _ | .gang _ _ _ | .acq _ _ _ _ | .rel _ _ | .bar _ _ _ _ | .fence _ _ _ | .trig _ | .step _ _ | .crgo _ _
  | .crgc _ => true
  | _ => false

/-- The syllables of slot M (R189 to R204, R211 to R221). -/
def isMatrixSlot : Instr → Bool
  | .mcfg _ _ _ _ | .mgo _ | .mgog _ | .mdrn _ _ | .mclr _ _ | .mstat _ _ _ | .mldw _ _ _ _ | .mmirr _ _ | .mfmt _ _ _ _
  | .spup _ _ | .spdn _ _ | .spld _ _ _ | .spst _ _ _ | .spscl _ _ _ | .spmode _ _ _ | .spclr _ _ | .spstat _ _ _
  | .mli _ _ _ | .mnop _ => true
  | _ => false

/-! Guards. -/

/-- The guard of the syllables of slots S, CA, CB and M, and of the format writes, that a guard suppresses whole and that do not
choose the next bundle (R69, R133). -/
def plainGuard : Instr → Option Nat
  | .add h _ _ _ | .sub h _ _ _ | .and h _ _ _ | .or h _ _ _ | .xor h _ _ _ | .shl h _ _ _ | .shr h _ _ _
  | .sra h _ _ _ | .mul h _ _ _ | .mulh h _ _ _ | .mulhu h _ _ _ | .div h _ _ _ | .divu h _ _ _ | .rem h _ _ _
  | .remu h _ _ _ | .clz h _ _ | .min h _ _ _ | .max h _ _ _ | .minu h _ _ _ | .maxu h _ _ _ | .rotl h _ _ _
  | .popc h _ _ | .ctz h _ _ | .bswap h _ _ | .addi h _ _ _ | .andi h _ _ _ | .ori h _ _ _ | .xori h _ _ _
  | .shli h _ _ _ | .shri h _ _ _ | .srai h _ _ _ | .rotli h _ _ _ | .lis h _ _ | .ins1 h _ _ | .ins2 h _ _
  | .ins3 h _ _ | .cmpeq h _ _ _ | .cmpne h _ _ _ | .cmplt h _ _ _ | .cmpltu h _ _ _ | .cmple h _ _ _
  | .cmpleu h _ _ _ | .cmptst h _ _ _ | .pand h _ _ _ | .por h _ _ _ | .pxor h _ _ _ | .pandn h _ _ _ | .pnot h _ _
  | .pmov h _ _ | .pset h _ | .pclr h _ | .csrr h _ _ | .csrw h _ _ | .csrs h _ _ | .csrc h _ _ | .movp h _ _
  | .movtp h _ _ | .sld h _ _ _ _ _ | .sst h _ _ _ _ | .cld h _ _ _ _ | .cst h _ _ _ _ | .cgath h _ _ _ _ _
  | .cscat h _ _ _ _ _ | .xcpsx h _ _ | .xcpxs h _ _ | .xcpmx h _ _ | .xcpxm h _ _ | .xcpvax h _ _ _
  | .xcpvbx h _ _ _ | .xcpxva h _ _ _ | .xcpxvb h _ _ _ | .ltime h _ | .seedr h _ _ | .fld h _ _ _ | .fldv h _ _ _ _
  | .fst h _ _ | .fstv h _ _ _ | .recv h _ _ _ _ | .aadd h _ _ _ | .aincw h _ _ _ | .afaab h _ _ _ | .acas h _ _ _
  | .axchg h _ _ _ | .amins h _ _ _ | .amaxu h _ _ _ | .aorb h _ _ _ | .rcap h _ _ | .rput h _ _ | .radd h _ _ _
  | .rcas h _ _ _ | .rmaxu h _ _ _ | .ror h _ _ _ | .push h _ _ _ | .pop h _ _ _ | .popStall h _ _ _ | .mcfg h _ _ _
  | .mgo h | .mgog h | .mdrn h _ | .mclr h _ | .mstat h _ _ | .mldw h _ _ _ | .mmirr h _ | .mfmt h _ _ _ | .spup h _
  | .spdn h _ | .spld h _ _ | .spst h _ _ | .spscl h _ _ | .spmode h _ _ | .spclr h _ | .spstat h _ _ | .mli h _ _
  | .send h _ _ _ | .gang h _ _ | .board h | .alight h | .alightFree h | .acq h _ _ _ | .rel h _ | .bar h _ _ _
  | .fence h _ _ | .trig h | .step h _ | .crgo h _ | .crgc h | .mstop h | .vfmt h _ _ | .vfmts h _ => some h.g
  | _ => none

/-- The guard of the control syllables (R95 to R100, R302, R306 to R308). -/
def controlGuard : Instr → Option Nat
  | .br h _ | .call h _ | .jmpr h _ | .callr h _ | .loop h _ _ _ | .loopr h _ _ _ | .trap h _ | .tret h | .tfence h
  | .exit h | .waitt h _ => some h.g
  | _ => none

/-! Invalid latches (R68). -/

/-- A source of each file that is an invalid latch. -/
def Tile.lostS (t : Tile) (a : Src) : Bool := (t.readS a).isNone
def Tile.lostX (t : Tile) (a : Src) : Bool := (t.readX a).isNone
def Tile.lostM (t : Tile) (a : MSrc) : Bool := (t.readM a).isNone

/-- Whether a syllable of slot S, CA, CB or M reads an invalid latch (R68); BAR checks its stores and its record first (R293). -/
def Tile.readsLost (t : Tile) : Instr → Bool
  | .add _ _ a b | .sub _ _ a b | .and _ _ a b | .or _ _ a b | .xor _ _ a b | .shl _ _ a b | .shr _ _ a b | .sra _ _ a b
  | .mul _ _ a b | .mulh _ _ a b | .mulhu _ _ a b | .div _ _ a b | .divu _ _ a b | .rem _ _ a b | .remu _ _ a b
  | .min _ _ a b | .max _ _ a b | .minu _ _ a b | .maxu _ _ a b | .rotl _ _ a b | .cmpeq _ _ a b | .cmpne _ _ a b
  | .cmplt _ _ a b | .cmpltu _ _ a b | .cmple _ _ a b | .cmpleu _ _ a b | .cmptst _ _ a b | .loopr _ _ a b => t.lostS a || t.lostS b
  | .clz _ _ a | .popc _ _ a | .ctz _ _ a | .bswap _ _ a | .addi _ _ a _ | .andi _ _ a _ | .ori _ _ a _ | .xori _ _ a _
  | .shli _ _ a _ | .shri _ _ a _ | .srai _ _ a _ | .rotli _ _ a _ | .movtp _ _ a | .sld _ _ a _ _ _ | .sst _ _ a _ _
  | .jmpr _ a | .callr _ a | .loop _ _ a _ | .trap _ a | .waitt _ a => t.lostS a
  | .xcpsx _ _ a | .xcpxs _ _ a | .xcpxm _ _ a | .xcpxva _ _ a _ | .xcpxvb _ _ a _ | .cld _ _ _ a _ | .cst _ _ _ a _
  | .cgath _ _ _ a _ _ | .cscat _ _ _ a _ _ | .fld _ _ a _ | .fldv _ _ _ a _ | .fst _ _ a | .fstv _ _ _ a | .rcap _ _ a
  | .rput _ a _ | .rcas _ _ a _ | .afaab _ _ a _ | .acas _ _ a _ | .acq _ _ a _ | .crgo _ a => t.lostX a
  | .radd _ _ a b | .rmaxu _ _ a b | .ror _ _ a b | .aadd _ _ a b | .aincw _ _ a b | .axchg _ _ a b | .amins _ _ a b
  | .amaxu _ _ a b | .aorb _ _ a b | .gang _ a b => t.lostX a || t.lostX b
  | .mcfg _ a b _ | .spld _ a b | .spst _ a b => t.lostM a || t.lostM b
  | .mldw _ a _ _ | .spup _ a | .spdn _ a | .spscl _ a _ | .spclr _ a => t.lostM a
  | _ => false

end Sys2Proof.Machine
end

