-- ==== Sys2Proof/Certificates/Slice0/Obligations.lean ====
section
/-! DEFINITION. The statements about the machine: each formalises rules of the spec, named in its docstring. -/

open Sys2Proof Sys2Proof.Machine

/-! Encodings. -/

/-- Every well-formed syllable decodes from its own word (R61, R64, R65, R73). -/
def Obligations.EncodeThenDecode : Prop :=
  ∀ (i : Instr) (w : Nat), i.wf = true → encode i = some w → decodeWord w = .ok i

/-- A word that the decoder accepts is the word of the well-formed syllable it gives: no bit is dropped (R64, R75). -/
def Obligations.DecodeThenEncode : Prop :=
  ∀ (i : Instr) (w : Nat), w < 2 ^ 32 → decodeWord w = .ok i → i.wf = true ∧ encode i = some w

/-- Words of every group of the opcode map (R73): first words that the spec's own examples spell out, then, for the groups of which no
example spells one, words put together from the fields of R64 and R65 and the group's FN of R73. -/
def Obligations.WordsOfTheSpec : Prop :=
  (decodeWord 0x80000000 = .ok (.snop true) ∧
  decodeWord 0x8201_8610 = .ok (.add ⟨true, 0⟩ (.reg 3) (.reg 3) (.reg 2)) ∧
  decodeWord 0x8801_0405 = .ok (.addi ⟨true, 0⟩ (.reg 2) (.reg 2) 5) ∧
  decodeWord 0x8A04_10FF = .ok (.andi ⟨true, 0⟩ (.reg 8) (.reg 8) 255) ∧
  decodeWord 0x9204_DEF0 = .ok (.lis ⟨true, 0⟩ 4 0xDEF0) ∧
  decodeWord 0x9404_9ABC = .ok (.ins1 ⟨true, 0⟩ 4 0x9ABC) ∧
  decodeWord 0x9804_1234 = .ok (.ins3 ⟨true, 0⟩ 4 0x1234) ∧
  decodeWord 0x9A00_9028 = .ok (.cmpeq ⟨true, 0⟩ 1 (.reg 8) (.reg 5)) ∧
  decodeWord 0x9E07_0018 = .ok (.csrr ⟨true, 0⟩ 7 .ltime) ∧
  decodeWord 0xA23F_FFF8 = .ok (.br ⟨true, 1⟩ (-8)) ∧
  decodeWord 0xA600_0A06 = .ok (.waitt ⟨true, 0⟩ (.reg 5)) ∧
  decodeWord 0xA800_0202 = .ok (.loop ⟨true, 0⟩ 0 (.reg 1) 2) ∧
  decodeWord 0xAA01_0280 = .ok (.sld ⟨true, 0⟩ (.reg 2) (.reg 1) .b2 false 0) ∧
  decodeWord 0xB001_8210 = .ok (.vfma ⟨true, 0⟩ 3 (.reg 1) (.reg 2)) ∧
  decodeWord 0xB401_8212 = .ok (.vfclt ⟨true, 0⟩ 3 (.reg 1) (.reg 2)) ∧
  decodeWord 0xBE02_8635 = .ok (.vcvt ⟨true, 0⟩ (.reg 5) (.reg 3) .bf16 (.mode .rtz) true) ∧
  decodeWord 0xC201_0220 = .ok (.vrsum ⟨true, 0⟩ (.reg 2) (.reg 1) 4) ∧
  decodeWord 0xC401_3FC0 = .ok (.vspli ⟨true, 0⟩ 1 0x3FC0) ∧
  decodeWord 0xCA00_0000 = .ok (.vnop true) ∧
  decodeWord 0xCE03_8403 = .ok (.cld ⟨true, 0⟩ .va 7 (.reg 2) 3) ∧
  decodeWord 0xD000_8001 = .ok (.cst ⟨true, 0⟩ .va 1 (.reg 0) 1) ∧
  decodeWord 0xD600_8200 = .ok (.xcpsx ⟨true, 0⟩ (.reg 1) (.reg 1)) ∧
  decodeWord 0xD601_0401 = .ok (.xcpxs ⟨true, 0⟩ (.reg 2) (.reg 2)) ∧
  decodeWord 0xD802_8228 = .ok (.fld ⟨true, 0⟩ 5 (.reg 1) 40) ∧
  decodeWord 0xDC05_8A00 = .ok (.fst ⟨true, 0⟩ 11 (.reg 5)) ∧
  decodeWord 0xE001_9000 = .ok (.send ⟨true, 0⟩ .va 3 2) ∧
  decodeWord 0xE212_080C = .ok (.recv ⟨true, 0⟩ .vb 4 1 12) ∧
  decodeWord 0xE401_C100 = .ok (.push ⟨true, 0⟩ 3 true 2) ∧
  decodeWord 0xE611_A814 = .ok (.popStall ⟨true, 0⟩ 3 5 20) ∧
  decodeWord 0xE800_0200 = .ok (.rcap ⟨true, 0⟩ false (.reg 1)) ∧
  decodeWord 0xE800_0241 = .ok (.rput ⟨true, 0⟩ (.reg 1) true) ∧
  decodeWord 0xE800_0006 = .ok (.board ⟨true, 0⟩) ∧
  decodeWord 0xE800_0007 = .ok (.alight ⟨true, 0⟩) ∧
  decodeWord 0xE800_8007 = .ok (.alightFree ⟨true, 0⟩) ∧
  decodeWord 0xEA01_8220 = .ok (.aadd ⟨true, 0⟩ (.reg 3) (.reg 1) (.reg 4)) ∧
  decodeWord 0xEC03_8828 = .ok (.acq ⟨true, 0⟩ 7 (.reg 4) 5) ∧
  decodeWord 0xEC00_0029 = .ok (.rel ⟨true, 0⟩ 5) ∧
  decodeWord 0xEC00_841A = .ok (.bar ⟨true, 0⟩ 1 (.reg 2) (.reg 3)) ∧
  decodeWord 0xEC01_8023 = .ok (.fence ⟨true, 0⟩ 3 .pkg) ∧
  decodeWord 0x6E00_0000 = .ok (.cnop false) ∧
  decodeWord 0xF002_1810 = .ok (.mcfg ⟨true, 0⟩ (.reg 2) (.reg 3) (.ring 0)) ∧
  decodeWord 0xF206_0504 = .ok (.mldw ⟨true, 0⟩ (.reg 6) 1 0) ∧
  decodeWord 0xF400_0063 = .ok (.mfmt ⟨true, 0⟩ false .bf16 .bf16) ∧
  decodeWord 0xF601_1A00 = .ok (.spld ⟨true, 0⟩ (.reg 1) (.reg 3)) ∧
  decodeWord 0xF804_1000 = .ok (.mli ⟨true, 0⟩ 4 0x1000)) ∧
  (decodeWord 0x8402_8630 = .ok (.mul ⟨true, 0⟩ (.reg 5) (.reg 3) (.reg 6)) ∧
  decodeWord 0x8602_8605 = .ok (.popc ⟨true, 0⟩ (.reg 5) (.reg 3)) ∧
  decodeWord 0x9002_868B = .ok (.shri ⟨true, 0⟩ (.reg 5) (.reg 3) 11) ∧
  decodeWord 0x9C02_0604 = .ok (.pnot ⟨true, 0⟩ 4 3) ∧
  decodeWord 0xA002_8630 = .ok (.sel ⟨true, 0⟩ (.reg 5) (.reg 3) (.reg 6)) ∧
  decodeWord 0xA41F_FFFD = .ok (.call ⟨true, 0⟩ (-3)) ∧
  decodeWord 0xAC02_86BD = .ok (.sst ⟨true, 0⟩ 5 (.reg 3) .b2 (-3)) ∧
  decodeWord 0xAE02_8630 = .ok (.vadd ⟨true, 0⟩ (.reg 5) (.reg 3) (.reg 6)) ∧
  decodeWord 0xB202_8604 = .ok (.vclass ⟨true, 0⟩ (.reg 5) (.reg 3)) ∧
  decodeWord 0xB602_8630 = .ok (.viadd ⟨true, 0⟩ (.reg 5) (.reg 3) (.reg 6)) ∧
  decodeWord 0xB802_8630 = .ok (.viadds ⟨true, 0⟩ (.reg 5) (.reg 3) (.reg 6)) ∧
  decodeWord 0xBA02_8630 = .ok (.vand ⟨true, 0⟩ (.reg 5) (.reg 3) (.reg 6)) ∧
  decodeWord 0xBC02_8630 = .ok (.viceq ⟨true, 0⟩ 5 (.reg 3) (.reg 6)) ∧
  decodeWord 0xC002_8631 = .ok (.vzip ⟨true, 0⟩ (.reg 5) (.reg 3) (.reg 6)) ∧
  decodeWord 0xC602_8602 = .ok (.vmovp ⟨true, 0⟩ (.reg 5) 3) ∧
  decodeWord 0xC800_0022 = .ok (.vfmt ⟨true, 0⟩ true .fp16) ∧
  decodeWord 0xCC02_8630 = .ok (.vdot4s ⟨true, 0⟩ 5 (.reg 3) (.reg 6)) ∧
  decodeWord 0xD202_870C = .ok (.cgath ⟨true, 0⟩ .va 5 (.reg 3) true 12) ∧
  decodeWord 0xD402_870C = .ok (.cscat ⟨true, 0⟩ .va 5 (.reg 3) true 12) ∧
  decodeWord 0xDA02_860B = .ok (.fldv ⟨true, 0⟩ .va 5 (.reg 3) 11) ∧
  decodeWord 0xDE02_8600 = .ok (.fstv ⟨true, 0⟩ .va 5 (.reg 3)) ∧
  decodeWord 0xEE02_8001 = .ok (.ltime ⟨true, 0⟩ (.reg 5)) ∧
  decodeWord 0xFA00_0000 = .ok (.mnop true))

/-- Majors 62 and 63 are illegal whatever the rest of the word holds; a source code of 40 to 63 in an ALU word is a bad source,
and a destination of p0 in a scalar compare is refused (R65, R73, R75). -/
def Obligations.IllegalEncodings : Prop :=
  (∀ w, w < 2 ^ 32 → 62 ≤ fld w 25 6 → decodeWord w = .illegal .badMajor) ∧
  (∀ w, fld w 25 6 = 1 → 40 ≤ fld w 9 6 → ∀ i, decodeWord w ≠ .ok i) ∧
  (∀ w, fld w 25 6 = 1 → 40 ≤ fld w 3 6 → ∀ i, decodeWord w ≠ .ok i) ∧
  (∀ w, fld w 25 6 = 13 → fld w 15 5 = 0 → ∀ i, decodeWord w ≠ .ok i) ∧
  (∀ w, fld w 25 6 = 1 → fld w 20 1 = 1 → fld w 15 5 ≠ 0 → ∀ i, decodeWord w ≠ .ok i)

/-! The step. -/

/-- A step at a tile whose turn it is runs exec of the instruction that its words decode to (R17, R61 to R63, R71): once everything
due at the tick has taken effect (u), the one syllable of the bundle acts, no storage that it is fetched from or reads being struck by
an error (R380); a bundle without a control syllable goes on in address order or to a loop body's start, and the tick ends. -/
def Obligations.StepRunsDecoded : Prop :=
  ∀ (s u v : State) (ds : List Domain) (w : Nat) (sl : Slot) (i : Instr),
    s.inputs = [] → s.turn = ⟨[s.tile.key], none⟩ :: ds →
    ({ s with turn := ds }).swallows ⟨[s.tile.key], none⟩ = false →
    ({ s with turn := ds }).shardFreeze [s.tile.key] = false →
    s.tile.phase = .running →
    ({ s with turn := ds }).fallDue [s.tile.key] = .inl u →
    u.tile.key = s.tile.key → u.tile.phase = .running → u.tile.waits = [] → u.tile.gang.size ≤ 1 →
    u.tile.gang.resumeAt ≤ u.tile.tick →
    u.tile.wordsAt u.tile.pc = [w] → fld w 31 1 = 1 → placeWords 0 0 [w] = [some sl] → decodeWord w = .ok i →
    u.tile.imemStruck u.tile.pc 1 = false → u.tile.consumes sl i = false →
    exec i (u.issuing sl) = .next v → v.untrapped → v.tile.iss.held = none →
    let z := if isControl i then v else v.goOn u.tile.pc
    step s = .next (z.finish [s.tile.key]
      (if z.tile.stopsAt ⟨u.tile.pc, [w], none⟩ then [s.tile.key] else []) s.tile.tick).shardCheck

/-! Reset. -/

/-- What a module reset leaves (R4, R70, R94, R323, R385, R391): READY, no context, launch or queue, HBM and scratchpad zero, the
counter at 0; a tile with every register zero but p0, which is all ones, every latch invalid and the CSRs at their reset
values. That a parked tile with these values stands in focus is the model's choice (log entry 1). -/
def Obligations.WhatResetLeaves : Prop :=
  let s := State.reset
  s.board.power = .ready ∧ s.contexts = [] ∧ s.launches = [] ∧ s.queues = [] ∧ s.counter = 0 ∧
  (∀ a, Mem.read1 s.hbm a = 0) ∧ (∀ a, Mem.read1 s.tile.spad.mem a = 0) ∧ s.hbmPoison = [] ∧
  s.tile.phase = .parked ∧
  (∀ n, s.tile.sreg n = 0) ∧ (∀ f n, s.tile.vreg f n = 0) ∧ (∀ f n, s.tile.xreg f n = 0) ∧ (∀ n, s.tile.mreg n = 0) ∧
  s.tile.pred 0 = -1 ∧ (∀ n, 0 < n → s.tile.pred n = 0) ∧
  (∀ k, s.tile.readS (.latch k) = none) ∧ (∀ k, s.tile.readV (.latch k) = none) ∧ (∀ k, s.tile.readX (.latch k) = none) ∧
  (∀ k, s.tile.readM (.latch k) = none) ∧
  s.tile.csr .fpcr = 0 ∧ s.tile.csr .fpsr = 0 ∧ s.tile.csr .trapcause = 0 ∧ s.tile.csr .tvec = 0 ∧ s.tile.csr .vfmta = 1 ∧
  s.tile.csr .vfmtb = 1 ∧ s.tile.csr .nif = 0x606 ∧ s.tile.csr .ftsel = 0 ∧ (∀ n, n < 16 → s.tile.csr (.ftab n) = 0x01010101) ∧
  s.tile.csr .stepcnt = 0 ∧ s.tile.csr .crgdepth = 0 ∧ (∀ n, s.tile.csr (.lstate n) = 0) ∧ s.tile.csr .lactive = 0 ∧
  s.tile.csr .prebound = 4096 ∧ s.tile.csr .stopflag = 0 ∧ s.tile.csr .maxk = 64

/-! Invariants. -/

/-- The state after reset keeps the invariant: HBM is in its canonical form and the counter is a 64-bit value. -/
def Obligations.ResetInvariant : Prop := State.reset.Inv

/-- Every step keeps the invariant: HBM stays in its canonical form and the global counter stays below 2^64 (R323, R330). -/
def Obligations.StepKeepsInvariant : Prop :=
  ∀ s u : State, s.Inv → step s = .next u → u.Inv

/-- The clocks (R17, R323, R385, R391): a step leaves the wall clock and the counter as they are, or starts a main-clock cycle, or resets
the module, which clears the counter. A cycle adds 1 to the wall clock, and to the counter while the front end runs or has stopped
FATAL; in the other power states the counter stays, but for the end of bring-up, which clears it. That the wall clock counts
main-clock cycles, that a module reset leaves it, that a cycle starts as a step of its own, and when bring-up ends are the model's
choices (log entries 1, 4, 5 and 12). -/
def Obligations.ClockRule : Prop :=
  ∀ s u : State, step s = .next u →
    (u.cycle = s.cycle ∧ u.counter = s.counter) ∨
    (u.cycle = s.cycle + 1 ∧
      (s.board.power = .ready ∨ s.board.power = .fatal → u.counter = (s.counter + 1) % 2 ^ 64) ∧
      (s.board.power ≠ .ready → s.board.power ≠ .fatal →
        u.counter = s.counter ∨ (s.board.power = .boot ∧ s.board.bootAt ≤ u.cycle ∧ u.counter = 0))) ∨
    (u.cycle = s.cycle ∧ u.counter = 0 ∧ ∃ i : Instr, resetsModule i = true ∧
      ((∃ rest : List Input, s.inputs = .op i :: rest) ∨ (s.inputs = [] ∧ .op i ∈ s.waiting)))

/-! Frames: what a syllable leaves as it was when it is issued without a trap. -/

/-- A scalar syllable (R82 to R93) changes nothing at its issue but the results in flight, which are results of slot S due at a
later tick. -/
def Obligations.ScalarFrame : Prop :=
  ∀ (i : Instr) (s u : State), isScalar i = true → exec i s = .next u → u.untrapped →
    s.SameModule u ∧ s.tile.SameRegs u.tile ∧ s.tile.SameControl u.tile ∧ s.tile.SameMemory u.tile ∧
    s.tile.SameEngines u.tile ∧ s.tile.SameTraffic u.tile ∧ u.tile.pc = s.tile.pc ∧ u.tile.waits = s.tile.waits ∧
    ∃ new, u.tile.inflight = s.tile.inflight ++ new ∧
      ∀ p ∈ new, p.slot = .s ∧ s.tile.tick < p.due ∧ p.due ≤ s.tile.tick + 18 ∧ p.eff.isMemory = false ∧ p.eff.isStore = false

/-- A vector syllable (R104 to R135) changes nothing at its issue but the results in flight, which belong to the slot it issues
in: results, flags, predicates and the slot's format register. -/
def Obligations.VectorFrame : Prop :=
  ∀ (i : Instr) (s u : State), isVector i = true → exec i s = .next u → u.untrapped →
    s.SameModule u ∧ s.tile.SameRegs u.tile ∧ s.tile.SameControl u.tile ∧ s.tile.SameMemory u.tile ∧
    s.tile.SameEngines u.tile ∧ s.tile.SameTraffic u.tile ∧ u.tile.pc = s.tile.pc ∧ u.tile.waits = s.tile.waits ∧
    ∃ new, u.tile.inflight = s.tile.inflight ++ new ∧
      ∀ p ∈ new, p.slot = vslotOf s.tile.vfile ∧ s.tile.tick < p.due ∧ p.due ≤ s.tile.tick + 12 ∧
        p.eff.isMemory = false ∧ p.eff.isStore = false

/-- Local loads and stores, moves between files, LTIME and SEEDR (R74, R136 to R140, R150) change nothing at their issue but
the results and stores in flight; the guard record may count a touch (R155). -/
def Obligations.LocalFrame : Prop :=
  ∀ (i : Instr) (s u : State), isLocal i = true → exec i s = .next u → u.untrapped →
    s.SameModule u ∧ s.tile.SameRegs u.tile ∧ s.tile.SameControl u.tile ∧ s.tile.SameMemory u.tile ∧
    s.tile.SameEngines u.tile ∧ s.tile.SameTraffic u.tile ∧ u.tile.pc = s.tile.pc ∧ u.tile.waits = s.tile.waits ∧
    ∃ new, u.tile.inflight = s.tile.inflight ++ new ∧
      ∀ p ∈ new, s.tile.tick < p.due ∧ p.due ≤ s.tile.tick + 6 ∧ p.eff.isMemory = false

/-- Transfers of control, loops, WAITT and TFENCE (R95 to R100, R302, R307) leave every register, CSR, byte, engine and far access
as it was: they change the next bundle, the loop unit, a wait, and for a call the link in flight. So does TRAP (R306), which puts a fault
in flight and may keep a lead's stream from going on, and TRET (R271, R306), which writes INH of TRAPCAUSE and nothing else of
the CSRs and takes up the stream that a gang's trap had put by. EXIT (R308) writes no register, CSR, byte, accumulator or bank; of the
work in flight it keeps what R308 names. -/
def Obligations.TransferFrame : Prop :=
  (∀ (i : Instr) (s u : State), isTransfer i = true → exec i s = .next u → u.untrapped →
    s.SameModule u ∧ s.tile.SameRegs u.tile ∧ u.tile.csrs = s.tile.csrs ∧ u.tile.gov = s.tile.gov ∧ u.tile.seed = s.tile.seed ∧
    u.tile.regions = s.tile.regions ∧ u.tile.faults = s.tile.faults ∧ u.tile.phase = s.tile.phase ∧ u.tile.tick = s.tile.tick ∧
    s.tile.SameMemory u.tile ∧ s.tile.SameEngines u.tile ∧ s.tile.SameTraffic u.tile ∧
    ∃ new, u.tile.inflight = s.tile.inflight ++ new ∧
      ∀ p ∈ new, (∃ tr, p.eff = .fault tr) ∨ p.eff = .sreg 31 (word s.tile.iss.next)) ∧
  (∀ (h : Hdr) (a : Src) (s u : State), exec (.trap h a) s = .next u → u.untrapped →
    s.SameModule u ∧ s.tile.SameRegs u.tile ∧ u.tile.csrs = s.tile.csrs ∧ u.tile.gov = s.tile.gov ∧ u.tile.seed = s.tile.seed ∧
    u.tile.regions = s.tile.regions ∧ u.tile.faults = s.tile.faults ∧ u.tile.phase = s.tile.phase ∧ u.tile.tick = s.tile.tick ∧
    s.tile.SameMemory u.tile ∧ s.tile.SameEngines u.tile ∧ s.tile.SameTraffic { u.tile with gang := s.tile.gang } ∧
    u.tile.gang = { s.tile.gang with resumeAt := u.tile.gang.resumeAt } ∧ u.tile.waits = s.tile.waits ∧
    ∃ new, u.tile.inflight = s.tile.inflight ++ new ∧ ∀ p ∈ new, ∃ tr, p.eff = .fault tr) ∧
  (∀ (h : Hdr) (s u : State), exec (.tret h) s = .next u → u.untrapped →
    s.SameModule u ∧ s.tile.SameRegs u.tile ∧ u.tile.csrs = { s.tile.csrs with trapcause := u.tile.csrs.trapcause } ∧
    (∀ i, i < 64 → i ≠ 13 → bit u.tile.csrs.trapcause i = bit s.tile.csrs.trapcause i) ∧
    u.tile.gov = s.tile.gov ∧ u.tile.seed = s.tile.seed ∧ u.tile.regions = s.tile.regions ∧ u.tile.faults = s.tile.faults ∧
    u.tile.phase = s.tile.phase ∧ u.tile.tick = s.tile.tick ∧ s.tile.SameMemory u.tile ∧ s.tile.SameEngines u.tile ∧
    s.tile.SameTraffic { u.tile with gang := s.tile.gang } ∧ u.tile.waits = s.tile.waits ∧
    u.tile.gang = { s.tile.gang with stream := u.tile.gang.stream, count := u.tile.gang.count, saved := u.tile.gang.saved,
                                     resumeAt := u.tile.gang.resumeAt } ∧
    ∃ new, u.tile.inflight = s.tile.inflight ++ new ∧ ∀ p ∈ new, ∃ tr, p.eff = .fault tr) ∧
  (∀ (h : Hdr) (s u : State), exec (.exit h) s = .next u → u.untrapped →
    s.SameModule u ∧ s.tile.SameRegs u.tile ∧ u.tile.csrs = s.tile.csrs ∧ u.tile.gov = s.tile.gov ∧ u.tile.seed = s.tile.seed ∧
    u.tile.faults = s.tile.faults ∧ u.tile.tick = s.tile.tick ∧ s.tile.SameMemory u.tile ∧ u.tile.mx.accs = s.tile.mx.accs ∧
    u.tile.mx.cfg = s.tile.mx.cfg ∧ u.tile.mx.rings = s.tile.mx.rings ∧ u.tile.casc.banks = s.tile.casc.banks ∧
    u.tile.buffer = s.tile.buffer ∧ (∀ m ∈ u.tile.basin, m ∈ s.tile.basin) ∧ (∀ m ∈ u.tile.skid, m ∈ s.tile.skid) ∧
    u.tile.sent = s.tile.sent ∧ u.tile.gang = s.tile.gang ∧
    ((u.tile.phase = .retired ∧ ∀ p ∈ u.tile.inflight, ∃ q ∈ s.tile.inflight, p = { q with eff := q.eff.withoutResult }) ∨
      (u.tile.phase = s.tile.phase ∧ u.tile.inflight = s.tile.inflight ∧ u.tile.regions = s.tile.regions ∧
        u.tile.waits = s.tile.waits ∧ s.tile.SameEngines u.tile ∧ s.tile.SameTraffic u.tile)))

/-- Far accesses, messages received, atomics, ring accesses and copy commands (R142 to R148, R157 to R163, R236 to R239, R256 to
R258) change no register, CSR or byte at their issue: they add requests, landings, claims, ring operations or commands. SEND, GANG and the
SYNC group (R147, R151, R281 to R301, R309) change none either: they add waits, requests, ring operations and results in flight; SEND alone
puts a message on the links, GANG alone changes the gang, CRGO and CRGC alone the open regions. BOARD and ALIGHT (R232, R233) change
the Rill state of the tile and of its gang and nothing else. -/
def Obligations.TrafficFrame : Prop :=
  (∀ (i : Instr) (s u : State), isTraffic i = true → exec i s = .next u → u.untrapped →
    s.SameModule u ∧ s.tile.SameRegs u.tile ∧ s.tile.SameControl u.tile ∧ s.tile.SameMemory u.tile ∧
    u.tile.mx = s.tile.mx ∧ u.tile.casc = s.tile.casc ∧ u.tile.buffer = s.tile.buffer ∧ u.tile.basin = s.tile.basin ∧
    u.tile.skid = s.tile.skid ∧ u.tile.sent = s.tile.sent ∧ u.tile.berth = s.tile.berth ∧ u.tile.gang = s.tile.gang ∧
    u.tile.pc = s.tile.pc ∧ u.tile.waits = s.tile.waits ∧ (∃ more, u.tile.landings = s.tile.landings ++ more) ∧
    (∃ more, u.tile.far = s.tile.far ++ more) ∧ (∃ more, u.tile.station = s.tile.station ++ more)) ∧
  (∀ (i : Instr) (s u : State), isSync i = true → exec i s = .next u → u.untrapped →
    s.SameModule { u with launches := s.launches } ∧
    u.launches.map (fun l => { l with links := [] }) = s.launches.map (fun l => { l with links := [] }) ∧
    s.tile.SameRegs u.tile ∧ u.tile.csrs = s.tile.csrs ∧ u.tile.gov = s.tile.gov ∧ u.tile.seed = s.tile.seed ∧
    u.tile.loops = s.tile.loops ∧ u.tile.faults = s.tile.faults ∧ u.tile.phase = s.tile.phase ∧ u.tile.tick = s.tile.tick ∧
    s.tile.SameMemory u.tile ∧ s.tile.SameEngines u.tile ∧ u.tile.pc = s.tile.pc ∧
    (∃ far station, s.tile.SameTraffic { u.tile with far := s.tile.far, station := s.tile.station, sent := s.tile.sent,
                                                     gang := s.tile.gang } ∧
      u.tile.far = s.tile.far ++ far ∧ u.tile.station = s.tile.station ++ station) ∧
    (∃ more, u.tile.waits = s.tile.waits ++ more) ∧
    (∃ new, u.tile.inflight = s.tile.inflight ++ new ∧ ∀ p ∈ new, p.slot = fileSlot s.tile.cfile ∧ s.tile.tick < p.due ∧
      p.due ≤ s.tile.tick + 6 ∧ ((∃ a n k, p.eff = .arrive a n k) ∨ p.eff = .stepInc ∨ ∃ b, p.eff = .depth b)) ∧
    ((∀ h f v x, i ≠ .send h f v x) → u.launches = s.launches ∧ u.tile.sent = s.tile.sent) ∧
    ((∀ h a b, i ≠ .gang h a b) → u.tile.gang = s.tile.gang) ∧
    ((∀ h a, i ≠ .crgo h a) → (∀ h, i ≠ .crgc h) → u.tile.regions = s.tile.regions)) ∧
  (∀ (i : Instr) (h : Hdr) (s u : State), i ∈ [.board h, .alight h, .alightFree h] → exec i s = .next u → u.untrapped →
    s.SameModule { u with others := s.others } ∧ u.tile = { s.tile with berth := u.tile.berth, iss := u.tile.iss } ∧
    (u.others = s.others ∨
      u.others = s.others.map fun t => if sameGang s.tile t then { t with berth := u.tile.berth } else t))

/-- The syllables of slot M (R189 to R204, R211 to R221) change no register, CSR or byte at their issue, nor anything of the far
path, the Rill or the copy queues. -/
def Obligations.MatrixSlotFrame : Prop :=
  ∀ (i : Instr) (s u : State), isMatrixSlot i = true → exec i s = .next u → u.untrapped →
    s.SameModule u ∧ s.tile.SameRegs u.tile ∧ s.tile.SameControl u.tile ∧ s.tile.SameMemory u.tile ∧
    s.tile.SameTraffic u.tile ∧ u.tile.queues = s.tile.queues ∧ u.tile.mx.accs = s.tile.mx.accs ∧
    u.tile.mx.cfg = s.tile.mx.cfg ∧ u.tile.mx.rings = s.tile.mx.rings ∧ u.tile.casc.banks = s.tile.casc.banks ∧
    u.tile.pc = s.tile.pc ∧ u.tile.waits = s.tile.waits ∧
    ∃ new, u.tile.inflight = s.tile.inflight ++ new ∧
      ∀ p ∈ new, p.slot = .m ∧ s.tile.tick < p.due ∧ p.due ≤ s.tile.tick + 3 ∧ p.eff.isMemory = false ∧ p.eff.isStore = false

/-! The guard. -/

/-- A syllable of a scalar, copy or matrix slot whose guard's bit 0 is 0 leaves the whole state as it was (R69); a control syllable then
goes on to the next bundle that the loop unit decides (R95, R100). A syllable of slot S, CA, CB or M with its guard on that reads an
invalid latch raises LATCHLOST (R68): every one of them but BAR, whose hold and checks of R293 come first. So do, whatever the guard
is, SEL and syllables of every group of the vector slots, under a format that they accept. That MLDW raises it whatever COMBO or other
check of R191 it meets too, whose order does not name LATCHLOST, is the model's choice (log entry 74), and so are the bits of its
TRAPINFO (log entry 16). -/
def Obligations.GuardAndLatches : Prop :=
  ((∀ (i : Instr) (g : Nat) (s : State), plainGuard i = some g → bit (s.tile.pred g) 0 = false → exec i s = .next s) ∧
   (∀ (i : Instr) (g : Nat) (s : State), controlGuard i = some g → bit (s.tile.pred g) 0 = false → s.tile.iss.follow = none →
     exec i s = s.nextTile s.tile.advance)) ∧
  (∀ (i : Instr) (g : Nat) (s : State), plainGuard i = some g ∨ (controlGuard i = some g ∧ s.tile.iss.follow = none) →
     bit (s.tile.pred g) 0 = true → s.tile.readsLost i = true → exec i s = .next (s.takeTrap (lostTrap s.tile))) ∧
  (∀ (s : State) (h : Hdr) (d : Dest) (r q : Nat) (a b : Src),
     let lost (i : Instr) : Prop := exec i s = .next (s.takeTrap (lostTrap s.tile))
     let fmt := (s.tile.vctx h).fmt
     (s.tile.readS a = none → lost (.sel h d a b) ∧ lost (.sel h d b a)) ∧
     (s.tile.readV a = none →
       (okLane fmt = true → lost (.vand h d a b) ∧ lost (.vor h d b a) ∧ lost (.vnot h d a) ∧ lost (.vperm h d b a) ∧
         lost (.vsplat h d a b) ∧ lost (.vcmprs h d a q) ∧ lost (.vrand h d a q) ∧ lost (.vsel h d a b)) ∧
       (okFloatPs fmt = true → lost (.vadd h d a b) ∧ lost (.vmul h d b a) ∧ lost (.vfclt h r a b) ∧ lost (.vrsum h d a q)) ∧
       (okFloat fmt = true → lost (.vfma h r a b) ∧ lost (.vdiv h r b a) ∧ lost (.vexp2 h d a) ∧ lost (.vclass h d a)) ∧
       (okInt fmt = true → lost (.viadd h d a b) ∧ lost (.viadds h d b a) ∧ lost (.viclt h r a b)) ∧
       (okRandom fmt = true → lost (.vrng h d a)) ∧ lost (.vdot4s h r a b)))

/-! Scalar results. -/

/-- The two-source operations of ALU, MUL and BIT (R83): the result of each and its latency. -/
def Obligations.ScalarArithmetic : Prop :=
  ∀ (s : State) (h : Hdr) (d : Dest) (a b : Src) (x y : Word),
    s.tile.guarded h = true → s.tile.readS a = some x → s.tile.readS b = some y →
    let put (lat : Nat) (v : Word) := s.nextTile (s.tile.putS lat d v)
    let sh := y.toNat % 64
    exec (.add h d a b) s = put 1 (x + y) ∧ exec (.sub h d a b) s = put 1 (x - y) ∧
    exec (.and h d a b) s = put 1 (x &&& y) ∧ exec (.or h d a b) s = put 1 (x ||| y) ∧
    exec (.xor h d a b) s = put 1 (x ^^^ y) ∧ exec (.shl h d a b) s = put 1 (x <<< sh) ∧
    exec (.shr h d a b) s = put 1 (x >>> sh) ∧ exec (.sra h d a b) s = put 1 (x.sshiftRight sh) ∧
    exec (.mul h d a b) s = put 3 (x * y) ∧
    exec (.mulh h d a b) s = put 3 (BitVec.ofInt 64 (x.toInt * y.toInt / 2 ^ 64)) ∧
    exec (.mulhu h d a b) s = put 3 (BitVec.ofNat 64 (x.toNat * y.toNat / 2 ^ 64)) ∧
    exec (.min h d a b) s = put 1 (if y.toInt < x.toInt then y else x) ∧
    exec (.max h d a b) s = put 1 (if y.toInt < x.toInt then x else y) ∧
    exec (.minu h d a b) s = put 1 (if y.toNat < x.toNat then y else x) ∧
    exec (.maxu h d a b) s = put 1 (if y.toNat < x.toNat then x else y) ∧
    exec (.rotl h d a b) s = put 1 (x <<< sh ||| x >>> (64 - sh))

/-- Division (R84): every operand pair has a result 18 ticks after issue, with the corners b = 0 and −2^63 / −1 as the table gives. The
unary operations (R83): CLZ, POPC, CTZ and BSWAP, each said of the bits of its source. -/
def Obligations.DivisionAndBits : Prop :=
  (∀ (s : State) (h : Hdr) (d : Dest) (a b : Src) (x y : Word),
     s.tile.guarded h = true → s.tile.readS a = some x → s.tile.readS b = some y →
     ∃ q r qu ru : Word,
       exec (.div h d a b) s = s.nextTile (s.tile.putS 18 d q) ∧ exec (.rem h d a b) s = s.nextTile (s.tile.putS 18 d r) ∧
       exec (.divu h d a b) s = s.nextTile (s.tile.putS 18 d qu) ∧ exec (.remu h d a b) s = s.nextTile (s.tile.putS 18 d ru) ∧
       (y = 0 → q = -1 ∧ r = x ∧ qu = -1 ∧ ru = x) ∧
       (y ≠ 0 → qu.toNat = x.toNat / y.toNat ∧ ru.toNat = x.toNat % y.toNat) ∧
       (x.toInt = -(2 ^ 63) → y = -1 → q = x ∧ r = 0) ∧
       (y ≠ 0 → ¬(x.toInt = -(2 ^ 63) ∧ y = -1) →
         q.toInt = x.toInt.tdiv y.toInt ∧ r.toInt = x.toInt - y.toInt * x.toInt.tdiv y.toInt)) ∧
  (∀ (s : State) (h : Hdr) (d : Dest) (a : Src) (x : Word), s.tile.guarded h = true → s.tile.readS a = some x →
     ∃ (n k c : Nat) (v : Word),
       exec (.clz h d a) s = s.nextTile (s.tile.putS 1 d (BitVec.ofNat 64 n)) ∧
       exec (.ctz h d a) s = s.nextTile (s.tile.putS 1 d (BitVec.ofNat 64 k)) ∧
       exec (.popc h d a) s = s.nextTile (s.tile.putS 1 d (BitVec.ofNat 64 c)) ∧
       exec (.bswap h d a) s = s.nextTile (s.tile.putS 1 d v) ∧
       (n ≤ 64 ∧ (∀ i, i < n → x.getLsbD (63 - i) = false) ∧ (n < 64 → x.getLsbD (63 - n) = true)) ∧
       (k ≤ 64 ∧ (∀ i, i < k → x.getLsbD i = false) ∧ (k < 64 → x.getLsbD k = true)) ∧
       c = ((List.range 64).filter fun i => x.getLsbD i).length ∧
       ∀ i, i < 8 → bits v (8 * i) 8 = bits x (56 - 8 * i) 8)

/-- Immediates (R85 to R87): the operations with IMM9 sign-extended, the shifts by a constant, LIS and the insertions of 16 bits, each written
at issue + 1, to the latches alone where W is 1; and what the fields of their words give: IMM9 in two's complement, the shift that IMM9 [8:7]
selects by IMM9 [5:0] with IMM9 [6] zero, IMM16. -/
def Obligations.Immediates : Prop :=
  (∀ (s : State) (h : Hdr) (d : Dest) (a : Src) (x : Word) (imm : Int) (n r i : Nat),
    s.tile.guarded h = true → s.tile.readS a = some x → n < 64 → i < 65536 →
    let put (v : Word) := s.nextTile (s.tile.putS 1 d v)
    exec (.addi h d a imm) s = put (x + BitVec.ofInt 64 imm) ∧ exec (.andi h d a imm) s = put (x &&& BitVec.ofInt 64 imm) ∧
    exec (.ori h d a imm) s = put (x ||| BitVec.ofInt 64 imm) ∧ exec (.xori h d a imm) s = put (x ^^^ BitVec.ofInt 64 imm) ∧
    exec (.shli h d a n) s = put (x <<< n) ∧ exec (.shri h d a n) s = put (x >>> n) ∧
    exec (.srai h d a n) s = put (x.sshiftRight n) ∧ exec (.rotli h d a n) s = put (x <<< n ||| x >>> (64 - n)) ∧
    (∃ v : Word, exec (.lis h r i) s = s.nextTile (s.tile.putS 1 (.reg r) v) ∧
      v.toInt = if i < 32768 then (i : Int) else (i : Int) - 65536) ∧
    (∃ u v w : Word,
      exec (.ins1 h r i) s = s.nextTile (s.tile.putS 1 (.reg r) u) ∧
      exec (.ins2 h r i) s = s.nextTile (s.tile.putS 1 (.reg r) v) ∧
      exec (.ins3 h r i) s = s.nextTile (s.tile.putS 1 (.reg r) w) ∧
      (bits u 16 16 = i ∧ bits u 0 16 = bits (s.tile.sreg r) 0 16 ∧ bits u 32 32 = bits (s.tile.sreg r) 32 32) ∧
      (bits v 32 16 = i ∧ bits v 0 32 = bits (s.tile.sreg r) 0 32 ∧ bits v 48 16 = bits (s.tile.sreg r) 48 16) ∧
      (bits w 48 16 = i ∧ bits w 0 48 = bits (s.tile.sreg r) 0 48))) ∧
  (∀ (w : Nat) (i : Instr), decodeWord w = .ok i →
    let h := hdrOf w
    let d : Dest := if fld w 20 1 = 1 then .suppressed else .reg (fld w 15 5)
    let a := srcOf (fld w 9 6)
    let imm : Int := if fld w 0 9 < 256 then (fld w 0 9 : Int) else (fld w 0 9 : Int) - 512
    (fld w 25 6 = 4 → i = .addi h d a imm) ∧ (fld w 25 6 = 5 → i = .andi h d a imm) ∧ (fld w 25 6 = 6 → i = .ori h d a imm) ∧
    (fld w 25 6 = 7 → i = .xori h d a imm) ∧
    (fld w 25 6 = 8 → (fld w 7 2 = 0 → i = .shli h d a (fld w 0 6)) ∧ (fld w 7 2 = 1 → i = .shri h d a (fld w 0 6)) ∧
      (fld w 7 2 = 2 → i = .srai h d a (fld w 0 6)) ∧ (fld w 7 2 = 3 → i = .rotli h d a (fld w 0 6))) ∧
    (fld w 25 6 = 9 → i = .lis h (fld w 16 5) (fld w 0 16)) ∧ (fld w 25 6 = 10 → i = .ins1 h (fld w 16 5) (fld w 0 16)) ∧
    (fld w 25 6 = 11 → i = .ins2 h (fld w 16 5) (fld w 0 16)) ∧ (fld w 25 6 = 12 → i = .ins3 h (fld w 16 5) (fld w 0 16))) ∧
  (∀ w, fld w 25 6 = 8 → fld w 6 1 = 1 → decodeWord w = .illegal .badCode)

/-- Compares (R88): all 64 bits of the predicate at issue + 1, all ones when the condition holds, else all zeros. PLOG bit by bit, SEL by
the guard and never suppressed, MOVP, MOVTP (R89, R90); SNOP, VNOP, CNOP and MNOP change nothing (R82, R134, R150, R192), and a VNOP
has no bit below its major. -/
def Obligations.ComparesAndPredicates : Prop :=
  (∀ (s : State) (h : Hdr) (d : Nat) (a b : Src) (x y : Word),
     s.tile.guarded h = true → s.tile.readS a = some x → s.tile.readS b = some y →
     let put (v : Bool) := s.nextTile (s.tile.put 1 .s (.pred d (if v then -1 else 0)))
     exec (.cmpeq h d a b) s = put (decide (x = y)) ∧ exec (.cmpne h d a b) s = put (decide (x ≠ y)) ∧
     exec (.cmplt h d a b) s = put (decide (x.toInt < y.toInt)) ∧ exec (.cmpltu h d a b) s = put (decide (x.toNat < y.toNat)) ∧
     exec (.cmple h d a b) s = put (decide (x.toInt ≤ y.toInt)) ∧ exec (.cmpleu h d a b) s = put (decide (x.toNat ≤ y.toNat)) ∧
     exec (.cmptst h d a b) s = put (decide (x &&& y ≠ 0))) ∧
  ((∀ (s : State) (h : Hdr) (d a b : Nat), s.tile.guarded h = true →
     let put (v : Word) := s.nextTile (s.tile.put 1 .s (.pred d v))
     let x := s.tile.pred a
     let y := s.tile.pred b
     exec (.pand h d a b) s = put (x &&& y) ∧ exec (.por h d a b) s = put (x ||| y) ∧ exec (.pxor h d a b) s = put (x ^^^ y) ∧
     exec (.pandn h d a b) s = put (x &&& ~~~y) ∧ exec (.pnot h d a) s = put (~~~x) ∧ exec (.pmov h d a) s = put x ∧
     exec (.pset h d) s = put (-1) ∧ exec (.pclr h d) s = put 0) ∧
   (∀ (s : State) (h : Hdr) (d : Dest) (a b : Src) (x y : Word), s.tile.readS a = some x → s.tile.readS b = some y →
     exec (.sel h d a b) s = s.nextTile (s.tile.putS 1 d (if s.tile.guarded h then x else y))) ∧
   (∀ (s : State) (h : Hdr) (d : Dest) (a : Nat), s.tile.guarded h = true →
     exec (.movp h d a) s = s.nextTile (s.tile.putS 1 d (s.tile.pred a))) ∧
   (∀ (s : State) (h : Hdr) (d : Nat) (a : Src) (x : Word), s.tile.guarded h = true → s.tile.readS a = some x →
     exec (.movtp h d a) s = s.nextTile (s.tile.put 1 .s (.pred d x))) ∧
   (∀ (s : State) (e : Bool), exec (.snop e) s = .next s ∧ exec (.vnop e) s = .next s ∧ exec (.cnop e) s = .next s ∧
     exec (.mnop e) s = .next s) ∧
   (∀ w, fld w 25 6 = 37 → fld w 0 25 ≠ 0 → ∀ i, decodeWord w ≠ .ok i) ∧
   decodeWord 0x4A00_0000 = .ok (.vnop false) ∧ decodeWord 0xCA00_0000 = .ok (.vnop true))

/-- CSR access (R91 to R93): CSRR at issue + 1; a legal write of a register marked RW is stored, and governs at its tick; a
register marked PR raises PRIV, one marked RO and a forbidden value raise ILLEGAL with reason 11. -/
def Obligations.CsrAccess : Prop :=
  ∀ (s : State) (h : Hdr) (d : Nat) (c : Csr), s.tile.guarded h = true →
    let t := s.tile
    exec (.csrr h d c) s = s.nextTile (t.put 1 .s (.sreg d (t.csr c))) ∧
    (csrAccess c = .rw →
      (csrLegal c (t.sreg d) = true → exec (.csrw h d c) s = s.nextTile (t.putCsr c (t.sreg d &&& word (csrMask c)))) ∧
      (csrLegal c (t.csr c ||| t.sreg d) = true →
        exec (.csrs h d c) s = s.nextTile (t.putCsr c ((t.csr c ||| t.sreg d) &&& word (csrMask c)))) ∧
      (csrLegal c (t.csr c &&& ~~~(t.sreg d)) = true →
        exec (.csrc h d c) s = s.nextTile (t.putCsr c ((t.csr c &&& ~~~(t.sreg d)) &&& word (csrMask c)))) ∧
      (csrLegal c (t.sreg d) = false → exec (.csrw h d c) s = .next (s.takeTrap (illegalTrap t.iss.pos .badCsrValue)))) ∧
    (csrAccess c = .ro →
      exec (.csrw h d c) s = .next (s.takeTrap (illegalTrap t.iss.pos .badCsrValue)) ∧
      exec (.csrs h d c) s = .next (s.takeTrap (illegalTrap t.iss.pos .badCsrValue)) ∧
      exec (.csrc h d c) s = .next (s.takeTrap (illegalTrap t.iss.pos .badCsrValue))) ∧
    (csrAccess c = .pr →
      exec (.csrw h d c) s = .next (s.takeTrap (privTrap t.iss.pos c)) ∧
      exec (.csrs h d c) s = .next (s.takeTrap (privTrap t.iss.pos c)) ∧
      exec (.csrc h d c) s = .next (s.takeTrap (privTrap t.iss.pos c)))

/-! Control. -/

/-- Branches, calls and loops of a tile in no gang (R95, R96, R99, R100). The next bundle is the target; a jump leaves the bodies that do
not hold it, a call writes its link to s31 at issue + 1 and leaves none. LOOP with a count enters its level, active and innermost,
and goes to the body's first bundle; with a count of 0 it goes to the bundle after the body; only a[31:0] counts. At the end of the
innermost body one iteration is taken off and the index rises, and on the last iteration the level goes. -/
def Obligations.ControlTransfers : Prop :=
  (∀ (s : State) (h : Hdr) (o : Int) (a : Src) (p : Nat),
     s.tile.guarded h = true → s.tile.iss.follow = none → s.tile.isStart p = true →
     let t := s.tile
     let jump : Tile := { t with pc := p, loops := t.loops.leave t.iss.addr p t.loops.order, iss := { t.iss with taken := true } }
     let call : Tile := ({ t with pc := p, iss := { t.iss with taken := true } }).putS 1 (.reg 31) (BitVec.ofNat 64 t.iss.next)
     ((t.iss.addr : Int) + 4 * o = p → exec (.br h o) s = s.nextTile jump ∧ exec (.call h o) s = s.nextTile call) ∧
     (∀ x : Word, t.readS a = some x → x.toNat = p →
       exec (.jmpr h a) s = s.nextTile jump ∧ exec (.callr h a) s = s.nextTile call)) ∧
  (∀ (s : State) (h : Hdr) (l len stop : Nat) (a b : Src) (x y : Word),
     s.tile.guarded h = true → s.tile.iss.follow = none → s.tile.readS a = some x → s.tile.readS b = some y →
     y.toNat = len → 0 < len → len ≤ s.tile.csrs.prebound.toNat → s.tile.nthStart s.tile.iss.addr len = some stop →
     let t := s.tile
     let u := if (t.loops.level l).isSome then t.loops.drop l else t.loops
     (∀ n, x.toNat % 2 ^ 32 = n → 0 < n →
       let v : Tile := { t with
         loops := { levels := u.levels.set l (some ⟨t.tick, t.iss.next, stop, n, 0⟩), order := l :: u.order }, pc := t.iss.next }
       exec (.loop h l a len) s = s.nextTile v ∧ exec (.loopr h l a b) s = s.nextTile v) ∧
     (∀ after, x.toNat % 2 ^ 32 = 0 → t.startAfter stop 32768 = some after →
       exec (.loop h l a len) s = s.nextTile { t with loops := u, pc := after } ∧
       exec (.loopr h l a b) s = s.nextTile { t with loops := u, pc := after })) ∧
  (∀ (t : Tile) (l : Nat) (rest : List Nat) (v : LoopLevel), t.loops.order = l :: rest → t.loops.level l = some v →
     (t.iss.addr ≠ v.stop → t.advance = { t with pc := t.iss.next, iss := { t.iss with edge := false } }) ∧
     (t.iss.addr = v.stop → 1 < v.remain →
       t.advance = { t with loops := t.loops.setLevel l { v with remain := v.remain - 1, index := v.index + 1 }, pc := v.start,
                            iss := { t.iss with edge := true } }) ∧
     (t.iss.addr = v.stop → v.remain ≤ 1 → rest = [] →
       t.advance = { t with loops := t.loops.drop l, pc := t.iss.next, iss := { t.iss with edge := false } }))

/-- TRAP, TRET, TFENCE, WAITT and EXIT of a tile in no gang, where nothing holds them (R293, R302, R306 to R308). That TFENCE goes by the
FPCR that governs at its tick (log entry 40), and WAITT by the low 64 bits of the tick (log entry 25), are the model's readings. -/
def Obligations.TrapsAndWaits : Prop :=
  ∀ (s : State) (h : Hdr) (a : Src) (x : Word),
    s.tile.guarded h = true → s.tile.iss.follow = none → s.tile.gang.size = 1 → s.tile.readS a = some x →
    let t := s.tile
    (t.pos = 0 → let u := (t.put 1 .s (.fault (infoTrap .user t.iss.pos x))).advance
      exec (.trap h a) s = s.nextTile { u with iss := { u.iss with taken := true } }) ∧
    (t.isStart (bits t.csrs.trappc 0 17) = true →
      ∃ u, exec (.tret h) s = s.nextTile u ∧ u.pc = bits t.csrs.trappc 0 17 ∧ bit u.csrs.trapcause 13 = false ∧
        (∀ i, i < 64 → i ≠ 13 → bit u.csrs.trapcause i = bit t.csrs.trapcause i) ∧ t.SameRegs u ∧ u.inflight = t.inflight) ∧
    (t.storesOpen = false → t.iss.record = none → t.faults = [] →
      (enabledFlags t.gov.fpcr t.csrs.fpsr = 0 → exec (.tfence h) s = s.nextTile t.advance) ∧
      (enabledFlags t.gov.fpcr t.csrs.fpsr ≠ 0 →
        exec (.tfence h) s = .next (s.takeTrap (infoTrap .arith t.iss.pos (enabledFlags t.gov.fpcr t.csrs.fpsr)))) ∧
      exec (.exit h) s = s.nextTile t.retire ∧ t.retire.phase = .retired ∧ t.retire.landings = [] ∧ t.retire.regions = [] ∧
      t.retire.mx.active = none ∧ t.retire.casc.subs = [] ∧ t.retire.berth = .free) ∧
    (t.ltime < x.toNat → exec (.waitt h a) s = s.nextTile (t.addWait (t.tickAt x.toNat) .tick).advance) ∧
    (x.toNat ≤ t.ltime → exec (.waitt h a) s = .next (s.takeTrap (infoTrap .timepast t.iss.pos x)))

/-! Vector syllables. -/

/-- The floating-point syllables of the vector slots (R108 to R112): under an accepted format the lanes of the result at their latency. -/
def Obligations.VectorFloat : Prop :=
  ∀ (s : State) (h : Hdr) (d : Dest) (r : Nat) (a b : Src) (x y : VReg), s.tile.readV a = some x → s.tile.readV b = some y →
    let c := s.tile.vctx h
    let xs := lanesOf c.w c.n x.toNat
    let ys := lanesOf c.w c.n y.toNat
    let two (d : Dest) (lat : Nat) (ok : Fmt → Bool) (f : VCtx → List Nat → List Nat → List (Nat × Flags)) (i : Instr) : Prop :=
      ok c.fmt = true → exec i s = s.nextTile (s.tile.putLanes c lat d (f c xs ys))
    let one (d : Dest) (lat : Nat) (ok : Fmt → Bool) (f : VCtx → List Nat → List (Nat × Flags)) (i : Instr) : Prop :=
      ok c.fmt = true → exec i s = s.nextTile (s.tile.putLanes c lat d (f c xs))
    let three (f : VCtx → Nat → Nat → Nat → Nat × Flags) (i : Instr) : Prop :=
      okFloat c.fmt = true → exec i s = s.nextTile (s.tile.putLanes c 4 (.reg r)
        ((List.zip xs (List.zip ys (lanesOf c.w c.n (s.tile.vreg s.tile.vfile r).toNat))).map fun z => f c z.1 z.2.1 z.2.2))
    two d 4 okFloatPs (lanes2 addLane) (.vadd h d a b) ∧ two d 4 okFloat (lanes2 subLane) (.vsub h d a b) ∧
    two d 4 okFloatPs (lanes2 mulLane) (.vmul h d a b) ∧ two d 4 okFloatPs (lanes2 minLane) (.vmin h d a b) ∧
    two d 4 okFloatPs (lanes2 maxLane) (.vmax h d a b) ∧ one d 4 okSign (lanes1 absLane) (.vabs h d a) ∧
    one d 4 okSign (lanes1 negLane) (.vneg h d a) ∧ two d 4 okSign (lanes2 cpsLane) (.vcps h d a b) ∧
    three (fmaLane false false) (.vfma h r a b) ∧ three (fmaLane false true) (.vfms h r a b) ∧
    three (fmaLane true true) (.vfnma h r a b) ∧ three (fmaLane true false) (.vfnms h r a b) ∧
    two (.reg r) 12 okFloat (lanes2 divLane) (.vdiv h r a b) ∧ one (.reg r) 12 okFloat (lanes1 sqrtLane) (.vsqrt h r a) ∧
    one (.reg r) 8 okFloat (lanes1 rcpLane) (.vrcp h r a) ∧ one (.reg r) 8 okFloat (lanes1 rsqLane) (.vrsq h r a) ∧
    one d 8 okFloat (lanes1 exp2Lane) (.vexp2 h d a) ∧ one d 8 okFloat (lanes1 log2Lane) (.vlog2 h d a) ∧
    one d 3 okFloat (fun c => lanes1 (rintLane c.rm true) c) (.vrint h d a) ∧
    one d 3 okFloat (lanes1 (rintLane .rtz false)) (.vrintz h d a) ∧ one d 2 okFloat (lanes1 classLane) (.vclass h d a) ∧
    two d 4 okFloat (lanes2 scaleLane) (.vscale h d a b) ∧ one d 2 okFloat (lanes1 getexpLane) (.vgetexp h d a) ∧
    two d 4 okFloat (lanes2 minnumLane) (.vminnum h d a b)

/-- The integer syllables of the vector slots (R116 to R119): under an accepted format the lanes of the result at their latency. -/
def Obligations.VectorInteger : Prop :=
  ∀ (s : State) (h : Hdr) (d : Dest) (a b : Src) (x y : VReg), s.tile.readV a = some x → s.tile.readV b = some y →
    let c := s.tile.vctx h
    let xs := lanesOf c.w c.n x.toNat
    let ys := lanesOf c.w c.n y.toNat
    let two (d : Dest) (lat : Nat) (ok : Fmt → Bool) (f : VCtx → List Nat → List Nat → List (Nat × Flags)) (i : Instr) : Prop :=
      ok c.fmt = true → exec i s = s.nextTile (s.tile.putLanes c lat d (f c xs ys))
    let one (d : Dest) (lat : Nat) (ok : Fmt → Bool) (f : VCtx → List Nat → List (Nat × Flags)) (i : Instr) : Prop :=
      ok c.fmt = true → exec i s = s.nextTile (s.tile.putLanes c lat d (f c xs))
    two d 2 okInt (lanes2 (intLane true (fun a b => a + b))) (.viadd h d a b) ∧
    two d 2 okInt (lanes2 (intLane true (fun a b => a - b))) (.visub h d a b) ∧
    two d 4 okInt (lanes2 (intLane true (fun a b => a * b))) (.vimul h d a b) ∧
    two d 4 okInt (lanes2 mulhLane) (.vimulh h d a b) ∧
    two d 2 okInt (lanes2 (intLane true (fun a b => min a b))) (.vimin h d a b) ∧
    two d 2 okInt (lanes2 (intLane true (fun a b => max a b))) (.vimax h d a b) ∧
    two d 2 okInt (lanes2 (intLane false (fun a b => min a b))) (.viminu h d a b) ∧
    two d 2 okInt (lanes2 (intLane false (fun a b => max a b))) (.vimaxu h d a b) ∧
    two d 2 okInt (lanes2 (satLane true (fun a b => a + b))) (.viadds h d a b) ∧
    two d 2 okInt (lanes2 (satLane false (fun a b => a + b))) (.viaddsu h d a b) ∧
    two d 2 okInt (lanes2 (satLane true (fun a b => a - b))) (.visubs h d a b) ∧
    two d 2 okInt (lanes2 (satLane false (fun a b => a - b))) (.visubsu h d a b) ∧
    one d 2 okInt (lanes1 (satLane1 fun a => (a.natAbs : Int))) (.viabs h d a) ∧
    one d 2 okInt (lanes1 (satLane1 fun a => -a)) (.vineg h d a) ∧
    two d 2 okInt (lanes2 (satLane true fun a b => (a + b + 1) / 2)) (.viavg h d a b) ∧
    two d 2 okInt (lanes2 (satLane false fun a b => (a + b + 1) / 2)) (.viavgu h d a b) ∧
    two d 2 okLane (lanes2 (bitLane fun a b => a &&& b)) (.vand h d a b) ∧
    two d 2 okLane (lanes2 (bitLane fun a b => a ||| b)) (.vor h d a b) ∧
    two d 2 okLane (lanes2 (bitLane fun a b => a ^^^ b)) (.vxor h d a b) ∧
    two d 2 okLane (fun c => lanes2 (bitLane fun a b => a &&& (2 ^ c.vb - 1 - b)) c) (.vandn h d a b) ∧
    two d 2 okLane (lanes2 shlLane) (.vshl h d a b) ∧ two d 2 okLane (lanes2 shrLane) (.vshr h d a b) ∧
    two d 2 okLane (lanes2 sraLane) (.vsra h d a b) ∧ one d 2 okLane (lanes1 notLane) (.vnot h d a)

/-- The compares of the vector slots (R107, R114, R120): a predicate at issue + 2 with the flags of its lanes. That the bits of lanes that
are off are those that the predicate held at issue is the model's choice (log entry 70). -/
def Obligations.VectorCompares : Prop :=
  ∀ (s : State) (h : Hdr) (r : Nat) (a b : Src) (x y : VReg), s.tile.readV a = some x → s.tile.readV b = some y →
    let c := s.tile.vctx h
    let xs := lanesOf c.w c.n x.toNat
    let ys := lanesOf c.w c.n y.toNat
    let slot := vslotOf s.tile.vfile
    let cmp (ok : Fmt → Bool) (f : VCtx → Nat → Nat → Bool × Flags) (i : Instr) : Prop :=
      let rs := (List.zip xs ys).map fun z => f c z.1 z.2
      ok c.fmt = true → exec i s = s.nextTile
        ((s.tile.put 2 slot (.pred r (maskOf c (s.tile.pred h.g) (s.tile.pred r) (rs.map (·.1))))).putFlags 2 slot
          (guardFlags c.guards (rs.map (·.2))))
    cmp okFloatPs (floatCompare false false (eqVal)) (.vfceq h r a b) ∧
    cmp okFloatPs (floatCompare false true (fun a b => !eqVal a b)) (.vfcne h r a b) ∧
    cmp okFloatPs (floatCompare true false (FVal.lt false)) (.vfclt h r a b) ∧
    cmp okFloatPs (floatCompare true false (fun a b => !FVal.lt false b a)) (.vfcle h r a b) ∧
    cmp okFloatPs (floatCompare true false (fun a b => FVal.lt false b a)) (.vfcgt h r a b) ∧
    cmp okFloatPs (floatCompare true false (fun a b => !FVal.lt false a b)) (.vfcge h r a b) ∧
    cmp okFloatPs (floatCompare false true (fun _ _ => false)) (.vfcunord h r a b) ∧
    cmp okFloatPs (floatCompare false false (fun _ _ => true)) (.vfcord h r a b) ∧
    cmp okInt (intCompare true (fun a b => a == b)) (.viceq h r a b) ∧
    cmp okInt (intCompare true (fun a b => a != b)) (.vicne h r a b) ∧
    cmp okInt (intCompare true (fun a b => decide (a < b))) (.viclt h r a b) ∧
    cmp okInt (intCompare false (fun a b => decide (a < b))) (.vicltu h r a b) ∧
    cmp okInt (intCompare true (fun a b => decide (a ≤ b))) (.vicle h r a b) ∧
    cmp okInt (intCompare false (fun a b => decide (a ≤ b))) (.vicleu h r a b) ∧
    cmp okInt (fun c => intCompare true (fun x y => (wrapInt c.vb x &&& wrapInt c.vb y) != 0) c) (.victst h r a b)

/-- Movement of lanes, reductions and lane sources (R124 to R131): the lanes of the result at their latency; VSEL writes every lane, from a where the guard is on and from b elsewhere. -/
def Obligations.VectorMoves : Prop :=
  ∀ (s : State) (h : Hdr) (d : Dest) (r q imm : Nat) (a b : Src) (x y : VReg), s.tile.readV a = some x → s.tile.readV b = some y →
    let c := s.tile.vctx h
    let xs := lanesOf c.w c.n x.toNat
    let ys := lanesOf c.w c.n y.toNat
    let two (d : Dest) (lat : Nat) (ok : Fmt → Bool) (f : VCtx → List Nat → List Nat → List (Nat × Flags)) (i : Instr) : Prop :=
      ok c.fmt = true → exec i s = s.nextTile (s.tile.putLanes c lat d (f c xs ys))
    let one (d : Dest) (lat : Nat) (ok : Fmt → Bool) (f : VCtx → List Nat → List (Nat × Flags)) (i : Instr) : Prop :=
      ok c.fmt = true → exec i s = s.nextTile (s.tile.putLanes c lat d (f c xs))
    let none (d : Dest) (lat : Nat) (ok : Fmt → Bool) (f : VCtx → List (Nat × Flags)) (i : Instr) : Prop :=
      ok c.fmt = true → exec i s = s.nextTile (s.tile.putLanes c lat d (f c))
    two d 2 okLane (fun c xs ys => plain (ys.map fun y => listGet xs (y % c.n) 0)) (.vperm h d a b) ∧
    two d 2 okLane (fun c xs ys => plain (zipLanes c.n xs ys)) (.vzip h d a b) ∧
    two d 2 okLane (fun _ xs ys => plain (evens (xs ++ ys))) (.vunzip h d a b) ∧
    one d 2 okLane (fun _ xs => plain xs.reverse) (.vrev h d a) ∧
    two d 2 okLane (fun c xs ys => let k := listGet ys 0 0 % c.n; plain (xs.drop k ++ xs.take k)) (.vrot h d a b) ∧
    one d 2 okLane (fun c xs => plain (fillZero c.n (((List.zip (laneGuards (s.tile.pred q) c.w c.n 0) xs).filter fun z => z.1).map (·.2)))) (.vcmprs h d a q) ∧
    one d 2 okLane (fun c xs => plain (expand (laneGuards (s.tile.pred q) c.w c.n 0) xs)) (.vexpnd h d a q) ∧
    one d 6 okFloatPs (sumLanes (s.tile.pred q)) (.vrsum h d a q) ∧
    one d 6 okSum (extremeLanes true (s.tile.pred q)) (.vrmax h d a q) ∧
    one d 6 okSum (extremeLanes false (s.tile.pred q)) (.vrmin h d a q) ∧
    one d 6 okInt (isumLanes (s.tile.pred q)) (.vrisum h d a q) ∧
    one d 6 okSum (scanLanes (s.tile.pred q)) (.vscan h d a q) ∧
    one d 6 okLane (bitReduce (fun x y => x &&& y) true (s.tile.pred q)) (.vrand h d a q) ∧
    one d 6 okLane (bitReduce (fun x y => x ||| y) false (s.tile.pred q)) (.vror h d a q) ∧
    one d 6 okLane (bitReduce (fun x y => x ^^^ y) false (s.tile.pred q)) (.vrxor h d a q) ∧
    none (.reg r) 2 okLane (fun c => List.replicate c.n (spliLane c imm, 0)) (.vspli h r imm) ∧
    none d 2 okWide (fun c => plain (List.range c.n)) (.viota h d) ∧
    two d 2 okLane (fun c xs ys => List.replicate c.n (listGet xs (listGet ys 0 0 % c.n) 0, 0)) (.vsplat h d a b) ∧
    none d 2 okLane (fun c => plain ((laneGuards (s.tile.pred q) c.w c.n 0).map fun b => if b then laneImage c.nif c.fmt (2 ^ c.vb - 1) else 0)) (.vmovp h d q) ∧
    none d 2 okWide (fun c => reduceLanes c (popCount 64 (s.tile.pred q).toNat, 0)) (.vpopc h d q) ∧
    (okLane c.fmt = true → exec (.vsel h d a b) s = s.nextTile (s.tile.putV 2 d
      (vregOf (packLanes c.w (guardLanes c.guards xs ys)))))

/-- Conversions, dot products, random lanes and format writes (R121 to R123, R129, R132, R133). -/
def Obligations.VectorConversions : Prop :=
  ∀ (s : State) (h : Hdr) (d : Dest) (r : Nat) (a b : Src) (x y : VReg), s.tile.readV a = some x → s.tile.readV b = some y →
    let c := s.tile.vctx h
    let xs := lanesOf c.w c.n x.toNat
    let dot (f : VCtx → Nat → Nat → Nat → Nat × Flags) (i : Instr) : Prop :=
      let k := s.tile.vctxOf h .fp32
      exec i s = s.nextTile (s.tile.putLanes k 4 (.reg r)
        ((List.zip (lanesOf 32 64 x.toNat) (List.zip (lanesOf 32 64 y.toNat)
          (lanesOf 32 64 (s.tile.vreg s.tile.vfile r).toNat))).map fun z => f k z.1 z.2.1 z.2.2))
    dot (fun _ x y d => (dot4 true x y d, 0)) (.vdot4s h r a b) ∧
    dot (fun _ x y d => (dot4 false x y d, 0)) (.vdot4u h r a b) ∧
    dot (fun c x y d => dot2 bf16 c.rm c.fz x y d) (.vdot2bf h r a b) ∧
    dot (fun c x y d => dot2 fp16 c.rm c.fz x y d) (.vdot2h h r a b) ∧
    (∀ (tf : Fmt) (m : RndOvr) (sat : Bool),
      let mode := RndOvr.pick c.rm m
      (isMx c.fmt = false → isMx tf = false → let k := s.tile.vctxOf h tf
        exec (.vcvt h d a tf m sat) s = s.nextTile (s.tile.putLanes k 3 d (cvtLanes c tf mode sat k.n xs))) ∧
      (isMx c.fmt = true → tf = .fp32 → exec (.vcvt h d a tf m sat) s = s.nextTile (s.tile.putLanes (s.tile.vctxOf h .fp32) 3 d
        ((List.range 64).map fun i => fp32.deliver mode c.fz sat (decodeMx c.fmt x.toNat i)))) ∧
      (isMx tf = true → c.fmt = .fp32 → h.g = 0 → let e := encodeMx tf mode ((lanesOf 32 64 x.toNat).map c.val)
        exec (.vcvt h d a tf m sat) s = s.nextTile ((s.tile.putV 3 d (vregOf e.1)).putFlags 3 (vslotOf s.tile.vfile) e.2))) ∧
    (okRandom c.fmt = true → exec (.vrng h d a) s = s.nextTile (s.tile.putLanes c 8 d (plain (lanesOf c.w c.n
      (randomBits (x.toNat % 2 ^ 32) s.tile.key.id (bits s.tile.csrs.stepcnt 0 32) (word (bits s.tile.seed 0 64))))))) ∧
    (s.tile.guarded h = true → (∀ (bind : Bool) (f : Fmt),
        exec (.vfmt h bind f) s = s.nextTile (s.tile.putFormat (word (f.code + 32 * bind.toNat)))) ∧
      (bit x 4 = false → exec (.vfmts h a) s = s.nextTile (s.tile.putFormat (word (x.toNat % 64)))) ∧
      (bit x 4 = true → exec (.vfmts h a) s = .next (s.takeTrap (illegalTrap s.tile.iss.pos .badCsrValue))))

/-- Lanes by value (R108, R116 to R118): in a 16-, 32- or 64-bit integer format of two's complement, addition, subtraction and multiplication
are modulo 2^w and the saturating sum clamps to the signed range; VABS clears the sign bit, VNEG inverts it, VCPS copies it from b, and
every other bit is kept and no flag is raised. -/
def Obligations.LaneValues : Prop :=
  (∀ (c : VCtx) (x y : Nat), c.fmt = .i16 ∨ c.fmt = .i32 ∨ c.fmt = .i64 → c.w = laneWidth c.fmt → x < 2 ^ c.w → y < 2 ^ c.w →
     intLane true (fun a b => a + b) c x y = ((x + y) % 2 ^ c.w, 0) ∧
     intLane true (fun a b => a - b) c x y = ((x + 2 ^ c.w - y) % 2 ^ c.w, 0) ∧
     intLane true (fun a b => a * b) c x y = ((x * y) % 2 ^ c.w, 0) ∧
     ∃ r, satLane true (fun a b => a + b) c x y = (r, 0) ∧ r < 2 ^ c.w ∧
       signed c.w r = max (-(2 ^ (c.w - 1))) (min (2 ^ (c.w - 1) - 1) (signed c.w x + signed c.w y))) ∧
  (∀ (c : VCtx) (x y i : Nat), 0 < c.w → x < 2 ^ c.w → y < 2 ^ c.w → i < c.w - 1 →
     let top := c.w - 1
     (absLane c x).2 = 0 ∧ (negLane c x).2 = 0 ∧ (cpsLane c x y).2 = 0 ∧
     fld (absLane c x).1 top 1 = 0 ∧ fld (negLane c x).1 top 1 = 1 - fld x top 1 ∧ fld (cpsLane c x y).1 top 1 = fld y top 1 ∧
     fld (absLane c x).1 i 1 = fld x i 1 ∧ fld (negLane c x).1 i 1 = fld x i 1 ∧ fld (cpsLane c x y).1 i 1 = fld x i 1)

/-! Local memory and moves between files. -/

/-- SLD and SST (R136, R138): an aligned access inside the scratchpad is sampled at issue and written at issue + 3, or stored at
issue + 1; ALIGN comes before PERM, and an error in a word that is read raises ECCUE when the result is due. -/
def Obligations.ScalarMemory : Prop :=
  ∀ (s : State) (h : Hdr) (d : Dest) (r : Nat) (a : Src) (size : MemSize) (sx : Bool) (o : Int) (base : Word),
    s.tile.guarded h = true → s.tile.readS a = some base →
    let t := s.tile
    let n : Nat := match size with
      | .b1 => 1
      | .b2 => 2
      | .b4 => 4
      | .b8 => 8
    let addr := (base + BitVec.ofInt 64 (o * n)).toNat
    (addr % n = 0 → addr + n ≤ 0x200000 →
      exec (.sst h r a size o) s = s.nextTile (t.put 1 .s (.store 0 [(addr, bytesOfNat n (t.sreg r).toNat)])) ∧
      (t.spad.poisoned addr n = false → ∃ u : Tile, (∃ sp, u = { t with spad := sp } ∧ sp.mem = t.spad.mem ∧ sp.marks = t.spad.marks) ∧
        exec (.sld h d a size sx o) s = s.nextTile (u.putS 3 d
          (let v := natOfBytes (t.spad.readBytes addr n)
           if sx ∧ 2 ^ (8 * n - 1) ≤ v then BitVec.ofInt 64 ((v : Int) - 2 ^ (8 * n)) else BitVec.ofNat 64 v))) ∧
      (t.spad.poisoned addr n = true → ∃ sp : Spad, exec (.sld h d a size sx o) s =
        s.nextTile (({ t with spad := sp } : Tile).put 3 .s (.fault (addrTrap .eccue t.iss.pos addr))))) ∧
    (addr % n ≠ 0 → exec (.sst h r a size o) s = .next (s.takeTrap (addrTrap .align t.iss.pos addr)) ∧
      exec (.sld h d a size sx o) s = .next (s.takeTrap (addrTrap .align t.iss.pos addr))) ∧
    (addr % n = 0 → 0x200000 < addr + n → exec (.sst h r a size o) s = .next (s.takeTrap (addrTrap .perm t.iss.pos addr)) ∧
      exec (.sld h d a size sx o) s = .next (s.takeTrap (addrTrap .perm t.iss.pos addr)))

/-- CLD, CST, CGATH and CSCAT (R139, R140): 256 bytes of a row at issue + 4 and issue + 1; gathered elements at issue + 6, scattered
ones at issue + 1 in rising lane order, where every element's address is aligned and inside the scratchpad. ALIGN comes before PERM; of
several elements the first that is at fault traps and nothing moves (R136); an error in a word that is read raises ECCUE when
the result is due (R380), with the address of the first such element. Addresses are taken modulo 2^64, which R139 and R140 leave
open (DESIGN CHOICE, log entry 71). That CGATH touches a guard granule once for each element, and so counts in COUNT (R155, R156), is the
model's choice (log entry 37). -/
def Obligations.VectorMemory : Prop :=
  ∀ (s : State) (h : Hdr) (f : VFile) (d r : Nat) (a : Src) (imm : Int) (wide : Bool) (base : Word),
    s.tile.guarded h = true → s.tile.readX a = some base →
    let t := s.tile
    let slot := fileSlot t.cfile
    let addr := (base + BitVec.ofInt 64 (256 * imm)).toNat
    let e := if wide then 8 else 4
    let n := if wide then 32 else 64
    let addrs := (lanesOf (8 * e) n (t.vreg f r).toNat).map fun i => (base + BitVec.ofNat 64 (e * i)).toNat
    (addr % 256 = 0 → addr + 256 ≤ 0x200000 →
      exec (.cst h f d a imm) s = s.nextTile (t.put 1 slot (.store (storeRank t.cfile) [(addr, bytesOfNat 256 (t.vreg f d).toNat)])) ∧
      (t.spad.poisoned addr 256 = false → exec (.cld h f d a imm) s =
        s.nextTile (({ t with spad := t.spad.note t.key.id 0 addr 256 } : Tile).put 4 slot
          (.vreg f d (BitVec.ofNat 2048 (natOfBytes (t.spad.readBytes addr 256))))))  ∧
      (t.spad.poisoned addr 256 = true → exec (.cld h f d a imm) s =
        s.nextTile (({ t with spad := t.spad.note t.key.id 0 addr 256 } : Tile).put 4 slot (.fault (addrTrap .eccue t.iss.pos addr))))) ∧
    (addr % 256 ≠ 0 → exec (.cst h f d a imm) s = .next (s.takeTrap (addrTrap .align t.iss.pos addr)) ∧
      exec (.cld h f d a imm) s = .next (s.takeTrap (addrTrap .align t.iss.pos addr))) ∧
    (addr % 256 = 0 → 0x200000 < addr + 256 → exec (.cst h f d a imm) s = .next (s.takeTrap (addrTrap .perm t.iss.pos addr)) ∧
      exec (.cld h f d a imm) s = .next (s.takeTrap (addrTrap .perm t.iss.pos addr))) ∧
    (∀ pre p post, addrs = pre ++ p :: post → (∀ q ∈ pre, q % e = 0 ∧ q + e ≤ 0x200000) →
      (p % e ≠ 0 → exec (.cscat h f d a wide r) s = .next (s.takeTrap (addrTrap .align t.iss.pos p)) ∧
        exec (.cgath h f d a wide r) s = .next (s.takeTrap (addrTrap .align t.iss.pos p))) ∧
      (p % e = 0 → 0x200000 < p + e → exec (.cscat h f d a wide r) s = .next (s.takeTrap (addrTrap .perm t.iss.pos p)) ∧
        exec (.cgath h f d a wide r) s = .next (s.takeTrap (addrTrap .perm t.iss.pos p)))) ∧
    ((∀ p ∈ addrs, p % e = 0 ∧ p + e ≤ 0x200000) →
      exec (.cscat h f d a wide r) s = s.nextTile (t.put 1 slot (.store (storeRank t.cfile)
        (List.zip addrs ((lanesOf (8 * e) n (t.vreg f d).toNat).map fun v => bytesOfNat e v)))) ∧
      ((∀ p ∈ addrs, t.spad.poisoned p e = false) → exec (.cgath h f d a wide r) s =
        s.nextTile (({ t with spad := addrs.foldl (fun sp p => sp.note t.key.id 0 p e) t.spad } : Tile).put 6 slot
          (.vreg f d (BitVec.ofNat 2048 (packLanes (8 * e) (addrs.map fun p => natOfBytes (t.spad.readBytes p e))))))) ∧
      (∀ pre p post, addrs = pre ++ p :: post → (∀ q ∈ pre, t.spad.poisoned q e = false) → t.spad.poisoned p e = true →
        exec (.cgath h f d a wide r) s =
          s.nextTile (({ t with spad := addrs.foldl (fun sp p => sp.note t.key.id 0 p e) t.spad } : Tile).put 6 slot
            (.fault (addrTrap .eccue t.iss.pos p)))))

/-- XCP, LTIME and SEEDR (R74, R150): one 64-bit value copied between files two ticks after issue, the issue tick at issue + 1, a
word of the seed-stack top at issue + 2. -/
def Obligations.CopyMoves : Prop :=
  ∀ (s : State) (h : Hdr) (d : Dest) (a : Src) (r m lane k : Nat) (x : Word), s.tile.guarded h = true → s.tile.readX a = some x →
    let t := s.tile
    let slot := fileSlot t.cfile
    exec (.xcpsx h d (.reg r)) s = s.nextTile (t.putX 2 d (t.sreg r)) ∧
    (∀ y, t.readX (.latch k) = some y → exec (.xcpsx h d (.latch k)) s = s.nextTile (t.putX 2 d y)) ∧
    exec (.xcpmx h d m) s = s.nextTile (t.putX 2 d (t.mreg m)) ∧
    exec (.xcpvax h d r lane) s = s.nextTile (t.putX 2 d (BitVec.ofNat 64 (bits (t.vreg .va r) (64 * lane) 64))) ∧
    exec (.xcpvbx h d r lane) s = s.nextTile (t.putX 2 d (BitVec.ofNat 64 (bits (t.vreg .vb r) (64 * lane) 64))) ∧
    exec (.xcpxs h (.reg r) a) s = s.nextTile (t.put 2 slot (.sreg r x)) ∧
    exec (.xcpxm h (.reg m) a) s = s.nextTile (t.put 2 slot (.mreg m x)) ∧
    exec (.xcpxs h .suppressed a) s = s.nextTile (t.put 2 slot (.latchW slot x)) ∧
    exec (.xcpxm h .suppressed a) s = s.nextTile (t.put 2 slot (.latchW slot x)) ∧
    exec (.xcpxva h (.reg r) a lane) s =
      s.nextTile ((t.put 2 slot (.vreg .va r (setLane64 (t.vreg .va r) lane x))).put 2 slot (.latchW slot x)) ∧
    exec (.xcpxvb h (.reg r) a lane) s =
      s.nextTile ((t.put 2 slot (.vreg .vb r (setLane64 (t.vreg .vb r) lane x))).put 2 slot (.latchW slot x)) ∧
    exec (.xcpxva h .suppressed a lane) s = s.nextTile (t.put 2 slot (.latchW slot x)) ∧
    exec (.xcpxvb h .suppressed a lane) s = s.nextTile (t.put 2 slot (.latchW slot x)) ∧
    exec (.ltime h d) s = s.nextTile (t.putX 1 d (BitVec.ofNat 64 t.tick)) ∧
    exec (.seedr h d k) s = s.nextTile (t.putX 2 d (BitVec.ofNat 64 (bits t.seed (64 * k) 64)))

/-! Far accesses, messages, atomics. -/

/-- Far loads and stores at their issue (R26, R142 to R144): an aligned address that leads to a window or a virtual page adds one
request, with a landing and its Basin entry for a load; a load with no entry free is held. -/
def Obligations.FarAccesses : Prop :=
  ∀ (s : State) (h : Hdr) (f : VFile) (d n : Nat) (a : Src) (x : Word), s.tile.guarded h = true → s.tile.readX a = some x →
    let t := s.tile
    (∀ off, farTarget t.grid x.toNat = .virt off ∨ (∃ id, farTarget t.grid x.toNat = .window id off) →
      (x.toNat % 8 = 0 → exec (.fst h d a) s =
        s.nextTile (t.sendFar x.toNat (.store (bytesOfNat 8 (t.xreg t.cfile d).toNat)) none none)) ∧
      (x.toNat % 256 = 0 → exec (.fstv h f d a) s =
        s.nextTile (t.sendFar x.toNat (.store (bytesOfNat 256 (t.vreg f d).toNat)) none none)) ∧
      (x.toNat % 8 = 0 → t.basinUsed < Config.basinEntries → exec (.fld h d a n) s =
        s.nextTile ((t.land n (.far t.cfile d)).sendFar x.toNat .load8 (some t.seq) none)) ∧
      (x.toNat % 256 = 0 → t.basinUsed < Config.basinEntries → exec (.fldv h f d a n) s =
        s.nextTile ((t.land n (.farV f d)).sendFar x.toNat .loadV (some t.seq) none)) ∧
      (x.toNat % 8 = 0 → Config.basinEntries ≤ t.basinUsed → exec (.fld h d a n) s =
        s.nextTile { t with iss := { t.iss with held := some (.basin, t.key.id) } })) ∧
    (x.toNat % 8 ≠ 0 → exec (.fld h d a n) s = .next (s.takeTrap (addrTrap .align t.iss.pos x.toNat)) ∧
      exec (.fst h d a) s = .next (s.takeTrap (addrTrap .align t.iss.pos x.toNat))) ∧
    (x.toNat % 8 = 0 → farTarget t.grid x.toNat = .bad → exec (.fld h d a n) s = .next (s.takeTrap (addrTrap .perm t.iss.pos x.toNat)) ∧
      exec (.fst h d a) s = .next (s.takeTrap (addrTrap .perm t.iss.pos x.toNat)))

/-- Timed messages and GANG at their issue (R147, R148, R151): a SEND puts a message with its tick as stamp on the launch's links,
numbered in its flow; a RECV claims the lowest number not claimed and adds a landing; a legal GANG leaves its gang and waits. That GANG's due
tick is compared with the low 64 bits of the tick, and is the next tick with those bits, is the model's reading (log entry 25). -/
def Obligations.MessagesAndGangs : Prop :=
  (∀ (s : State) (h : Hdr) (f : VFile) (v x : Nat), s.tile.guarded h = true →
    let t := s.tile
    let w := t.xreg t.cfile x
    let dst := bits w 0 11
    let key := dst * 16 + bits w 11 4
    let k := assocGet t.sent key 0
    dst < t.grid → s.skidFull ⟨t.key.pasid, dst⟩ = false →
    exec (.send h f v x) s = .next { s with
      tile := { t with sent := assocSet t.sent key (k + 1) },
      launches := s.launches.map fun l => if l.key == t.launchKey then
        { l with links := l.links ++ [⟨t.key.id, dst, bits w 11 4, k, t.tick % 2 ^ 32, t.vreg f v, false⟩] } else l }) ∧
  (∀ (s : State) (h : Hdr) (f : VFile) (v x n : Nat), s.tile.guarded h = true →
    let t := s.tile
    let w := t.xreg t.cfile x
    let key := bits w 32 11 * 16 + bits w 43 4
    let k := assocGet t.received key 0
    (∀ c ∈ t.claims, c.1 ≠ key) →
    exec (.recv h f v x n) s = s.nextTile (({ t with received := assocSet t.received key (k + 1) } : Tile).land n
      (.recv f v (bits w 32 11) (bits w 43 4) k (bits w 0 32)))) ∧
  (∀ (s : State) (h : Hdr) (a b : Src) (x y : Word), s.tile.guarded h = true → s.tile.readX a = some x → s.tile.readX b = some y →
    let t := s.tile
    gangCheck t.grid t.key.id (bits x 0 11) (bits x 11 5) = none → t.ltime < y.toNat →
    exec (.gang h a b) s = s.nextTile (({ t with gang := { t.gang with first := t.key.id, size := 1 } } : Tile).addWait
      (t.tickAt y.toNat + (t.key.id - bits x 0 11)) (.gang (bits x 0 11) (bits x 11 5) (t.tickAt y.toNat))))

/-- Atomics at their issue (R158 to R160, R163, R362): in the own scratchpad the operation is due at issue + 6; through a window or in the
context's virtual space it is a request, with a landing at the distance of ATDUE when it returns a value. With DETMODE set an atomic
in the virtual space raises DETV, but AADD, AMINS, AMAXU and AORB without a result run. An unaligned address raises ALIGN, an address
of no target and an aperture PERM. -/
def Obligations.Atomics : Prop :=
  ∀ (s : State) (h : Hdr) (d : Dest) (r b : Nat) (a c : Src) (x y : Word),
    s.tile.guarded h = true → s.tile.readX a = some x → s.tile.readX c = some y →
    let t := s.tile
    let v1 := t.xreg t.cfile b
    let v2 := t.xreg t.cfile (b + 1)
    let n : Option Nat := match d with
      | .reg k => some k
      | .suppressed => none
    let due := bits t.csrs.atdue 0 9
    let here (op : AtomOp) (v w : Word) (d p : Option Nat) :=
      s.nextTile (t.put 6 (fileSlot t.cfile) (.atom op x.toNat v w t.cfile d p t.iss.pos))
    let away (op : AtomOp) (v w : Word) (d p : Option Nat) :=
      s.nextTile ((t.land due (.atom t.cfile d p)).sendFar x.toNat (.atom op v w true) (some t.seq) none)
    let quiet (op : AtomOp) (v w : Word) := s.nextTile (t.sendFar x.toNat (.atom op v w false) none none)
    (x.toNat % 8 = 0 → x.toNat < 0x200000 →
      exec (.aadd h d a c) s = here .add y 0 n none ∧ exec (.aincw h d a c) s = here .incw y 0 n none ∧
      exec (.axchg h d a c) s = here .xchg y 0 n none ∧ exec (.amins h d a c) s = here .mins y 0 n none ∧
      exec (.amaxu h d a c) s = here .maxu y 0 n none ∧ exec (.aorb h d a c) s = here .orb y 0 n none ∧
      exec (.acas h d a b) s = here .cas v1 v2 n none ∧ exec (.afaab h r a b) s = here .faab v1 v2 (some r) (some r)) ∧
    (x.toNat % 8 = 0 → 0x200000 ≤ x.toNat →
      ((∃ id off, farTarget t.grid x.toNat = .window id off) ∨ (∃ va, farTarget t.grid x.toNat = .virt va) ∧ bit t.csrs.detmode 0 = false) →
      (t.basinUsed < Config.basinEntries →
        exec (.aadd h (.reg r) a c) s = away .add y 0 (some r) none ∧ exec (.aincw h (.reg r) a c) s = away .incw y 0 (some r) none ∧
        exec (.axchg h (.reg r) a c) s = away .xchg y 0 (some r) none ∧ exec (.amins h (.reg r) a c) s = away .mins y 0 (some r) none ∧
        exec (.amaxu h (.reg r) a c) s = away .maxu y 0 (some r) none ∧ exec (.aorb h (.reg r) a c) s = away .orb y 0 (some r) none ∧
        exec (.acas h (.reg r) a b) s = away .cas v1 v2 (some r) none ∧ exec (.afaab h r a b) s = away .faab v1 v2 (some r) (some r)) ∧
      exec (.aincw h .suppressed a c) s = quiet .incw y 0 ∧ exec (.axchg h .suppressed a c) s = quiet .xchg y 0 ∧
      exec (.acas h .suppressed a b) s = quiet .cas v1 v2) ∧
    (x.toNat % 8 = 0 → 0x200000 ≤ x.toNat → (∃ id off, farTarget t.grid x.toNat = .window id off) ∨ (∃ va, farTarget t.grid x.toNat = .virt va) →
      exec (.aadd h .suppressed a c) s = quiet .add y 0 ∧ exec (.amins h .suppressed a c) s = quiet .mins y 0 ∧
      exec (.amaxu h .suppressed a c) s = quiet .maxu y 0 ∧ exec (.aorb h .suppressed a c) s = quiet .orb y 0) ∧
    (∀ va, x.toNat % 8 = 0 → 0x200000 ≤ x.toNat → farTarget t.grid x.toNat = .virt va → bit t.csrs.detmode 0 = true →
      let detv (i : Instr) : Prop :=
        exec i s = .next (s.takeTrap (infoTrap .detv t.iss.pos (word (9 * 2 ^ 60 + t.iss.pos % 8 * 2 ^ 57 + x.toNat % 2 ^ 57))))
      detv (.aadd h (.reg r) a c) ∧ detv (.amins h (.reg r) a c) ∧ detv (.amaxu h (.reg r) a c) ∧ detv (.aorb h (.reg r) a c) ∧
      detv (.aincw h d a c) ∧ detv (.axchg h d a c) ∧ detv (.acas h d a b) ∧ detv (.afaab h r a b)) ∧
    (x.toNat % 8 = 0 → 0x200000 ≤ x.toNat → farTarget t.grid x.toNat = .bad ∨ (∃ e off, farTarget t.grid x.toNat = .aperture e off) →
      exec (.aadd h d a c) s = .next (s.takeTrap (addrTrap .perm t.iss.pos x.toNat)) ∧
      exec (.acas h d a b) s = .next (s.takeTrap (addrTrap .perm t.iss.pos x.toNat))) ∧
    (x.toNat % 8 ≠ 0 → exec (.aadd h d a c) s = .next (s.takeTrap (addrTrap .align t.iss.pos x.toNat)) ∧
      exec (.acas h d a b) s = .next (s.takeTrap (addrTrap .align t.iss.pos x.toNat)))

/-- What an atomic leaves in its word (R158, R159): AFAAB adds only up to its bound, ACAS writes only on a match, AINCW wraps to zero at its
bound. An arrival on a barrier word (R164, R165): the count rises by one until it reaches the number expected, when it returns to 0 and
the generation advances by one modulo 2^32. -/
def Obligations.AtomicResults : Prop :=
  (∀ old v v2 : Word,
     atomResult .add old v v2 = (old + v, false) ∧
     (atomResult .incw old v v2).1 = (if v.toNat ≤ old.toNat then 0 else old + 1) ∧
     (old.toNat + v.toNat ≤ v2.toNat → atomResult .faab old v v2 = (old + v, false) ∧ atomWrites .faab old v v2 = true) ∧
     (v2.toNat < old.toNat + v.toNat → atomResult .faab old v v2 = (old, true) ∧ atomWrites .faab old v v2 = false) ∧
     (old = v → (atomResult .cas old v v2).1 = v2 ∧ atomWrites .cas old v v2 = true) ∧
     (old ≠ v → (atomResult .cas old v v2).1 = old ∧ atomWrites .cas old v v2 = false) ∧
     (atomResult .xchg old v v2).1 = v ∧
     ((atomResult .mins old v v2).1.toInt = min old.toInt v.toInt) ∧
     ((atomResult .maxu old v v2).1.toNat = max old.toNat v.toNat) ∧
     (∀ i, i < 64 → bit (atomResult .orb old v v2).1 i = (bit old i || bit v i))) ∧
  (∀ (w : Word) (n : Nat), 0 < n → n < 2 ^ 32 →
     (bits w 0 32 + 1 < n → bits (arriveWord w n) 0 32 = bits w 0 32 + 1 ∧ bits (arriveWord w n) 32 32 = bits w 32 32) ∧
     (n ≤ bits w 0 32 + 1 → bits (arriveWord w n) 0 32 = 0 ∧ bits (arriveWord w n) 32 32 = (bits w 32 32 + 1) % 2 ^ 32))

/-! The Rill. -/

/-- The pass tick of a Rill operation (R236): after its issue, within one turn of the ring, and at the tick at which its slot passes the
station. Tile stations (R225, R226): within the ring of the declared grid, none is the first or the last of its die, and no two tiles
share one; RILLPOS reads the tile's. -/
def Obligations.PassTick : Prop :=
  (∀ k s t l : Nat, 0 < l → k < l → s < l →
     t < passTick k s t l ∧ passTick k s t l ≤ t + l ∧ (s + passTick k s t l) % l = k) ∧
  (∀ a b grid : Nat, a < grid → b < grid →
     stationOf a < ringLength grid ∧ stationOf a % 162 ≠ 0 ∧ stationOf a % 162 ≠ 161 ∧ (stationOf a = stationOf b → a = b)) ∧
  (∀ t : Tile, t.csr .rillpos = BitVec.ofNat 64 (stationOf t.key.id)) ∧
  (∀ d row col, d < 8 → row < 10 → col < 16 →
     stationOf (160 * d + 16 * row + col) = 162 * d + 1 + 16 * row + (if row % 2 = 0 then col else 15 - col))

/-- Ring accesses, BOARD and ALIGHT at their issue (R232, R233, R236 to R240): a boarded tile with a place in its queue adds an
operation with its pass tick, and a landing two ticks after it when a value returns. A berthed tile boards once RT has come to its tick;
that a Rill that has stopped for a save holds it is the model's reading of R245 (log entry 33). -/
def Obligations.RillSyllables : Prop :=
  ∀ (s : State) (h : Hdr) (up : Bool) (r b : Nat) (a c : Src) (x y : Word),
    s.tile.guarded h = true → s.tile.readX a = some x → s.tile.readX c = some y →
    let t := s.tile
    let slot := bits x 0 11
    let pass := passTick (stationOf t.key.id) slot t.tick (ringLength t.grid)
    let queue (k : RillKind) := s.nextTile (t.queueRill slot (bits x 11 3) k none)
    let capture (k : RillKind) (d : LandDest) :=
      s.nextTile ((t.land (pass + 2 - t.tick) d).queueRill slot (bits x 11 3) k (some t.seq))
    (t.berth = .boarded → slot < ringLength t.grid → t.station.length < 16 →
      exec (.rput h a up) s = queue (.put ((List.range 8).map fun i => t.xreg t.cfile ((if up then 8 else 0) + i))) ∧
      exec (.radd h .suppressed a c) s = queue (.add y) ∧ exec (.rmaxu h .suppressed a c) s = queue (.maxu y) ∧
      exec (.ror h .suppressed a c) s = queue (.or y) ∧
      exec (.rcas h .suppressed a b) s = queue (.cas (t.xreg t.cfile b) (t.xreg t.cfile (b + 1))) ∧
      (t.basinUsed < Config.basinEntries →
        exec (.rcap h up a) s = capture .cap (.octet t.cfile (if up then 8 else 0)) ∧
        exec (.radd h (.reg r) a c) s = capture (.add y) (.rill t.cfile r) ∧
        exec (.rmaxu h (.reg r) a c) s = capture (.maxu y) (.rill t.cfile r) ∧
        exec (.ror h (.reg r) a c) s = capture (.or y) (.rill t.cfile r) ∧
        exec (.rcas h (.reg r) a b) s = capture (.cas (t.xreg t.cfile b) (t.xreg t.cfile (b + 1))) (.rill t.cfile r))) ∧
    (t.berth ≠ .boarded → exec (.rcap h up a) s = .next (s.takeTrap (rillTrap t.iss.pos 0)) ∧
      exec (.rput h a up) s = .next (s.takeTrap (rillTrap t.iss.pos 1))) ∧
    (t.iss.follow = none →
      (t.berth = .boarded → exec (.board h) s = .next s ∧ exec (.alight h) s = .next (s.setBerth .berthed) ∧
        exec (.alightFree h) s = .next (s.setBerth .free)) ∧
      (∀ l, s.launch? t.launchKey = some l → t.berth = .berthed →
        (t.tick ≤ l.rt → l.stopped = false → exec (.board h) s = .next (s.setBerth .boarded)) ∧
        (l.rt < t.tick ∨ l.stopped = true →
          exec (.board h) s = .next { s with tile := { t with iss := { t.iss with held := some (.wait, t.key.id) } } })) ∧
      (t.berth = .free → exec (.board h) s = .next (s.takeTrap (rillTrap t.iss.pos 6)) ∧
        exec (.alight h) s = .next (s.takeTrap (rillTrap t.iss.pos 7))))

/-! Copy queues. -/

/-- PUSH and POP (R256 to R258): a legal command enters its queue and clears the full flag, or the queue is full and the flag is
set; a POP takes a record that is there, or sets the not-ready flag; a stalling POP claims the next record and lands it. That TRAPINFO of
a stalling POP on an empty queue holds the position of the syllable is the model's reading (log entry 54). -/
def Obligations.CopyQueues : Prop :=
  ∀ (s : State) (h : Hdr) (q d p n : Nat) (up : Bool), s.tile.guarded h = true →
    let t := s.tile
    let slot := fileSlot t.cfile
    let ws := t.octet up
    let c := t.queue q
    (pushCheck t ws = none →
      (c.occ < 64 → exec (.push h q up p) s = s.nextTile ((t.enqueue q ws).put 1 slot (.pred p 0))) ∧
      (64 ≤ c.occ → exec (.push h q up p) s = s.nextTile (t.put 1 slot (.pred p (-1))))) ∧
    (c.next = none → exec (.pop h q d p) s = s.nextTile (t.put 1 slot (.pred p (-1)))) ∧
    (∀ k r, c.next = some k → (bit t.csrs.detmode 0 = false ∨ k.due.isSome) → k.record = some r → recordCause r = none →
      exec (.pop h q d p) s =
        s.nextTile (((t.setQueue q (c.claim.remove k.num)).put 1 slot (.xplain t.cfile d r)).put 1 slot (.pred p 0))) ∧
    (0 < c.occ → t.basinUsed < Config.basinEntries →
      exec (.popStall h q d n) s = s.nextTile ((t.land n (.pop t.cfile d q c.claimed)).setQueue q c.claim)) ∧
    (c.occ = 0 → exec (.popStall h q d n) s = .next (s.takeTrap (checkTrap .perm 7 t.iss.pos 5)))

/-! SYNC. -/

/-- The SYNC group at its issue (R283, R284, R292, R293, R297 to R301, R309), where no earlier store is open, no guard record
stood as the bundle began and no fault is recorded: waits due at 8 (k + 1) ticks, the increment of REL, the arrival of BAR, the
step counter, the opening and closing of containment regions. -/
def Obligations.SyncSyllables : Prop :=
  ∀ (s : State) (h : Hdr) (k b : Nat) (sc : Scope) (a c : Src) (x y : Word),
    s.tile.guarded h = true → s.tile.readX a = some x → s.tile.readX c = some y →
    let t := s.tile
    let slot := fileSlot t.cfile
    let due := t.tick + 8 * (k + 1)
    (∀ o, (s.bindingsOf t)[b]? = some o → o.okind ≠ 2 →
      exec (.acq h k a b) s = s.nextTile ((t.addWait due (.acq b x.toNat false)).sendFar o.obj .acq none (some t.seq))) ∧
    (∀ o, (s.bindingsOf t)[b]? = some o → o.okind = 2 → t.berth = .boarded →
      exec (.acq h k a b) s = s.nextTile (t.addWait due (.acqRill b x.toNat none 0))) ∧
    (t.storesOpen = false → t.iss.record = none → t.faults = [] →
      (∀ o, (s.bindingsOf t)[b]? = some o → o.okind ≠ 2 →
        exec (.rel h b) s = s.nextTile (t.sendFar o.obj (.rel b t.gangNow) none none)) ∧
      (0 < y.toNat → y.toNat < 2 ^ 32 → x.toNat % 8 = 0 → x.toNat < 0x200000 →
        exec (.bar h k a c) s = s.nextTile
          ((t.addWait due (.bar true x.toNat 0 false false)).put 6 slot (.arrive x.toNat y.toNat t.seq))) ∧
      exec (.fence h k sc) s = s.nextTile (t.addWait due (.fence sc t.gangNow t.seq)) ∧
      exec (.trig h) s = s.nextTile { t with triggered := some (t.triggered.getD t.tick) }) ∧
    exec (.step h k) s = s.nextTile ((t.put 1 slot .stepInc).addWait due
      (.step ((t.csrs.stepcnt.toNat + t.stepsInFlight + 1) % 2 ^ 64))) ∧
    (x.toNat < 0x20000 → s.startsBundle t x.toNat = true → t.regions.length < 4 →
      exec (.crgo h a) s = s.nextTile (({ t with regions := ⟨x.toNat, t.tick, t.seq⟩ :: t.regions } : Tile).put 1 slot (.depth true))) ∧
    (∀ g rest, t.regions = g :: rest →
      exec (.crgc h) s = s.nextTile (({ t with regions := rest } : Tile).put 1 slot (.depth false))) ∧
    (t.regions = [] → exec (.crgc h) s = .next (s.takeTrap (syncTrap .perm t.iss.pos 2)))

/-! The matrix slot. -/

/-- Configuration and status of the matrix engine (R192 to R195, R202, R203): MCFG and MMIRR at issue + 1, MFMT in force at
issue + 3, MLI and MSTAT into an M register at issue + 2; a clear of a ring in use raises PERM with check 12. -/
def Obligations.MatrixConfiguration : Prop :=
  ∀ (s : State) (h : Hdr) (a b : MSrc) (x y : Word) (f : MField) (on bind : Bool) (fa fb : Fmt) (d imm i r : Nat),
    s.tile.guarded h = true → s.tile.readM a = some x → s.tile.readM b = some y → imm < 65536 → r < 4 →
    let t := s.tile
    let v : Word128 := BitVec.ofNat 128 (x.toNat + y.toNat * 2 ^ 64)
    ((∀ k, f ≠ .rctl k) → exec (.mcfg h a b f) s = s.nextTile (t.put 1 .m (.mcfg f v))) ∧
    (bit v 16 = false ∨ t.mx.readsRing r = false → exec (.mcfg h a b (.rctl r)) s = s.nextTile (t.put 1 .m (.rctl r v))) ∧
    (bit v 16 = true → t.mx.readsRing r = true →
      exec (.mcfg h a b (.rctl r)) s = .next (s.takeTrap (configTrap t (MField.index (.rctl r)) 12))) ∧
    exec (.mmirr h on) s = s.nextTile (t.put 1 .m (.mirror on)) ∧
    exec (.mfmt h bind fb fa) s =
      s.nextTile (t.put 3 .m (.mfr (BitVec.ofNat 64 (bind.toNat * 1024 + fb.code * 32 + fa.code)))) ∧
    (∃ w : Word, exec (.mli h d imm) s = s.nextTile (t.put 2 .m (.mreg d w)) ∧
      w.toInt = if imm < 32768 then (imm : Int) else (imm : Int) - 65536) ∧
    exec (.mstat h d i) s = s.nextTile (t.put 2 .m (.mreg d (BitVec.ofNat 64 (t.mxStatus i))))

/-- Engine operations at their issue (R191, R196 to R201, R204). Each of MGO, MGOG, MDRN, MCLR and MLDW whose guard is on, whose source
is readable and whose checks hold completes in every state with a place free: the operation takes it. With both places taken it is PERM
with check 0xFF. MSTOP completes in every state: it ends the active operation and discards the pending one, or does nothing. -/
def Obligations.MatrixOperations : Prop :=
  ∀ (s : State) (h : Hdr), s.tile.guarded h = true →
    let t := s.tile
    let free : Prop := t.mx.active = none ∨ t.mx.pending = none
    let acc (o : MxOp) := accFmt o.fa
    let busy (i : Instr) : Prop := t.mx.active ≠ none → t.mx.pending ≠ none → exec i s = .next (s.takeTrap (configTrap t 0 0xFF))
    (let o := t.mxOp (.go none)
     goCombo o = none → goFails o = [] → (free → exec (.mgo h) s = s.nextTile (t.placed o)) ∧ busy (.mgo h)) ∧
    (let o := t.mxOp (.go (if 1 < t.gang.size then some (t.gang.first, t.gang.size) else none))
     goCombo o = none → goFails o = [] → (free → exec (.mgog h) s = s.nextTile (t.placed o)) ∧ busy (.mgog h)) ∧
    (∀ c : Nat, let o := t.mxOp (.drn c)
     ¬(acc o = .fp64 ∧ c % 2 = 1) → drainOk (acc o) (bits t.mx.cfg.drain 88 5) = true → mbzDrain t.mx.cfg.drain = false →
     entryFails o c = [] → drainBad t.mx.cfg.drain = false →
       (free → exec (.mdrn h c) s = s.nextTile (t.placed o)) ∧ busy (.mdrn h c)) ∧
    (∀ mask : Nat, let o := t.mxOp (.clr mask)
     ¬(acc o = .fp64 ∧ splitPair mask = true) →
       (free → exec (.mclr h mask) s = s.nextTile (t.placed o)) ∧ busy (.mclr h mask)) ∧
    (∀ (a : MSrc) (c w : Nat) (x : Word), t.readM a = some x →
     let p := bits x 0 21
     let q := bits x 32 16
     let o := t.mxOp (.ldw c w p q)
     ¬(acc o = .fp64 ∧ c % 2 = 1) → p % 64 = 0 → q % 64 = 0 → 128 * accSize (acc o) ≤ q →
     p + 127 * q + 128 * accSize (acc o) ≤ 0x200000 → entryFails o c = [] →
       (free → exec (.mldw h a w c) s = s.nextTile (t.placed o)) ∧ busy (.mldw h a w c)) ∧
    (t.mx.active = none → exec (.mstop h) s = s.nextTile t) ∧
    (∀ o, t.mx.active = some o →
      let u : Tile := { t.endOp o with mx := { (t.endOp o).mx with pending := none } }
      exec (.mstop h) s = s.nextTile u ∧ t.SameRegs u ∧ t.SameMemory u)

/-- The Cascade's syllables at their issue (R212, R213, R218 to R221): a legal subtree takes its place with its record and the tree
in turn, a legal row transfer starts at the next free tick of the row port, and the mode and status syllables. -/
def Obligations.CascadeSyllables : Prop :=
  ∀ (s : State) (h : Hdr) (a b : MSrc) (x y : Word) (n : Int) (dx d i : Nat) (f : CFmt),
    s.tile.guarded h = true → s.tile.readM a = some x → s.tile.readM b = some y →
    let t := s.tile
    let addr := bits x 0 21
    let rec_ := natOfBytes (t.spad.readBytes addr 32)
    let sub (down : Bool) (i : Instr) : Prop := ∃ y : Subtree, ∃ sp : Spad,
      exec i s = s.nextTile { t with
        spad := sp, seq := t.seq + 1,
        casc := { t.casc with subs := t.casc.subs ++ [y], rot := if recBatch rec_ then t.casc.rot else (t.casc.rot + 1) % 4 } } ∧
      y.issue = t.tick ∧ y.addr = addr ∧ y.record = rec_ ∧ y.down = down ∧ y.tree = t.casc.rot ∧ y.begun = none ∧ y.ended = none ∧
      sp.mem = t.spad.mem
    let rows (r : Word) (k : XferKind) (i : Instr) : Prop :=
      let first := bits r 0 9
      let count := bits r 16 10
      let start := max (t.tick + 1) t.casc.rowFree
      0 < count → first + count ≤ 512 → (t.casc.active t.tick && t.casc.pending t.tick) = false →
      exec i s = s.nextTile { t with seq := t.seq + 1, casc := { t.casc with
        rowFree := start + count,
        xfers := t.casc.xfers ++ [⟨k, first, count, t.tick, t.seq, start, t.casc.fmt, slotRnd t.gov.fpcr .m,
          slotFz t.gov.fpcr .m, none, none, false, false⟩] } }
    (addr % 32 = 0 → t.spad.poisoned addr 32 = false → 0 < recNleaf rec_ → recNleaf rec_ ≤ 16 → fld rec_ 15 1 = 0 →
      t.casc.later < 8 → addr + 288 ≤ 0x200000 → sub false (.spup h a) ∧ sub true (.spdn h a)) ∧
    (addr % 128 = 0 → addr + 128 * bits y 16 10 ≤ 0x200000 →
      rows y (.load addr) (.spld h a b) ∧ rows y (.save addr) (.spst h a b)) ∧
    rows x (.scale n) (.spscl h a n) ∧ rows x .clear (.spclr h a) ∧
    exec (.spmode h dx f) s = s.nextTile (t.put 1 .m (.cmr (dx * 4 + f.code))) ∧
    exec (.spstat h d i) s = s.nextTile (t.put 2 .m (.mreg d (BitVec.ofNat 64 (t.spStatus i))))

/-! What becomes due. -/

/-- A tile on which nothing but results of slots is in flight. -/
def OnlyResults (t : Tile) : Prop :=
  t.landings = [] ∧ t.mx.active = none ∧ t.casc.subs = [] ∧ t.casc.xfers = [] ∧ (∀ q ∈ t.queues, q.cmds = [])

/-- Results at their write tick, with nothing but results in flight. A scalar result (R18, R67, R70) is in its register and newest in the S
latches, every older latch moves down by one, s0 discards it, and before that tick the register is as it was. Of two results for one
register (R72) the one of the later slot in the order S, VA, VB, M, CA, CB remains, and within a slot the later-issued one. A write of
FPSR (R42, R92) merges the flags of its tick, so a clear loses none, and every other CSR is as it was. -/
def Obligations.WritesOfATick : Prop :=
  (∀ (t : Tile) (p : Pending) (n : Nat) (v : Word), OnlyResults t → t.inflight = [p] → p.slot = .s → p.eff = .sreg n v → n < 32 →
     (t.tick < p.due → t.applyDue.inflight = [p] ∧ ∀ k, t.applyDue.sreg k = t.sreg k) ∧
     (p.due ≤ t.tick →
       t.applyDue.inflight = [] ∧ t.applyDue.sreg n = (if n = 0 then 0 else v) ∧ (∀ k, k ≠ n → t.applyDue.sreg k = t.sreg k) ∧
       t.applyDue.readS (.latch 0) = some v ∧ (∀ k, k < 7 → t.applyDue.readS (.latch (k + 1)) = t.readS (.latch k)) ∧
       (∀ f k, t.applyDue.vreg f k = t.vreg f k) ∧ (∀ f k, t.applyDue.xreg f k = t.xreg f k) ∧
       (∀ k, t.applyDue.mreg k = t.mreg k) ∧ (∀ k, t.applyDue.pred k = t.pred k) ∧
       t.applyDue.csrs = t.csrs ∧ t.applyDue.spad = t.spad)) ∧
  (∀ (t : Tile) (p q : Pending) (n : Nat) (v w : Word), OnlyResults t → t.inflight = [p, q] → p.due ≤ t.tick → q.due ≤ t.tick →
     0 < n → n < 32 → p.eff = .sreg n v → q.eff = .sreg n w → p.seq < q.seq →
     (p.slot.rank ≤ q.slot.rank → t.applyDue.sreg n = w) ∧ (q.slot.rank < p.slot.rank → t.applyDue.sreg n = v)) ∧
  (∀ (t : Tile) (p q : Pending) (v : Word) (sl : Slot) (f : Flags), OnlyResults t → t.inflight = [p, q] → p.due ≤ t.tick →
     q.due ≤ t.tick → p.eff = .csr .fpsr v → q.eff = .flags sl f →
     t.applyDue.csrs = { t.csrs with fpsr := raiseFlags v sl f } ∧ t.applyDue.inflight = [] ∧ t.applyDue.regs = t.regs)

/-- A local store at its write tick (R136, R137, R155, R380): each byte of the access outside marked granules is the byte stored, every
other byte of the scratchpad reads as before. -/
def Obligations.StoreWritten : Prop :=
  ∀ (sp : Spad) (src agent a : Nat) (bs : List Byte) (b : Nat), Mem.wf sp.mem = true →
    let u := sp.store src agent a bs
    Mem.wf u.mem = true ∧ u.marks = sp.marks ∧
    (∀ i, i < bs.length → b = a + i → sp.marked b = false → Mem.read1 u.mem b = (bs[i]?).getD 0) ∧
    ((b < a ∨ a + bs.length ≤ b ∨ sp.marked b = true) → Mem.read1 u.mem b = Mem.read1 sp.mem b)

/-! Traps. -/

/-- Traps of one tile. Entry (R304, R305): TRAPCAUSE, TRAPPC and TRAPINFO are written, INH is set, WAITX says whether a wait ended, the
handler's bundle is next, the latches are invalid, waits end. Every format write in flight takes effect at once, in the order of their
ticks, in the state that governs (R43), and all else in flight stays as it is; registers, memory, the loop unit and the open regions
stay. A trap raised by a syllable of a tile in no gang (R272, R305, R310, R311), among any other tiles: an ECCUE unwinds to the
innermost open region, and without one it is a context fault, as is any other trap with no handler or with INH set; otherwise the
handler is entered. Every other tile stays as it was, but for a context fault. -/
def Obligations.TrapsEntered : Prop :=
  (∀ (t : Tile) (handler : Nat) (tr : Trap) (held low : Nat) (cause : Cause), held < 2 ^ 17 → low < 16 →
     let u := t.enter handler ⟨some tr, held, cause, low⟩
     let formats := t.inflight.filter Pending.isFormat
     u.pc = handler ∧ bits u.csrs.trapcause 0 8 = cause.code ∧ bits u.csrs.trapcause 8 4 = low ∧ bit u.csrs.trapcause 12 = false ∧
     bit u.csrs.trapcause 13 = true ∧ (t.waits = [] → bit u.csrs.trapcause 14 = false) ∧
     (t.waits ≠ [] → (∀ w ∈ t.waits, w.fault = none) → bit u.csrs.trapcause 14 = true) ∧ bits u.csrs.trapcause 16 16 = 0 ∧
     u.csrs.trappc = BitVec.ofNat 64 held ∧ u.csrs.trapinfo = tr.info ∧
     u.csrs = { t.csrs with trapcause := u.csrs.trapcause, trappc := u.csrs.trappc, trapinfo := u.csrs.trapinfo } ∧
     u.latches = Latches.invalid ∧ u.waits = [] ∧ u.inflight = t.inflight.filter (fun p => !p.isFormat) ∧
     (formats = [] → u.gov = t.gov) ∧ (∀ p c mx v, formats = [p] → p.eff = .gov c mx v → u.gov = t.gov.write c mx v) ∧
     (∀ p v, formats = [p] → p.eff = .mfr v → u.gov = { t.gov with mfr := v }) ∧
     (∀ p q m n v w, formats = [p, q] → p.due < q.due → p.eff = .gov .fpcr m v → q.eff = .gov .fpcr n w →
       u.gov = { t.gov with fpcr := w }) ∧
     u.gov = (sortBy (fun p => p.due) formats).foldl Gov.apply t.gov ∧
     u.regs = t.regs ∧ u.spad.mem = t.spad.mem ∧ u.loops = t.loops ∧ u.regions = t.regions ∧ u.landings = t.landings ∧ u.mx = t.mx ∧
     u.casc = t.casc ∧ u.queues = t.queues ∧ u.phase = t.phase ∧ u.tick = t.tick ∧ u.seed = t.seed ∧ u.imem = t.imem ∧
     u.buffer = t.buffer ∧ u.basin = t.basin ∧ u.skid = t.skid ∧ u.station = t.station ∧ u.berth = t.berth ∧ u.gang = t.gang ∧
     (tr.recorded = false → u.faults = t.faults)) ∧
  (∀ (s : State) (tr : Trap), s.tile.gang.size = 1 → s.tile.gang.first = s.tile.key.id → (∀ u ∈ s.others, u.key ≠ s.tile.key) →
     let t := s.tile
     let handler := bits t.csrs.tvec 0 17
     let r : Report := ⟨some tr, t.pc, tr.cause, 0⟩
     let goes (u : Tile) : Prop := s.takeTrap tr = { s with tile := { u with iss := { u.iss with trap := some tr } } }
     let faults : Prop :=
       s.takeTrap tr = (s.contextFault t.key tr.cause.code (BitVec.ofNat 64 (fld t.pc 0 17)) tr.info).onKey t.key
         fun u => { u with iss := { u.iss with trap := some tr } }
     (tr.cause ≠ .eccue →
       (bit t.csrs.trapcause 13 = false → handler ≠ 0 → t.isStart handler = true → goes (t.enter handler r)) ∧
       (bit t.csrs.trapcause 13 = true ∨ handler = 0 ∨ t.isStart handler = false → faults)) ∧
     (tr.cause = .eccue →
       (∀ g rest, t.regions = g :: rest → goes (t.unwind t.regions.length g.handler r)) ∧ (t.regions = [] → faults)))

/-- The unwind to an open region (R272, R310): the region and those inside it close, its handler is next, TRAPCAUSE says CONTAINED
with the original cause and the level, results of syllables issued since the region opened are gone, and earlier ones stay. A recorded
fault that it takes leaves the record (R146). -/
def Obligations.Unwind : Prop :=
  ∀ (t : Tile) (tr : Trap) (g : Region) (rest : List Region) (held low : Nat) (cause : Cause),
    t.regions = g :: rest → t.regions.length ≤ 4 → low < 16 → held < 2 ^ 17 →
    let u := t.unwind t.regions.length g.handler ⟨some tr, held, cause, low⟩
    u.pc = g.handler ∧ u.regions = rest ∧ u.csrs.depth = rest.length ∧
    bits u.csrs.trapcause 0 8 = Cause.contained.code ∧ bits u.csrs.trapcause 16 8 = cause.code ∧
    bits u.csrs.trapcause 24 8 = t.regions.length ∧ bit u.csrs.trapcause 13 = bit t.csrs.trapcause 13 ∧
    u.csrs.trappc = BitVec.ofNat 64 held ∧ u.csrs.trapinfo = tr.info ∧ u.latches = Latches.invalid ∧ u.waits = [] ∧
    (∀ p ∈ u.inflight, g.opened ≤ p.issue → p.eff.isResult = false) ∧
    (∀ p ∈ t.inflight, p.issue < g.opened → p.isFormat = false → (∀ b, p.eff ≠ .depth b) → p ∈ u.inflight) ∧
    (∀ l, l ∈ u.landings ↔ l ∈ t.landings ∧ l.issue < g.opened) ∧ u.regs = t.regs ∧ u.spad = t.spad ∧
    u.faults = (if tr.recorded = true then t.faults.drop 1 else t.faults)

/-! Events of a tile. -/

/-- A far access of one unit that may be performed now (R145, R280), and whose data no error has struck (R380). -/
def OneUnit (s : State) (t : Tile) (f : FarOp) : Prop :=
  f.stage = .open ∧ f.left = [0] ∧ s.inOrder t f 0 = true ∧ f.issue < t.tick ∧ f.bad = false

/-- Landings, messages and waits (R22, R27, R29, R143, R145, R148, R280, R284, R292, R297, R332): a reply or the far-read buffer brings the
datum, which is translated as an access at the home is and brings its fault; a load whose line the buffer holds is not performed at
the home; a landing that is due is written or freezes the domain, a message moves to the Basin, a wait ends at its due tick, an
ACQ reads its word, a pass limit and an overdue freeze are DEADLOCK. -/
def Obligations.LandingsAndWaits : Prop :=
  ∀ (s : State) (k : TileKey) (t : Tile), s.tile? k = some t →
    (∀ n f b, t.farOp n = some f → f.stage = .done →
      exec (.landingArrival k n b) s = .next (s.onKey k fun u => u.finishFar f (some f.reply))) ∧
    (∀ n f va bs, t.farOp n = some f → OneUnit s t f → f.landing.isSome = true → f.kind = .load8 →
      farTarget t.grid f.addr = .virt va → t.line va = some bs →
      (∀ s1 pa, s.tickFresh.reach k.pasid (.farPath k.id) va .read = (s1, .home pa) →
        (t.bufferBad = [] → exec (.landingArrival k n true) s =
          .next (s1.onKey k fun u => u.readUnit f 0 ((bs.drop (va % 256)).take 8) false)) ∧
        (va / 8 ∈ t.bufferBad → va % 8 = 0 → exec (.landingArrival k n true) s = .next (s1.onKey k fun u => u.failFar f .eccue))) ∧
      (∀ s1 c, s.tickFresh.reach k.pasid (.farPath k.id) va .read = (s1, .fault c) →
        exec (.landingArrival k n true) s = .next (s1.onKey k fun u => u.failFar f c)) ∧
      exec (.landingArrival k n false) s = .refused .notEnabled) ∧
    (∀ l f d v, t.landings = [l] → l.due ≤ t.tick → l.dest = .far f d →
      (l.got = some (.word v none) →
        exec (.landingDue k) s = .next (s.setTile { t with landings := [], regs := t.regs.setX f d v })) ∧
      (l.got = none → exec (.landingDue k) s = .next (s.holdAt k .landing false))) ∧
    (∀ m rest, t.skid = m :: rest → t.basinFull = false →
      exec (.messageArrival k m.src m.chan) s = .next (s.onKey k fun u => { u with skid := rest, basin := u.basin ++ [m] })) ∧
    (∀ l m more, t.skid = [] → t.basinFull = false → s.launch? t.launchKey = some l → l.links = m :: more → m.dst = k.id →
      t.cancelled m = false → exec (.messageArrival k m.src m.chan) s =
        .next ((s.setLaunch { l with links := more }).onKey k fun u => { u with basin := u.basin ++ [m] })) ∧
    (∀ w, t.waits = [w] → w.due ≤ t.tick → w.kind = .tick →
      ∃ u, exec (.waitDueTick k) s = .next u ∧ u.tile? k = some { t with waits := [] } ∧ u.launches = s.launches ∧ u.hbm = s.hbm) ∧
    (∀ w sc g n, t.waits = [w] → w.due ≤ t.tick → w.kind = .fence sc g n → (s.setTile t).openBefore t g sc n true = true →
      exec (.waitDueTick k) s = .next ((s.setTile t).holdAt k .wait false)) ∧
    (∀ w f b n va s1 pa, t.waits = [w] → w.fault = none → w.kind = .acq b n false → t.far = [f] → f.wait = some w.num →
      OneUnit s t f → f.kind = .acq → farTarget t.grid f.addr = .virt va →
      s.tickFresh.tickFresh.reach k.pasid (.farPath k.id) va .read = (s1, .home pa) → s1.hbmPoisoned pa 8 = false →
      exec (.waitConditionMet k) s = .next (s1.onKey k fun u => (u.dropLine va).acqRead f (Mem.readNat s1.hbm pa 8))) ∧
    (∀ w b n, t.waits = [w] → w.fault = none → w.kind = .acq b n true → t.freeze.isSome = true →
      exec (.waitConditionMet k) s = .next (s.onKeys (s.domainOf k) fun u => { u with freeze := none })) ∧
    (∀ w b n p, w ∈ t.waits → w.kind = .acqRill b n none p → 65536 ≤ p →
      exec (.acqPassLimit k) s = .next (State.raise .every 1 [(k, deadlockTrap .wait k.id, none)] s)) ∧
    (∀ f, s.overdue (s.domainOf k) = some f → exec (.deadlock k) s = .next (s.deadlock (s.domainOf k) f))

/-- Far stores, accesses through windows, the increment of REL, the end of a path and the passes of the Rill (R144, R161, R229,
R278, R283, R358): the bytes are written at their home or in the owner's scratchpad, the object counts up by one, a lost path
is PERM, and a pass performs what the Rill's turn brings to its stations. That an FST meets no ECCUE in a read-modify-write,
which R146 names for it, rests on the model's choice of an ECC word of 8 bytes (log entry 65). -/
def Obligations.FarPerformed : Prop :=
  (∀ (s : State) (k : TileKey) (t : Tile) (n : Nat) (f : FarOp), s.tile? k = some t → t.farOp n = some f → f.landing = none →
    (∀ bs va s1 pa, OneUnit s t f → f.kind = .store bs → bs.length = 8 → farTarget t.grid f.addr = .virt va →
      (s.tickFresh.reach k.pasid (.farPath k.id) va .write = (s1, .home pa) →
        exec (.farStorePerform k n) s = .next ((s1.hbmWrite pa bs).onKey k fun u => (u.patchLine va bs).dropFar f)) ∧
      (∀ c, s.tickFresh.reach k.pasid (.farPath k.id) va .write = (s1, .fault c) →
        exec (.farStorePerform k n) s = .next (s1.onKey k fun u => u.failFar f c))) ∧
    (∀ bs id off v, OneUnit s t f → f.kind = .store bs → bs.length = 8 → farTarget t.grid f.addr = .window id off →
      s.tile? ⟨k.pasid, id⟩ = some v → id ≠ k.id →
      ∃ u w, exec (.remoteAccessApply k n) s = .next u ∧ u.tile? ⟨k.pasid, id⟩ = some w ∧
        w.spad.mem = (v.spad.write off bs).mem ∧ u.tile? k = some (t.dropFar f)) ∧
    (∀ b g va s1 pa, OneUnit s t f → f.kind = .rel b g → farTarget t.grid f.addr = .virt va →
      s.coversOpen t (s.bindingsOf t) b g f.num = false →
      s.tickFresh.reach k.pasid (.farPath k.id) va .atomic = (s1, .home pa) → s1.hbmPoisoned pa 8 = false →
      exec (.relIncrement k n) s = .next ((s1.hbmWrite pa (bytesOfNat 8 (Mem.readWord s1.hbm pa + 1).toNat)).onKey k
        fun u => (u.dropLine va).dropFar f)) ∧
    (∀ c, f.since = some c → c + Config.tenMsCycles ≤ s.cycle →
      exec (.remotePathTimeout k n) s = .next (s.onKey k fun u => u.failFar f .perm))) ∧
  (∀ (s : State) (lk : LaunchKey) (l : Launch), s.launch? lk = some l → s.passing l ≠ [] → s.relHold l = none →
    exec (.rillPass lk) s = .next (s.ringPass l))

/-- The copy engine's events (R252, R254, R260): an ended command takes its record and advances its ring, a unit of a fill
is written, a fault that no host resolves stops the command with its STATUS, and timed records fall due together. -/
def Obligations.CopyEngineEvents : Prop :=
  ∀ (s : State) (k : TileKey) (t : Tile) (q : Nat) (c : CopyCmd), s.tile? k = some t → (t.queue q).cmds = [c] →
    t.phase = .running → c.record = none → q < 32 → t.queues.length = 32 →
    (∀ n, c.stage = .ended n → c.due = none →
      exec (.copyCommandComplete k q) s = .next (s.tickFresh.onKey k fun u => u.complete q c)) ∧
    (∀ off, s.mayRun t (t.queue q) c = true → cmdOp c.words = 1 → (cmdDst t.grid c.words c.prog).2 = .spad off → c.left = [] →
      c.prog + 1 < cmdElems c.words → cmdSize c.words = 8 →
      ∃ u w, exec (.copyCommandComplete k q) s = .next u ∧ u.tile? k = some w ∧
        w.spad.mem = (t.spad.write off (fillBytes c.words)).mem ∧
        (w.queue q).cmds = [{ c with started := true, prog := c.prog + 1, paused := none, since := none, data := none }]) ∧
    (∀ va s1 x, s.mayRun t (t.queue q) c = true → cmdOp c.words = 0 → c.prog < cmdElems c.words → cmdSize c.words = 8 →
      c.data = none → c.read = [] → c.left = [] → (cmdSrc t.grid c.words c.prog).2 = .virt va →
      s.tickFresh.tickFresh.reach t.key.pasid (.copyEngine t.key.id) va .read = (s1, .fault x) →
      exec (.copyCommandStop k q) s = .next (s1.setCopy t.key q
        { c with started := true, stage := .ended (statusOf x), read := [], data := none, left := [] })) ∧
    (t.copiesDue ≠ [] → t.copyLate = false → t.faultsCopy = [] →
      exec (.copyCompletionDue k) s = .next (s.setTile t.completeCopies)) ∧
    (t.copyLate = true → t.copiesDue ≠ [] → exec (.copyCompletionDue k) s = .next (s.holdAt k .landing false))

/-- The events of the matrix engine and of the Cascade on a tile (R171 to R175, R181, R184 to R187, R199 to R201, R213 to R218): each
happens at its own tick; a step starts on two tiles that are present, else the domain freezes; a step found wrong is computed again
while the domain advances or is frozen for that late work, and in a freeze for another cause it waits; MCLR leaves the accumulators of
its mask zero with an empty stack, and raises ECCUE with kind 4 when one of them is in error: that this completion is one of those
R185 speaks of is the model's reading (log entry 43), and the address 0 its choice (log entry 53). -/
def Obligations.EngineEvents : Prop :=
  ∀ (s : State) (k : TileKey) (t : Tile), s.tile? k = some t →
    (∀ o, t.mx.active = some o → o.over = false →
      (o.begun = false → o.start = t.tick → exec (.matrixOpBegin k) s = .next (s.setTile (t.mxBegin o))) ∧
      (∀ g, o.kind = .go g → o.begun = true → o.ahead.ended = false → o.nextStart = t.tick →
        (∀ u, t.mxStart o = some u → exec (.matrixStepStart k) s = .next (s.setTile u)) ∧
        (present (listGet o.aheadRings o.cfg.aRing ⟨0, 0, 0⟩) (listGet t.mx.rings o.cfg.aRing ⟨0, 0, 0⟩) = false →
          exec (.matrixStepStart k) s = .next (s.holdAt k .landing false))) ∧
      (∀ x, o.steps = [x] →
        (x.stop + 16 = t.tick → x.compl = none → exec (.matrixStepRetire k) s = .next (s.setTile t.mxRetire)) ∧
        (x.late = true → x.stop ≤ t.tick → t.phase = .running → (∀ z, t.freeze = some z → z.cause ≠ .landing) → t.freeze.isSome = true →
          exec (.matrixStepReplay k) s = .refused .notEnabled) ∧
        (x.late = true → x.stop ≤ t.tick → t.phase = .running →
          (t.freeze = none ∨ ∃ z, t.freeze = some z ∧ z.cause = .landing ∧ x.stop + 16 ≤ t.tick) →
          let u := (s.setTile (t.mxReplay o x).1).countCheck k (t.mxReplay o x).2
          (x.hit = false → x.failed = false → exec (.matrixStepReplay k) s = .next u) ∧
          (x.hit = true ∨ x.failed = true → exec (.matrixStepReplay k) s =
            .next (u.countSoft k fun e => { e with mxrep := bump e.mxrep }))) ∧
        (x.compl = some t.tick → exec (.matrixStepComplete k) s = .next (s.engineDone (t.mxStepDone o x)))) ∧
      (o.compl = some t.tick →
        (∀ a, o.kind = .drn a → exec (.mdrnComplete k) s = .next (s.engineDone (t.mxOpDone o))) ∧
        (∀ a w p q, o.kind = .ldw a w p q → exec (.mldwComplete k) s = .next (s.engineDone (t.mxOpDone o))) ∧
        (∀ m, o.kind = .clr m → exec (.mclrComplete k) s = .next (s.engineDone (t.mxOpDone o)) ∧
          (∀ a, a < 4 → fld m a 1 = 1 → listGet t.mx.poison a false = true → (t.mxOpDone o).2 = [engineTrap (4, 0)]) ∧
          (t.mx.poison = List.replicate 4 false → t.spad.poison = [] → (t.mxOpDone o).2 = [] ∧ ∀ a, a < 4 →
            (fld m a 1 = 1 → (t.mxOpDone o).1.mx.acc a = List.replicate 16384 0 ∧
              listGet (t.mxOpDone o).1.mx.stk a StackDesc.empty = StackDesc.empty) ∧
            (fld m a 1 ≠ 1 → (t.mxOpDone o).1.mx.acc a = t.mx.acc a))))) ∧
    (t.casc.reading.isSome = true → exec (.cascadeReadStage k) s = .next (s.setTile (t.readStage t.ports))) ∧
    (∀ x, x ∈ t.casc.subs → x.due = some t.tick → exec (.cascadeSubtreeWrite k) s = .next (s.engineDone t.writeSubs)) ∧
    (∀ x, x ∈ t.casc.xfers → x.gone = false → x.struck = false → x.start ≤ t.tick → t.tick < x.start + x.count →
      exec (.cascadeRowMove k) s = .next (s.setTile t.moveRows)) ∧
    (∀ x, x ∈ t.casc.xfers → x.row.isSome = true → exec (.cascadeRowWrite k) s = .next (s.engineDone t.writeRow))

/-! Contexts, pages and the management of them. -/

/-- Translation and page requests (R331 to R336, R341): a walk keeps the page it finds, raises a cause, or requests the page; a
request unanswered for 10 ms fails; an answer, or that failure, is noted for a context that is not resident; an invalidation empties the
caches of its range. -/
def Obligations.TranslationEvents : Prop :=
  ∀ (s : State) (p : Nat) (c : Context), s.ctx? p = some c →
    (∀ va k a, s.agentWaits p va k a = true → s.cachedFor c a va = none → c.requested (va / 65536) k = false →
      let s1 := s.walked c va
      (∀ e, s.walk c va = .page e → (∀ x, s.through c e va k ≠ .fault x) →
        exec (.translationWalk p va k a) s = .next (s1.keep c a e)) ∧
      (s.walk c va = .absent → exec (.translationWalk p va k a) s = .next (s1.requestPage p a (va / 65536) k)) ∧
      (∀ x, s.walk c va = .bad x → exec (.translationWalk p va k a) s = .next (s1.walkFails p va k a x))) ∧
    (∀ r w, c.requests = [r] → r.written = some w → r.answer = none → w + Config.tenMsCycles ≤ s.cycle →
      (c.resident = true → exec (.pageRequestTimeout p r.num) s = .next (s.endRequest p r false)) ∧
      (c.resident = false → exec (.pageRequestTimeout p r.num) s = .next (s.keepAnswer c r.num false))) ∧
    (∀ range h more, c.invals = (range, h) :: more →
      exec (.invalidationComplete p) s =
        .next (((s.setCtx { c with invals := more }).dropTlb p fun e => !e.outside range).reply h 0 [])) ∧
    (∀ h, s.managed h →
      (∀ range, exec (.invalidateTranslations h p range) s = .next (s.setCtx { c with invals := c.invals ++ [(range, h)] })) ∧
      (∀ r ok, c.requests = [r] → r.written.isSome = true → r.answer = none →
        (c.resident = true → exec (.answerPageRequest h p r.num ok) s = .next ((s.endRequest p r ok).reply h 0 [])) ∧
        (c.resident = false → exec (.answerPageRequest h p r.num ok) s = .next ((s.keepAnswer c r.num ok).reply h 0 []))))

/-- Contexts (R337, R339, R340, R345): a block within its limits creates one, resident when its partition is free; a teardown stops
its tiles and advances GEN at once; a pre-emption raises STOPFLAG and is complete when every tile can be saved; a restore puts a
context back on a free partition of its size; a queue is registered by a block of the form of R312 and taken away when empty. A
teardown that is complete leaves nothing of the context, and a save keeps its tiles and launches, advances SEQ and frees the
partition; a restore that finds a bad block loses the context. The first generation of 0, a queue that leaves the list with its context,
and which contexts are resident at once are the model's choices (log entry 51). -/
def Obligations.ContextOperations : Prop :=
  (∀ (s : State) (h : MgmtHdr), s.managed h →
    (∀ block, s.blockOk block = true → s.contexts.length < 64 → ∃ c : Context, exec (.createContext h block) s = .next
      ({ s with contexts := s.contexts ++ [c], draws := s.draws + 1 }.reply h 0 []) ∧ c.gen = 0 ∧ c.seeds = [] ∧ c.saved = none ∧
      (c.resident = true ↔ s.partBusy (fld (listGet block 0 0).toNat 48 3) = false) ∧
      c.pasid = fld (listGet block 0 0).toNat 0 20) ∧
    (∀ p c, s.ctx? p = some c →
      (c.tearing = none → ∃ u d, exec (.teardownContext h p) s = .next u ∧ u.ctx? p = some d ∧ d.gen = (c.gen + 1) % 2 ^ 16 ∧
        d.tearing = some h ∧ d.tileTlb = [] ∧ d.dieTlb = [] ∧ (∀ x ∈ u.hubTlb, x.1 ≠ p) ∧
        ∀ t ∈ u.tiles, t.key.pasid = p → t.phase = .faulted) ∧
      (c.resident = true → c.preempt = none → c.tearing = none → ∃ u d, exec (.preemptContext h p) s = .next u ∧ u.ctx? p = some d ∧
        d.preempt = some (s.counter, h) ∧ ∀ t ∈ u.tiles, t.key.pasid = p → t.csrs.stopflag = 1) ∧
      (c.resident = false → c.tearing = none → ∀ part, s.hasPart part = true → (s.partition part).2 = (s.partition c.part).2 →
        s.partBusy part = false →
        (c.saved = none → exec (.restoreContext h p part) s =
          .next ((s.setCtx { c with part := part, resident := true }).reply h 0 [])) ∧
        (∀ v, c.saved = some v → s.badBlock c v = none → (∀ r ∈ c.requests, r.answer = none) → (v.tiles.map fun t => t.key).Nodup →
          ∃ (u : State) (d : Context), exec (.restoreContext h p part) s = .next (u.reply h 0 []) ∧ u.ctx? p = some d ∧
            d.resident = true ∧ d.part = part ∧ ∀ t ∈ v.tiles,
              u.tile? t.key = some (t.resumed { c with part := part, resident := true, saved := none } v.launches s.cycle)) ∧
        (∀ v tile pa ecc, c.saved = some v → s.badBlock c v = some (tile, pa, ecc) →
          let u := s.loseContext { c with part := part } v.launches tile pa ecc
          exec (.restoreContext h p part) s = .next ((u.applyAnswers p c.requests).reply h 0 []) ∧
            ∃ d : Context, u.ctx? p = some d ∧ d.lost = true ∧ d.saved = none)) ∧
      (∀ va e pa, (s.queues.filter fun q => q.pasid == p).length < 4096 → va % 128 = 0 → va < 2 ^ 57 →
        s.walk c va = .page e → s.through c e va .write = .home pa →
        blockForm ((List.range 16).map fun i => Mem.readNat s.hbm (pa + 8 * i) 8) p = true →
        ∃ (u : State) (q : Queue), exec (.registerQueue h p va) s = .next (u.reply h 0 (bytesOfNat 8 q.num)) ∧
          u.queues = s.queues ++ [q] ∧ q.pasid = p ∧ q.block = pa ∧ q.packets = [])) ∧
    (∀ n q, s.queue? n = some q → q.packets = [] →
      exec (.unregisterQueue h n) s = .next ({ s with queues := s.queues.filter fun r => r.num != n }.reply h 0 []))) ∧
  ∀ (s : State) (p : Nat) (c : Context) (h : MgmtHdr), s.ctx? p = some c →
    (c.tearing = some h → s.up = true → ∃ u : State, exec (.teardownComplete p) s = .next (u.reply h 0 []) ∧ u.ctx? p = none ∧
      (∀ q ∈ u.queues, q.pasid ≠ p) ∧ (∀ l ∈ u.launches, l.key.pasid ≠ p) ∧ ∀ t ∈ u.others, t.key.pasid ≠ p) ∧
    (∀ n, c.preempt = some (n, h) → (∀ t ∈ s.tiles, t.key.pasid = p → s.saveReady t = true) →
      (∀ l ∈ s.launches, l.key.pasid = p → l.saveReady = true) →
      ∃ (u : State) (d : Context), exec (.contextSaveComplete p) s = .next (u.reply h 0 []) ∧ u.ctx? p = some d ∧
        d.resident = false ∧ d.preempt = none ∧ d.seq = c.seq + 1 ∧ (∀ l ∈ u.launches, l.key.pasid ≠ p) ∧
        d.saved = some ⟨c.seq + 1, s.draws, (s.tiles.filter fun t => t.key.pasid == p).map Tile.saved,
          s.launches.filter fun l => l.key.pasid == p⟩)

/-! The front end. -/

/-- The packets of a queue (R316, R318, R322, R325, R326, R370): a packet that may start launches its image, waits on signals, changes
a signal, gives a command to the hub's copy engine, changes the seed stack or the checkpoint policy, or does nothing, and completes;
a full or an empty seed stack is DETAIL 6 or 7. A packet with LOAD = 1 reads its image (R322) and keeps it in the image slot when its
digest holds. That the slot is read when the packet starts, and that an empty slot gives an image of no bytes, are the model's readings
(log entry 50). -/
def Obligations.Packets : Prop :=
  ∀ (s : State) (n i : Nat) (q : Queue) (k : Packet) (c : Context), s.queue? n = some q → q.packet? i = some k → s.mayStart q k = true →
    s.ctx? q.pasid = some c →
    (k.started = false →
      (k.type = 0x0B → exec (.nop n i) s = .next (s.completePacket n i)) ∧
      (k.type = 0x01 → fld (k.word 1) 3 1 = 0 → ∃ (u : State) (l : Launch),
        exec (.timetable n i) s = .next u ∧ u.launches = s.launches ++ [l] ∧ l.key = ⟨c.pasid, c.nextLaunch⟩ ∧
        l.stage = .waiting ∧ l.queue = q.num ∧ l.packet = k.index ∧ l.index = 0 ∧
        l.image = parseImage ((c.images[fld (k.word 1) 0 3]?).join.getD []) ∧
        l.abs = if fld (k.word 3) 63 1 = 1 then some (fld (k.word 3) 0 63) else none) ∧
      (∀ s1 hdr s2 bs, k.type = 0x01 → fld (k.word 1) 3 1 = 1 → s.hubRead q.pasid .frontEnd (k.word 2) 0x740 2 = (s1, .got hdr) →
        k.word 2 + imgLength hdr ≤ 2 ^ 57 →
        s1.hubRead q.pasid .frontEnd (k.word 2) (imgLength hdr) (granules (imgLength hdr)) = (s2, .got bs) →
        ∀ d2, s2.ctx? q.pasid = some d2 → ∃ (u : State) (l : Launch) (d : Context), exec (.timetable n i) s = .next u ∧
          u.launches = s2.launches ++ [l] ∧ l.key.pasid = c.pasid ∧ l.stage = .waiting ∧ l.image = parseImage bs ∧ u.ctx? q.pasid = some d ∧
          d.images = if (parseImage bs).digestOk = true then d2.images.set (fld (k.word 1) 0 3) (some bs) else d2.images) ∧
      (∀ s1 bs, k.type = 0x02 → s.hubRead1 q.pasid .frontEnd (k.word 4) 4 = (s1, .got bs) →
        (natOfBytes bs = 0 → exec (.timetableIndirect n i) s = .next (s1.completePacket n i)) ∧
        (natOfBytes bs ≠ 0 → exec (.timetableIndirect n i) s = .next (s1.startLaunch q k (natOfBytes bs)))) ∧
      (∀ s1 bs, s.qstate q ≠ 4 →
        (s.onQueue q.num fun r => r.setPacket { k with started := true }).readSignal q (k.word 1) = (s1, .got bs) →
        (k.type = 0x03 → exec (.wait n i) s = .next (if waitHolds (fld (k.word 3) 0 2) (k.word 2) (natOfBytes bs) = true then
          s1.completePacket q.num k.index else s1)) ∧
        (k.type = 0x0A → k.word 1 ≠ 0 → k.word 2 = 0 → k.word 3 = 0 → k.word 4 = 0 → k.word 5 = 0 →
          exec (.barrierAnd n i) s = .next (if natOfBytes bs = 0 then s1.completePacket q.num k.index else s1))) ∧
      (∀ s1 pa, k.type = 0x04 → s.reach q.pasid .frontEnd (s.signalAddr q (k.word 1)) .atomic = (s1, .home pa) →
        s1.hbmPoisoned pa 8 = false →
        let old := Mem.readWord s1.hbm pa
        let v := BitVec.ofNat 64 (k.word 3)
        let put (w : Word) : Prop :=
          exec (.signal n i) s = .next ((s1.hbmWrite pa (bytesOfNat 8 w.toNat)).completePacket n i)
        (k.word 2 = 0 → put v) ∧ (k.word 2 = 1 → put (old + v)) ∧ (k.word 2 = 2 → put (old - v))) ∧
      (k.type = 0x06 → let seed : BitVec 256 :=
            BitVec.ofNat 256 (k.word 1 + k.word 2 * 2 ^ 64 + k.word 3 * 2 ^ 128 + k.word 4 * 2 ^ 192)
        (c.seeds.length < 16 → exec (.seedPush n i) s = .next ((s.setCtx { c with seeds := seed :: c.seeds }).completePacket q.num k.index)) ∧
        (16 ≤ c.seeds.length → exec (.seedPush n i) s = .next (s.failPacket q.num k.index 0x0E 6))) ∧
      (k.type = 0x07 →
        (∀ v more, c.seeds = v :: more →
          exec (.seedPop n i) s = .next ((s.setCtx { c with seeds := more }).completePacket q.num k.index)) ∧
        (c.seeds = [] → exec (.seedPop n i) s = .next (s.failPacket q.num k.index 0x0E 7))) ∧
      (k.type = 0x08 →
        (∀ v more, c.seeds = v :: more → c.seeds.length < 16 → exec (.seedFork n i) s =
          .next ((s.setCtx { c with seeds := seedChild v (k.word 1) :: c.seeds }).completePacket q.num k.index)) ∧
        (c.seeds = [] → exec (.seedFork n i) s = .next (s.failPacket q.num k.index 0x0E 7)) ∧
        (16 ≤ c.seeds.length → exec (.seedFork n i) s = .next (s.failPacket q.num k.index 0x0E 6))) ∧
      (k.type = 0x09 → c.ckpt.store ≠ 0 → exec (.checkpointPolicy n i) s = .next ((s.setCtx { c with ckpt := { c.ckpt with
        interval := k.word 1, period := k.word 2, stream := k.word 3 == 1, handle := k.word 4,
        timerFrom := if k.word 2 = 0 then none else some s.cycle } }).completePacket n i))) ∧
    (k.type = 0x05 →
      (∀ s1 bs, k.copy = none → s.hubRead1 q.pasid .frontEnd (k.word 1) 64 = (s1, .got bs) →
        let ws := (chunks 8 8 bs).map fun b => BitVec.ofNat 64 (natOfBytes b)
        (hubCommandError (s.partTiles c) ws = none → ∃ d : CopyCmd, d.words = ws ∧ d.prog = 0 ∧ exec (.copy n i) s =
          .next (s1.onQueue q.num fun r => r.setPacket { k with started := true, copy := some d })) ∧
        (∀ x, hubCommandError (s.partTiles c) ws = some x → exec (.copy n i) s = .next (s1.failPacket q.num k.index x.code 4))) ∧
      (∀ d, k.copy = some d → cmdElems d.words ≤ d.prog → q.copyTurn k = true → exec (.copy n i) s = .next (s.completePacket q.num k.index))) ∧
    (∀ s1 bs, k.type = 0x03 → k.started = true → s.qstate q ≠ 4 → s.readSignal q (k.word 1) = (s1, .got bs) →
      waitHolds (fld (k.word 3) 0 2) (k.word 2) (natOfBytes bs) = true →
      exec (.signalConditionMet n i) s = .next (s.waitPacket q k))

/-- The states of a queue (R312 to R314, R317, R318): a poll reads the header of the next packet and, once its phase has matched, each word of
the body once, in no stated order, the last of which has the packet accepted or refused; it finds an overrun whatever is in progress, takes
no packet behind 64 that are not complete, and idles a queue with nothing to do; CTRL restarts a queue in ERROR and drains one that is
to be destroyed; a queue parked for 10 ms fails. -/
def Obligations.QueueStates : Prop :=
  ∀ (s : State) (n : Nat) (q : Queue), s.queue? n = some q →
    (s.up = true → (∀ k ∈ q.packets, k.complete = false) → s.qstate q = 1 →
      (∃ c, s.ctx? q.pasid = some c ∧ c.resident = true ∧ c.tearing = none) →
      (q.packets = [] → s.qword q 1 = s.qword q 2 → exec (.queuePoll n) s = .next (s.setQstate q 0)) ∧
      (q.resident = true → s.takes q = true → s.behind q ≠ 0 →
        let p := s.onQueue q.num fun x => { x with served := true }
        let va := fld (s.qword q 0) 0 57 + 64 * (s.qword q 2 % 2 ^ s.logn q)
        (2 ^ s.logn q < s.behind q → exec (.queuePoll n) s = .next (s.queueFail q 0x0E 5)) ∧
        (s.behind q ≤ 2 ^ s.logn q → 64 ≤ q.packets.length → exec (.queuePoll n) s = .next p) ∧
        (s.behind q ≤ 2 ^ s.logn q → q.packets.length < 64 →
          (q.reading = none → ∀ s1 bs, p.hubRead1 q.pasid .frontEnd va 8 = (s1, .got bs) →
            let h := BitVec.ofNat 64 (natOfBytes bs)
            (fld h.toNat 8 1 = 1 - s.qword q 2 / 2 ^ s.logn q % 2 → exec (.queuePoll n) s =
              .next (s1.onQueue q.num fun x => { x with reading := some ⟨s.qword q 2, some h :: List.replicate 7 none⟩ })) ∧
            (fld h.toNat 8 1 ≠ 1 - s.qword q 2 / 2 ^ s.logn q % 2 → exec (.queuePoll n) s = .next s1)) ∧
          (∀ r, q.reading = some r → r.index = s.qword q 2 → r.left ≠ [] → ∃ w ∈ r.left, ∀ s1 bs,
            { p with fresh := p.fresh + 1 }.hubRead1 q.pasid .frontEnd (va + 8 * w) 8 = (s1, .got bs) →
            let ws := r.words.set w (some (BitVec.ofNat 64 (natOfBytes bs)))
            exec (.queuePoll n) s = .next (if r.left = [w] then s1.acceptPacket q (ws.map fun x => x.getD 0)
              else s1.onQueue q.num fun x => { x with reading := some { r with words := ws } }))))) ∧
    (s.up = true → s.qword q 3 = 1 → s.qstate q = 3 → ∃ u v : State, exec (.queueRestart n) s = .next u ∧
      v = (((s.setQword q 3 0).setQword q 5 0).setQword q 8 0).setQword q 9 0 ∧
      u = (v.setQstate q (if v.qword q 2 < v.qword q 1 then 1 else 0)).onQueue n Queue.unparked) ∧
    (s.up = true → s.qword q 3 = 2 → s.qstate q < 4 → exec (.queueDestroy n) s =
      .next (((s.setQword q 3 0).setQstate q 4).onQueue n fun r =>
        { r.unparked with packets := r.packets.filter fun k => k.type != 0x03 && k.type != 0x0A })) ∧
    (s.up = true → s.qstate q = 4 → q.packets = [] → exec (.queueDestroyed n) s = .next (s.setQstate q 5)) ∧
    (∀ c, s.qstate q = 2 → q.parkedAt = some c → c + Config.tenMsCycles ≤ s.cycle →
      (q.parkedBy = none → exec (.queueParkTimeout n) s = .next (s.queueFail q 0x05 12)) ∧
      (∀ i, q.parkedBy = some i →
        ((∀ l ∈ s.launches, l.queue = q.num → l.packet = i → l.begun = false ∨ l.stage ≠ .waiting) →
          exec (.queueParkTimeout n) s = .next (s.failPacket q.num i 0x05 12)) ∧
        (∀ l, s.launches = [l] → l.queue = q.num → l.packet = i → l.begun = true → l.stage = .waiting →
          exec (.queueParkTimeout n) s = .next (s.armFails l .xlate 12))))

/-- Launches (R300, R308, R323, R324): arming fixes the start 64 ticks ahead or at the tick named, an image that breaks a rule fails
with its DETAIL; a launch starts when the counter has come to S, a tile at its start tick; TRIG or EXIT on every tile triggers it, and
it ends when every tile has retired. -/
def Obligations.Launches : Prop :=
  ∀ (s : State) (lk : LaunchKey) (l : Launch) (c : Context), s.launch? lk = some l → s.ctx? lk.pasid = some c →
    (s.mayArm l = true → l.image.bytes ≠ [] → l.image.refusal c (s.partTiles c) = none → l.image.objectZeros = [] →
      l.image.farPreloads = [] →
      (l.abs = none ∨ ∃ a, l.abs = some a ∧ s.counter < a) →
      ∃ (u : State) (m : Launch), exec (.launchArm lk) s = .next u ∧ u.launch? lk = some m ∧ m.stage = .armed ∧
        m.number = c.launchSeq ∧ m.s = l.abs.getD ((s.counter + 64) % 2 ^ 64)) ∧
    (∀ d, s.mayArm l = true → s.slipped l = false → l.image.bytes ≠ [] → l.image.refusal c (s.partTiles c) = some d →
      ∃ m : State, exec (.launchArm lk) s = .next (m.failPacket l.queue l.packet 0x0E d) ∧ m.hbm = s.hbm ∧
        ∀ x ∈ m.launches, x.key ≠ lk) ∧
    (l.stage = .armed → l.s ≤ s.counter → l.abs = none →
      exec (.launchStart lk) s = .next ({ s with draws := s.draws + 1 }.setLaunch { l with stage := .started })) ∧
    (∀ k t, s.tile? k = some t → t.launchKey = lk → t.phase = .armed → l.stage = .started → l.s + t.startTick - l.g ≤ s.counter →
      t.berth ≠ .boarded ∨ (l.rt = t.startTick ∧ l.stopped = false) →
      exec (.tileStart k) s = .next (s.onKey k fun u => { u with phase := .running, freeze := none })) ∧
    (l.fired = false → l.stage = .started → 
      (∀ t ∈ s.tilesOf lk, ∃ tick, t.triggered = some tick ∧ s.releaseOpen t tick = false) → s.lastLaunch l = true →
      exec (.launchTrigger lk) s =
        .next ((s.setLaunch { l with fired := true }).onPacketOf l fun p => { p with satisfied := true })) ∧
    (l.stage = .started → l.shard = none → (∀ t ∈ s.tilesOf lk, t.phase = .retired ∧ t.settled = true) → s.lastLaunch l = true →
      ∃ u : State, exec (.launchRetire lk) s = .next ((u.endLaunch l 0 0 0).completePacket l.queue l.packet) ∧
        u.launches = s.launches ∧ u.hbm = s.hbm ∧ ∀ t ∈ u.tiles, t.launchKey = lk → t.basin = [] ∧ t.skid = [] ∧ t.claims = [])

/-- Collectives and requests of other modules (R349 to R354, R357, R358): a table write stores a word and checks the entry at word 0, a
ready write of the peer itself is noted and of another is PERM, a round fires when every peer is ready, reads the contributions unit by
unit, and completes in each of them with a result, a status and an arrival; one that has waited 10 ms for another module has STATUS 2; a
remote write stores at its home. That a read from another module changes nothing here, and the timeout's form, are the model's choices
(log entry 14). -/
def Obligations.Collectives : Prop :=
  (∀ (s : State) (k : TileKey) (t : Tile) (n e o v : Nat) (f : FarOp) (l : Launch) (x : CollEntry),
    s.tile? k = some t → t.farOp n = some f → f.stage = .open → s.inOrder t f 0 = true → f.apertureFst t.grid = some (e, o, v) →
    s.launch? t.launchKey = some l → l.entry? e = some x →
    (∀ off, apertureOf e o = .table off → x.holdsTable off = false → 8 ≤ off →
      exec (.collectiveTableWrite k n) s = .next ((s.onEntry t.launchKey e fun y => { y with words := y.words.set (off / 8) v }).onKey k
        fun u => u.dropFar f)) ∧
    (apertureOf e o = .table 0 → x.busy = false → ∃ put : CollEntry → CollEntry,
      exec (.collectiveTableWrite k n) s = .next ((s.onEntry t.launchKey e put).onKey k fun u => u.dropFar f) ∧
      ∀ y, (put y).valid = (fld v 63 1 == 1) ∧ (put y).words = y.words.set 0 v) ∧
    (∀ j, apertureOf e o = .ready j →
      (x.isPeer j k.id s.board.position = true → x.holdsReady j = false → exec (.collectiveReadyWrite k n) s =
          .next (((s.onEntry t.launchKey e fun y => { y with ready := y.ready ++ [(j, v % 2 ^ 32)] }).tell x
            fun m => .ready m t.launchKey e j (v % 2 ^ 32)).onKey k fun u => u.dropFar f)) ∧
      (x.isPeer j k.id s.board.position = false → exec (.collectiveReadyWrite k n) s = .next (s.onKey k fun u => u.failFar f .perm)))) ∧
  (∀ (s : State) (lk : LaunchKey) (l : Launch) (c : Context) (n : Nat) (e : CollEntry),
    s.launch? lk = some l → s.ctx? lk.pasid = some c → l.entry? n = some e →
    (e.valid = true → e.fired = false → e.allReady = true →
      exec (.collectiveRoundFire lk n) s = .next (s.fireRound lk e) ∧
      (e.bad = true → s.fireRound lk e = s.onEntry lk n fun x =>
        { x with since := some s.cycle, running := some ([], 3), left := e.toWrite s.board.position }) ∧
      (e.bad = false → (∃ r ∈ e.ready, r.2 ≠ e.desc) → s.fireRound lk e = s.onEntry lk n fun x =>
        { x with since := some s.cycle, running := some (poisonResult e.desc, 1), left := e.toWrite s.board.position }) ∧
      (e.bad = false → (∀ r ∈ e.ready, r.2 = e.desc) → e.readUnits (e.peersOf s.board.position) ≠ [] →
        s.fireRound lk e = s.onEntry lk n fun x => { x with
          since := some s.cycle, toRead := e.readUnits (e.peersOf s.board.position), got := [], left := e.toWrite s.board.position })) ∧
    (∀ c0, e.running = none → e.since = some c0 →
      (c0 + Config.tenMsCycles ≤ s.cycle → s.awaitsModule c e = true → exec (.collectiveRoundFire lk n) s =
        .next (s.onEntry lk n fun x => { x with running := some (poisonResult e.desc, 2), toRead := [], got := [] })) ∧
      (∀ y, s.cycle < c0 + Config.tenMsCycles → e.toRead = [y] →
        (∀ s1, s.tickFresh.switchRead c (e.readAt y).1 (e.readAt y).2 = (s1, none) →
          exec (.collectiveRoundFire lk n) s = .next (s1.bringPart lk e ⟨s.board.position, [], 0, true⟩)) ∧
        (∀ s1 bs, s.tickFresh.switchRead c (e.readAt y).1 (e.readAt y).2 = (s1, some bs) →
          let x : CollEntry := { e with toRead := [], got := e.got ++ [(y.1, y.2, bs)] }
          exec (.collectiveRoundFire lk n) s =
            .next ((s1.onEntry lk n fun _ => x).bringPart lk x (x.ownPart s.board.position))))) ∧
    (∀ bs st, e.running = some (bs, st) → e.left ≠ [] → (∀ y ∈ e.left, (s.tile? ⟨lk.pasid, e.peerId y.peer⟩).isSome = true) →
      ∃ (y : PeerLeft) (r : Nat) (t : Tile) (u : State), y ∈ e.left ∧ (y.units = [] ∨ r ∈ y.units) ∧
        s.tile? ⟨lk.pasid, e.peerId y.peer⟩ = some t ∧ exec (.collectiveRoundComplete lk n) s = .next u ∧
        u.tile? ⟨lk.pasid, e.peerId y.peer⟩ = some { t with spad := t.spad.collect e (e.peerId y.peer) bs st y r } ∧
        u.launch? lk = some (l.onEntry n fun x => x.wrote y r))) ∧
  (∀ (sp : Spad) (e : CollEntry) (id st r : Nat) (bs : List Byte) (y : PeerLeft),
    (y.units ≠ [] → let p := listGet (piecesOf 64 e.raddr bs.length) r (0, 0)
      (sp.collect e id bs st y r).mem = (sp.write (e.raddr + p.1) ((bs.drop p.1).take p.2)).mem) ∧
    (y.units = [] → y.status = true → sp.collect e id bs st y r =
      sp.store id 5 e.saddr (bytesOfNat 8 (st + (e.rounds + 1) % 65536 * 65536 + e.num % 1024 * 2 ^ 32))) ∧
    (y.units = [] → y.status = false → (sp.note id 5 e.baddr 8).marked e.baddr = false → (sp.collect e id bs st y r).mem =
      (sp.write e.baddr (bytesOfNat 8 (arriveWord (Mem.readWord sp.mem e.baddr) e.barn).toNat)).mem) ∧
    (y.units = [] → y.status = false → e.left = [y] → e.wrote y r = ({ e with
      running := none, since := none, parts := [], left := [], ready := [], rounds := e.rounds + 1 } : CollEntry).takeEarly)) ∧
  (∀ (s : State) (pa : Nat) (bs : List Byte), s.board.power = .ready →
    (s.ownPa pa bs.length = true →
      exec (.ualinkRemoteRequest (.write pa bs)) s = .next (s.hbmWrite (localPa pa) bs) ∧
      exec (.ualinkRemoteRequest (.read pa bs.length)) s = .next s) ∧
    (∀ v, s.ownPa pa 8 = true → s.hbmPoisoned (localPa pa) 8 = false → exec (.ualinkRemoteRequest (.atomic pa .add v 0)) s =
      .next (s.hbmWrite (localPa pa) (bytesOfNat 8 (Mem.readWord s.hbm (localPa pa) + v).toNat))))

/-- Checkpoints (R369 to R372, R375, R377, R378): an expired timer is a count pending or is held, a shard is taken at the count at which
every tile waits and is the latest once it is written, or it is reported as not taken; the configuration is written, the latest shard
read, and a shard that passes its checks restored. The 32 bytes of READ_LATEST_SHARD, a new store size that drops the shards, and the timer
that is held are the model's choices (log entry 13). -/
def Obligations.CheckpointEvents : Prop :=
  (∀ (s : State) (p : Nat) (c : Context), s.ctx? p = some c →
    (∀ w, c.resident = true → c.ckpt.period ≠ 0 → c.ckpt.timerFrom = some w → w + c.ckpt.period * Config.usCycles ≤ s.cycle →
      s.takingShard p = false → exec (.checkpointTimer p) s = .next (s.timerMark c none) ∧
      ((∀ l ∈ s.launches, l.key.pasid ≠ p) → s.timerMark c none =
        s.setCtx { c with ckpt := { c.ckpt with timerFrom := none, held := true } })) ∧
    (∀ h, s.managed h →
      (∀ n, exec (.setCheckpointConfig h p (.storeSize n)) s = .next ((s.setCtx { c with ckpt := { c.ckpt with
        store := n, slotA := none, slotB := none, latest := none } }).reply h 0 [])) ∧
      (∀ k, k.length = 32 → exec (.setCheckpointConfig h p (.key k)) s =
        .next ((s.setCtx { c with ckpt := { c.ckpt with key := k } }).reply h 0 [])) ∧
      (∃ b : List Byte, exec (.readLatestShard h p) s = .next (s.reply h 0 b) ∧ b.length = 32 ∧
        ∀ x i, c.ckpt.latest = some i → c.ckpt.slot i = some x → x.seq < 2 ^ 64 → natOfBytes (b.take 8) = x.seq) ∧
      (∀ slot key x, c.resident = true → c.preempt = none → c.tearing = none → (∀ l ∈ s.launches, l.key.pasid ≠ p) →
        c.ckpt.slot slot = some x → numAt x.bytes 13 1 = (s.partition c.part).2 →
        (s.shardChecks c x key = none → x.regions = [] →
          exec (.restoreCheckpoint h p slot key) s = .next ((s.loadShard c x).reply h 0 [])) ∧
        (∀ f, s.shardChecks c x key = some f → ∃ (u : State) (d : Context),
          exec (.restoreCheckpoint h p slot key) s = .next (u.reply h 0 []) ∧ u.ctx? p = some d ∧ d.lost = true)))) ∧
  (∀ (s : State) (lk : LaunchKey) (l : Launch) (c : Context) (n : Nat), s.launch? lk = some l → s.ctx? lk.pasid = some c →
    (s.shardCount l = some n → l.shard = none → c.preempt = none →
      (shardSize l.image.grid l.shardRegions ≤ c.ckpt.slotBytes → exec (.checkpointShardTake lk) s =
        .next ((s.setCtx { c with ckpt := c.ckpt.setSlot c.ckpt.nextSlot none }).setLaunch { l with shard := some n })) ∧
      (c.ckpt.slotBytes < shardSize l.image.grid l.shardRegions →
        exec (.checkpointShardTake lk) s = .next (s.shardFails c l n 1))) ∧
    (l.shard = some n → s.shardReady l = true →
      ((∃ t ∈ s.tilesOf lk, t.hasPoison = true) ∨ l.slotPoison ≠ [] → exec (.checkpointShardTaken lk) s = .next (s.shardFails c l n 2)) ∧
      ((∀ t ∈ s.tilesOf lk, t.hasPoison = false) → l.slotPoison = [] → l.shardRegions = [] →
        ∃ (u : State) (d : Context), exec (.checkpointShardTaken lk) s = .next u ∧ u.ctx? lk.pasid = some d ∧
          d.ckpt.latest = some c.ckpt.nextSlot ∧ d.ckpt.taken = c.ckpt.taken + 1 ∧
          ∃ x, d.ckpt.slot c.ckpt.nextSlot = some x ∧ x.seq = c.ckpt.taken + 1)))

/-! The module. -/

/-- The module as a device (R329, R379 to R382, R385, R387, R388, R391, R392): watchdogs, fatal errors, the scrubber, duties, power.
The queues of a core that restarts, by their number modulo 16 (log entry 22), read their next packet from its header again. The cycle at which bring-up ends, and HBM and the counter reading zero without power, are the model's choices (log entry 12), as are the code
and the layout of the cistern's header (log entry 24), and that an error the scrubber corrects in a Cascade bank counts in SCRUB alone,
not in CASC or SPSTAT (log entry 75). -/
def Obligations.DeviceEvents : Prop :=
  ∀ s : State,
    (s.up = true →
      (∀ core, core < 16 → (∀ x ∈ s.board.coreDown, x.1 ≠ core) →
        ((∀ x ∈ s.board.coreUp, x.1 = core → x.2 + Config.oneMsCycles ≤ s.cycle) → exec (.watchdogRestart core) s =
          .next { s with board := { s.board with coreDown := s.board.coreDown ++ [(core, s.cycle)] },
                         queues := s.queues.map fun q => if coreOf q.num = core then { q with reading := none } else q }) ∧
        (∀ x ∈ s.board.coreUp, x.1 = core → s.cycle < x.2 + Config.oneMsCycles →
          ∃ u : State, exec (.watchdogRestart core) s = .next u ∧ u.board.power = .fatal)) ∧
      (∀ core x, x ∈ s.board.coreDown → x.1 = core → ∃ u : State, exec (.frontEndCoreRestarted core) s = .next u ∧
        (∀ y ∈ u.board.coreDown, y.1 ≠ core) ∧ (core, s.cycle) ∈ u.board.coreUp) ∧
      (∀ code unit, ∃ u : State, exec (.fatalError code unit) s = .next u ∧ u.board.power = .fatal ∧ u.launches = [] ∧
        u.board.cistern = some (cisternHeader code s.counter unit, s.draws) ∧ (∀ q ∈ u.queues, q.packets = []) ∧
        ∀ t ∈ u.tiles, t.phase = .faulted) ∧
      (∀ p, s.hasPlace p = true → exec (.scrub p true) s = .next (s.uncorrectable p)) ∧
      (∀ p, s.hasPlace p = true → exec (.scrub p false) s = .next (s.countAt (s.placeTileOf p) SoftErrors.scrubbed)) ∧
      (∀ g, s.hasPlace (.hbm g) = true → exec (.scrub (.hbm g) false) s = .next s) ∧
      (∃ u : State, exec .dutyUpdate s = .next u ∧ u.hbm = s.hbm ∧ u.tiles = s.tiles ∧ u.board.duty.length = 8 ∧
        ∀ d ∈ u.board.duty, 8 ≤ d)) ∧
    (s.board.power ≠ .off →
      (∃ u : State, exec .thermalTrip s = .next u ∧ exec .powerOff s = .next u ∧ u.board.power = .off ∧ u.contexts = [] ∧
        u.launches = [] ∧ u.counter = 0 ∧ ∀ a, Mem.read1 u.hbm a = 0)) ∧
    (s.board.power = .off → ∃ u : State, exec .powerGood s = .next u ∧ u.contexts = [] ∧ u.counter = 0 ∧
      (∀ a, Mem.read1 u.hbm a = 0) ∧ u.board.power = .boot ∧ u.board.bootAt ≤ s.cycle + bootBound) ∧
    (s.board.power = .boot → s.inputs = [] → s.turn = [] → s.waiting = [] → s.board.bootAt ≤ s.cycle + 1 →
      ∃ u : State, step s = .next u ∧ u.contexts = [] ∧ (∀ a, Mem.read1 u.hbm a = 0) ∧
        (∀ i, s.board.bootSlot = some i → u.board.power = .ready ∧ u.board.booted = i ∧
          u.board.measurement = shake256 (listGet s.board.fw i ⟨[], [], false⟩).image 64) ∧
        (s.board.bootSlot = none → u.board.power = .recovery))

/-- The management operations on the module (R14, R366 to R368, R379, R382, R383, R386 to R392): what each changes and answers; without a
connection each answers status 4 and changes nothing. The layout of the telemetry, the duties first, is the model's choice (log entry
24), and the number of a challenge the model's own (log entry 15). -/
def Obligations.ManagementOperations : Prop :=
  (∀ (s : State) (h : MgmtHdr), s.managed h →
    (∀ t, physExists t = true →
      exec (.readSoftErrorBlock h t) s = .next (s.reply h 0 (s.board.softOf t).bytes) ∧
      exec (.clearSoftErrorBlock h t) s =
        .next ({ s with board := { s.board with soft := s.board.soft.filter fun x => x.1 != t } }.reply h 0 []) ∧
      exec (.writeFieldRepair h t) s = .next ({ s with board := { s.board with field := s.board.field ++ [t] } }.reply h 0 [])) ∧
    (∀ die, die < 8 →
      exec (.readRemap h die) s = .next (s.reply h 0 ((List.range 10).flatMap fun r => bytesOfNat 8 (s.board.hole die r)))) ∧
    (∀ off len, (s.board.cistern = none → exec (.readCistern h off len) s = .next (s.reply h 3 [])) ∧
      (∀ hd, s.board.cistern = some hd → off + len ≤ 2 ^ 32 →
        exec (.readCistern h off len) s = .next (s.reply h 0 ((List.range len).map fun i => cisternByte hd.1 hd.2 (off + i))))) ∧
    (∀ w, (4000 ≤ w → w ≤ 9200 →
        exec (.setPowerCap h w) s = .next ({ s with board := { s.board with cap := w } }.reply h 0 [])) ∧
      (w < 4000 ∨ 9200 < w → exec (.setPowerCap h w) s = .next (s.reply h 2 []))) ∧
    (∃ b : List Byte, exec (.readTelemetry h) s =
      .next ({ s with draws := s.draws + 1 }.reply h 0 (s.board.duty.flatMap (bytesOfNat 8) ++ b))) ∧
    (∀ pos parts, pos < 64 → layoutOk parts = true → exec (.setModulePosition h pos parts) s =
      .next ({ s with board := { s.board with nextPosition := pos, nextLayout := parts } }.reply h 0 [])) ∧
    (∀ v im sig, ∃ f : FwSlot, f.image = im ∧ f.sig = sig ∧ exec (.stageFirmware h v im sig) s = .next ({ s with
      board := { s.board with fw := s.board.fw.set (1 - s.board.booted) f, active := 1 - s.board.booted } }.reply h 0 [])) ∧
    (exec (.resetModule h) s = .next (s.reply h 0 []).bringUp) ∧
    exec (.readIdentityKey h) s =
      .next (s.reply h 0 (identityKeyBytes ++ (List.range Config.certificateLength).map Config.certificate)) ∧
    (∀ p n c, s.ctx? p = some c →
      (∀ r, c.records.find? (fun x => x.1 == n) = some r → exec (.readLaunchRecord h p n) s = .next (s.reply h 0 r.2)) ∧
      (c.records.find? (fun x => x.1 == n) = none → exec (.readLaunchRecord h p n) s = .next (s.reply h 0 [])))) ∧
  (∀ (s : State) (key ch sig : List Byte), s.board.power = .ready →
    (s.board.provisioned.contains key = true → ch = s.challengeBytes →
      exec (.managementConnect key ch sig) s = .next (if Config.verifies key ch [] sig = true then
        { s with board := { s.board with conns := s.board.conns + 1, challenge := s.draws + 1 }, draws := s.draws + 1 } else s)) ∧
    (s.board.provisioned.contains key = false ∨ ch ≠ s.challengeBytes → exec (.managementConnect key ch sig) s = .next s)) ∧
  (∀ (s : State) (h : MgmtHdr) (p n : Nat) (t : PhysTile) (bs : List Byte) (block : List Word) (b : Bool)
      (range : Option (Nat × Nat)) (x : CkptSetting) (parts : List (Nat × Nat)) (i : Instr),
    s.board.power = .ready → s.board.conns ≤ h.conn →
    i ∈ [.registerQueue h p n, .unregisterQueue h n, .invalidateTranslations h p range, .answerPageRequest h p n b,
      .createContext h block, .teardownContext h p, .preemptContext h p, .restoreContext h p n, .readLaunchRecord h p n,
      .readIdentityKey h, .setCheckpointConfig h p x, .restoreCheckpoint h p b bs, .readLatestShard h p, .readSoftErrorBlock h t,
      .clearSoftErrorBlock h t, .writeFieldRepair h t, .readRemap h n, .readCistern h n p, .setPowerCap h n, .readTelemetry h,
      .setModulePosition h n parts, .stageFirmware h n bs bs, .resetModule h] →
    exec i s = .next (s.reply h 4 []))
end

