-- ==== Sys2Proof/Laws/Decode.lean ====
section
/-! SUPPORT. What the decoder answers: the judgement on a word, and that no word is a reset of the module. -/

namespace Sys2Proof

/-- An accepted word is the instruction judged, and every check passed. -/
theorem judge_ok {rs : List (Option Illegal)} {i j : Instr} (h : judge rs i = .ok j) : i = j ∧ rs.foldr Illegal.worse none = none := by
  unfold judge at h
  split at h
  · exact ⟨by injection h, by assumption⟩
  · cases h

/-- The lesser of two reasons is none exactly when both are. -/
theorem Illegal.worse_none (a b : Option Illegal) : Illegal.worse a b = none ↔ a = none ∧ b = none := by
  cases a <;> cases b <;> simp [Illegal.worse]
  split <;> simp

end Sys2Proof

namespace Sys2Proof.Machine

theorem judge_quiet {rs : List (Option Illegal)} {i j : Instr} (q : resetsModule i = false) (h : judge rs i = .ok j) :
    resetsModule j = false := (judge_ok h).1 ▸ q

theorem decodeMaj0_quiet {w : Nat} {i : Instr} (h : decodeMaj0 w = .ok i) : resetsModule i = false := by
  unfold decodeMaj0 at h
  repeat' first | exact judge_quiet rfl h

theorem decodeMaj1_quiet {w : Nat} {i : Instr} (h : decodeMaj1 w = .ok i) : resetsModule i = false := by
  unfold decodeMaj1 at h
  repeat' first | exact judge_quiet rfl h | cases h | split at h

theorem decodeMaj2_quiet {w : Nat} {i : Instr} (h : decodeMaj2 w = .ok i) : resetsModule i = false := by
  unfold decodeMaj2 at h
  repeat' first | exact judge_quiet rfl h | cases h | split at h

theorem decodeMaj3_quiet {w : Nat} {i : Instr} (h : decodeMaj3 w = .ok i) : resetsModule i = false := by
  unfold decodeMaj3 at h
  repeat' first | exact judge_quiet rfl h | cases h | split at h

theorem decodeMaj4_quiet {w : Nat} {i : Instr} (h : decodeMaj4 w = .ok i) : resetsModule i = false := by
  unfold decodeMaj4 at h
  repeat' first | exact judge_quiet rfl h

theorem decodeMaj5_quiet {w : Nat} {i : Instr} (h : decodeMaj5 w = .ok i) : resetsModule i = false := by
  unfold decodeMaj5 at h
  repeat' first | exact judge_quiet rfl h

theorem decodeMaj6_quiet {w : Nat} {i : Instr} (h : decodeMaj6 w = .ok i) : resetsModule i = false := by
  unfold decodeMaj6 at h
  repeat' first | exact judge_quiet rfl h

theorem decodeMaj7_quiet {w : Nat} {i : Instr} (h : decodeMaj7 w = .ok i) : resetsModule i = false := by
  unfold decodeMaj7 at h
  repeat' first | exact judge_quiet rfl h

theorem decodeMaj8_quiet {w : Nat} {i : Instr} (h : decodeMaj8 w = .ok i) : resetsModule i = false := by
  unfold decodeMaj8 at h
  repeat' first | exact judge_quiet rfl h | cases h | split at h

theorem decodeMaj9_quiet {w : Nat} {i : Instr} (h : decodeMaj9 w = .ok i) : resetsModule i = false := by
  unfold decodeMaj9 at h
  repeat' first | exact judge_quiet rfl h

theorem decodeMaj10_quiet {w : Nat} {i : Instr} (h : decodeMaj10 w = .ok i) : resetsModule i = false := by
  unfold decodeMaj10 at h
  repeat' first | exact judge_quiet rfl h

theorem decodeMaj11_quiet {w : Nat} {i : Instr} (h : decodeMaj11 w = .ok i) : resetsModule i = false := by
  unfold decodeMaj11 at h
  repeat' first | exact judge_quiet rfl h

theorem decodeMaj12_quiet {w : Nat} {i : Instr} (h : decodeMaj12 w = .ok i) : resetsModule i = false := by
  unfold decodeMaj12 at h
  repeat' first | exact judge_quiet rfl h

theorem decodeMaj13_quiet {w : Nat} {i : Instr} (h : decodeMaj13 w = .ok i) : resetsModule i = false := by
  unfold decodeMaj13 at h
  repeat' first | exact judge_quiet rfl h | cases h | split at h

theorem decodeMaj14_quiet {w : Nat} {i : Instr} (h : decodeMaj14 w = .ok i) : resetsModule i = false := by
  unfold decodeMaj14 at h
  repeat' first | exact judge_quiet rfl h | cases h | split at h

theorem decodeMaj15_quiet {w : Nat} {i : Instr} (h : decodeMaj15 w = .ok i) : resetsModule i = false := by
  unfold decodeMaj15 at h
  repeat' first | exact judge_quiet rfl h | cases h | split at h

theorem decodeMaj16_quiet {w : Nat} {i : Instr} (h : decodeMaj16 w = .ok i) : resetsModule i = false := by
  unfold decodeMaj16 at h
  repeat' first | exact judge_quiet rfl h | cases h | split at h

theorem decodeMaj17_quiet {w : Nat} {i : Instr} (h : decodeMaj17 w = .ok i) : resetsModule i = false := by
  unfold decodeMaj17 at h
  repeat' first | exact judge_quiet rfl h

theorem decodeMaj18_quiet {w : Nat} {i : Instr} (h : decodeMaj18 w = .ok i) : resetsModule i = false := by
  unfold decodeMaj18 at h
  repeat' first | exact judge_quiet rfl h

theorem decodeMaj19_quiet {w : Nat} {i : Instr} (h : decodeMaj19 w = .ok i) : resetsModule i = false := by
  unfold decodeMaj19 at h
  repeat' first | exact judge_quiet rfl h | cases h | split at h

theorem decodeMaj20_quiet {w : Nat} {i : Instr} (h : decodeMaj20 w = .ok i) : resetsModule i = false := by
  unfold decodeMaj20 at h
  repeat' first | exact judge_quiet rfl h

theorem decodeMaj21_quiet {w : Nat} {i : Instr} (h : decodeMaj21 w = .ok i) : resetsModule i = false := by
  unfold decodeMaj21 at h
  repeat' first | exact judge_quiet rfl h

theorem decodeMaj22_quiet {w : Nat} {i : Instr} (h : decodeMaj22 w = .ok i) : resetsModule i = false := by
  unfold decodeMaj22 at h
  repeat' first | exact judge_quiet rfl h

theorem decodeMaj23_quiet {w : Nat} {i : Instr} (h : decodeMaj23 w = .ok i) : resetsModule i = false := by
  unfold decodeMaj23 at h
  repeat' first | exact judge_quiet rfl h | cases h | split at h

theorem decodeMaj24_quiet {w : Nat} {i : Instr} (h : decodeMaj24 w = .ok i) : resetsModule i = false := by
  unfold decodeMaj24 at h
  repeat' first | exact judge_quiet rfl h | cases h | split at h

theorem decodeMaj25_quiet {w : Nat} {i : Instr} (h : decodeMaj25 w = .ok i) : resetsModule i = false := by
  unfold decodeMaj25 at h
  repeat' first | exact judge_quiet rfl h | cases h | split at h

theorem decodeMaj26_quiet {w : Nat} {i : Instr} (h : decodeMaj26 w = .ok i) : resetsModule i = false := by
  unfold decodeMaj26 at h
  repeat' first | exact judge_quiet rfl h | cases h | split at h

theorem decodeMaj27_quiet {w : Nat} {i : Instr} (h : decodeMaj27 w = .ok i) : resetsModule i = false := by
  unfold decodeMaj27 at h
  repeat' first | exact judge_quiet rfl h | cases h | split at h

theorem decodeMaj28_quiet {w : Nat} {i : Instr} (h : decodeMaj28 w = .ok i) : resetsModule i = false := by
  unfold decodeMaj28 at h
  repeat' first | exact judge_quiet rfl h | cases h | split at h

theorem decodeMaj29_quiet {w : Nat} {i : Instr} (h : decodeMaj29 w = .ok i) : resetsModule i = false := by
  unfold decodeMaj29 at h
  repeat' first | exact judge_quiet rfl h | cases h | split at h

theorem decodeMaj30_quiet {w : Nat} {i : Instr} (h : decodeMaj30 w = .ok i) : resetsModule i = false := by
  unfold decodeMaj30 at h
  repeat' first | exact judge_quiet rfl h | cases h | split at h

theorem decodeMaj31_quiet {w : Nat} {i : Instr} (h : decodeMaj31 w = .ok i) : resetsModule i = false := by
  unfold decodeMaj31 at h
  repeat' first | exact judge_quiet rfl h

theorem decodeMaj32_quiet {w : Nat} {i : Instr} (h : decodeMaj32 w = .ok i) : resetsModule i = false := by
  unfold decodeMaj32 at h
  repeat' first | exact judge_quiet rfl h | cases h | split at h

theorem decodeMaj33_quiet {w : Nat} {i : Instr} (h : decodeMaj33 w = .ok i) : resetsModule i = false := by
  unfold decodeMaj33 at h
  repeat' first | exact judge_quiet rfl h | cases h | split at h

theorem decodeMaj34_quiet {w : Nat} {i : Instr} (h : decodeMaj34 w = .ok i) : resetsModule i = false := by
  unfold decodeMaj34 at h
  repeat' first | exact judge_quiet rfl h

theorem decodeMaj35_quiet {w : Nat} {i : Instr} (h : decodeMaj35 w = .ok i) : resetsModule i = false := by
  unfold decodeMaj35 at h
  repeat' first | exact judge_quiet rfl h | cases h | split at h

theorem decodeMaj36_quiet {w : Nat} {i : Instr} (h : decodeMaj36 w = .ok i) : resetsModule i = false := by
  unfold decodeMaj36 at h
  repeat' first | exact judge_quiet rfl h

theorem decodeMaj37_quiet {w : Nat} {i : Instr} (h : decodeMaj37 w = .ok i) : resetsModule i = false := by
  unfold decodeMaj37 at h
  repeat' first | exact judge_quiet rfl h

theorem decodeMaj38_quiet {w : Nat} {i : Instr} (h : decodeMaj38 w = .ok i) : resetsModule i = false := by
  unfold decodeMaj38 at h
  repeat' first | exact judge_quiet rfl h | cases h | split at h

theorem decodeMaj39_quiet {w : Nat} {i : Instr} (h : decodeMaj39 w = .ok i) : resetsModule i = false := by
  unfold decodeMaj39 at h
  repeat' first | exact judge_quiet rfl h

theorem decodeMaj40_quiet {w : Nat} {i : Instr} (h : decodeMaj40 w = .ok i) : resetsModule i = false := by
  unfold decodeMaj40 at h
  repeat' first | exact judge_quiet rfl h

theorem decodeMaj41_quiet {w : Nat} {i : Instr} (h : decodeMaj41 w = .ok i) : resetsModule i = false := by
  unfold decodeMaj41 at h
  repeat' first | exact judge_quiet rfl h

theorem decodeMaj42_quiet {w : Nat} {i : Instr} (h : decodeMaj42 w = .ok i) : resetsModule i = false := by
  unfold decodeMaj42 at h
  repeat' first | exact judge_quiet rfl h

theorem decodeMaj43_quiet {w : Nat} {i : Instr} (h : decodeMaj43 w = .ok i) : resetsModule i = false := by
  unfold decodeMaj43 at h
  repeat' first | exact judge_quiet rfl h | cases h | split at h

theorem decodeMaj44_quiet {w : Nat} {i : Instr} (h : decodeMaj44 w = .ok i) : resetsModule i = false := by
  unfold decodeMaj44 at h
  repeat' first | exact judge_quiet rfl h

theorem decodeMaj45_quiet {w : Nat} {i : Instr} (h : decodeMaj45 w = .ok i) : resetsModule i = false := by
  unfold decodeMaj45 at h
  repeat' first | exact judge_quiet rfl h

theorem decodeMaj46_quiet {w : Nat} {i : Instr} (h : decodeMaj46 w = .ok i) : resetsModule i = false := by
  unfold decodeMaj46 at h
  repeat' first | exact judge_quiet rfl h

theorem decodeMaj47_quiet {w : Nat} {i : Instr} (h : decodeMaj47 w = .ok i) : resetsModule i = false := by
  unfold decodeMaj47 at h
  repeat' first | exact judge_quiet rfl h

theorem decodeMaj48_quiet {w : Nat} {i : Instr} (h : decodeMaj48 w = .ok i) : resetsModule i = false := by
  unfold decodeMaj48 at h
  repeat' first | exact judge_quiet rfl h

theorem decodeMaj49_quiet {w : Nat} {i : Instr} (h : decodeMaj49 w = .ok i) : resetsModule i = false := by
  unfold decodeMaj49 at h
  repeat' first | exact judge_quiet rfl h

theorem decodeMaj50_quiet {w : Nat} {i : Instr} (h : decodeMaj50 w = .ok i) : resetsModule i = false := by
  unfold decodeMaj50 at h
  repeat' first | exact judge_quiet rfl h

theorem decodeMaj51_quiet {w : Nat} {i : Instr} (h : decodeMaj51 w = .ok i) : resetsModule i = false := by
  unfold decodeMaj51 at h
  repeat' first | exact judge_quiet rfl h | cases h | split at h

theorem decodeMaj52_quiet {w : Nat} {i : Instr} (h : decodeMaj52 w = .ok i) : resetsModule i = false := by
  unfold decodeMaj52 at h
  repeat' first | exact judge_quiet rfl h | cases h | split at h

theorem decodeMaj53_quiet {w : Nat} {i : Instr} (h : decodeMaj53 w = .ok i) : resetsModule i = false := by
  unfold decodeMaj53 at h
  repeat' first | exact judge_quiet rfl h | cases h | split at h

theorem decodeMaj54_quiet {w : Nat} {i : Instr} (h : decodeMaj54 w = .ok i) : resetsModule i = false := by
  unfold decodeMaj54 at h
  repeat' first | exact judge_quiet rfl h | cases h | split at h

theorem decodeMaj55_quiet {w : Nat} {i : Instr} (h : decodeMaj55 w = .ok i) : resetsModule i = false := by
  unfold decodeMaj55 at h
  repeat' first | exact judge_quiet rfl h | cases h | split at h

theorem decodeMaj56_quiet {w : Nat} {i : Instr} (h : decodeMaj56 w = .ok i) : resetsModule i = false := by
  unfold decodeMaj56 at h
  repeat' first | exact judge_quiet rfl h

theorem decodeMaj57_quiet {w : Nat} {i : Instr} (h : decodeMaj57 w = .ok i) : resetsModule i = false := by
  unfold decodeMaj57 at h
  repeat' first | exact judge_quiet rfl h | cases h | split at h

theorem decodeMaj58_quiet {w : Nat} {i : Instr} (h : decodeMaj58 w = .ok i) : resetsModule i = false := by
  unfold decodeMaj58 at h
  repeat' first | exact judge_quiet rfl h

theorem decodeMaj59_quiet {w : Nat} {i : Instr} (h : decodeMaj59 w = .ok i) : resetsModule i = false := by
  unfold decodeMaj59 at h
  repeat' first | exact judge_quiet rfl h | cases h | split at h

theorem decodeMaj60_quiet {w : Nat} {i : Instr} (h : decodeMaj60 w = .ok i) : resetsModule i = false := by
  unfold decodeMaj60 at h
  repeat' first | exact judge_quiet rfl h

theorem decodeMaj61_quiet {w : Nat} {i : Instr} (h : decodeMaj61 w = .ok i) : resetsModule i = false := by
  unfold decodeMaj61 at h
  repeat' first | exact judge_quiet rfl h

/-- No word resets the module. -/
theorem decodeWord_quiet {w : Nat} {i : Instr} (h : decodeWord w = .ok i) : resetsModule i = false := by
  unfold decodeWord at h
  split at h
  · exact decodeMaj0_quiet h
  · exact decodeMaj1_quiet h
  · exact decodeMaj2_quiet h
  · exact decodeMaj3_quiet h
  · exact decodeMaj4_quiet h
  · exact decodeMaj5_quiet h
  · exact decodeMaj6_quiet h
  · exact decodeMaj7_quiet h
  · exact decodeMaj8_quiet h
  · exact decodeMaj9_quiet h
  · exact decodeMaj10_quiet h
  · exact decodeMaj11_quiet h
  · exact decodeMaj12_quiet h
  · exact decodeMaj13_quiet h
  · exact decodeMaj14_quiet h
  · exact decodeMaj15_quiet h
  · exact decodeMaj16_quiet h
  · exact decodeMaj17_quiet h
  · exact decodeMaj18_quiet h
  · exact decodeMaj19_quiet h
  · exact decodeMaj20_quiet h
  · exact decodeMaj21_quiet h
  · exact decodeMaj22_quiet h
  · exact decodeMaj23_quiet h
  · exact decodeMaj24_quiet h
  · exact decodeMaj25_quiet h
  · exact decodeMaj26_quiet h
  · exact decodeMaj27_quiet h
  · exact decodeMaj28_quiet h
  · exact decodeMaj29_quiet h
  · exact decodeMaj30_quiet h
  · exact decodeMaj31_quiet h
  · exact decodeMaj32_quiet h
  · exact decodeMaj33_quiet h
  · exact decodeMaj34_quiet h
  · exact decodeMaj35_quiet h
  · exact decodeMaj36_quiet h
  · exact decodeMaj37_quiet h
  · exact decodeMaj38_quiet h
  · exact decodeMaj39_quiet h
  · exact decodeMaj40_quiet h
  · exact decodeMaj41_quiet h
  · exact decodeMaj42_quiet h
  · exact decodeMaj43_quiet h
  · exact decodeMaj44_quiet h
  · exact decodeMaj45_quiet h
  · exact decodeMaj46_quiet h
  · exact decodeMaj47_quiet h
  · exact decodeMaj48_quiet h
  · exact decodeMaj49_quiet h
  · exact decodeMaj50_quiet h
  · exact decodeMaj51_quiet h
  · exact decodeMaj52_quiet h
  · exact decodeMaj53_quiet h
  · exact decodeMaj54_quiet h
  · exact decodeMaj55_quiet h
  · exact decodeMaj56_quiet h
  · exact decodeMaj57_quiet h
  · exact decodeMaj58_quiet h
  · exact decodeMaj59_quiet h
  · exact decodeMaj60_quiet h
  · exact decodeMaj61_quiet h
  · cases h

end Sys2Proof.Machine
end

