-- ==== Sys2Proof/Laws/Keccak.lean ====
section
/-! SUPPORT. Lengths of what the sponge of FIPS 202 gives. -/

namespace Sys2Proof.Machine

theorem piChi_length (t : List Word) (y : Nat) : (piChi t y).length = 5 := by simp [piChi]

/-- A round gives 25 lanes. -/
theorem keccakRound_length (a : List Word) (code : Nat) : (keccakRound a code).length = 25 := by
  have h : ((List.range 5).flatMap (piChi (thetaRho a))).length = 25 := by
    simp [List.length_flatMap, piChi_length, List.range, List.range.loop]
  unfold keccakRound
  split
  · rename_i x xs e
    simpa [e] using h
  · rename_i e
    simp [e] at h

theorem keccakF_length (a : List Word) : (keccakF a).length = 25 := by
  have h : ∀ (cs : List Nat) (b : List Word), cs ≠ [] → (cs.foldl keccakRound b).length = 25 := by
    intro cs
    induction cs with
    | nil => exact fun b e => absurd rfl e
    | cons c t ih =>
      intro b _
      cases t with
      | nil => exact keccakRound_length b c
      | cons d t => exact ih (keccakRound b c) (by simp)
  exact h iotaCodes a (by simp [iotaCodes])

theorem absorb_length (n : Nat) (a : List Word) (bs : List Byte) (h : a.length = 25) : (absorb n a bs).length = 25 := by
  induction n generalizing a bs with
  | zero => exact h
  | succ n ih => exact ih _ _ (keccakF_length _)

theorem bytesOfNat_length (n v : Nat) : (bytesOfNat n v).length = n := by
  induction n generalizing v with
  | zero => rfl
  | succ n ih => exact congrArg (· + 1) (ih _)

/-- One squeeze of a whole state gives a rate block. -/
theorem squeeze_length (a : List Word) (h : a.length = 25) : (squeeze 1 a).length = 136 := by
  have e : ∀ l : List Word, (l.foldr (fun w acc => bytesOfNat 8 w.toNat ++ acc) []).length = 8 * l.length := by
    intro l
    induction l with
    | nil => rfl
    | cons w t ih =>
      rw [List.foldr_cons, List.length_append, bytesOfNat_length, ih, List.length_cons]
      omega
  rw [squeeze, squeeze, List.append_nil, e, List.length_take, h]
  rfl

/-- A tag has 32 bytes. -/
theorem kmac256_length (key m custom : List Byte) : (kmac256 key m custom).length = 32 := by
  simp only [kmac256, cshake256, sponge, List.length_take]
  rw [show ceilDiv 32 136 = 1 from rfl, squeeze_length _ (absorb_length _ _ _ (by simp))]
  rfl

end Sys2Proof.Machine
end

