-- ==== Sys2Proof/Laws/Memory.lean ====
section
/-! SUPPORT. Laws of the byte memories and of the sparse elements: every operation keeps the canonical form, a read after a
write, and equality by reads. -/

namespace Sys2Proof.Machine

/-! Byte memories. -/

/-- A canonical memory, cell by cell. -/
theorem Mem.wf_cons {k : Nat} {b : Byte} {t : Mem} :
    Mem.wf ((k, b) :: t) = true ↔ b ≠ 0 ∧ Mem.wf t = true ∧ ∀ x ∈ t, k < x.1 := by
  induction t generalizing k b with
  | nil => simp [Mem.wf]
  | cons y t ih =>
    obtain ⟨l, c⟩ := y
    simp only [Mem.wf, Bool.and_eq_true, bne_iff_ne, decide_eq_true_eq, List.mem_cons, forall_eq_or_imp, and_assoc]
    constructor
    · rintro ⟨hb, hkl, hw⟩
      exact ⟨hb, hw, hkl, fun x hx => Nat.lt_trans hkl ((ih.1 hw).2.2 x hx)⟩
    · rintro ⟨hb, hw, hkl, -⟩
      exact ⟨hb, hkl, hw⟩

@[simp] theorem Mem.wf_nil : Mem.wf [] = true := rfl

theorem Mem.mem_write1 {m : Mem} {a : Nat} {b : Byte} {x : Host.Cell} (h : x ∈ Mem.write1 m a b) : x ∈ m ∨ x = (a, b) := by
  induction m with
  | nil => simp only [Mem.write1] at h; split at h <;> simp_all
  | cons y t ih =>
    obtain ⟨k, c⟩ := y
    simp only [Mem.write1] at h
    split at h
    · split at h <;> simp_all <;> tauto
    · split at h
      · split at h <;> simp_all <;> tauto
      · simp only [List.mem_cons] at h ⊢
        rcases h with h | h
        · exact .inl (.inl h)
        · rcases ih h with h | h
          · exact .inl (.inr h)
          · exact .inr h

/-- Writing one byte keeps the canonical form. -/
theorem Mem.wf_write1 {m : Mem} (a : Nat) (b : Byte) (h : Mem.wf m = true) : Mem.wf (Mem.write1 m a b) = true := by
  induction m with
  | nil => simp only [Mem.write1]; split <;> simp_all [Mem.wf]
  | cons y t ih =>
    obtain ⟨k, c⟩ := y
    have h' := Mem.wf_cons.1 h
    simp only [Mem.write1]
    split
    · rename_i hak
      split
      · exact h
      · rename_i hb
        refine Mem.wf_cons.2 ⟨hb, h, fun x hx => ?_⟩
        rcases List.mem_cons.1 hx with rfl | hx
        · exact hak
        · exact Nat.lt_trans hak (h'.2.2 x hx)
    · split
      · rename_i _ hak
        split
        · exact h'.2.1
        · rename_i hb
          exact Mem.wf_cons.2 ⟨hb, h'.2.1, fun x hx => hak ▸ h'.2.2 x hx⟩
      · refine Mem.wf_cons.2 ⟨h'.1, ih h'.2.1, fun x hx => ?_⟩
        rcases Mem.mem_write1 hx with hx | rfl
        · exact h'.2.2 x hx
        · show k < a
          omega

/-- Writing bytes keeps the canonical form. -/
theorem Mem.wf_write {m : Mem} (a : Nat) (bs : List Byte) (h : Mem.wf m = true) : Mem.wf (Mem.write m a bs) = true := by
  induction bs generalizing m a with
  | nil => exact h
  | cons b bs ih => exact ih (a + 1) (Mem.wf_write1 a b h)

theorem Mem.read1_above {m : Mem} {a : Nat} (h : ∀ x ∈ m, a < x.1) : Mem.read1 m a = 0 := by
  induction m with
  | nil => rfl
  | cons y t ih =>
    obtain ⟨k, c⟩ := y
    have hk : a < k := h (k, c) (by simp)
    have hne : ¬k = a := by omega
    simp only [Mem.read1, hne, if_false]
    exact ih fun x hx => h x (by simp [hx])

/-- The byte read after a write of one byte of a canonical memory. -/
theorem Mem.read1_write1 {m : Mem} (a : Nat) (b : Byte) (i : Nat) (h : Mem.wf m = true) :
    Mem.read1 (Mem.write1 m a b) i = if i = a then b else Mem.read1 m i := by
  induction m with
  | nil =>
    simp only [Mem.write1]
    split
    · simp_all [Mem.read1]
    · simp only [Mem.read1, eq_comm]
  | cons y t ih =>
    obtain ⟨k, c⟩ := y
    have h' := Mem.wf_cons.1 h
    simp only [Mem.write1]
    split
    · rename_i hak
      split
      · rename_i hb
        split
        · rename_i hi
          subst hi hb
          have : ¬k = i := by omega
          simp only [Mem.read1, this, if_false]
          exact Mem.read1_above fun x hx => Nat.lt_trans hak (h'.2.2 x hx)
        · rfl
      · simp only [Mem.read1, eq_comm]
    · split
      · rename_i _ hak
        split
        · rename_i hb
          split
          · rename_i hi
            subst hi hb
            exact Mem.read1_above fun x hx => hak ▸ h'.2.2 x hx
          · rename_i hi
            have : ¬k = i := by omega
            simp only [Mem.read1, this, if_false]
        · simp only [Mem.read1]
          subst hak
          simp only [eq_comm]
          split <;> rfl
      · rename_i h1 h2
        simp only [Mem.read1, ih h'.2.1]
        split
        · split
          · omega
          · rfl
        · rfl

/-- A byte outside the bytes written reads as before; a byte of them reads as written. -/
theorem Mem.read1_write {m : Mem} (a : Nat) (bs : List Byte) (i : Nat) (h : Mem.wf m = true) :
    Mem.read1 (Mem.write m a bs) i = if a ≤ i ∧ i < a + bs.length then (bs[i - a]?).getD 0 else Mem.read1 m i := by
  induction bs generalizing m a with
  | nil =>
    have : ¬(a ≤ i ∧ i < a + ([] : List Byte).length) := by simp
    simp only [this, if_false, Mem.write]
  | cons b bs ih =>
    simp only [Mem.write, ih (a + 1) (Mem.wf_write1 a b h), Mem.read1_write1 a b i h, List.length_cons]
    by_cases hi : i = a
    · subst hi
      simp
    · by_cases h1 : a + 1 ≤ i ∧ i < a + 1 + bs.length
      · have h2 : a ≤ i ∧ i < a + (bs.length + 1) := by omega
        have h3 : i - a = (i - (a + 1)) + 1 := by omega
        simp only [h1, h2, and_self, if_true, h3, List.getElem?_cons_succ]
      · have h2 : ¬(a ≤ i ∧ i < a + (bs.length + 1)) := by omega
        simp only [h1, h2, if_false, hi]

/-- Reading back the bytes just written. -/
theorem Mem.read_write_same {m : Mem} (a : Nat) (bs : List Byte) (h : Mem.wf m = true) :
    Mem.read (Mem.write m a bs) a bs.length = bs := by
  have key : ∀ (k n : Nat) (w : Mem), (∀ i, i < n → Mem.read1 w (a + k + i) = (bs[k + i]?).getD 0) → k + n = bs.length →
      Mem.read w (a + k) n = bs.drop k := by
    intro k n
    induction n generalizing k with
    | zero =>
      intro w _ hk
      simp only [Mem.read]
      exact (List.drop_eq_nil_of_le (by omega)).symm
    | succ n ih =>
      intro w hw hk
      have hlt : k < bs.length := by omega
      rw [Mem.read, List.drop_eq_getElem_cons hlt]
      have h0 := hw 0 (by omega)
      simp only [Nat.add_zero, List.getElem?_eq_getElem hlt, Option.getD_some] at h0
      rw [h0, Nat.add_assoc]
      refine congrArg _ (ih (k + 1) w (fun i hi => ?_) (by omega))
      have := hw (i + 1) (by omega)
      rwa [show a + k + (i + 1) = a + (k + 1) + i by omega, show k + (i + 1) = k + 1 + i by omega] at this
  have := key 0 bs.length (Mem.write m a bs) (fun i hi => ?_) (by omega)
  · simpa using this
  · rw [Mem.read1_write a bs _ h]
    have : a ≤ a + 0 + i ∧ a + 0 + i < a + bs.length := by omega
    simp only [this, and_self, if_true]
    congr 2
    omega

/-- Bytes read one by one. -/
theorem Mem.read_map (m : Mem) (a n : Nat) : Mem.read m a n = (List.range n).map fun i => Mem.read1 m (a + i) := by
  induction n generalizing a with
  | zero => rfl
  | succ n ih =>
    rw [Mem.read, ih, List.range_succ_eq_map, List.map_cons, List.map_map]
    refine congrArg _ (List.map_congr_left fun i _ => ?_)
    simp only [Function.comp, Nat.succ_eq_add_one]
    congr 1
    omega

/-- A read within the bytes just written. -/
theorem Mem.read_write_at {m : Mem} (a k n : Nat) (bs : List Byte) (h : Mem.wf m = true) (hk : k + n ≤ bs.length) :
    Mem.read (Mem.write m a bs) (a + k) n = (bs.drop k).take n := by
  rw [Mem.read_map]
  apply List.ext_getElem
  · simp; omega
  · intro i h1 h2
    have hi : i < n := by simpa using h1
    simp only [List.getElem_map, List.getElem_range, List.getElem_take, List.getElem_drop]
    rw [Mem.read1_write a bs _ h, if_pos (by omega), show a + k + i - a = k + i by omega,
      List.getElem?_eq_getElem (by omega), Option.getD_some]

/-- A read outside the bytes written. -/
theorem Mem.read_write_off {m : Mem} (a b n : Nat) (bs : List Byte) (h : Mem.wf m = true) (hb : b + n ≤ a ∨ a + bs.length ≤ b) :
    Mem.read (Mem.write m a bs) b n = Mem.read m b n := by
  rw [Mem.read_map, Mem.read_map]
  refine List.map_congr_left fun i hi => ?_
  have hi : i < n := by simpa using hi
  rw [Mem.read1_write a bs _ h, if_neg (by omega)]

/-- Two canonical memories that read alike are equal data. -/
theorem Mem.ext_read1 {m n : Mem} (hm : Mem.wf m = true) (hn : Mem.wf n = true)
    (h : ∀ a, Mem.read1 m a = Mem.read1 n a) : m = n := by
  induction m generalizing n with
  | nil =>
    cases n with
    | nil => rfl
    | cons y t =>
      obtain ⟨k, c⟩ := y
      have := h k
      simp only [Mem.read1, if_true] at this
      exact absurd this.symm (Mem.wf_cons.1 hn).1
  | cons x s ih =>
    obtain ⟨j, b⟩ := x
    have hm' := Mem.wf_cons.1 hm
    cases n with
    | nil =>
      have := h j
      simp only [Mem.read1, if_true] at this
      exact absurd this hm'.1
    | cons y t =>
      obtain ⟨k, c⟩ := y
      have hn' := Mem.wf_cons.1 hn
      have hjk : j = k := by
        rcases Nat.lt_trichotomy j k with hlt | heq | hgt
        · have h1 := h j
          have h2 : ¬k = j := by omega
          simp only [Mem.read1, if_true, h2, if_false] at h1
          rw [Mem.read1_above fun x hx => Nat.lt_trans hlt (hn'.2.2 x hx)] at h1
          exact absurd h1 hm'.1
        · exact heq
        · have h1 := h k
          have h2 : ¬j = k := by omega
          simp only [Mem.read1, if_true, h2, if_false] at h1
          rw [Mem.read1_above fun x hx => Nat.lt_trans hgt (hm'.2.2 x hx)] at h1
          exact absurd h1.symm hn'.1
      subst hjk
      have hbc : b = c := by simpa [Mem.read1] using h j
      subst hbc
      congr 1
      refine ih hm'.2.1 hn'.2.1 fun a => ?_
      by_cases ha : j = a
      · subst ha
        rw [Mem.read1_above hm'.2.2, Mem.read1_above hn'.2.2]
      · have := h a
        simpa only [Mem.read1, ha, if_false] using this

/-! Sparse elements. -/

theorem Elems.wf_cons {k v : Nat} {t : Elems} : Elems.wf ((k, v) :: t) = true ↔ v ≠ 0 ∧ Elems.wf t = true ∧ ∀ x ∈ t, k < x.1 := by
  induction t generalizing k v with
  | nil => simp [Elems.wf]
  | cons y t ih =>
    obtain ⟨l, c⟩ := y
    simp only [Elems.wf, Bool.and_eq_true, bne_iff_ne, decide_eq_true_eq, List.mem_cons, forall_eq_or_imp, and_assoc]
    constructor
    · rintro ⟨hb, hkl, hw⟩
      exact ⟨hb, hw, hkl, fun x hx => Nat.lt_trans hkl ((ih.1 hw).2.2 x hx)⟩
    · rintro ⟨hb, hw, hkl, -⟩
      exact ⟨hb, hkl, hw⟩

theorem Elems.mem_set {e : Elems} {i v : Nat} {x : Nat × Nat} (h : x ∈ Elems.set e i v) : x ∈ e ∨ x = (i, v) := by
  induction e with
  | nil => simp only [Elems.set] at h; split at h <;> simp_all
  | cons y t ih =>
    obtain ⟨k, c⟩ := y
    simp only [Elems.set] at h
    split at h
    · split at h <;> simp_all <;> tauto
    · split at h
      · split at h <;> simp_all <;> tauto
      · simp only [List.mem_cons] at h ⊢
        rcases h with h | h
        · exact .inl (.inl h)
        · rcases ih h with h | h
          · exact .inl (.inr h)
          · exact .inr h

/-- Setting an element keeps the canonical form. -/
theorem Elems.wf_set {e : Elems} (i v : Nat) (h : Elems.wf e = true) : Elems.wf (Elems.set e i v) = true := by
  induction e with
  | nil => simp only [Elems.set]; split <;> simp_all [Elems.wf]
  | cons y t ih =>
    obtain ⟨k, c⟩ := y
    have h' := Elems.wf_cons.1 h
    simp only [Elems.set]
    split
    · rename_i hak
      split
      · exact h
      · rename_i hb
        refine Elems.wf_cons.2 ⟨hb, h, fun x hx => ?_⟩
        rcases List.mem_cons.1 hx with rfl | hx
        · exact hak
        · exact Nat.lt_trans hak (h'.2.2 x hx)
    · split
      · rename_i _ hak
        split
        · exact h'.2.1
        · rename_i hb
          exact Elems.wf_cons.2 ⟨hb, h'.2.1, fun x hx => hak ▸ h'.2.2 x hx⟩
      · refine Elems.wf_cons.2 ⟨h'.1, ih h'.2.1, fun x hx => ?_⟩
        rcases Elems.mem_set hx with hx | rfl
        · exact h'.2.2 x hx
        · show k < i
          omega

theorem Elems.wf_ofListFrom (i : Nat) (l : List Nat) : Elems.wf (Elems.ofListFrom i l) = true := by
  have key : ∀ (l : List Nat) (i : Nat), Elems.wf (Elems.ofListFrom i l) = true ∧ ∀ x ∈ Elems.ofListFrom i l, i ≤ x.1 := by
    intro l
    induction l with
    | nil => intro i; simp [Elems.ofListFrom, Elems.wf]
    | cons v t ih =>
      intro i
      have := ih (i + 1)
      simp only [Elems.ofListFrom]
      split
      · exact ⟨this.1, fun x hx => by have := this.2 x hx; omega⟩
      · rename_i hv
        refine ⟨Elems.wf_cons.2 ⟨hv, this.1, fun x hx => ?_⟩, fun x hx => ?_⟩
        · have := this.2 x hx; omega
        · rcases List.mem_cons.1 hx with rfl | hx
          · exact Nat.le_refl _
          · have := this.2 x hx; omega
  exact (key l i).1

end Sys2Proof.Machine
end

