-- ==== Sys2Proof/Laws/State.lean ====
section
/-! SUPPORT. One lemma for each field of each update of a tile and of the module: what the update leaves and what it sets. -/

namespace Sys2Proof.Machine

@[simp] theorem Tile.put_key (t : Tile) (n : Nat) (sl : Slot) (e : Eff) : (t.put n sl e).key = t.key := rfl
@[simp] theorem Tile.put_launch (t : Tile) (n : Nat) (sl : Slot) (e : Eff) : (t.put n sl e).launch = t.launch := rfl
@[simp] theorem Tile.put_phase (t : Tile) (n : Nat) (sl : Slot) (e : Eff) : (t.put n sl e).phase = t.phase := rfl
@[simp] theorem Tile.put_tick (t : Tile) (n : Nat) (sl : Slot) (e : Eff) : (t.put n sl e).tick = t.tick := rfl
@[simp] theorem Tile.put_startTick (t : Tile) (n : Nat) (sl : Slot) (e : Eff) : (t.put n sl e).startTick = t.startTick := rfl
@[simp] theorem Tile.put_pc (t : Tile) (n : Nat) (sl : Slot) (e : Eff) : (t.put n sl e).pc = t.pc := rfl
@[simp] theorem Tile.put_imem (t : Tile) (n : Nat) (sl : Slot) (e : Eff) : (t.put n sl e).imem = t.imem := rfl
@[simp] theorem Tile.put_imemBad (t : Tile) (n : Nat) (sl : Slot) (e : Eff) : (t.put n sl e).imemBad = t.imemBad := rfl
@[simp] theorem Tile.put_progLen (t : Tile) (n : Nat) (sl : Slot) (e : Eff) : (t.put n sl e).progLen = t.progLen := rfl
@[simp] theorem Tile.put_grid (t : Tile) (n : Nat) (sl : Slot) (e : Eff) : (t.put n sl e).grid = t.grid := rfl
@[simp] theorem Tile.put_regs (t : Tile) (n : Nat) (sl : Slot) (e : Eff) : (t.put n sl e).regs = t.regs := rfl
@[simp] theorem Tile.put_latches (t : Tile) (n : Nat) (sl : Slot) (e : Eff) : (t.put n sl e).latches = t.latches := rfl
@[simp] theorem Tile.put_csrs (t : Tile) (n : Nat) (sl : Slot) (e : Eff) : (t.put n sl e).csrs = t.csrs := rfl
@[simp] theorem Tile.put_gov (t : Tile) (n : Nat) (sl : Slot) (e : Eff) : (t.put n sl e).gov = t.gov := rfl
@[simp] theorem Tile.put_seed (t : Tile) (n : Nat) (sl : Slot) (e : Eff) : (t.put n sl e).seed = t.seed := rfl
@[simp] theorem Tile.put_replays (t : Tile) (n : Nat) (sl : Slot) (e : Eff) : (t.put n sl e).replays = t.replays := rfl
@[simp] theorem Tile.put_landings (t : Tile) (n : Nat) (sl : Slot) (e : Eff) : (t.put n sl e).landings = t.landings := rfl
@[simp] theorem Tile.put_loops (t : Tile) (n : Nat) (sl : Slot) (e : Eff) : (t.put n sl e).loops = t.loops := rfl
@[simp] theorem Tile.put_waits (t : Tile) (n : Nat) (sl : Slot) (e : Eff) : (t.put n sl e).waits = t.waits := rfl
@[simp] theorem Tile.put_spad (t : Tile) (n : Nat) (sl : Slot) (e : Eff) : (t.put n sl e).spad = t.spad := rfl
@[simp] theorem Tile.put_regions (t : Tile) (n : Nat) (sl : Slot) (e : Eff) : (t.put n sl e).regions = t.regions := rfl
@[simp] theorem Tile.put_faults (t : Tile) (n : Nat) (sl : Slot) (e : Eff) : (t.put n sl e).faults = t.faults := rfl
@[simp] theorem Tile.put_deferred (t : Tile) (n : Nat) (sl : Slot) (e : Eff) : (t.put n sl e).deferred = t.deferred := rfl
@[simp] theorem Tile.put_far (t : Tile) (n : Nat) (sl : Slot) (e : Eff) : (t.put n sl e).far = t.far := rfl
@[simp] theorem Tile.put_buffer (t : Tile) (n : Nat) (sl : Slot) (e : Eff) : (t.put n sl e).buffer = t.buffer := rfl
@[simp] theorem Tile.put_bufferBad (t : Tile) (n : Nat) (sl : Slot) (e : Eff) : (t.put n sl e).bufferBad = t.bufferBad := rfl
@[simp] theorem Tile.put_sent (t : Tile) (n : Nat) (sl : Slot) (e : Eff) : (t.put n sl e).sent = t.sent := rfl
@[simp] theorem Tile.put_basin (t : Tile) (n : Nat) (sl : Slot) (e : Eff) : (t.put n sl e).basin = t.basin := rfl
@[simp] theorem Tile.put_skid (t : Tile) (n : Nat) (sl : Slot) (e : Eff) : (t.put n sl e).skid = t.skid := rfl
@[simp] theorem Tile.put_received (t : Tile) (n : Nat) (sl : Slot) (e : Eff) : (t.put n sl e).received = t.received := rfl
@[simp] theorem Tile.put_claims (t : Tile) (n : Nat) (sl : Slot) (e : Eff) : (t.put n sl e).claims = t.claims := rfl
@[simp] theorem Tile.put_mx (t : Tile) (n : Nat) (sl : Slot) (e : Eff) : (t.put n sl e).mx = t.mx := rfl
@[simp] theorem Tile.put_casc (t : Tile) (n : Nat) (sl : Slot) (e : Eff) : (t.put n sl e).casc = t.casc := rfl
@[simp] theorem Tile.put_queues (t : Tile) (n : Nat) (sl : Slot) (e : Eff) : (t.put n sl e).queues = t.queues := rfl
@[simp] theorem Tile.put_berth (t : Tile) (n : Nat) (sl : Slot) (e : Eff) : (t.put n sl e).berth = t.berth := rfl
@[simp] theorem Tile.put_station (t : Tile) (n : Nat) (sl : Slot) (e : Eff) : (t.put n sl e).station = t.station := rfl
@[simp] theorem Tile.put_gang (t : Tile) (n : Nat) (sl : Slot) (e : Eff) : (t.put n sl e).gang = t.gang := rfl
@[simp] theorem Tile.put_freeze (t : Tile) (n : Nat) (sl : Slot) (e : Eff) : (t.put n sl e).freeze = t.freeze := rfl
@[simp] theorem Tile.put_triggered (t : Tile) (n : Nat) (sl : Slot) (e : Eff) : (t.put n sl e).triggered = t.triggered := rfl
@[simp] theorem Tile.put_stopAt (t : Tile) (n : Nat) (sl : Slot) (e : Eff) : (t.put n sl e).stopAt = t.stopAt := rfl
@[simp] theorem Tile.put_iss (t : Tile) (n : Nat) (sl : Slot) (e : Eff) : (t.put n sl e).iss = t.iss := rfl
@[simp] theorem Tile.put_inflight (t : Tile) (n : Nat) (sl : Slot) (e : Eff) : (t.put n sl e).inflight = t.inflight ++ [⟨t.tick + n, sl, t.tick, t.seq, e⟩] := rfl
@[simp] theorem Tile.put_seq (t : Tile) (n : Nat) (sl : Slot) (e : Eff) : (t.put n sl e).seq = t.seq + 1 := rfl

@[simp] theorem Tile.land_key (t : Tile) (n : Nat) (d : LandDest) : (t.land n d).key = t.key := rfl
@[simp] theorem Tile.land_launch (t : Tile) (n : Nat) (d : LandDest) : (t.land n d).launch = t.launch := rfl
@[simp] theorem Tile.land_phase (t : Tile) (n : Nat) (d : LandDest) : (t.land n d).phase = t.phase := rfl
@[simp] theorem Tile.land_tick (t : Tile) (n : Nat) (d : LandDest) : (t.land n d).tick = t.tick := rfl
@[simp] theorem Tile.land_startTick (t : Tile) (n : Nat) (d : LandDest) : (t.land n d).startTick = t.startTick := rfl
@[simp] theorem Tile.land_pc (t : Tile) (n : Nat) (d : LandDest) : (t.land n d).pc = t.pc := rfl
@[simp] theorem Tile.land_imem (t : Tile) (n : Nat) (d : LandDest) : (t.land n d).imem = t.imem := rfl
@[simp] theorem Tile.land_imemBad (t : Tile) (n : Nat) (d : LandDest) : (t.land n d).imemBad = t.imemBad := rfl
@[simp] theorem Tile.land_progLen (t : Tile) (n : Nat) (d : LandDest) : (t.land n d).progLen = t.progLen := rfl
@[simp] theorem Tile.land_grid (t : Tile) (n : Nat) (d : LandDest) : (t.land n d).grid = t.grid := rfl
@[simp] theorem Tile.land_regs (t : Tile) (n : Nat) (d : LandDest) : (t.land n d).regs = t.regs := rfl
@[simp] theorem Tile.land_latches (t : Tile) (n : Nat) (d : LandDest) : (t.land n d).latches = t.latches := rfl
@[simp] theorem Tile.land_csrs (t : Tile) (n : Nat) (d : LandDest) : (t.land n d).csrs = t.csrs := rfl
@[simp] theorem Tile.land_gov (t : Tile) (n : Nat) (d : LandDest) : (t.land n d).gov = t.gov := rfl
@[simp] theorem Tile.land_seed (t : Tile) (n : Nat) (d : LandDest) : (t.land n d).seed = t.seed := rfl
@[simp] theorem Tile.land_inflight (t : Tile) (n : Nat) (d : LandDest) : (t.land n d).inflight = t.inflight := rfl
@[simp] theorem Tile.land_replays (t : Tile) (n : Nat) (d : LandDest) : (t.land n d).replays = t.replays := rfl
@[simp] theorem Tile.land_loops (t : Tile) (n : Nat) (d : LandDest) : (t.land n d).loops = t.loops := rfl
@[simp] theorem Tile.land_waits (t : Tile) (n : Nat) (d : LandDest) : (t.land n d).waits = t.waits := rfl
@[simp] theorem Tile.land_spad (t : Tile) (n : Nat) (d : LandDest) : (t.land n d).spad = t.spad := rfl
@[simp] theorem Tile.land_regions (t : Tile) (n : Nat) (d : LandDest) : (t.land n d).regions = t.regions := rfl
@[simp] theorem Tile.land_faults (t : Tile) (n : Nat) (d : LandDest) : (t.land n d).faults = t.faults := rfl
@[simp] theorem Tile.land_deferred (t : Tile) (n : Nat) (d : LandDest) : (t.land n d).deferred = t.deferred := rfl
@[simp] theorem Tile.land_far (t : Tile) (n : Nat) (d : LandDest) : (t.land n d).far = t.far := rfl
@[simp] theorem Tile.land_buffer (t : Tile) (n : Nat) (d : LandDest) : (t.land n d).buffer = t.buffer := rfl
@[simp] theorem Tile.land_bufferBad (t : Tile) (n : Nat) (d : LandDest) : (t.land n d).bufferBad = t.bufferBad := rfl
@[simp] theorem Tile.land_sent (t : Tile) (n : Nat) (d : LandDest) : (t.land n d).sent = t.sent := rfl
@[simp] theorem Tile.land_basin (t : Tile) (n : Nat) (d : LandDest) : (t.land n d).basin = t.basin := rfl
@[simp] theorem Tile.land_skid (t : Tile) (n : Nat) (d : LandDest) : (t.land n d).skid = t.skid := rfl
@[simp] theorem Tile.land_received (t : Tile) (n : Nat) (d : LandDest) : (t.land n d).received = t.received := rfl
@[simp] theorem Tile.land_claims (t : Tile) (n : Nat) (d : LandDest) : (t.land n d).claims = t.claims := rfl
@[simp] theorem Tile.land_mx (t : Tile) (n : Nat) (d : LandDest) : (t.land n d).mx = t.mx := rfl
@[simp] theorem Tile.land_casc (t : Tile) (n : Nat) (d : LandDest) : (t.land n d).casc = t.casc := rfl
@[simp] theorem Tile.land_queues (t : Tile) (n : Nat) (d : LandDest) : (t.land n d).queues = t.queues := rfl
@[simp] theorem Tile.land_berth (t : Tile) (n : Nat) (d : LandDest) : (t.land n d).berth = t.berth := rfl
@[simp] theorem Tile.land_station (t : Tile) (n : Nat) (d : LandDest) : (t.land n d).station = t.station := rfl
@[simp] theorem Tile.land_gang (t : Tile) (n : Nat) (d : LandDest) : (t.land n d).gang = t.gang := rfl
@[simp] theorem Tile.land_freeze (t : Tile) (n : Nat) (d : LandDest) : (t.land n d).freeze = t.freeze := rfl
@[simp] theorem Tile.land_triggered (t : Tile) (n : Nat) (d : LandDest) : (t.land n d).triggered = t.triggered := rfl
@[simp] theorem Tile.land_stopAt (t : Tile) (n : Nat) (d : LandDest) : (t.land n d).stopAt = t.stopAt := rfl
@[simp] theorem Tile.land_iss (t : Tile) (n : Nat) (d : LandDest) : (t.land n d).iss = t.iss := rfl
@[simp] theorem Tile.land_landings (t : Tile) (n : Nat) (d : LandDest) : (t.land n d).landings = t.landings ++ [⟨t.seq, t.tick, t.tick + n, t.iss.pos, t.iss.addr, d, none⟩] := rfl
@[simp] theorem Tile.land_seq (t : Tile) (n : Nat) (d : LandDest) : (t.land n d).seq = t.seq + 1 := rfl

@[simp] theorem Tile.sendFar_key (t : Tile) (a : Nat) (k : FarKind) (l w : Option Nat) : (t.sendFar a k l w).key = t.key := rfl
@[simp] theorem Tile.sendFar_launch (t : Tile) (a : Nat) (k : FarKind) (l w : Option Nat) : (t.sendFar a k l w).launch = t.launch := rfl
@[simp] theorem Tile.sendFar_phase (t : Tile) (a : Nat) (k : FarKind) (l w : Option Nat) : (t.sendFar a k l w).phase = t.phase := rfl
@[simp] theorem Tile.sendFar_tick (t : Tile) (a : Nat) (k : FarKind) (l w : Option Nat) : (t.sendFar a k l w).tick = t.tick := rfl
@[simp] theorem Tile.sendFar_startTick (t : Tile) (a : Nat) (k : FarKind) (l w : Option Nat) : (t.sendFar a k l w).startTick = t.startTick := rfl
@[simp] theorem Tile.sendFar_pc (t : Tile) (a : Nat) (k : FarKind) (l w : Option Nat) : (t.sendFar a k l w).pc = t.pc := rfl
@[simp] theorem Tile.sendFar_imem (t : Tile) (a : Nat) (k : FarKind) (l w : Option Nat) : (t.sendFar a k l w).imem = t.imem := rfl
@[simp] theorem Tile.sendFar_imemBad (t : Tile) (a : Nat) (k : FarKind) (l w : Option Nat) : (t.sendFar a k l w).imemBad = t.imemBad := rfl
@[simp] theorem Tile.sendFar_progLen (t : Tile) (a : Nat) (k : FarKind) (l w : Option Nat) : (t.sendFar a k l w).progLen = t.progLen := rfl
@[simp] theorem Tile.sendFar_grid (t : Tile) (a : Nat) (k : FarKind) (l w : Option Nat) : (t.sendFar a k l w).grid = t.grid := rfl
@[simp] theorem Tile.sendFar_regs (t : Tile) (a : Nat) (k : FarKind) (l w : Option Nat) : (t.sendFar a k l w).regs = t.regs := rfl
@[simp] theorem Tile.sendFar_latches (t : Tile) (a : Nat) (k : FarKind) (l w : Option Nat) : (t.sendFar a k l w).latches = t.latches := rfl
@[simp] theorem Tile.sendFar_csrs (t : Tile) (a : Nat) (k : FarKind) (l w : Option Nat) : (t.sendFar a k l w).csrs = t.csrs := rfl
@[simp] theorem Tile.sendFar_gov (t : Tile) (a : Nat) (k : FarKind) (l w : Option Nat) : (t.sendFar a k l w).gov = t.gov := rfl
@[simp] theorem Tile.sendFar_seed (t : Tile) (a : Nat) (k : FarKind) (l w : Option Nat) : (t.sendFar a k l w).seed = t.seed := rfl
@[simp] theorem Tile.sendFar_inflight (t : Tile) (a : Nat) (k : FarKind) (l w : Option Nat) : (t.sendFar a k l w).inflight = t.inflight := rfl
@[simp] theorem Tile.sendFar_replays (t : Tile) (a : Nat) (k : FarKind) (l w : Option Nat) : (t.sendFar a k l w).replays = t.replays := rfl
@[simp] theorem Tile.sendFar_landings (t : Tile) (a : Nat) (k : FarKind) (l w : Option Nat) : (t.sendFar a k l w).landings = t.landings := rfl
@[simp] theorem Tile.sendFar_loops (t : Tile) (a : Nat) (k : FarKind) (l w : Option Nat) : (t.sendFar a k l w).loops = t.loops := rfl
@[simp] theorem Tile.sendFar_waits (t : Tile) (a : Nat) (k : FarKind) (l w : Option Nat) : (t.sendFar a k l w).waits = t.waits := rfl
@[simp] theorem Tile.sendFar_spad (t : Tile) (a : Nat) (k : FarKind) (l w : Option Nat) : (t.sendFar a k l w).spad = t.spad := rfl
@[simp] theorem Tile.sendFar_regions (t : Tile) (a : Nat) (k : FarKind) (l w : Option Nat) : (t.sendFar a k l w).regions = t.regions := rfl
@[simp] theorem Tile.sendFar_faults (t : Tile) (a : Nat) (k : FarKind) (l w : Option Nat) : (t.sendFar a k l w).faults = t.faults := rfl
@[simp] theorem Tile.sendFar_deferred (t : Tile) (a : Nat) (k : FarKind) (l w : Option Nat) : (t.sendFar a k l w).deferred = t.deferred := rfl
@[simp] theorem Tile.sendFar_buffer (t : Tile) (a : Nat) (k : FarKind) (l w : Option Nat) : (t.sendFar a k l w).buffer = t.buffer := rfl
@[simp] theorem Tile.sendFar_bufferBad (t : Tile) (a : Nat) (k : FarKind) (l w : Option Nat) : (t.sendFar a k l w).bufferBad = t.bufferBad := rfl
@[simp] theorem Tile.sendFar_sent (t : Tile) (a : Nat) (k : FarKind) (l w : Option Nat) : (t.sendFar a k l w).sent = t.sent := rfl
@[simp] theorem Tile.sendFar_basin (t : Tile) (a : Nat) (k : FarKind) (l w : Option Nat) : (t.sendFar a k l w).basin = t.basin := rfl
@[simp] theorem Tile.sendFar_skid (t : Tile) (a : Nat) (k : FarKind) (l w : Option Nat) : (t.sendFar a k l w).skid = t.skid := rfl
@[simp] theorem Tile.sendFar_received (t : Tile) (a : Nat) (k : FarKind) (l w : Option Nat) : (t.sendFar a k l w).received = t.received := rfl
@[simp] theorem Tile.sendFar_claims (t : Tile) (a : Nat) (k : FarKind) (l w : Option Nat) : (t.sendFar a k l w).claims = t.claims := rfl
@[simp] theorem Tile.sendFar_mx (t : Tile) (a : Nat) (k : FarKind) (l w : Option Nat) : (t.sendFar a k l w).mx = t.mx := rfl
@[simp] theorem Tile.sendFar_casc (t : Tile) (a : Nat) (k : FarKind) (l w : Option Nat) : (t.sendFar a k l w).casc = t.casc := rfl
@[simp] theorem Tile.sendFar_queues (t : Tile) (a : Nat) (k : FarKind) (l w : Option Nat) : (t.sendFar a k l w).queues = t.queues := rfl
@[simp] theorem Tile.sendFar_berth (t : Tile) (a : Nat) (k : FarKind) (l w : Option Nat) : (t.sendFar a k l w).berth = t.berth := rfl
@[simp] theorem Tile.sendFar_station (t : Tile) (a : Nat) (k : FarKind) (l w : Option Nat) : (t.sendFar a k l w).station = t.station := rfl
@[simp] theorem Tile.sendFar_gang (t : Tile) (a : Nat) (k : FarKind) (l w : Option Nat) : (t.sendFar a k l w).gang = t.gang := rfl
@[simp] theorem Tile.sendFar_freeze (t : Tile) (a : Nat) (k : FarKind) (l w : Option Nat) : (t.sendFar a k l w).freeze = t.freeze := rfl
@[simp] theorem Tile.sendFar_triggered (t : Tile) (a : Nat) (k : FarKind) (l w : Option Nat) : (t.sendFar a k l w).triggered = t.triggered := rfl
@[simp] theorem Tile.sendFar_stopAt (t : Tile) (a : Nat) (k : FarKind) (l w : Option Nat) : (t.sendFar a k l w).stopAt = t.stopAt := rfl
@[simp] theorem Tile.sendFar_iss (t : Tile) (a : Nat) (k : FarKind) (l w : Option Nat) : (t.sendFar a k l w).iss = t.iss := rfl
@[simp] theorem Tile.sendFar_seq (t : Tile) (a : Nat) (k : FarKind) (l w : Option Nat) : (t.sendFar a k l w).seq = t.seq + 1 := rfl

@[simp] theorem Tile.addWait_key (t : Tile) (n : Nat) (k : WaitKind) : (t.addWait n k).key = t.key := rfl
@[simp] theorem Tile.addWait_launch (t : Tile) (n : Nat) (k : WaitKind) : (t.addWait n k).launch = t.launch := rfl
@[simp] theorem Tile.addWait_phase (t : Tile) (n : Nat) (k : WaitKind) : (t.addWait n k).phase = t.phase := rfl
@[simp] theorem Tile.addWait_tick (t : Tile) (n : Nat) (k : WaitKind) : (t.addWait n k).tick = t.tick := rfl
@[simp] theorem Tile.addWait_startTick (t : Tile) (n : Nat) (k : WaitKind) : (t.addWait n k).startTick = t.startTick := rfl
@[simp] theorem Tile.addWait_pc (t : Tile) (n : Nat) (k : WaitKind) : (t.addWait n k).pc = t.pc := rfl
@[simp] theorem Tile.addWait_imem (t : Tile) (n : Nat) (k : WaitKind) : (t.addWait n k).imem = t.imem := rfl
@[simp] theorem Tile.addWait_imemBad (t : Tile) (n : Nat) (k : WaitKind) : (t.addWait n k).imemBad = t.imemBad := rfl
@[simp] theorem Tile.addWait_progLen (t : Tile) (n : Nat) (k : WaitKind) : (t.addWait n k).progLen = t.progLen := rfl
@[simp] theorem Tile.addWait_grid (t : Tile) (n : Nat) (k : WaitKind) : (t.addWait n k).grid = t.grid := rfl
@[simp] theorem Tile.addWait_regs (t : Tile) (n : Nat) (k : WaitKind) : (t.addWait n k).regs = t.regs := rfl
@[simp] theorem Tile.addWait_latches (t : Tile) (n : Nat) (k : WaitKind) : (t.addWait n k).latches = t.latches := rfl
@[simp] theorem Tile.addWait_csrs (t : Tile) (n : Nat) (k : WaitKind) : (t.addWait n k).csrs = t.csrs := rfl
@[simp] theorem Tile.addWait_gov (t : Tile) (n : Nat) (k : WaitKind) : (t.addWait n k).gov = t.gov := rfl
@[simp] theorem Tile.addWait_seed (t : Tile) (n : Nat) (k : WaitKind) : (t.addWait n k).seed = t.seed := rfl
@[simp] theorem Tile.addWait_inflight (t : Tile) (n : Nat) (k : WaitKind) : (t.addWait n k).inflight = t.inflight := rfl
@[simp] theorem Tile.addWait_replays (t : Tile) (n : Nat) (k : WaitKind) : (t.addWait n k).replays = t.replays := rfl
@[simp] theorem Tile.addWait_landings (t : Tile) (n : Nat) (k : WaitKind) : (t.addWait n k).landings = t.landings := rfl
@[simp] theorem Tile.addWait_loops (t : Tile) (n : Nat) (k : WaitKind) : (t.addWait n k).loops = t.loops := rfl
@[simp] theorem Tile.addWait_spad (t : Tile) (n : Nat) (k : WaitKind) : (t.addWait n k).spad = t.spad := rfl
@[simp] theorem Tile.addWait_regions (t : Tile) (n : Nat) (k : WaitKind) : (t.addWait n k).regions = t.regions := rfl
@[simp] theorem Tile.addWait_faults (t : Tile) (n : Nat) (k : WaitKind) : (t.addWait n k).faults = t.faults := rfl
@[simp] theorem Tile.addWait_deferred (t : Tile) (n : Nat) (k : WaitKind) : (t.addWait n k).deferred = t.deferred := rfl
@[simp] theorem Tile.addWait_far (t : Tile) (n : Nat) (k : WaitKind) : (t.addWait n k).far = t.far := rfl
@[simp] theorem Tile.addWait_buffer (t : Tile) (n : Nat) (k : WaitKind) : (t.addWait n k).buffer = t.buffer := rfl
@[simp] theorem Tile.addWait_bufferBad (t : Tile) (n : Nat) (k : WaitKind) : (t.addWait n k).bufferBad = t.bufferBad := rfl
@[simp] theorem Tile.addWait_sent (t : Tile) (n : Nat) (k : WaitKind) : (t.addWait n k).sent = t.sent := rfl
@[simp] theorem Tile.addWait_basin (t : Tile) (n : Nat) (k : WaitKind) : (t.addWait n k).basin = t.basin := rfl
@[simp] theorem Tile.addWait_skid (t : Tile) (n : Nat) (k : WaitKind) : (t.addWait n k).skid = t.skid := rfl
@[simp] theorem Tile.addWait_received (t : Tile) (n : Nat) (k : WaitKind) : (t.addWait n k).received = t.received := rfl
@[simp] theorem Tile.addWait_claims (t : Tile) (n : Nat) (k : WaitKind) : (t.addWait n k).claims = t.claims := rfl
@[simp] theorem Tile.addWait_mx (t : Tile) (n : Nat) (k : WaitKind) : (t.addWait n k).mx = t.mx := rfl
@[simp] theorem Tile.addWait_casc (t : Tile) (n : Nat) (k : WaitKind) : (t.addWait n k).casc = t.casc := rfl
@[simp] theorem Tile.addWait_queues (t : Tile) (n : Nat) (k : WaitKind) : (t.addWait n k).queues = t.queues := rfl
@[simp] theorem Tile.addWait_berth (t : Tile) (n : Nat) (k : WaitKind) : (t.addWait n k).berth = t.berth := rfl
@[simp] theorem Tile.addWait_station (t : Tile) (n : Nat) (k : WaitKind) : (t.addWait n k).station = t.station := rfl
@[simp] theorem Tile.addWait_gang (t : Tile) (n : Nat) (k : WaitKind) : (t.addWait n k).gang = t.gang := rfl
@[simp] theorem Tile.addWait_freeze (t : Tile) (n : Nat) (k : WaitKind) : (t.addWait n k).freeze = t.freeze := rfl
@[simp] theorem Tile.addWait_triggered (t : Tile) (n : Nat) (k : WaitKind) : (t.addWait n k).triggered = t.triggered := rfl
@[simp] theorem Tile.addWait_stopAt (t : Tile) (n : Nat) (k : WaitKind) : (t.addWait n k).stopAt = t.stopAt := rfl
@[simp] theorem Tile.addWait_iss (t : Tile) (n : Nat) (k : WaitKind) : (t.addWait n k).iss = t.iss := rfl
@[simp] theorem Tile.addWait_waits (t : Tile) (n : Nat) (k : WaitKind) : (t.addWait n k).waits = t.waits ++ [⟨t.seq, t.tick, n, k, t.iss.addr, t.iss.pos, none⟩] := rfl
@[simp] theorem Tile.addWait_seq (t : Tile) (n : Nat) (k : WaitKind) : (t.addWait n k).seq = t.seq + 1 := rfl

@[simp] theorem Tile.queueRill_key (t : Tile) (a b : Nat) (k : RillKind) (l : Option Nat) : (t.queueRill a b k l).key = t.key := rfl
@[simp] theorem Tile.queueRill_launch (t : Tile) (a b : Nat) (k : RillKind) (l : Option Nat) : (t.queueRill a b k l).launch = t.launch := rfl
@[simp] theorem Tile.queueRill_phase (t : Tile) (a b : Nat) (k : RillKind) (l : Option Nat) : (t.queueRill a b k l).phase = t.phase := rfl
@[simp] theorem Tile.queueRill_tick (t : Tile) (a b : Nat) (k : RillKind) (l : Option Nat) : (t.queueRill a b k l).tick = t.tick := rfl
@[simp] theorem Tile.queueRill_startTick (t : Tile) (a b : Nat) (k : RillKind) (l : Option Nat) : (t.queueRill a b k l).startTick = t.startTick := rfl
@[simp] theorem Tile.queueRill_pc (t : Tile) (a b : Nat) (k : RillKind) (l : Option Nat) : (t.queueRill a b k l).pc = t.pc := rfl
@[simp] theorem Tile.queueRill_imem (t : Tile) (a b : Nat) (k : RillKind) (l : Option Nat) : (t.queueRill a b k l).imem = t.imem := rfl
@[simp] theorem Tile.queueRill_imemBad (t : Tile) (a b : Nat) (k : RillKind) (l : Option Nat) : (t.queueRill a b k l).imemBad = t.imemBad := rfl
@[simp] theorem Tile.queueRill_progLen (t : Tile) (a b : Nat) (k : RillKind) (l : Option Nat) : (t.queueRill a b k l).progLen = t.progLen := rfl
@[simp] theorem Tile.queueRill_grid (t : Tile) (a b : Nat) (k : RillKind) (l : Option Nat) : (t.queueRill a b k l).grid = t.grid := rfl
@[simp] theorem Tile.queueRill_regs (t : Tile) (a b : Nat) (k : RillKind) (l : Option Nat) : (t.queueRill a b k l).regs = t.regs := rfl
@[simp] theorem Tile.queueRill_latches (t : Tile) (a b : Nat) (k : RillKind) (l : Option Nat) : (t.queueRill a b k l).latches = t.latches := rfl
@[simp] theorem Tile.queueRill_csrs (t : Tile) (a b : Nat) (k : RillKind) (l : Option Nat) : (t.queueRill a b k l).csrs = t.csrs := rfl
@[simp] theorem Tile.queueRill_gov (t : Tile) (a b : Nat) (k : RillKind) (l : Option Nat) : (t.queueRill a b k l).gov = t.gov := rfl
@[simp] theorem Tile.queueRill_seed (t : Tile) (a b : Nat) (k : RillKind) (l : Option Nat) : (t.queueRill a b k l).seed = t.seed := rfl
@[simp] theorem Tile.queueRill_inflight (t : Tile) (a b : Nat) (k : RillKind) (l : Option Nat) : (t.queueRill a b k l).inflight = t.inflight := rfl
@[simp] theorem Tile.queueRill_replays (t : Tile) (a b : Nat) (k : RillKind) (l : Option Nat) : (t.queueRill a b k l).replays = t.replays := rfl
@[simp] theorem Tile.queueRill_landings (t : Tile) (a b : Nat) (k : RillKind) (l : Option Nat) : (t.queueRill a b k l).landings = t.landings := rfl
@[simp] theorem Tile.queueRill_loops (t : Tile) (a b : Nat) (k : RillKind) (l : Option Nat) : (t.queueRill a b k l).loops = t.loops := rfl
@[simp] theorem Tile.queueRill_waits (t : Tile) (a b : Nat) (k : RillKind) (l : Option Nat) : (t.queueRill a b k l).waits = t.waits := rfl
@[simp] theorem Tile.queueRill_spad (t : Tile) (a b : Nat) (k : RillKind) (l : Option Nat) : (t.queueRill a b k l).spad = t.spad := rfl
@[simp] theorem Tile.queueRill_regions (t : Tile) (a b : Nat) (k : RillKind) (l : Option Nat) : (t.queueRill a b k l).regions = t.regions := rfl
@[simp] theorem Tile.queueRill_faults (t : Tile) (a b : Nat) (k : RillKind) (l : Option Nat) : (t.queueRill a b k l).faults = t.faults := rfl
@[simp] theorem Tile.queueRill_deferred (t : Tile) (a b : Nat) (k : RillKind) (l : Option Nat) : (t.queueRill a b k l).deferred = t.deferred := rfl
@[simp] theorem Tile.queueRill_far (t : Tile) (a b : Nat) (k : RillKind) (l : Option Nat) : (t.queueRill a b k l).far = t.far := rfl
@[simp] theorem Tile.queueRill_buffer (t : Tile) (a b : Nat) (k : RillKind) (l : Option Nat) : (t.queueRill a b k l).buffer = t.buffer := rfl
@[simp] theorem Tile.queueRill_bufferBad (t : Tile) (a b : Nat) (k : RillKind) (l : Option Nat) : (t.queueRill a b k l).bufferBad = t.bufferBad := rfl
@[simp] theorem Tile.queueRill_sent (t : Tile) (a b : Nat) (k : RillKind) (l : Option Nat) : (t.queueRill a b k l).sent = t.sent := rfl
@[simp] theorem Tile.queueRill_basin (t : Tile) (a b : Nat) (k : RillKind) (l : Option Nat) : (t.queueRill a b k l).basin = t.basin := rfl
@[simp] theorem Tile.queueRill_skid (t : Tile) (a b : Nat) (k : RillKind) (l : Option Nat) : (t.queueRill a b k l).skid = t.skid := rfl
@[simp] theorem Tile.queueRill_received (t : Tile) (a b : Nat) (k : RillKind) (l : Option Nat) : (t.queueRill a b k l).received = t.received := rfl
@[simp] theorem Tile.queueRill_claims (t : Tile) (a b : Nat) (k : RillKind) (l : Option Nat) : (t.queueRill a b k l).claims = t.claims := rfl
@[simp] theorem Tile.queueRill_mx (t : Tile) (a b : Nat) (k : RillKind) (l : Option Nat) : (t.queueRill a b k l).mx = t.mx := rfl
@[simp] theorem Tile.queueRill_casc (t : Tile) (a b : Nat) (k : RillKind) (l : Option Nat) : (t.queueRill a b k l).casc = t.casc := rfl
@[simp] theorem Tile.queueRill_queues (t : Tile) (a b : Nat) (k : RillKind) (l : Option Nat) : (t.queueRill a b k l).queues = t.queues := rfl
@[simp] theorem Tile.queueRill_berth (t : Tile) (a b : Nat) (k : RillKind) (l : Option Nat) : (t.queueRill a b k l).berth = t.berth := rfl
@[simp] theorem Tile.queueRill_gang (t : Tile) (a b : Nat) (k : RillKind) (l : Option Nat) : (t.queueRill a b k l).gang = t.gang := rfl
@[simp] theorem Tile.queueRill_freeze (t : Tile) (a b : Nat) (k : RillKind) (l : Option Nat) : (t.queueRill a b k l).freeze = t.freeze := rfl
@[simp] theorem Tile.queueRill_triggered (t : Tile) (a b : Nat) (k : RillKind) (l : Option Nat) : (t.queueRill a b k l).triggered = t.triggered := rfl
@[simp] theorem Tile.queueRill_stopAt (t : Tile) (a b : Nat) (k : RillKind) (l : Option Nat) : (t.queueRill a b k l).stopAt = t.stopAt := rfl
@[simp] theorem Tile.queueRill_iss (t : Tile) (a b : Nat) (k : RillKind) (l : Option Nat) : (t.queueRill a b k l).iss = t.iss := rfl
@[simp] theorem Tile.queueRill_seq (t : Tile) (a b : Nat) (k : RillKind) (l : Option Nat) : (t.queueRill a b k l).seq = t.seq + 1 := rfl

@[simp] theorem Tile.setQueue_key (t : Tile) (q : Nat) (c : CopyQueue) : (t.setQueue q c).key = t.key := rfl
@[simp] theorem Tile.setQueue_launch (t : Tile) (q : Nat) (c : CopyQueue) : (t.setQueue q c).launch = t.launch := rfl
@[simp] theorem Tile.setQueue_phase (t : Tile) (q : Nat) (c : CopyQueue) : (t.setQueue q c).phase = t.phase := rfl
@[simp] theorem Tile.setQueue_tick (t : Tile) (q : Nat) (c : CopyQueue) : (t.setQueue q c).tick = t.tick := rfl
@[simp] theorem Tile.setQueue_startTick (t : Tile) (q : Nat) (c : CopyQueue) : (t.setQueue q c).startTick = t.startTick := rfl
@[simp] theorem Tile.setQueue_pc (t : Tile) (q : Nat) (c : CopyQueue) : (t.setQueue q c).pc = t.pc := rfl
@[simp] theorem Tile.setQueue_imem (t : Tile) (q : Nat) (c : CopyQueue) : (t.setQueue q c).imem = t.imem := rfl
@[simp] theorem Tile.setQueue_imemBad (t : Tile) (q : Nat) (c : CopyQueue) : (t.setQueue q c).imemBad = t.imemBad := rfl
@[simp] theorem Tile.setQueue_progLen (t : Tile) (q : Nat) (c : CopyQueue) : (t.setQueue q c).progLen = t.progLen := rfl
@[simp] theorem Tile.setQueue_grid (t : Tile) (q : Nat) (c : CopyQueue) : (t.setQueue q c).grid = t.grid := rfl
@[simp] theorem Tile.setQueue_regs (t : Tile) (q : Nat) (c : CopyQueue) : (t.setQueue q c).regs = t.regs := rfl
@[simp] theorem Tile.setQueue_latches (t : Tile) (q : Nat) (c : CopyQueue) : (t.setQueue q c).latches = t.latches := rfl
@[simp] theorem Tile.setQueue_csrs (t : Tile) (q : Nat) (c : CopyQueue) : (t.setQueue q c).csrs = t.csrs := rfl
@[simp] theorem Tile.setQueue_gov (t : Tile) (q : Nat) (c : CopyQueue) : (t.setQueue q c).gov = t.gov := rfl
@[simp] theorem Tile.setQueue_seed (t : Tile) (q : Nat) (c : CopyQueue) : (t.setQueue q c).seed = t.seed := rfl
@[simp] theorem Tile.setQueue_inflight (t : Tile) (q : Nat) (c : CopyQueue) : (t.setQueue q c).inflight = t.inflight := rfl
@[simp] theorem Tile.setQueue_seq (t : Tile) (q : Nat) (c : CopyQueue) : (t.setQueue q c).seq = t.seq := rfl
@[simp] theorem Tile.setQueue_replays (t : Tile) (q : Nat) (c : CopyQueue) : (t.setQueue q c).replays = t.replays := rfl
@[simp] theorem Tile.setQueue_landings (t : Tile) (q : Nat) (c : CopyQueue) : (t.setQueue q c).landings = t.landings := rfl
@[simp] theorem Tile.setQueue_loops (t : Tile) (q : Nat) (c : CopyQueue) : (t.setQueue q c).loops = t.loops := rfl
@[simp] theorem Tile.setQueue_waits (t : Tile) (q : Nat) (c : CopyQueue) : (t.setQueue q c).waits = t.waits := rfl
@[simp] theorem Tile.setQueue_spad (t : Tile) (q : Nat) (c : CopyQueue) : (t.setQueue q c).spad = t.spad := rfl
@[simp] theorem Tile.setQueue_regions (t : Tile) (q : Nat) (c : CopyQueue) : (t.setQueue q c).regions = t.regions := rfl
@[simp] theorem Tile.setQueue_faults (t : Tile) (q : Nat) (c : CopyQueue) : (t.setQueue q c).faults = t.faults := rfl
@[simp] theorem Tile.setQueue_deferred (t : Tile) (q : Nat) (c : CopyQueue) : (t.setQueue q c).deferred = t.deferred := rfl
@[simp] theorem Tile.setQueue_far (t : Tile) (q : Nat) (c : CopyQueue) : (t.setQueue q c).far = t.far := rfl
@[simp] theorem Tile.setQueue_buffer (t : Tile) (q : Nat) (c : CopyQueue) : (t.setQueue q c).buffer = t.buffer := rfl
@[simp] theorem Tile.setQueue_bufferBad (t : Tile) (q : Nat) (c : CopyQueue) : (t.setQueue q c).bufferBad = t.bufferBad := rfl
@[simp] theorem Tile.setQueue_sent (t : Tile) (q : Nat) (c : CopyQueue) : (t.setQueue q c).sent = t.sent := rfl
@[simp] theorem Tile.setQueue_basin (t : Tile) (q : Nat) (c : CopyQueue) : (t.setQueue q c).basin = t.basin := rfl
@[simp] theorem Tile.setQueue_skid (t : Tile) (q : Nat) (c : CopyQueue) : (t.setQueue q c).skid = t.skid := rfl
@[simp] theorem Tile.setQueue_received (t : Tile) (q : Nat) (c : CopyQueue) : (t.setQueue q c).received = t.received := rfl
@[simp] theorem Tile.setQueue_claims (t : Tile) (q : Nat) (c : CopyQueue) : (t.setQueue q c).claims = t.claims := rfl
@[simp] theorem Tile.setQueue_mx (t : Tile) (q : Nat) (c : CopyQueue) : (t.setQueue q c).mx = t.mx := rfl
@[simp] theorem Tile.setQueue_casc (t : Tile) (q : Nat) (c : CopyQueue) : (t.setQueue q c).casc = t.casc := rfl
@[simp] theorem Tile.setQueue_berth (t : Tile) (q : Nat) (c : CopyQueue) : (t.setQueue q c).berth = t.berth := rfl
@[simp] theorem Tile.setQueue_station (t : Tile) (q : Nat) (c : CopyQueue) : (t.setQueue q c).station = t.station := rfl
@[simp] theorem Tile.setQueue_gang (t : Tile) (q : Nat) (c : CopyQueue) : (t.setQueue q c).gang = t.gang := rfl
@[simp] theorem Tile.setQueue_freeze (t : Tile) (q : Nat) (c : CopyQueue) : (t.setQueue q c).freeze = t.freeze := rfl
@[simp] theorem Tile.setQueue_triggered (t : Tile) (q : Nat) (c : CopyQueue) : (t.setQueue q c).triggered = t.triggered := rfl
@[simp] theorem Tile.setQueue_stopAt (t : Tile) (q : Nat) (c : CopyQueue) : (t.setQueue q c).stopAt = t.stopAt := rfl
@[simp] theorem Tile.setQueue_iss (t : Tile) (q : Nat) (c : CopyQueue) : (t.setQueue q c).iss = t.iss := rfl
@[simp] theorem Tile.setQueue_queues (t : Tile) (q : Nat) (c : CopyQueue) : (t.setQueue q c).queues = t.queues.set q c := rfl

@[simp] theorem Tile.transfer_key (t : Tile) (a : Nat) (j : Bool) : (t.transfer a j).key = t.key := rfl
@[simp] theorem Tile.transfer_launch (t : Tile) (a : Nat) (j : Bool) : (t.transfer a j).launch = t.launch := rfl
@[simp] theorem Tile.transfer_phase (t : Tile) (a : Nat) (j : Bool) : (t.transfer a j).phase = t.phase := rfl
@[simp] theorem Tile.transfer_tick (t : Tile) (a : Nat) (j : Bool) : (t.transfer a j).tick = t.tick := rfl
@[simp] theorem Tile.transfer_startTick (t : Tile) (a : Nat) (j : Bool) : (t.transfer a j).startTick = t.startTick := rfl
@[simp] theorem Tile.transfer_imem (t : Tile) (a : Nat) (j : Bool) : (t.transfer a j).imem = t.imem := rfl
@[simp] theorem Tile.transfer_imemBad (t : Tile) (a : Nat) (j : Bool) : (t.transfer a j).imemBad = t.imemBad := rfl
@[simp] theorem Tile.transfer_progLen (t : Tile) (a : Nat) (j : Bool) : (t.transfer a j).progLen = t.progLen := rfl
@[simp] theorem Tile.transfer_grid (t : Tile) (a : Nat) (j : Bool) : (t.transfer a j).grid = t.grid := rfl
@[simp] theorem Tile.transfer_regs (t : Tile) (a : Nat) (j : Bool) : (t.transfer a j).regs = t.regs := rfl
@[simp] theorem Tile.transfer_latches (t : Tile) (a : Nat) (j : Bool) : (t.transfer a j).latches = t.latches := rfl
@[simp] theorem Tile.transfer_csrs (t : Tile) (a : Nat) (j : Bool) : (t.transfer a j).csrs = t.csrs := rfl
@[simp] theorem Tile.transfer_gov (t : Tile) (a : Nat) (j : Bool) : (t.transfer a j).gov = t.gov := rfl
@[simp] theorem Tile.transfer_seed (t : Tile) (a : Nat) (j : Bool) : (t.transfer a j).seed = t.seed := rfl
@[simp] theorem Tile.transfer_inflight (t : Tile) (a : Nat) (j : Bool) : (t.transfer a j).inflight = t.inflight := rfl
@[simp] theorem Tile.transfer_seq (t : Tile) (a : Nat) (j : Bool) : (t.transfer a j).seq = t.seq := rfl
@[simp] theorem Tile.transfer_replays (t : Tile) (a : Nat) (j : Bool) : (t.transfer a j).replays = t.replays := rfl
@[simp] theorem Tile.transfer_landings (t : Tile) (a : Nat) (j : Bool) : (t.transfer a j).landings = t.landings := rfl
@[simp] theorem Tile.transfer_waits (t : Tile) (a : Nat) (j : Bool) : (t.transfer a j).waits = t.waits := rfl
@[simp] theorem Tile.transfer_spad (t : Tile) (a : Nat) (j : Bool) : (t.transfer a j).spad = t.spad := rfl
@[simp] theorem Tile.transfer_regions (t : Tile) (a : Nat) (j : Bool) : (t.transfer a j).regions = t.regions := rfl
@[simp] theorem Tile.transfer_faults (t : Tile) (a : Nat) (j : Bool) : (t.transfer a j).faults = t.faults := rfl
@[simp] theorem Tile.transfer_deferred (t : Tile) (a : Nat) (j : Bool) : (t.transfer a j).deferred = t.deferred := rfl
@[simp] theorem Tile.transfer_far (t : Tile) (a : Nat) (j : Bool) : (t.transfer a j).far = t.far := rfl
@[simp] theorem Tile.transfer_buffer (t : Tile) (a : Nat) (j : Bool) : (t.transfer a j).buffer = t.buffer := rfl
@[simp] theorem Tile.transfer_bufferBad (t : Tile) (a : Nat) (j : Bool) : (t.transfer a j).bufferBad = t.bufferBad := rfl
@[simp] theorem Tile.transfer_sent (t : Tile) (a : Nat) (j : Bool) : (t.transfer a j).sent = t.sent := rfl
@[simp] theorem Tile.transfer_basin (t : Tile) (a : Nat) (j : Bool) : (t.transfer a j).basin = t.basin := rfl
@[simp] theorem Tile.transfer_skid (t : Tile) (a : Nat) (j : Bool) : (t.transfer a j).skid = t.skid := rfl
@[simp] theorem Tile.transfer_received (t : Tile) (a : Nat) (j : Bool) : (t.transfer a j).received = t.received := rfl
@[simp] theorem Tile.transfer_claims (t : Tile) (a : Nat) (j : Bool) : (t.transfer a j).claims = t.claims := rfl
@[simp] theorem Tile.transfer_mx (t : Tile) (a : Nat) (j : Bool) : (t.transfer a j).mx = t.mx := rfl
@[simp] theorem Tile.transfer_casc (t : Tile) (a : Nat) (j : Bool) : (t.transfer a j).casc = t.casc := rfl
@[simp] theorem Tile.transfer_queues (t : Tile) (a : Nat) (j : Bool) : (t.transfer a j).queues = t.queues := rfl
@[simp] theorem Tile.transfer_berth (t : Tile) (a : Nat) (j : Bool) : (t.transfer a j).berth = t.berth := rfl
@[simp] theorem Tile.transfer_station (t : Tile) (a : Nat) (j : Bool) : (t.transfer a j).station = t.station := rfl
@[simp] theorem Tile.transfer_gang (t : Tile) (a : Nat) (j : Bool) : (t.transfer a j).gang = t.gang := rfl
@[simp] theorem Tile.transfer_freeze (t : Tile) (a : Nat) (j : Bool) : (t.transfer a j).freeze = t.freeze := rfl
@[simp] theorem Tile.transfer_triggered (t : Tile) (a : Nat) (j : Bool) : (t.transfer a j).triggered = t.triggered := rfl
@[simp] theorem Tile.transfer_stopAt (t : Tile) (a : Nat) (j : Bool) : (t.transfer a j).stopAt = t.stopAt := rfl
@[simp] theorem Tile.transfer_pc (t : Tile) (a : Nat) (j : Bool) : (t.transfer a j).pc = a := rfl

@[simp] theorem Tile.badTarget_key (t : Tile) (a : Nat) : (t.badTarget a).key = t.key := rfl
@[simp] theorem Tile.badTarget_launch (t : Tile) (a : Nat) : (t.badTarget a).launch = t.launch := rfl
@[simp] theorem Tile.badTarget_phase (t : Tile) (a : Nat) : (t.badTarget a).phase = t.phase := rfl
@[simp] theorem Tile.badTarget_tick (t : Tile) (a : Nat) : (t.badTarget a).tick = t.tick := rfl
@[simp] theorem Tile.badTarget_startTick (t : Tile) (a : Nat) : (t.badTarget a).startTick = t.startTick := rfl
@[simp] theorem Tile.badTarget_imem (t : Tile) (a : Nat) : (t.badTarget a).imem = t.imem := rfl
@[simp] theorem Tile.badTarget_imemBad (t : Tile) (a : Nat) : (t.badTarget a).imemBad = t.imemBad := rfl
@[simp] theorem Tile.badTarget_progLen (t : Tile) (a : Nat) : (t.badTarget a).progLen = t.progLen := rfl
@[simp] theorem Tile.badTarget_grid (t : Tile) (a : Nat) : (t.badTarget a).grid = t.grid := rfl
@[simp] theorem Tile.badTarget_regs (t : Tile) (a : Nat) : (t.badTarget a).regs = t.regs := rfl
@[simp] theorem Tile.badTarget_latches (t : Tile) (a : Nat) : (t.badTarget a).latches = t.latches := rfl
@[simp] theorem Tile.badTarget_csrs (t : Tile) (a : Nat) : (t.badTarget a).csrs = t.csrs := rfl
@[simp] theorem Tile.badTarget_gov (t : Tile) (a : Nat) : (t.badTarget a).gov = t.gov := rfl
@[simp] theorem Tile.badTarget_seed (t : Tile) (a : Nat) : (t.badTarget a).seed = t.seed := rfl
@[simp] theorem Tile.badTarget_replays (t : Tile) (a : Nat) : (t.badTarget a).replays = t.replays := rfl
@[simp] theorem Tile.badTarget_landings (t : Tile) (a : Nat) : (t.badTarget a).landings = t.landings := rfl
@[simp] theorem Tile.badTarget_loops (t : Tile) (a : Nat) : (t.badTarget a).loops = t.loops := rfl
@[simp] theorem Tile.badTarget_waits (t : Tile) (a : Nat) : (t.badTarget a).waits = t.waits := rfl
@[simp] theorem Tile.badTarget_spad (t : Tile) (a : Nat) : (t.badTarget a).spad = t.spad := rfl
@[simp] theorem Tile.badTarget_regions (t : Tile) (a : Nat) : (t.badTarget a).regions = t.regions := rfl
@[simp] theorem Tile.badTarget_faults (t : Tile) (a : Nat) : (t.badTarget a).faults = t.faults := rfl
@[simp] theorem Tile.badTarget_deferred (t : Tile) (a : Nat) : (t.badTarget a).deferred = t.deferred := rfl
@[simp] theorem Tile.badTarget_far (t : Tile) (a : Nat) : (t.badTarget a).far = t.far := rfl
@[simp] theorem Tile.badTarget_buffer (t : Tile) (a : Nat) : (t.badTarget a).buffer = t.buffer := rfl
@[simp] theorem Tile.badTarget_bufferBad (t : Tile) (a : Nat) : (t.badTarget a).bufferBad = t.bufferBad := rfl
@[simp] theorem Tile.badTarget_sent (t : Tile) (a : Nat) : (t.badTarget a).sent = t.sent := rfl
@[simp] theorem Tile.badTarget_basin (t : Tile) (a : Nat) : (t.badTarget a).basin = t.basin := rfl
@[simp] theorem Tile.badTarget_skid (t : Tile) (a : Nat) : (t.badTarget a).skid = t.skid := rfl
@[simp] theorem Tile.badTarget_received (t : Tile) (a : Nat) : (t.badTarget a).received = t.received := rfl
@[simp] theorem Tile.badTarget_claims (t : Tile) (a : Nat) : (t.badTarget a).claims = t.claims := rfl
@[simp] theorem Tile.badTarget_mx (t : Tile) (a : Nat) : (t.badTarget a).mx = t.mx := rfl
@[simp] theorem Tile.badTarget_casc (t : Tile) (a : Nat) : (t.badTarget a).casc = t.casc := rfl
@[simp] theorem Tile.badTarget_queues (t : Tile) (a : Nat) : (t.badTarget a).queues = t.queues := rfl
@[simp] theorem Tile.badTarget_berth (t : Tile) (a : Nat) : (t.badTarget a).berth = t.berth := rfl
@[simp] theorem Tile.badTarget_station (t : Tile) (a : Nat) : (t.badTarget a).station = t.station := rfl
@[simp] theorem Tile.badTarget_gang (t : Tile) (a : Nat) : (t.badTarget a).gang = t.gang := rfl
@[simp] theorem Tile.badTarget_freeze (t : Tile) (a : Nat) : (t.badTarget a).freeze = t.freeze := rfl
@[simp] theorem Tile.badTarget_triggered (t : Tile) (a : Nat) : (t.badTarget a).triggered = t.triggered := rfl
@[simp] theorem Tile.badTarget_stopAt (t : Tile) (a : Nat) : (t.badTarget a).stopAt = t.stopAt := rfl
@[simp] theorem Tile.badTarget_pc (t : Tile) (a : Nat) : (t.badTarget a).pc = t.iss.addr := rfl
@[simp] theorem Tile.badTarget_seq (t : Tile) (a : Nat) : (t.badTarget a).seq = t.seq + 1 := rfl

@[simp] theorem Tile.advance_key (t : Tile) : (t.advance).key = t.key := rfl
@[simp] theorem Tile.advance_launch (t : Tile) : (t.advance).launch = t.launch := rfl
@[simp] theorem Tile.advance_phase (t : Tile) : (t.advance).phase = t.phase := rfl
@[simp] theorem Tile.advance_tick (t : Tile) : (t.advance).tick = t.tick := rfl
@[simp] theorem Tile.advance_startTick (t : Tile) : (t.advance).startTick = t.startTick := rfl
@[simp] theorem Tile.advance_imem (t : Tile) : (t.advance).imem = t.imem := rfl
@[simp] theorem Tile.advance_imemBad (t : Tile) : (t.advance).imemBad = t.imemBad := rfl
@[simp] theorem Tile.advance_progLen (t : Tile) : (t.advance).progLen = t.progLen := rfl
@[simp] theorem Tile.advance_grid (t : Tile) : (t.advance).grid = t.grid := rfl
@[simp] theorem Tile.advance_regs (t : Tile) : (t.advance).regs = t.regs := rfl
@[simp] theorem Tile.advance_latches (t : Tile) : (t.advance).latches = t.latches := rfl
@[simp] theorem Tile.advance_csrs (t : Tile) : (t.advance).csrs = t.csrs := rfl
@[simp] theorem Tile.advance_gov (t : Tile) : (t.advance).gov = t.gov := rfl
@[simp] theorem Tile.advance_seed (t : Tile) : (t.advance).seed = t.seed := rfl
@[simp] theorem Tile.advance_inflight (t : Tile) : (t.advance).inflight = t.inflight := rfl
@[simp] theorem Tile.advance_seq (t : Tile) : (t.advance).seq = t.seq := rfl
@[simp] theorem Tile.advance_replays (t : Tile) : (t.advance).replays = t.replays := rfl
@[simp] theorem Tile.advance_landings (t : Tile) : (t.advance).landings = t.landings := rfl
@[simp] theorem Tile.advance_waits (t : Tile) : (t.advance).waits = t.waits := rfl
@[simp] theorem Tile.advance_spad (t : Tile) : (t.advance).spad = t.spad := rfl
@[simp] theorem Tile.advance_regions (t : Tile) : (t.advance).regions = t.regions := rfl
@[simp] theorem Tile.advance_faults (t : Tile) : (t.advance).faults = t.faults := rfl
@[simp] theorem Tile.advance_deferred (t : Tile) : (t.advance).deferred = t.deferred := rfl
@[simp] theorem Tile.advance_far (t : Tile) : (t.advance).far = t.far := rfl
@[simp] theorem Tile.advance_buffer (t : Tile) : (t.advance).buffer = t.buffer := rfl
@[simp] theorem Tile.advance_bufferBad (t : Tile) : (t.advance).bufferBad = t.bufferBad := rfl
@[simp] theorem Tile.advance_sent (t : Tile) : (t.advance).sent = t.sent := rfl
@[simp] theorem Tile.advance_basin (t : Tile) : (t.advance).basin = t.basin := rfl
@[simp] theorem Tile.advance_skid (t : Tile) : (t.advance).skid = t.skid := rfl
@[simp] theorem Tile.advance_received (t : Tile) : (t.advance).received = t.received := rfl
@[simp] theorem Tile.advance_claims (t : Tile) : (t.advance).claims = t.claims := rfl
@[simp] theorem Tile.advance_mx (t : Tile) : (t.advance).mx = t.mx := rfl
@[simp] theorem Tile.advance_casc (t : Tile) : (t.advance).casc = t.casc := rfl
@[simp] theorem Tile.advance_queues (t : Tile) : (t.advance).queues = t.queues := rfl
@[simp] theorem Tile.advance_berth (t : Tile) : (t.advance).berth = t.berth := rfl
@[simp] theorem Tile.advance_station (t : Tile) : (t.advance).station = t.station := rfl
@[simp] theorem Tile.advance_gang (t : Tile) : (t.advance).gang = t.gang := rfl
@[simp] theorem Tile.advance_freeze (t : Tile) : (t.advance).freeze = t.freeze := rfl
@[simp] theorem Tile.advance_triggered (t : Tile) : (t.advance).triggered = t.triggered := rfl
@[simp] theorem Tile.advance_stopAt (t : Tile) : (t.advance).stopAt = t.stopAt := rfl

@[simp] theorem State.mapTiles_launches (s : State) (f : Tile → Tile) : (s.mapTiles f).launches = s.launches := rfl
@[simp] theorem State.mapTiles_contexts (s : State) (f : Tile → Tile) : (s.mapTiles f).contexts = s.contexts := rfl
@[simp] theorem State.mapTiles_queues (s : State) (f : Tile → Tile) : (s.mapTiles f).queues = s.queues := rfl
@[simp] theorem State.mapTiles_hbm (s : State) (f : Tile → Tile) : (s.mapTiles f).hbm = s.hbm := rfl
@[simp] theorem State.mapTiles_hbmPoison (s : State) (f : Tile → Tile) : (s.mapTiles f).hbmPoison = s.hbmPoison := rfl
@[simp] theorem State.mapTiles_board (s : State) (f : Tile → Tile) : (s.mapTiles f).board = s.board := rfl
@[simp] theorem State.mapTiles_cycle (s : State) (f : Tile → Tile) : (s.mapTiles f).cycle = s.cycle := rfl
@[simp] theorem State.mapTiles_counter (s : State) (f : Tile → Tile) : (s.mapTiles f).counter = s.counter := rfl
@[simp] theorem State.mapTiles_inputs (s : State) (f : Tile → Tile) : (s.mapTiles f).inputs = s.inputs := rfl
@[simp] theorem State.mapTiles_replies (s : State) (f : Tile → Tile) : (s.mapTiles f).replies = s.replies := rfl
@[simp] theorem State.mapTiles_streamed (s : State) (f : Tile → Tile) : (s.mapTiles f).streamed = s.streamed := rfl
@[simp] theorem State.mapTiles_hostReads (s : State) (f : Tile → Tile) : (s.mapTiles f).hostReads = s.hostReads := rfl
@[simp] theorem State.mapTiles_waiting (s : State) (f : Tile → Tile) : (s.mapTiles f).waiting = s.waiting := rfl
@[simp] theorem State.mapTiles_hubTlb (s : State) (f : Tile → Tile) : (s.mapTiles f).hubTlb = s.hubTlb := rfl
@[simp] theorem State.mapTiles_remoteOut (s : State) (f : Tile → Tile) : (s.mapTiles f).remoteOut = s.remoteOut := rfl
@[simp] theorem State.mapTiles_turn (s : State) (f : Tile → Tile) : (s.mapTiles f).turn = s.turn := rfl
@[simp] theorem State.mapTiles_fresh (s : State) (f : Tile → Tile) : (s.mapTiles f).fresh = s.fresh := rfl
@[simp] theorem State.mapTiles_draws (s : State) (f : Tile → Tile) : (s.mapTiles f).draws = s.draws := rfl
@[simp] theorem State.mapTiles_tile (s : State) (f : Tile → Tile) : (s.mapTiles f).tile = f s.tile := rfl
@[simp] theorem State.mapTiles_others (s : State) (f : Tile → Tile) : (s.mapTiles f).others = s.others.map f := rfl

@[simp] theorem State.setTile_launches (s : State) (t : Tile) : (s.setTile t).launches = s.launches := rfl
@[simp] theorem State.setTile_contexts (s : State) (t : Tile) : (s.setTile t).contexts = s.contexts := rfl
@[simp] theorem State.setTile_queues (s : State) (t : Tile) : (s.setTile t).queues = s.queues := rfl
@[simp] theorem State.setTile_hbm (s : State) (t : Tile) : (s.setTile t).hbm = s.hbm := rfl
@[simp] theorem State.setTile_hbmPoison (s : State) (t : Tile) : (s.setTile t).hbmPoison = s.hbmPoison := rfl
@[simp] theorem State.setTile_board (s : State) (t : Tile) : (s.setTile t).board = s.board := rfl
@[simp] theorem State.setTile_cycle (s : State) (t : Tile) : (s.setTile t).cycle = s.cycle := rfl
@[simp] theorem State.setTile_counter (s : State) (t : Tile) : (s.setTile t).counter = s.counter := rfl
@[simp] theorem State.setTile_inputs (s : State) (t : Tile) : (s.setTile t).inputs = s.inputs := rfl
@[simp] theorem State.setTile_replies (s : State) (t : Tile) : (s.setTile t).replies = s.replies := rfl
@[simp] theorem State.setTile_streamed (s : State) (t : Tile) : (s.setTile t).streamed = s.streamed := rfl
@[simp] theorem State.setTile_hostReads (s : State) (t : Tile) : (s.setTile t).hostReads = s.hostReads := rfl
@[simp] theorem State.setTile_waiting (s : State) (t : Tile) : (s.setTile t).waiting = s.waiting := rfl
@[simp] theorem State.setTile_hubTlb (s : State) (t : Tile) : (s.setTile t).hubTlb = s.hubTlb := rfl
@[simp] theorem State.setTile_remoteOut (s : State) (t : Tile) : (s.setTile t).remoteOut = s.remoteOut := rfl
@[simp] theorem State.setTile_turn (s : State) (t : Tile) : (s.setTile t).turn = s.turn := rfl
@[simp] theorem State.setTile_fresh (s : State) (t : Tile) : (s.setTile t).fresh = s.fresh := rfl
@[simp] theorem State.setTile_draws (s : State) (t : Tile) : (s.setTile t).draws = s.draws := rfl

@[simp] theorem State.onKey_launches (s : State) (k : TileKey) (f : Tile → Tile) : (s.onKey k f).launches = s.launches := rfl
@[simp] theorem State.onKey_contexts (s : State) (k : TileKey) (f : Tile → Tile) : (s.onKey k f).contexts = s.contexts := rfl
@[simp] theorem State.onKey_queues (s : State) (k : TileKey) (f : Tile → Tile) : (s.onKey k f).queues = s.queues := rfl
@[simp] theorem State.onKey_hbm (s : State) (k : TileKey) (f : Tile → Tile) : (s.onKey k f).hbm = s.hbm := rfl
@[simp] theorem State.onKey_hbmPoison (s : State) (k : TileKey) (f : Tile → Tile) : (s.onKey k f).hbmPoison = s.hbmPoison := rfl
@[simp] theorem State.onKey_board (s : State) (k : TileKey) (f : Tile → Tile) : (s.onKey k f).board = s.board := rfl
@[simp] theorem State.onKey_cycle (s : State) (k : TileKey) (f : Tile → Tile) : (s.onKey k f).cycle = s.cycle := rfl
@[simp] theorem State.onKey_counter (s : State) (k : TileKey) (f : Tile → Tile) : (s.onKey k f).counter = s.counter := rfl
@[simp] theorem State.onKey_inputs (s : State) (k : TileKey) (f : Tile → Tile) : (s.onKey k f).inputs = s.inputs := rfl
@[simp] theorem State.onKey_replies (s : State) (k : TileKey) (f : Tile → Tile) : (s.onKey k f).replies = s.replies := rfl
@[simp] theorem State.onKey_streamed (s : State) (k : TileKey) (f : Tile → Tile) : (s.onKey k f).streamed = s.streamed := rfl
@[simp] theorem State.onKey_hostReads (s : State) (k : TileKey) (f : Tile → Tile) : (s.onKey k f).hostReads = s.hostReads := rfl
@[simp] theorem State.onKey_waiting (s : State) (k : TileKey) (f : Tile → Tile) : (s.onKey k f).waiting = s.waiting := rfl
@[simp] theorem State.onKey_hubTlb (s : State) (k : TileKey) (f : Tile → Tile) : (s.onKey k f).hubTlb = s.hubTlb := rfl
@[simp] theorem State.onKey_remoteOut (s : State) (k : TileKey) (f : Tile → Tile) : (s.onKey k f).remoteOut = s.remoteOut := rfl
@[simp] theorem State.onKey_turn (s : State) (k : TileKey) (f : Tile → Tile) : (s.onKey k f).turn = s.turn := rfl
@[simp] theorem State.onKey_fresh (s : State) (k : TileKey) (f : Tile → Tile) : (s.onKey k f).fresh = s.fresh := rfl
@[simp] theorem State.onKey_draws (s : State) (k : TileKey) (f : Tile → Tile) : (s.onKey k f).draws = s.draws := rfl

@[simp] theorem State.setLaunch_tile (s : State) (l : Launch) : (s.setLaunch l).tile = s.tile := rfl
@[simp] theorem State.setLaunch_others (s : State) (l : Launch) : (s.setLaunch l).others = s.others := rfl
@[simp] theorem State.setLaunch_contexts (s : State) (l : Launch) : (s.setLaunch l).contexts = s.contexts := rfl
@[simp] theorem State.setLaunch_queues (s : State) (l : Launch) : (s.setLaunch l).queues = s.queues := rfl
@[simp] theorem State.setLaunch_hbm (s : State) (l : Launch) : (s.setLaunch l).hbm = s.hbm := rfl
@[simp] theorem State.setLaunch_hbmPoison (s : State) (l : Launch) : (s.setLaunch l).hbmPoison = s.hbmPoison := rfl
@[simp] theorem State.setLaunch_board (s : State) (l : Launch) : (s.setLaunch l).board = s.board := rfl
@[simp] theorem State.setLaunch_cycle (s : State) (l : Launch) : (s.setLaunch l).cycle = s.cycle := rfl
@[simp] theorem State.setLaunch_counter (s : State) (l : Launch) : (s.setLaunch l).counter = s.counter := rfl
@[simp] theorem State.setLaunch_inputs (s : State) (l : Launch) : (s.setLaunch l).inputs = s.inputs := rfl
@[simp] theorem State.setLaunch_replies (s : State) (l : Launch) : (s.setLaunch l).replies = s.replies := rfl
@[simp] theorem State.setLaunch_streamed (s : State) (l : Launch) : (s.setLaunch l).streamed = s.streamed := rfl
@[simp] theorem State.setLaunch_hostReads (s : State) (l : Launch) : (s.setLaunch l).hostReads = s.hostReads := rfl
@[simp] theorem State.setLaunch_waiting (s : State) (l : Launch) : (s.setLaunch l).waiting = s.waiting := rfl
@[simp] theorem State.setLaunch_hubTlb (s : State) (l : Launch) : (s.setLaunch l).hubTlb = s.hubTlb := rfl
@[simp] theorem State.setLaunch_remoteOut (s : State) (l : Launch) : (s.setLaunch l).remoteOut = s.remoteOut := rfl
@[simp] theorem State.setLaunch_turn (s : State) (l : Launch) : (s.setLaunch l).turn = s.turn := rfl
@[simp] theorem State.setLaunch_fresh (s : State) (l : Launch) : (s.setLaunch l).fresh = s.fresh := rfl
@[simp] theorem State.setLaunch_draws (s : State) (l : Launch) : (s.setLaunch l).draws = s.draws := rfl

@[simp] theorem State.setCtx_tile (s : State) (c : Context) : (s.setCtx c).tile = s.tile := rfl
@[simp] theorem State.setCtx_others (s : State) (c : Context) : (s.setCtx c).others = s.others := rfl
@[simp] theorem State.setCtx_launches (s : State) (c : Context) : (s.setCtx c).launches = s.launches := rfl
@[simp] theorem State.setCtx_queues (s : State) (c : Context) : (s.setCtx c).queues = s.queues := rfl
@[simp] theorem State.setCtx_hbm (s : State) (c : Context) : (s.setCtx c).hbm = s.hbm := rfl
@[simp] theorem State.setCtx_hbmPoison (s : State) (c : Context) : (s.setCtx c).hbmPoison = s.hbmPoison := rfl
@[simp] theorem State.setCtx_board (s : State) (c : Context) : (s.setCtx c).board = s.board := rfl
@[simp] theorem State.setCtx_cycle (s : State) (c : Context) : (s.setCtx c).cycle = s.cycle := rfl
@[simp] theorem State.setCtx_counter (s : State) (c : Context) : (s.setCtx c).counter = s.counter := rfl
@[simp] theorem State.setCtx_inputs (s : State) (c : Context) : (s.setCtx c).inputs = s.inputs := rfl
@[simp] theorem State.setCtx_replies (s : State) (c : Context) : (s.setCtx c).replies = s.replies := rfl
@[simp] theorem State.setCtx_streamed (s : State) (c : Context) : (s.setCtx c).streamed = s.streamed := rfl
@[simp] theorem State.setCtx_hostReads (s : State) (c : Context) : (s.setCtx c).hostReads = s.hostReads := rfl
@[simp] theorem State.setCtx_waiting (s : State) (c : Context) : (s.setCtx c).waiting = s.waiting := rfl
@[simp] theorem State.setCtx_hubTlb (s : State) (c : Context) : (s.setCtx c).hubTlb = s.hubTlb := rfl
@[simp] theorem State.setCtx_remoteOut (s : State) (c : Context) : (s.setCtx c).remoteOut = s.remoteOut := rfl
@[simp] theorem State.setCtx_turn (s : State) (c : Context) : (s.setCtx c).turn = s.turn := rfl
@[simp] theorem State.setCtx_fresh (s : State) (c : Context) : (s.setCtx c).fresh = s.fresh := rfl
@[simp] theorem State.setCtx_draws (s : State) (c : Context) : (s.setCtx c).draws = s.draws := rfl

@[simp] theorem State.setQueue_tile (s : State) (q : Queue) : (s.setQueue q).tile = s.tile := rfl
@[simp] theorem State.setQueue_others (s : State) (q : Queue) : (s.setQueue q).others = s.others := rfl
@[simp] theorem State.setQueue_launches (s : State) (q : Queue) : (s.setQueue q).launches = s.launches := rfl
@[simp] theorem State.setQueue_contexts (s : State) (q : Queue) : (s.setQueue q).contexts = s.contexts := rfl
@[simp] theorem State.setQueue_hbm (s : State) (q : Queue) : (s.setQueue q).hbm = s.hbm := rfl
@[simp] theorem State.setQueue_hbmPoison (s : State) (q : Queue) : (s.setQueue q).hbmPoison = s.hbmPoison := rfl
@[simp] theorem State.setQueue_board (s : State) (q : Queue) : (s.setQueue q).board = s.board := rfl
@[simp] theorem State.setQueue_cycle (s : State) (q : Queue) : (s.setQueue q).cycle = s.cycle := rfl
@[simp] theorem State.setQueue_counter (s : State) (q : Queue) : (s.setQueue q).counter = s.counter := rfl
@[simp] theorem State.setQueue_inputs (s : State) (q : Queue) : (s.setQueue q).inputs = s.inputs := rfl
@[simp] theorem State.setQueue_replies (s : State) (q : Queue) : (s.setQueue q).replies = s.replies := rfl
@[simp] theorem State.setQueue_streamed (s : State) (q : Queue) : (s.setQueue q).streamed = s.streamed := rfl
@[simp] theorem State.setQueue_hostReads (s : State) (q : Queue) : (s.setQueue q).hostReads = s.hostReads := rfl
@[simp] theorem State.setQueue_waiting (s : State) (q : Queue) : (s.setQueue q).waiting = s.waiting := rfl
@[simp] theorem State.setQueue_hubTlb (s : State) (q : Queue) : (s.setQueue q).hubTlb = s.hubTlb := rfl
@[simp] theorem State.setQueue_remoteOut (s : State) (q : Queue) : (s.setQueue q).remoteOut = s.remoteOut := rfl
@[simp] theorem State.setQueue_turn (s : State) (q : Queue) : (s.setQueue q).turn = s.turn := rfl
@[simp] theorem State.setQueue_fresh (s : State) (q : Queue) : (s.setQueue q).fresh = s.fresh := rfl
@[simp] theorem State.setQueue_draws (s : State) (q : Queue) : (s.setQueue q).draws = s.draws := rfl

@[simp] theorem State.onQueue_tile (s : State) (n : Nat) (f : Queue → Queue) : (s.onQueue n f).tile = s.tile := rfl
@[simp] theorem State.onQueue_others (s : State) (n : Nat) (f : Queue → Queue) : (s.onQueue n f).others = s.others := rfl
@[simp] theorem State.onQueue_launches (s : State) (n : Nat) (f : Queue → Queue) : (s.onQueue n f).launches = s.launches := rfl
@[simp] theorem State.onQueue_contexts (s : State) (n : Nat) (f : Queue → Queue) : (s.onQueue n f).contexts = s.contexts := rfl
@[simp] theorem State.onQueue_hbm (s : State) (n : Nat) (f : Queue → Queue) : (s.onQueue n f).hbm = s.hbm := rfl
@[simp] theorem State.onQueue_hbmPoison (s : State) (n : Nat) (f : Queue → Queue) : (s.onQueue n f).hbmPoison = s.hbmPoison := rfl
@[simp] theorem State.onQueue_board (s : State) (n : Nat) (f : Queue → Queue) : (s.onQueue n f).board = s.board := rfl
@[simp] theorem State.onQueue_cycle (s : State) (n : Nat) (f : Queue → Queue) : (s.onQueue n f).cycle = s.cycle := rfl
@[simp] theorem State.onQueue_counter (s : State) (n : Nat) (f : Queue → Queue) : (s.onQueue n f).counter = s.counter := rfl
@[simp] theorem State.onQueue_inputs (s : State) (n : Nat) (f : Queue → Queue) : (s.onQueue n f).inputs = s.inputs := rfl
@[simp] theorem State.onQueue_replies (s : State) (n : Nat) (f : Queue → Queue) : (s.onQueue n f).replies = s.replies := rfl
@[simp] theorem State.onQueue_streamed (s : State) (n : Nat) (f : Queue → Queue) : (s.onQueue n f).streamed = s.streamed := rfl
@[simp] theorem State.onQueue_hostReads (s : State) (n : Nat) (f : Queue → Queue) : (s.onQueue n f).hostReads = s.hostReads := rfl
@[simp] theorem State.onQueue_waiting (s : State) (n : Nat) (f : Queue → Queue) : (s.onQueue n f).waiting = s.waiting := rfl
@[simp] theorem State.onQueue_hubTlb (s : State) (n : Nat) (f : Queue → Queue) : (s.onQueue n f).hubTlb = s.hubTlb := rfl
@[simp] theorem State.onQueue_remoteOut (s : State) (n : Nat) (f : Queue → Queue) : (s.onQueue n f).remoteOut = s.remoteOut := rfl
@[simp] theorem State.onQueue_turn (s : State) (n : Nat) (f : Queue → Queue) : (s.onQueue n f).turn = s.turn := rfl
@[simp] theorem State.onQueue_fresh (s : State) (n : Nat) (f : Queue → Queue) : (s.onQueue n f).fresh = s.fresh := rfl
@[simp] theorem State.onQueue_draws (s : State) (n : Nat) (f : Queue → Queue) : (s.onQueue n f).draws = s.draws := rfl

@[simp] theorem State.hbmWrite_tile (s : State) (a : Nat) (bs : List Byte) : (s.hbmWrite a bs).tile = s.tile := rfl
@[simp] theorem State.hbmWrite_others (s : State) (a : Nat) (bs : List Byte) : (s.hbmWrite a bs).others = s.others := rfl
@[simp] theorem State.hbmWrite_launches (s : State) (a : Nat) (bs : List Byte) : (s.hbmWrite a bs).launches = s.launches := rfl
@[simp] theorem State.hbmWrite_contexts (s : State) (a : Nat) (bs : List Byte) : (s.hbmWrite a bs).contexts = s.contexts := rfl
@[simp] theorem State.hbmWrite_queues (s : State) (a : Nat) (bs : List Byte) : (s.hbmWrite a bs).queues = s.queues := rfl
@[simp] theorem State.hbmWrite_board (s : State) (a : Nat) (bs : List Byte) : (s.hbmWrite a bs).board = s.board := rfl
@[simp] theorem State.hbmWrite_cycle (s : State) (a : Nat) (bs : List Byte) : (s.hbmWrite a bs).cycle = s.cycle := rfl
@[simp] theorem State.hbmWrite_counter (s : State) (a : Nat) (bs : List Byte) : (s.hbmWrite a bs).counter = s.counter := rfl
@[simp] theorem State.hbmWrite_inputs (s : State) (a : Nat) (bs : List Byte) : (s.hbmWrite a bs).inputs = s.inputs := rfl
@[simp] theorem State.hbmWrite_replies (s : State) (a : Nat) (bs : List Byte) : (s.hbmWrite a bs).replies = s.replies := rfl
@[simp] theorem State.hbmWrite_streamed (s : State) (a : Nat) (bs : List Byte) : (s.hbmWrite a bs).streamed = s.streamed := rfl
@[simp] theorem State.hbmWrite_hostReads (s : State) (a : Nat) (bs : List Byte) : (s.hbmWrite a bs).hostReads = s.hostReads := rfl
@[simp] theorem State.hbmWrite_waiting (s : State) (a : Nat) (bs : List Byte) : (s.hbmWrite a bs).waiting = s.waiting := rfl
@[simp] theorem State.hbmWrite_hubTlb (s : State) (a : Nat) (bs : List Byte) : (s.hbmWrite a bs).hubTlb = s.hubTlb := rfl
@[simp] theorem State.hbmWrite_remoteOut (s : State) (a : Nat) (bs : List Byte) : (s.hbmWrite a bs).remoteOut = s.remoteOut := rfl
@[simp] theorem State.hbmWrite_turn (s : State) (a : Nat) (bs : List Byte) : (s.hbmWrite a bs).turn = s.turn := rfl
@[simp] theorem State.hbmWrite_fresh (s : State) (a : Nat) (bs : List Byte) : (s.hbmWrite a bs).fresh = s.fresh := rfl
@[simp] theorem State.hbmWrite_draws (s : State) (a : Nat) (bs : List Byte) : (s.hbmWrite a bs).draws = s.draws := rfl
@[simp] theorem State.hbmWrite_hbm (s : State) (a : Nat) (bs : List Byte) : (s.hbmWrite a bs).hbm = Mem.write s.hbm a bs := rfl

@[simp] theorem State.tickFresh_tile (s : State) : (s.tickFresh).tile = s.tile := rfl
@[simp] theorem State.tickFresh_others (s : State) : (s.tickFresh).others = s.others := rfl
@[simp] theorem State.tickFresh_launches (s : State) : (s.tickFresh).launches = s.launches := rfl
@[simp] theorem State.tickFresh_contexts (s : State) : (s.tickFresh).contexts = s.contexts := rfl
@[simp] theorem State.tickFresh_queues (s : State) : (s.tickFresh).queues = s.queues := rfl
@[simp] theorem State.tickFresh_hbm (s : State) : (s.tickFresh).hbm = s.hbm := rfl
@[simp] theorem State.tickFresh_hbmPoison (s : State) : (s.tickFresh).hbmPoison = s.hbmPoison := rfl
@[simp] theorem State.tickFresh_board (s : State) : (s.tickFresh).board = s.board := rfl
@[simp] theorem State.tickFresh_cycle (s : State) : (s.tickFresh).cycle = s.cycle := rfl
@[simp] theorem State.tickFresh_counter (s : State) : (s.tickFresh).counter = s.counter := rfl
@[simp] theorem State.tickFresh_inputs (s : State) : (s.tickFresh).inputs = s.inputs := rfl
@[simp] theorem State.tickFresh_replies (s : State) : (s.tickFresh).replies = s.replies := rfl
@[simp] theorem State.tickFresh_streamed (s : State) : (s.tickFresh).streamed = s.streamed := rfl
@[simp] theorem State.tickFresh_hostReads (s : State) : (s.tickFresh).hostReads = s.hostReads := rfl
@[simp] theorem State.tickFresh_waiting (s : State) : (s.tickFresh).waiting = s.waiting := rfl
@[simp] theorem State.tickFresh_hubTlb (s : State) : (s.tickFresh).hubTlb = s.hubTlb := rfl
@[simp] theorem State.tickFresh_remoteOut (s : State) : (s.tickFresh).remoteOut = s.remoteOut := rfl
@[simp] theorem State.tickFresh_turn (s : State) : (s.tickFresh).turn = s.turn := rfl
@[simp] theorem State.tickFresh_draws (s : State) : (s.tickFresh).draws = s.draws := rfl
@[simp] theorem State.tickFresh_fresh (s : State) : (s.tickFresh).fresh = s.fresh + 1 := rfl

@[simp] theorem State.reply_tile (s : State) (h : MgmtHdr) (n : Nat) (b : List Byte) : (s.reply h n b).tile = s.tile := rfl
@[simp] theorem State.reply_others (s : State) (h : MgmtHdr) (n : Nat) (b : List Byte) : (s.reply h n b).others = s.others := rfl
@[simp] theorem State.reply_launches (s : State) (h : MgmtHdr) (n : Nat) (b : List Byte) : (s.reply h n b).launches = s.launches := rfl
@[simp] theorem State.reply_contexts (s : State) (h : MgmtHdr) (n : Nat) (b : List Byte) : (s.reply h n b).contexts = s.contexts := rfl
@[simp] theorem State.reply_queues (s : State) (h : MgmtHdr) (n : Nat) (b : List Byte) : (s.reply h n b).queues = s.queues := rfl
@[simp] theorem State.reply_hbm (s : State) (h : MgmtHdr) (n : Nat) (b : List Byte) : (s.reply h n b).hbm = s.hbm := rfl
@[simp] theorem State.reply_hbmPoison (s : State) (h : MgmtHdr) (n : Nat) (b : List Byte) : (s.reply h n b).hbmPoison = s.hbmPoison := rfl
@[simp] theorem State.reply_board (s : State) (h : MgmtHdr) (n : Nat) (b : List Byte) : (s.reply h n b).board = s.board := rfl
@[simp] theorem State.reply_cycle (s : State) (h : MgmtHdr) (n : Nat) (b : List Byte) : (s.reply h n b).cycle = s.cycle := rfl
@[simp] theorem State.reply_counter (s : State) (h : MgmtHdr) (n : Nat) (b : List Byte) : (s.reply h n b).counter = s.counter := rfl
@[simp] theorem State.reply_inputs (s : State) (h : MgmtHdr) (n : Nat) (b : List Byte) : (s.reply h n b).inputs = s.inputs := rfl
@[simp] theorem State.reply_streamed (s : State) (h : MgmtHdr) (n : Nat) (b : List Byte) : (s.reply h n b).streamed = s.streamed := rfl
@[simp] theorem State.reply_hostReads (s : State) (h : MgmtHdr) (n : Nat) (b : List Byte) : (s.reply h n b).hostReads = s.hostReads := rfl
@[simp] theorem State.reply_waiting (s : State) (h : MgmtHdr) (n : Nat) (b : List Byte) : (s.reply h n b).waiting = s.waiting := rfl
@[simp] theorem State.reply_hubTlb (s : State) (h : MgmtHdr) (n : Nat) (b : List Byte) : (s.reply h n b).hubTlb = s.hubTlb := rfl
@[simp] theorem State.reply_remoteOut (s : State) (h : MgmtHdr) (n : Nat) (b : List Byte) : (s.reply h n b).remoteOut = s.remoteOut := rfl
@[simp] theorem State.reply_turn (s : State) (h : MgmtHdr) (n : Nat) (b : List Byte) : (s.reply h n b).turn = s.turn := rfl
@[simp] theorem State.reply_fresh (s : State) (h : MgmtHdr) (n : Nat) (b : List Byte) : (s.reply h n b).fresh = s.fresh := rfl
@[simp] theorem State.reply_draws (s : State) (h : MgmtHdr) (n : Nat) (b : List Byte) : (s.reply h n b).draws = s.draws := rfl
@[simp] theorem State.reply_replies (s : State) (h : MgmtHdr) (n : Nat) (b : List Byte) : (s.reply h n b).replies = s.replies ++ [⟨h, n, b⟩] := rfl

end Sys2Proof.Machine
end

