-- ==== Sys2Proof/Laws/Kept.lean ====
section
/-! SUPPORT. Nothing but the start of a cycle and a module reset changes the wall clock or the global counter, and every
operation keeps the canonical form of HBM: one lemma for each operation on the module. -/

namespace Sys2Proof.Machine

/-! The relation. -/

theorem State.Kept.refl (s : State) : s.Kept s := ⟨rfl, rfl, id⟩

theorem State.Kept.trans {s t u : State} (h : s.Kept t) (k : t.Kept u) : s.Kept u :=
  ⟨k.cycle.trans h.cycle, k.counter.trans h.counter, fun w => k.mem (h.mem w)⟩

/-- A change that leaves HBM, the clock and the counter. -/
theorem State.Kept.of_eq {o s u : State} (h : o.Kept s) (hc : u.cycle = s.cycle) (hk : u.counter = s.counter)
    (hm : u.hbm = s.hbm) : o.Kept u :=
  ⟨hc.trans h.cycle, hk.trans h.counter, fun w => hm ▸ h.mem w⟩

theorem State.kept_mk {o s : State} (a : Tile) (b : List Tile) (c : List Launch) (d : List Context)
    (e : List Queue) (g : List Nat) (i : Board) (j : List Input) (k : List Reply) (l : List (Nat × List Byte))
    (u : List (List Byte)) (v : List Input) (t : List (Nat × TlbEntry)) (m : List RemoteReq) (n : List Domain) (p q : Nat) :
    o.Kept ⟨a, b, c, d, e, s.hbm, g, i, s.cycle, s.counter, j, k, l, u, v, t, m, n, p, q⟩ = o.Kept s :=
  propext ⟨fun h => h.of_eq rfl rfl rfl, fun h => h.of_eq rfl rfl rfl⟩

theorem State.Kept.foldl {α : Type} {o s : State} {f : State → α → State} (l : List α) (h : o.Kept s)
    (hf : ∀ x a, o.Kept x → o.Kept (f x a)) : o.Kept (l.foldl f s) := by
  induction l generalizing s with
  | nil => exact h
  | cons a t ih => exact ih (hf s a h)

theorem State.Kept.foldl_fst {α β : Type} {o : State} {f : State × β → α → State × β} (l : List α) {x : State × β} (h : o.Kept x.1)
    (hf : ∀ x a, o.Kept x.1 → o.Kept (f x a).1) : o.Kept (l.foldl f x).1 := by
  induction l generalizing x with
  | nil => exact h
  | cons a t ih => exact ih (hf x a h)

/-- A pair given by an operation: its state is kept when the operation keeps. -/
theorem State.Kept.of_pair {α : Type} {o : State} {p : State × α} {s : State} {a : α} (h : o.Kept p.1) (e : p = (s, a)) : o.Kept s := by
  subst e
  exact h

theorem State.mapTiles_kept {o : State} (s : State) (f : Tile → Tile) (h : o.Kept s) : o.Kept (s.mapTiles f) := by
  unfold State.mapTiles
  repeat' first | assumption | (simp only [State.kept_mk])

theorem State.setTile_kept {o : State} (s : State) (t : Tile) (h : o.Kept s) : o.Kept (s.setTile t) := by
  unfold State.setTile
  repeat' first | assumption | apply State.mapTiles_kept

theorem State.onKey_kept {o : State} (s : State) (k : TileKey) (f : Tile → Tile) (h : o.Kept s) : o.Kept (s.onKey k f) := by
  unfold State.onKey
  repeat' first | assumption | apply State.mapTiles_kept

theorem State.focus_kept {o : State} (s : State) (k : TileKey) (h : o.Kept s) : o.Kept (s.focus k) := by
  unfold State.focus
  repeat' first | assumption | (simp only [State.kept_mk]) | (refine State.Kept.of_pair ?_ (by assumption)) | (refine State.Kept.foldl _ ?_ ?_) | (intro _ _ _) | split

theorem State.setLaunch_kept {o : State} (s : State) (l : Launch) (h : o.Kept s) : o.Kept (s.setLaunch l) := by
  unfold State.setLaunch
  repeat' first | assumption | (simp only [State.kept_mk])

theorem State.setCtx_kept {o : State} (s : State) (c : Context) (h : o.Kept s) : o.Kept (s.setCtx c) := by
  unfold State.setCtx
  repeat' first | assumption | (simp only [State.kept_mk])

theorem State.setQueue_kept {o : State} (s : State) (q : Queue) (h : o.Kept s) : o.Kept (s.setQueue q) := by
  unfold State.setQueue
  repeat' first | assumption | (simp only [State.kept_mk])

theorem State.hbmWrite_kept {o : State} (s : State) (pa : Nat) (bs : List Byte) (h : o.Kept s) : o.Kept (s.hbmWrite pa bs) :=
  ⟨h.cycle, h.counter, fun w => Mem.wf_write _ _ (h.mem w)⟩

theorem State.setQword_kept {o : State} (s : State) (q : Queue) (i v : Nat) (h : o.Kept s) : o.Kept (s.setQword q i v) := by
  unfold State.setQword
  repeat' first | assumption | apply State.hbmWrite_kept

theorem State.setQstate_kept {o : State} (s : State) (q : Queue) (v : Nat) (h : o.Kept s) : o.Kept (s.setQstate q v) := by
  unfold State.setQstate
  repeat' first | assumption | apply State.setQword_kept

theorem State.queueErrorNow_kept {o : State} (s : State) (q : Queue) (cause detail etile epc einfo : Nat) (h : o.Kept s) :
    o.Kept (s.queueErrorNow q cause detail etile epc einfo) :=
  State.setQword_kept _ _ _ _ (State.setQword_kept _ _ _ _ (State.setQword_kept _ _ _ _ (State.setQstate_kept _ _ _ h)))

theorem State.queueError_kept {o : State} (s : State) (q : Queue) (cause detail etile epc einfo : Nat) (h : o.Kept s) :
    o.Kept (s.queueError q cause detail etile epc einfo) := by
  unfold State.queueError
  by_cases c : s.qstate q < 4
  · rw [if_pos c]
    exact State.queueErrorNow_kept _ _ _ _ _ _ _ h
  · rw [if_neg c]
    exact h

theorem State.queueFail_kept {o : State} (s : State) (q : Queue) (cause detail : Nat) (h : o.Kept s) : o.Kept (s.queueFail q cause detail) := by
  unfold State.queueFail
  repeat' first | assumption | apply State.setQueue_kept | apply State.queueError_kept

theorem State.endLaunch_kept {o : State} (s : State) (l : Launch) (outcome cause detail : Nat) (h : o.Kept s) : o.Kept (s.endLaunch l outcome cause detail) := by
  unfold State.endLaunch
  repeat' first | assumption | apply State.setCtx_kept | (simp only [State.kept_mk]) | (refine State.Kept.of_pair ?_ (by assumption)) | (refine State.Kept.foldl _ ?_ ?_) | (intro _ _ _) | split

theorem State.armed_kept {o : State} (s : State) (l0 : Launch) (f : State → Context → Launch → State) (h : o.Kept s)
    (hf : ∀ s c l, o.Kept s → o.Kept (f s c l)) : o.Kept (s.armed l0 f) := by
  unfold State.armed
  split
  · exact hf _ _ _ (State.setLaunch_kept _ _ (State.setCtx_kept _ _ h))
  · exact h

theorem State.discardLaunches_kept {o : State} (s : State) (p : Nat) (named : Option Nat) (cause : Nat) (h : o.Kept s) : o.Kept (s.discardLaunches p named cause) := by
  unfold State.discardLaunches
  simp only [State.kept_mk]
  refine State.Kept.foldl _ h fun x l hx => ?_
  split
  · by_cases c : named = some l.key.seq
    · rw [if_pos c]
      exact State.endLaunch_kept _ _ _ _ _ hx
    · rw [if_neg c]
      exact State.endLaunch_kept _ _ _ _ _ hx
  · split
    · exact State.armed_kept _ _ _ hx fun _ _ _ hs => State.endLaunch_kept _ _ _ _ _ hs
    · exact hx

theorem State.errorQueues_kept {o : State} (s : State) (p : Nat) (main : Option Nat) (cause detail etile epc einfo : Nat) (h : o.Kept s) : o.Kept (s.errorQueues p main cause detail etile epc einfo) := by
  unfold State.errorQueues
  simp only [State.kept_mk]
  refine State.Kept.foldl _ h fun x q hx => ?_
  by_cases c : main = some q.num
  · rw [if_pos c]
    exact State.queueErrorNow_kept _ _ _ _ _ _ _ hx
  · rw [if_neg c]
    exact State.queueErrorNow_kept _ _ _ _ _ _ _ hx

theorem State.abandonPreempt_kept {o : State} (s : State) (p : Nat) (h : o.Kept s) : o.Kept (s.abandonPreempt p) := by
  unfold State.abandonPreempt
  repeat' first | assumption | apply State.setCtx_kept | (simp only [State.kept_mk]) | (refine State.Kept.of_pair ?_ (by assumption)) | (refine State.Kept.foldl _ ?_ ?_) | (intro _ _ _) | split

theorem State.contextFault_kept {o : State} (s : State) (k : TileKey) (cause : Nat) (pc info : Word) (h : o.Kept s) : o.Kept (s.contextFault k cause pc info) := by
  unfold State.contextFault
  repeat' first | assumption | apply State.mapTiles_kept | apply State.discardLaunches_kept | apply State.errorQueues_kept | apply State.abandonPreempt_kept

theorem State.enterTraps_kept {o : State} (s : State) (k : TileKey) (rs : List (Nat × Trap × Option Nat)) (h : o.Kept s) : o.Kept (s.enterTraps k rs) := by
  unfold State.enterTraps
  repeat' first | assumption | apply State.mapTiles_kept | apply State.contextFault_kept | (simp only [State.kept_mk]) | (refine State.Kept.of_pair ?_ (by assumption)) | (refine State.Kept.foldl _ ?_ ?_) | (intro _ _ _) | split

theorem State.takeTrap_kept {o : State} (s : State) (tr : Trap) (h : o.Kept s) : o.Kept (s.takeTrap tr) := by
  unfold State.takeTrap
  repeat' first | assumption | apply State.onKey_kept | apply State.enterTraps_kept

theorem State.setBerth_kept {o : State} (s : State) (b : Berth) (h : o.Kept s) : o.Kept (s.setBerth b) := by
  unfold State.setBerth
  repeat' first | assumption | apply State.mapTiles_kept

theorem State.keep_kept {o : State} (s : State) (c : Context) (a : Agent) (e : TlbEntry) (h : o.Kept s) : o.Kept (s.keep c a e) := by
  unfold State.keep
  repeat' first | assumption | apply State.setCtx_kept | (simp only [State.kept_mk]) | (refine State.Kept.of_pair ?_ (by assumption)) | (refine State.Kept.foldl _ ?_ ?_) | (intro _ _ _) | split

theorem State.dropTlb_kept {o : State} (s : State) (p : Nat) (gone : TlbEntry → Bool) (h : o.Kept s) : o.Kept (s.dropTlb p gone) := by
  unfold State.dropTlb
  repeat' first | assumption | (simp only [State.kept_mk])

theorem State.writeRequests_kept {o : State} (s : State) (p : Nat) (l : List PageReq) (h : o.Kept s) :
    o.Kept (s.writeRequests p l) := by
  induction l generalizing s with
  | nil => exact h
  | cons r more ih =>
    unfold State.writeRequests
    repeat' first | assumption | apply ih | apply State.hbmWrite_kept | apply State.setCtx_kept | split

theorem State.postRequests_kept {o : State} (s : State) (p : Nat) (h : o.Kept s) : o.Kept (s.postRequests p) := by
  unfold State.postRequests
  repeat' first | assumption | apply State.writeRequests_kept | (simp only [State.kept_mk]) | (refine State.Kept.of_pair ?_ (by assumption)) | (refine State.Kept.foldl _ ?_ ?_) | (intro _ _ _) | split

theorem State.requestPage_kept {o : State} (s : State) (p : Nat) (a : Agent) (granule : Nat) (k : AccKind) (h : o.Kept s) : o.Kept (s.requestPage p a granule k) := by
  unfold State.requestPage
  repeat' first | assumption | apply State.setCtx_kept | apply State.postRequests_kept | (simp only [State.kept_mk]) | (refine State.Kept.of_pair ?_ (by assumption)) | (refine State.Kept.foldl _ ?_ ?_) | (intro _ _ _) | split

theorem State.walked_kept {o : State} (s : State) (c : Context) (va : Nat) (h : o.Kept s) : o.Kept (s.walked c va) := by
  unfold State.walked
  simpa only [State.kept_mk] using h

theorem State.reach_kept {o : State} (s : State) (p : Nat) (a : Agent) (va : Nat) (k : AccKind) (h : o.Kept s) : o.Kept (s.reach p a va k).1 := by
  unfold State.reach
  repeat' first | assumption | apply State.keep_kept | apply State.requestPage_kept | apply State.walked_kept | (simp only [State.kept_mk]) | (refine State.Kept.of_pair ?_ (by assumption)) | (refine State.Kept.foldl _ ?_ ?_) | (intro _ _ _) | split

theorem State.tickFresh_kept {o : State} (s : State) (h : o.Kept s) : o.Kept (s.tickFresh) := by
  unfold State.tickFresh
  repeat' first | assumption | (simp only [State.kept_mk])

theorem State.ensureTile_kept {o : State} (s : State) (k : TileKey) (h : o.Kept s) : o.Kept (s.ensureTile k) := by
  unfold State.ensureTile
  repeat' first | assumption | (simp only [State.kept_mk]) | (refine State.Kept.of_pair ?_ (by assumption)) | (refine State.Kept.foldl _ ?_ ?_) | (intro _ _ _) | split

theorem State.homeUnit_kept {o : State} (s : State) (k : TileKey) (f : FarOp) (u a n pa : Nat) (h : o.Kept s) : o.Kept (s.homeUnit k f u a n pa) := by
  unfold State.homeUnit
  repeat' first | assumption | apply State.onKey_kept | apply State.hbmWrite_kept | (simp only [State.kept_mk]) | (refine State.Kept.of_pair ?_ (by assumption)) | (refine State.Kept.foldl _ ?_ ?_) | (intro _ _ _) | split

theorem State.awayUnit_kept {o : State} (s : State) (k : TileKey) (f : FarOp) (u n pa : Nat) (h : o.Kept s) : o.Kept (s.awayUnit k f u n pa) := by
  unfold State.awayUnit
  repeat' first | assumption | apply State.onKey_kept | (simp only [State.kept_mk]) | (refine State.Kept.of_pair ?_ (by assumption)) | (refine State.Kept.foldl _ ?_ ?_) | (intro _ _ _) | split

theorem State.windowUnit_kept {o : State} (s : State) (k : TileKey) (f : FarOp) (u id n : Nat) (h : o.Kept s) : o.Kept (s.windowUnit k f u id n) := by
  unfold State.windowUnit
  repeat' first | assumption | apply State.onKey_kept | apply State.ensureTile_kept | (simp only [State.kept_mk]) | (refine State.Kept.of_pair ?_ (by assumption)) | (refine State.Kept.foldl _ ?_ ?_) | (intro _ _ _) | split

theorem State.apertureStore_kept {o v : State} (s : State) (k : TileKey) (l : LaunchKey) (f : FarOp) (u n e off : Nat)
    (h : o.Kept s) (w : s.apertureStore k l f u n e off = some v) : o.Kept v := by
  unfold State.apertureStore at w
  repeat' first | (split at w) | (cases w; done) | (obtain rfl := Option.some.inj w)
  all_goals
    repeat' first | assumption | apply State.onKey_kept | apply State.homeUnit_kept | apply State.awayUnit_kept | apply State.reach_kept | (simp only [State.kept_mk]) | (refine State.Kept.of_pair ?_ (by assumption))

theorem State.farUnit_kept {o v : State} (s : State) (t : Tile) (f : FarOp) (u : Nat) (h : o.Kept s)
    (w : s.farUnit t f u = some v) : o.Kept v := by
  unfold State.farUnit at w
  dsimp only at w
  repeat' first | (split at w) | (cases w; done) | (exact State.apertureStore_kept _ _ _ _ _ _ _ _ h w) | (obtain rfl := Option.some.inj w)
  all_goals
    repeat' first | assumption | apply State.windowUnit_kept | apply State.homeUnit_kept | apply State.awayUnit_kept | apply State.onKey_kept | apply State.reach_kept | (refine State.Kept.of_pair ?_ (by assumption))

theorem State.serveUnit_kept {o : State} (s : State) (t : Tile) (f : FarOp) (u : Nat) (bs : List Byte) (h : o.Kept s) :
    o.Kept (s.serveUnit t f u bs) := by
  unfold State.serveUnit
  repeat' first | assumption | apply State.onKey_kept | apply State.reach_kept | (refine State.Kept.of_pair ?_ (by assumption)) | split

theorem State.farEvent_kept {o v : State} (s : State) (t : Tile) (f : FarOp) (buffered : Bool) (h : o.Kept s)
    (w : s.farEvent t f buffered = some v) : o.Kept v := by
  unfold State.farEvent at w
  dsimp only at w
  split at w
  · cases w
  · split at w
    · obtain ⟨x, -, rfl⟩ := Option.map_eq_some_iff.mp w
      exact State.serveUnit_kept _ _ _ _ _ (State.tickFresh_kept _ h)
    · obtain ⟨u, -, e⟩ := Option.bind_eq_some_iff.mp w
      exact State.farUnit_kept _ _ _ _ (State.tickFresh_kept _ h) e

theorem State.barRead_kept {o : State} (s : State) (t : Tile) (w : Wait) (a g0 : Nat) (h : o.Kept s) : o.Kept (s.barRead t w a g0) := by
  unfold State.barRead
  repeat' first | assumption | apply State.onKey_kept | apply State.ensureTile_kept | (simp only [State.kept_mk]) | (refine State.Kept.of_pair ?_ (by assumption)) | (refine State.Kept.foldl _ ?_ ?_) | (intro _ _ _) | split

theorem State.sourceUnit_kept {o : State} (s : State) (t : Tile) (c : CopyCmd) (at_ n : Nat) (h : o.Kept s) : o.Kept (s.sourceUnit t c at_ n).1 := by
  unfold State.sourceUnit
  repeat' first | assumption | apply State.reach_kept | apply State.ensureTile_kept | (simp only [State.kept_mk]) | (refine State.Kept.of_pair ?_ (by assumption)) | (refine State.Kept.foldl _ ?_ ?_) | (intro _ _ _) | split

theorem State.sinkVirt_kept {o : State} (s : State) (t : Tile) (c : CopyCmd) (va : Nat) (h : o.Kept s) : o.Kept (s.sinkVirt t c va).1 := by
  unfold State.sinkVirt
  repeat' first | assumption | apply State.reach_kept | (simp only [State.kept_mk]) | (refine State.Kept.of_pair ?_ (by assumption)) | (refine State.Kept.foldl _ ?_ ?_) | (intro _ _ _) | split

theorem State.sinkUnit_kept {o : State} (s : State) (t : Tile) (c : CopyCmd) (at_ : Nat) (h : o.Kept s) : o.Kept (s.sinkUnit t c at_).1 := by
  unfold State.sinkUnit
  repeat' first | assumption | apply State.ensureTile_kept | apply State.sinkVirt_kept | (simp only [State.kept_mk]) | (refine State.Kept.of_pair ?_ (by assumption)) | (refine State.Kept.foldl _ ?_ ?_) | (intro _ _ _) | split

theorem State.sinkWrite_kept {o : State} (s : State) (t : Tile) (c : CopyCmd) (k : Sink) (bs : List Byte) (h : o.Kept s) : o.Kept (s.sinkWrite t c k bs) := by
  unfold State.sinkWrite
  repeat' first | assumption | apply State.onKey_kept | apply State.hbmWrite_kept | (simp only [State.kept_mk]) | (refine State.Kept.of_pair ?_ (by assumption)) | (refine State.Kept.foldl _ ?_ ?_) | (intro _ _ _) | split

theorem State.touchCopy_kept {o : State} (s : State) (t : Tile) (c : CopyCmd) (k : Target) (h : o.Kept s) : o.Kept (s.touchCopy t c k) := by
  unfold State.touchCopy
  repeat' first | assumption | apply State.onKey_kept | apply State.ensureTile_kept | (simp only [State.kept_mk]) | (refine State.Kept.of_pair ?_ (by assumption)) | (refine State.Kept.foldl _ ?_ ?_) | (intro _ _ _) | split

theorem State.setCopy_kept {o : State} (s : State) (k : TileKey) (q : Nat) (c : CopyCmd) (h : o.Kept s) : o.Kept (s.setCopy k q c) := by
  unfold State.setCopy
  repeat' first | assumption | apply State.onKey_kept

theorem State.stopCopy_kept {o : State} (s : State) (t : Tile) (q : Nat) (c : CopyCmd) (status : Nat) (h : o.Kept s) : o.Kept (s.stopCopy t q c status) := by
  unfold State.stopCopy
  repeat' first | assumption | apply State.contextFault_kept | apply State.setCopy_kept | (simp only [State.kept_mk]) | (refine State.Kept.of_pair ?_ (by assumption)) | (refine State.Kept.foldl _ ?_ ?_) | (intro _ _ _) | split

theorem State.afterUnit_kept {o : State} {α : Type} (t : Tile) (q : Nat) (c : CopyCmd) (r : State × Moved α) (go : State → α → State)
    (h : o.Kept r.1) (hg : ∀ s x, o.Kept s → o.Kept (go s x)) : o.Kept (State.afterUnit t q c r go).1 := by
  unfold State.afterUnit
  split
  · exact hg _ _ h
  · exact State.stopCopy_kept _ _ _ _ _ h
  · exact State.setCopy_kept _ _ _ _ h
  · exact State.setCopy_kept _ _ _ _ h

theorem State.copyRead_kept {o : State} (s : State) (t : Tile) (q : Nat) (c : CopyCmd) (h : o.Kept s) : o.Kept (s.copyRead t q c).1 := by
  refine State.afterUnit_kept _ _ _ _ _ (State.sourceUnit_kept _ _ _ _ _ ?_) fun s1 x hx => State.setCopy_kept _ _ _ _ hx
  split
  · exact State.touchCopy_kept _ _ _ _ (State.tickFresh_kept _ h)
  · exact State.tickFresh_kept _ h

theorem State.copyWrite_kept {o : State} (s : State) (t : Tile) (q : Nat) (c : CopyCmd) (bs : List Byte) (h : o.Kept s) :
    o.Kept (s.copyWrite t q c bs).1 := by
  refine State.afterUnit_kept _ _ _ _ _ (State.sinkUnit_kept _ _ _ _ ?_) fun s1 x hx =>
    State.setCopy_kept _ _ _ _ (State.sinkWrite_kept _ _ _ _ _ hx)
  split
  · exact State.touchCopy_kept _ _ _ _ (State.tickFresh_kept _ h)
  · exact State.tickFresh_kept _ h

theorem State.copyWork_kept {o : State} (s : State) (t : Tile) (q : Nat) (c0 : CopyCmd) (h : o.Kept s) : o.Kept (s.copyWork t q c0).1 := by
  unfold State.copyWork
  repeat' first | assumption | apply State.setCopy_kept | apply State.copyRead_kept | apply State.copyWrite_kept | (simp only [State.kept_mk]) | (refine State.Kept.of_pair ?_ (by assumption)) | (refine State.Kept.foldl _ ?_ ?_) | (intro _ _ _) | split

theorem State.completeCopy_kept {o : State} (s : State) (t : Tile) (q : Nat) (c : CopyCmd) (h : o.Kept s) : o.Kept (s.completeCopy t q c) := by
  unfold State.completeCopy
  repeat' first | assumption | apply State.onKey_kept | apply State.setQueue_kept | apply State.stopCopy_kept | (simp only [State.kept_mk]) | (refine State.Kept.of_pair ?_ (by assumption)) | (refine State.Kept.foldl _ ?_ ?_) | (intro _ _ _) | split

theorem State.copyEvent_kept {o v : State} {b : Bool} (s : State) (t : Tile) (q : Nat) (h : o.Kept s)
    (w : s.copyEvent t q = some (v, b)) : o.Kept v := by
  unfold State.copyEvent at w
  dsimp only at w
  split at w
  · cases w
  · split at w
    · obtain ⟨rfl, -⟩ := Prod.mk.inj (Option.some.inj w)
      exact State.completeCopy_kept _ _ _ _ (State.tickFresh_kept _ h)
    · exact State.Kept.of_pair (State.copyWork_kept _ _ _ _ (State.tickFresh_kept _ h)) (Option.some.inj w)

theorem State.failTile_kept {o : State} (s : State) (t : Tile) (granule : Nat) (k : AccKind) (c : Cause) (h : o.Kept s) : o.Kept (s.failTile t granule k c) := by
  unfold State.failTile
  repeat' first | assumption | apply State.onKey_kept | apply State.stopCopy_kept | (simp only [State.kept_mk]) | (refine State.Kept.of_pair ?_ (by assumption)) | (refine State.Kept.foldl _ ?_ ?_) | (intro _ _ _)

theorem State.failTiles_kept {o : State} (s : State) (p granule : Nat) (k : AccKind) (c : Cause) (h : o.Kept s) : o.Kept (s.failTiles p granule k c) := by
  unfold State.failTiles
  repeat' first | assumption | apply State.failTile_kept | (simp only [State.kept_mk]) | (refine State.Kept.of_pair ?_ (by assumption)) | (refine State.Kept.foldl _ ?_ ?_) | (intro _ _ _)

theorem State.walkFails_kept {o : State} (s : State) (p va : Nat) (k : AccKind) (a : Agent) (c : Cause) (h : o.Kept s) : o.Kept (s.walkFails p va k a c) := by
  unfold State.walkFails
  repeat' first | assumption | apply State.onKey_kept | apply State.stopCopy_kept | (simp only [State.kept_mk]) | (refine State.Kept.of_pair ?_ (by assumption)) | (refine State.Kept.foldl _ ?_ ?_) | (intro _ _ _) | split

theorem State.hubRead1_kept {o : State} (s : State) (p : Nat) (a : Agent) (va n : Nat) (h : o.Kept s) : o.Kept (s.hubRead1 p a va n).1 := by
  unfold State.hubRead1
  repeat' first | assumption | apply State.reach_kept | (simp only [State.kept_mk]) | (refine State.Kept.of_pair ?_ (by assumption)) | (refine State.Kept.foldl _ ?_ ?_) | (intro _ _ _) | split

theorem State.hubRead_kept {o : State} (s : State) (p : Nat) (a : Agent) (va n k : Nat) (h : o.Kept s) :
    o.Kept (s.hubRead p a va n k).1 := by
  induction k generalizing s va n with
  | zero => exact h
  | succ k ih =>
    unfold State.hubRead
    dsimp only
    have h1 := State.hubRead1_kept s p a va (min n (65536 - va % 65536)) h
    split
    · rename_i s1 bs e
      rw [e] at h1
      split
      · exact h1
      · have h2 := ih s1 (va + min n (65536 - va % 65536)) (n - min n (65536 - va % 65536)) h1
        split
        · rename_i s2 more e2
          rw [e2] at h2
          exact h2
        · exact h2
    · exact h1

theorem State.hubWrite1_kept {o : State} (s : State) (p : Nat) (a : Agent) (va : Nat) (bs : List Byte) (h : o.Kept s) : o.Kept (s.hubWrite1 p a va bs).1 := by
  unfold State.hubWrite1
  repeat' first | assumption | apply State.hbmWrite_kept | apply State.reach_kept | (simp only [State.kept_mk]) | (refine State.Kept.of_pair ?_ (by assumption)) | (refine State.Kept.foldl _ ?_ ?_) | (intro _ _ _) | split

theorem State.hubWrite_kept {o : State} (s : State) (p : Nat) (a : Agent) (va : Nat) (bs : List Byte) (k : Nat) (h : o.Kept s) :
    o.Kept (s.hubWrite p a va bs k).1 := by
  induction k generalizing s va bs with
  | zero => exact h
  | succ k ih =>
    unfold State.hubWrite
    dsimp only
    have h1 := State.hubWrite1_kept s p a va (bs.take (min bs.length (65536 - va % 65536))) h
    split
    · rename_i s1 _ e
      rw [e] at h1
      split
      · exact h1
      · exact ih s1 _ _ h1
    · exact h1

theorem State.hubAtomic_kept {o : State} (s : State) (p va : Nat) (op : AtomOp) (v : Word) (h : o.Kept s) : o.Kept (s.hubAtomic p va op v).1 := by
  unfold State.hubAtomic
  repeat' first | assumption | apply State.hbmWrite_kept | apply State.reach_kept | (simp only [State.kept_mk]) | (refine State.Kept.of_pair ?_ (by assumption)) | (refine State.Kept.foldl _ ?_ ?_) | (intro _ _ _) | split

theorem State.onQueue_kept {o : State} (s : State) (n : Nat) (f : Queue → Queue) (h : o.Kept s) : o.Kept (s.onQueue n f) := by
  unfold State.onQueue
  repeat' first | assumption | (simp only [State.kept_mk])

theorem State.park_kept {o : State} (s : State) (n : Nat) (by_ : Option Nat) (granule : Nat) (k : AccKind) (h : o.Kept s) : o.Kept (s.park n by_ granule k) := by
  unfold State.park
  repeat' first | assumption | apply State.setQstate_kept | apply State.onQueue_kept | (simp only [State.kept_mk]) | (refine State.Kept.of_pair ?_ (by assumption)) | (refine State.Kept.foldl _ ?_ ?_) | (intro _ _ _) | split

theorem State.failPacket_kept {o : State} (s : State) (n i cause detail : Nat) (h : o.Kept s) : o.Kept (s.failPacket n i cause detail) := by
  unfold State.failPacket
  repeat' first | assumption | apply State.setQword_kept | apply State.queueError_kept | apply State.onQueue_kept | (simp only [State.kept_mk]) | (refine State.Kept.of_pair ?_ (by assumption)) | (refine State.Kept.foldl _ ?_ ?_) | (intro _ _ _) | split

theorem State.signalPacket_kept {o : State} (s : State) (n i : Nat) (h : o.Kept s) : o.Kept (s.signalPacket n i) := by
  unfold State.signalPacket
  repeat' first | assumption | apply State.hubAtomic_kept | apply State.onQueue_kept | apply State.park_kept | apply State.failPacket_kept | (simp only [State.kept_mk]) | (refine State.Kept.of_pair ?_ (by assumption)) | (refine State.Kept.foldl _ ?_ ?_) | (intro _ _ _) | split

theorem State.completePacket_kept {o : State} (s : State) (n i : Nat) (h : o.Kept s) : o.Kept (s.completePacket n i) := by
  unfold State.completePacket
  repeat' first | assumption | apply State.onQueue_kept | apply State.signalPacket_kept

theorem State.hubTrouble_kept {o : State} {α : Type} (s : State) (n i : Nat) (x : Hub α) (h : o.Kept s) :
    o.Kept (s.hubTrouble n i x) := by
  unfold State.hubTrouble
  split
  · exact h
  · exact h
  · exact State.failPacket_kept _ _ _ _ _ h
  · exact State.park_kept _ _ _ _ _ h

theorem State.newLaunch_kept {o : State} (s : State) (q : Queue) (k : Packet) (image : List Byte) (index : Nat) (h : o.Kept s) : o.Kept (s.newLaunch q k image index) := by
  unfold State.newLaunch
  repeat' first | assumption | apply State.setCtx_kept | (simp only [State.kept_mk]) | (refine State.Kept.of_pair ?_ (by assumption)) | (refine State.Kept.foldl _ ?_ ?_) | (intro _ _ _) | split

theorem State.failLaunch_kept {o : State} (s : State) (l : Launch) (cause : Cause) (detail : Nat) (h : o.Kept s) : o.Kept (s.failLaunch l cause detail) := by
  unfold State.failLaunch
  repeat' first | assumption | apply State.mapTiles_kept | apply State.endLaunch_kept | apply State.failPacket_kept

theorem State.placeTile_kept {o : State} (s : State) (t : Tile) (h : o.Kept s) : o.Kept (s.placeTile t) := by
  unfold State.placeTile
  repeat' first | assumption | apply State.setTile_kept | (simp only [State.kept_mk]) | (refine State.Kept.of_pair ?_ (by assumption)) | (refine State.Kept.foldl _ ?_ ?_) | (intro _ _ _) | split

theorem State.farPreload_kept {o : State} (s : State) (p : Nat) (l : List (Nat × List Byte)) (h : o.Kept s) :
    o.Kept (s.farPreload p l).1 := by
  induction l generalizing s with
  | nil => exact h
  | cons x more ih =>
    obtain ⟨va, bs⟩ := x
    unfold State.farPreload
    have h1 := State.hubWrite_kept s p .frontEnd va bs (granules bs.length) h
    split
    · rename_i e
      rw [e] at h1
      exact ih _ h1
    · exact h1

theorem State.armNow_kept {o : State} (s : State) (c : Context) (l : Launch) (indirect : Bool) (h : o.Kept s) : o.Kept (s.armNow c l indirect) := by
  unfold State.armNow
  repeat' first | assumption | apply State.setLaunch_kept | apply State.setCtx_kept | apply State.placeTile_kept | (simp only [State.kept_mk]) | (refine State.Kept.of_pair ?_ (by assumption)) | (refine State.Kept.foldl _ ?_ ?_)

theorem State.armFails_kept {o : State} (s : State) (l : Launch) (cause : Cause) (detail : Nat) (h : o.Kept s) :
    o.Kept (s.armFails l cause detail) :=
  State.armed_kept _ _ _ h fun _ _ _ hs => State.failLaunch_kept _ _ _ _ hs

theorem State.onPacketOf_kept {o : State} (s : State) (l : Launch) (f : Packet → Packet) (h : o.Kept s) : o.Kept (s.onPacketOf l f) := by
  unfold State.onPacketOf
  repeat' first | assumption | apply State.onQueue_kept

theorem State.residency_kept {o v : State} (s : State) (q : Queue) (h : o.Kept s) (w : s.residency q = some v) : o.Kept v := by
  unfold State.residency at w
  repeat' first | (split at w) | (cases w; done) | (obtain rfl := Option.some.inj w)
  all_goals repeat' first | assumption | apply State.onQueue_kept

theorem State.acceptPacket_kept {o : State} (s : State) (q : Queue) (ws : List Word) (h : o.Kept s) : o.Kept (s.acceptPacket q ws) := by
  unfold State.acceptPacket
  repeat' first | assumption | apply State.setQword_kept | apply State.queueFail_kept | apply State.onQueue_kept | (simp only [State.kept_mk]) | (refine State.Kept.of_pair ?_ (by assumption)) | (refine State.Kept.foldl _ ?_ ?_) | (intro _ _ _) | split

theorem State.readWord_kept {o : State} (s : State) (q : Queue) (w : Nat) (f : State → Word → State) (h : o.Kept s)
    (hf : ∀ t v, o.Kept t → o.Kept (f t v)) : o.Kept (s.readWord q w f) := by
  unfold State.readWord
  have k := State.hubRead1_kept s q.pasid .frontEnd (s.packetAddr q + 8 * w) 8 h
  split <;> rename_i e <;> rw [e] at k
  · exact hf _ _ k
  · exact k
  · exact State.queueFail_kept _ _ _ _ k
  · exact State.park_kept _ _ _ _ _ k

theorem State.bodyWord_kept {o : State} (s : State) (q : Queue) (r : RingRead) (w : Nat) (v : Word) (h : o.Kept s) :
    o.Kept (s.bodyWord q r w v) := by
  unfold State.bodyWord
  dsimp only
  split
  · exact State.acceptPacket_kept _ _ _ h
  · exact State.onQueue_kept _ _ _ h

theorem State.pollRing_kept {o : State} (s : State) (q : Queue) (h : o.Kept s) : o.Kept (s.pollRing q) := by
  unfold State.pollRing
  have k := State.onQueue_kept s q.num (fun x => { x with served := true }) h
  dsimp only
  split
  · refine State.readWord_kept _ _ _ _ k fun t v h => ?_
    split
    · exact State.onQueue_kept _ _ _ h
    · exact h
  · exact State.readWord_kept _ _ _ _ (State.tickFresh_kept _ k) fun t v h => State.bodyWord_kept _ _ _ _ _ h

theorem State.pollQueue_kept {o : State} (s : State) (q : Queue) (h : o.Kept s) : o.Kept (s.pollQueue q) := by
  have h1 : o.Kept (if s.qstate q = 0 then s.setQstate q 1 else s) := by
    by_cases c : s.qstate q = 0
    · rw [if_pos c]; exact State.setQstate_kept _ _ _ h
    · rw [if_neg c]; exact h
  unfold State.pollQueue
  by_cases c2 : 2 ^ s.logn q < s.behind q
  · rw [if_pos c2]; exact State.queueFail_kept _ _ _ _ h
  · rw [if_neg c2]
    split
    · exact State.onQueue_kept _ _ _ h
    · exact State.pollRing_kept _ _ h1

theorem State.loadImage_kept {o : State} (s : State) (q : Queue) (k : Packet) (h : o.Kept s) : o.Kept (s.loadImage q k).1 := by
  unfold State.loadImage
  dsimp only
  by_cases c : fld (k.word 1) 3 1 = 0
  · rw [if_pos c]; exact h
  · rw [if_neg c]
    have h1 := State.hubRead_kept s q.pasid .frontEnd (k.word 2) 0x740 2 h
    split
    · rename_i s1 hdr e
      rw [e] at h1
      by_cases c2 : 2 ^ 57 < k.word 2 + imgLength hdr
      · rw [if_pos c2]; exact h1
      · rw [if_neg c2]
        have h2 := State.hubRead_kept s1 q.pasid .frontEnd (k.word 2) (imgLength hdr) (granules (imgLength hdr)) h1
        split
        · rename_i s2 bs e2
          rw [e2] at h2
          split
          · split
            · exact State.setCtx_kept _ _ h2
            · exact h2
          · exact h2
        · exact h2
    · exact h1

theorem State.startLaunch_kept {o : State} (s : State) (q : Queue) (k : Packet) (count : Nat) (h : o.Kept s) : o.Kept (s.startLaunch q k count) := by
  unfold State.startLaunch
  repeat' first | assumption | apply State.onQueue_kept | apply State.hubTrouble_kept | apply State.newLaunch_kept | apply State.loadImage_kept | (simp only [State.kept_mk]) | (refine State.Kept.of_pair ?_ (by assumption)) | (refine State.Kept.foldl _ ?_ ?_) | (intro _ _ _) | split

theorem State.readSignal_kept {o : State} (s : State) (q : Queue) (k : Nat) (h : o.Kept s) : o.Kept (s.readSignal q k).1 := by
  unfold State.readSignal
  repeat' first | assumption | apply State.hubRead1_kept

theorem State.testSignals_kept {o : State} (s : State) (q : Queue) (ok : Nat → Bool) (l : List Nat) (h : o.Kept s) :
    o.Kept (s.testSignals q ok l).1 := by
  induction l generalizing s with
  | nil => exact h
  | cons k more ih =>
    unfold State.testSignals
    have h1 := State.readSignal_kept s q k h
    split
    · rename_i e
      rw [e] at h1
      split
      · exact ih _ h1
      · exact h1
    all_goals
      rename_i e
      rw [e] at h1
      exact h1

theorem State.testPacket_kept {o : State} (s : State) (q : Queue) (k : Packet) (h : o.Kept s) : o.Kept (s.testPacket q k).1 := by
  unfold State.testPacket
  repeat' first | assumption | apply State.testSignals_kept | (simp only [State.kept_mk]) | (refine State.Kept.of_pair ?_ (by assumption)) | (refine State.Kept.foldl _ ?_ ?_) | (intro _ _ _) | split

theorem State.waitPacket_kept {o : State} (s : State) (q : Queue) (k : Packet) (h : o.Kept s) : o.Kept (s.waitPacket q k) := by
  unfold State.waitPacket
  repeat' first | assumption | apply State.onQueue_kept | apply State.completePacket_kept | apply State.hubTrouble_kept | apply State.testPacket_kept | (simp only [State.kept_mk]) | (refine State.Kept.of_pair ?_ (by assumption)) | (refine State.Kept.foldl _ ?_ ?_) | (intro _ _ _) | split

theorem State.hubSource_kept {o : State} (s : State) (q : Queue) (c : CopyCmd) (grid at_ n : Nat) (h : o.Kept s) : o.Kept (s.hubSource q c grid at_ n).1 := by
  unfold State.hubSource
  repeat' first | assumption | apply State.onKey_kept | apply State.ensureTile_kept | apply State.hubRead1_kept | (simp only [State.kept_mk]) | (refine State.Kept.of_pair ?_ (by assumption)) | (refine State.Kept.foldl _ ?_ ?_) | (intro _ _ _) | split

theorem State.hubSinkVirt_kept {o : State} (s : State) (q : Queue) (c : CopyCmd) (va : Nat) (bs : List Byte) (h : o.Kept s) :
    o.Kept (s.hubSinkVirt q c va bs).1 := by
  unfold State.hubSinkVirt
  split
  · exact h
  · exact State.hubWrite1_kept _ _ _ _ _ h

theorem State.hubSink_kept {o : State} (s : State) (q : Queue) (c : CopyCmd) (grid at_ : Nat) (bs : List Byte) (h : o.Kept s) : o.Kept (s.hubSink q c grid at_ bs).1 := by
  unfold State.hubSink
  repeat' first | assumption | apply State.onKey_kept | apply State.ensureTile_kept | apply State.hubSinkVirt_kept | (simp only [State.kept_mk]) | (refine State.Kept.of_pair ?_ (by assumption)) | (refine State.Kept.foldl _ ?_ ?_) | (intro _ _ _) | split

theorem State.copyRead1_kept {o : State} (s : State) (q : Queue) (k : Packet) (grid : Nat) (h : o.Kept s) : o.Kept (s.copyRead1 q k grid) := by
  unfold State.copyRead1
  repeat' first | assumption | apply State.hubRead1_kept | apply State.onQueue_kept | apply State.failPacket_kept | apply State.hubTrouble_kept | (simp only [State.kept_mk]) | (refine State.Kept.of_pair ?_ (by assumption)) | (refine State.Kept.foldl _ ?_ ?_) | (intro _ _ _) | split

theorem State.copyUnit_kept {o : State} (s : State) (q : Queue) (k : Packet) (c : CopyCmd) (grid : Nat) (h : o.Kept s) : o.Kept (s.copyUnit q k c grid) := by
  unfold State.copyUnit
  repeat' first | assumption | apply State.tickFresh_kept | apply State.onQueue_kept | apply State.hubTrouble_kept | apply State.hubSource_kept | apply State.hubSink_kept | (simp only [State.kept_mk]) | (refine State.Kept.of_pair ?_ (by assumption)) | (refine State.Kept.foldl _ ?_ ?_) | (intro _ _ _) | split

theorem State.copyPacket_kept {o : State} (s : State) (q : Queue) (k : Packet) (h : o.Kept s) : o.Kept (s.copyPacket q k) := by
  unfold State.copyPacket
  repeat' first | assumption | apply State.failPacket_kept | apply State.completePacket_kept | apply State.copyRead1_kept | apply State.copyUnit_kept | (simp only [State.kept_mk]) | (refine State.Kept.of_pair ?_ (by assumption)) | (refine State.Kept.foldl _ ?_ ?_) | (intro _ _ _) | split

theorem State.seedPacket_kept {o : State} (s : State) (q : Queue) (k : Packet) (f : List (BitVec 256) → Option (List (BitVec 256))) (detail : Nat) (h : o.Kept s) : o.Kept (s.seedPacket q k f detail) := by
  unfold State.seedPacket
  repeat' first | assumption | apply State.setCtx_kept | apply State.failPacket_kept | apply State.completePacket_kept | (simp only [State.kept_mk]) | (refine State.Kept.of_pair ?_ (by assumption)) | (refine State.Kept.foldl _ ?_ ?_) | (intro _ _ _) | split

theorem State.parkFails_kept {o : State} (s : State) (q : Queue) (h : o.Kept s) : o.Kept (s.parkFails q) := by
  unfold State.parkFails
  repeat' first | assumption | apply State.queueFail_kept | apply State.failPacket_kept | apply State.armFails_kept | (simp only [State.kept_mk]) | (refine State.Kept.of_pair ?_ (by assumption)) | (refine State.Kept.foldl _ ?_ ?_) | (intro _ _ _) | split

theorem State.unparkAll_kept {o : State} (s : State) (p granule : Nat) (k : AccKind) (h : o.Kept s) : o.Kept (s.unparkAll p granule k) := by
  unfold State.unparkAll
  repeat' first | assumption | apply State.setQstate_kept | apply State.onQueue_kept | (simp only [State.kept_mk]) | (refine State.Kept.of_pair ?_ (by assumption)) | (refine State.Kept.foldl _ ?_ ?_) | (intro _ _ _) | split

theorem State.pageFails_kept {o : State} (s : State) (p granule : Nat) (k : AccKind) (h : o.Kept s) : o.Kept (s.pageFails p granule k) := by
  unfold State.pageFails
  repeat' first | assumption | apply State.failTiles_kept | apply State.failPacket_kept | apply State.parkFails_kept | (simp only [State.kept_mk]) | (refine State.Kept.of_pair ?_ (by assumption)) | (refine State.Kept.foldl _ ?_ ?_) | (intro _ _ _) | split

theorem State.signalAll_kept {o : State} (s : State) (p : Nat) (h : o.Kept s) : o.Kept (s.signalAll p) := by
  unfold State.signalAll
  repeat' first | assumption | apply State.signalPacket_kept | (simp only [State.kept_mk]) | (refine State.Kept.of_pair ?_ (by assumption)) | (refine State.Kept.foldl _ ?_ ?_) | (intro _ _ _)

theorem State.endRequest_kept {o : State} (s : State) (p : Nat) (r : PageReq) (resolved : Bool) (h : o.Kept s) : o.Kept (s.endRequest p r resolved) := by
  unfold State.endRequest
  repeat' first | assumption | apply State.walked_kept | apply State.setCtx_kept | apply State.postRequests_kept | apply State.unparkAll_kept | apply State.pageFails_kept | apply State.signalAll_kept | (simp only [State.kept_mk]) | (refine State.Kept.of_pair ?_ (by assumption)) | (refine State.Kept.foldl _ ?_ ?_) | (intro _ _ _) | split

theorem State.keepAnswer_kept {o : State} (s : State) (c : Context) (n : Nat) (resolved : Bool) (h : o.Kept s) : o.Kept (s.keepAnswer c n resolved) := by
  unfold State.keepAnswer
  repeat' first | assumption | apply State.setCtx_kept

theorem State.onEntry_kept {o : State} (s : State) (k : LaunchKey) (n : Nat) (f : CollEntry → CollEntry) (h : o.Kept s) : o.Kept (s.onEntry k n f) := by
  unfold State.onEntry
  repeat' first | assumption | (simp only [State.kept_mk])

theorem State.tell_kept {o : State} (s : State) (e : CollEntry) (f : Nat → RemoteReq) (h : o.Kept s) : o.Kept (s.tell e f) := by
  unfold State.tell
  repeat' first | assumption | (simp only [State.kept_mk])

theorem State.bringPart_kept {o : State} (s : State) (k : LaunchKey) (e : CollEntry) (p : CollPart) (h : o.Kept s) :
    o.Kept (s.bringPart k e p) := by
  unfold State.bringPart
  exact State.tell_kept _ _ _ (State.onEntry_kept _ _ _ _ h)

theorem State.fireRound_kept {o : State} (s : State) (k : LaunchKey) (e : CollEntry) (h : o.Kept s) : o.Kept (s.fireRound k e) := by
  unfold State.fireRound
  dsimp only
  repeat' first | assumption | apply State.onEntry_kept | apply State.bringPart_kept | split

theorem State.switchRead_kept {o : State} (s : State) (c : Context) (va n : Nat) (h : o.Kept s) : o.Kept (s.switchRead c va n).1 := by
  unfold State.switchRead
  repeat' first | assumption | apply State.walked_kept | (simp only [State.kept_mk]) | split

theorem State.readRound_kept {o : State} (s : State) (k : LaunchKey) (c : Context) (e : CollEntry) (h : o.Kept s) :
    o.Kept (s.readRound k c e) := by
  unfold State.readRound
  dsimp only
  have h1 := State.switchRead_kept s.tickFresh c (e.readAt (listGet e.toRead (s.pick e.toRead.length) (0, 0))).1
    (e.readAt (listGet e.toRead (s.pick e.toRead.length) (0, 0))).2 (State.tickFresh_kept _ h)
  split
  · exact State.bringPart_kept _ _ _ _ (State.Kept.of_pair h1 (by assumption))
  · split
    · exact State.bringPart_kept _ _ _ _ (State.onEntry_kept _ _ _ _ (State.Kept.of_pair h1 (by assumption)))
    · exact State.onEntry_kept _ _ _ _ (State.Kept.of_pair h1 (by assumption))

theorem State.reply_kept {o : State} (s : State) (m : MgmtHdr) (status : Nat) (body : List Byte) (h : o.Kept s) :
    o.Kept (s.reply m status body) := by
  unfold State.reply
  simpa only [State.kept_mk] using h

theorem State.onQueues_kept {o : State} (s : State) (p : Nat) (f : Queue → Queue) (h : o.Kept s) : o.Kept (s.onQueues p f) := by
  unfold State.onQueues
  repeat' first | assumption | (simp only [State.kept_mk])

theorem State.raiseDuty_kept {o : State} (s : State) (c : Context) (h : o.Kept s) : o.Kept (s.raiseDuty c) := by
  unfold State.raiseDuty
  repeat' first | assumption | (simp only [State.kept_mk])

theorem State.writeBlock_kept {o : State} (s : State) (c : Context) (v : SavedContext) (id i : Nat) (h : o.Kept s) : o.Kept (s.writeBlock c v id i) := by
  unfold State.writeBlock
  repeat' first | assumption | apply State.hbmWrite_kept

theorem State.writeAreas_kept {o : State} (s : State) (c : Context) (v : SavedContext) (h : o.Kept s) : o.Kept (s.writeAreas c v) := by
  unfold State.writeAreas
  repeat' first | assumption | apply State.writeBlock_kept | (simp only [State.kept_mk]) | (refine State.Kept.of_pair ?_ (by assumption)) | (refine State.Kept.foldl _ ?_ ?_) | (intro _ _ _)

theorem State.loseContext_kept {o : State} (s : State) (c : Context) (ls : List Launch) (tile pa : Nat) (ecc : Bool) (h : o.Kept s) : o.Kept (s.loseContext c ls tile pa ecc) := by
  unfold State.loseContext
  refine State.onQueues_kept _ _ _ (State.discardLaunches_kept _ _ _ _ (State.Kept.foldl _ (State.setCtx_kept _ _ ?_) ?_))
  · simpa only [State.kept_mk] using h
  · exact fun x q hx => State.queueErrorNow_kept _ _ _ _ _ _ _ hx

theorem State.applyAnswers_kept {o : State} (s : State) (p : Nat) (l : List PageReq) (h : o.Kept s) : o.Kept (s.applyAnswers p l) := by
  induction l generalizing s with
  | nil => exact h
  | cons r more ih =>
    unfold State.applyAnswers
    split
    · exact ih _ (State.endRequest_kept _ _ _ _ h)
    · exact ih _ h

theorem State.timerMark_kept {o : State} (s : State) (c : Context) (from_ : Option Nat) (h : o.Kept s) : o.Kept (s.timerMark c from_) := by
  unfold State.timerMark
  repeat' first | assumption | apply State.setLaunch_kept | apply State.setCtx_kept | (simp only [State.kept_mk]) | (refine State.Kept.of_pair ?_ (by assumption)) | (refine State.Kept.foldl _ ?_ ?_) | (intro _ _ _) | split

theorem State.unhaltTiles_kept {o : State} (s : State) (k : LaunchKey) (h : o.Kept s) : o.Kept (s.unhaltTiles k) := by
  unfold State.unhaltTiles
  repeat' first | assumption | apply State.mapTiles_kept

theorem State.shardFails_kept {o : State} (s : State) (c : Context) (l : Launch) (n reason : Nat) (h : o.Kept s) : o.Kept (s.shardFails c l n reason) := by
  unfold State.shardFails
  repeat' first | assumption | apply State.setLaunch_kept | apply State.setCtx_kept | apply State.unhaltTiles_kept

theorem State.readRegions_kept {o : State} (s : State) (p : Nat) (l : List (Nat × Nat)) (h : o.Kept s) :
    o.Kept (s.readRegions p l).1 := by
  induction l generalizing s with
  | nil => exact h
  | cons x more ih =>
    obtain ⟨va, n⟩ := x
    unfold State.readRegions
    have h1 := State.hubRead_kept s p .frontEnd va n (granules n) h
    split
    · rename_i s1 bs e
      rw [e] at h1
      have h2 := ih s1 h1
      split
      · rename_i e2
        rw [e2] at h2
        exact h2
      · exact h2
    all_goals
      rename_i e
      rw [e] at h1
      exact h1

theorem State.shardDone_kept {o : State} (s : State) (c : Context) (l : Launch) (n : Nat) (rs : List (Nat × List Byte)) (h : o.Kept s) : o.Kept (s.shardDone c l n rs) := by
  unfold State.shardDone
  repeat' first | assumption | apply State.setLaunch_kept | apply State.setCtx_kept | apply State.unhaltTiles_kept | apply State.timerMark_kept | (simp only [State.kept_mk]) | split

theorem State.writeRegions_kept {o : State} (s : State) (p : Nat) (l : List (Nat × List Byte)) (h : o.Kept s) :
    o.Kept (s.writeRegions p l).1 := by
  induction l generalizing s with
  | nil => exact h
  | cons x more ih =>
    obtain ⟨va, bs⟩ := x
    unfold State.writeRegions
    have h1 := State.hubWrite_kept s p .frontEnd va bs (granules bs.length) h
    split
    · rename_i e
      rw [e] at h1
      exact ih _ h1
    all_goals
      rename_i e
      rw [e] at h1
      exact h1

theorem State.loadShard_kept {o : State} (s : State) (c : Context) (x : Shard) (h : o.Kept s) : o.Kept (s.loadShard c x) := by
  unfold State.loadShard
  repeat' first | assumption | apply State.setCtx_kept | apply State.placeTile_kept | (simp only [State.kept_mk]) | (refine State.Kept.of_pair ?_ (by assumption)) | (refine State.Kept.foldl _ ?_ ?_)

theorem State.loseShard_kept {o : State} (s : State) (p : Nat) (slot : Bool) (f : ShardFault) (h : o.Kept s) : o.Kept (s.loseShard p slot f) := by
  unfold State.loseShard
  repeat' first | assumption | apply State.loseContext_kept | (simp only [State.kept_mk]) | (refine State.Kept.of_pair ?_ (by assumption)) | (refine State.Kept.foldl _ ?_ ?_) | (intro _ _ _) | split

theorem State.countAt_kept {o : State} (s : State) (p : Option PhysTile) (f : SoftErrors → SoftErrors) (h : o.Kept s) :
    o.Kept (s.countAt p f) := by
  cases p
  · exact h
  · simpa only [State.countAt, State.kept_mk] using h

theorem State.countSoft_kept {o : State} (s : State) (k : TileKey) (f : SoftErrors → SoftErrors) (h : o.Kept s) : o.Kept (s.countSoft k f) :=
  State.countAt_kept s (s.physOf k) f h

theorem State.corrected_kept {o : State} (s : State) (k : TileKey) (c : SoftCounter) (h : o.Kept s) : o.Kept (s.corrected k c) := by
  unfold State.corrected
  repeat' first | assumption | apply State.onKey_kept | apply State.countSoft_kept | (simp only [State.kept_mk]) | (refine State.Kept.of_pair ?_ (by assumption)) | (refine State.Kept.foldl _ ?_ ?_) | (intro _ _ _) | split

theorem State.poison_kept {o : State} (s : State) (p : Place) (h : o.Kept s) : o.Kept (s.poison p) := by
  unfold State.poison
  repeat' first | assumption | apply State.setLaunch_kept | apply State.onKey_kept | (simp only [State.kept_mk]) | split

theorem State.uncorrectable_kept {o : State} (s : State) (p : Place) (h : o.Kept s) : o.Kept (s.uncorrectable p) :=
  State.countAt_kept _ _ _ (State.poison_kept s p h)

theorem State.fatal_kept {o : State} (s : State) (code unit : Nat) (h : o.Kept s) : o.Kept (s.fatal code unit) := by
  unfold State.fatal
  have h1 := State.Kept.foldl s.contexts h fun x c hx => State.abandonPreempt_kept x c.pasid hx
  have h2 := State.mapTiles_kept _ (fun t => { t.faultStop with csrs := { t.csrs with stopflag := 0 } }) h1
  have h3 := fun l => State.Kept.foldl l h2 fun x (q : Queue) hx => State.queueErrorNow_kept x q 0x10 13 0xFFFF 0 0 hx
  simpa only [State.kept_mk] using h3 _

theorem State.endWaits_kept {o : State} (s : State) (k : TileKey) (h : o.Kept s) : o.Kept (s.endWaits k) := by
  unfold State.endWaits
  repeat' first | assumption | apply State.onKey_kept

theorem State.formGang_kept {o : State} (s : State) (k : TileKey) (h : o.Kept s) : o.Kept (s.formGang k) := by
  unfold State.formGang
  repeat' first | assumption | apply State.mapTiles_kept | (simp only [State.kept_mk]) | (refine State.Kept.of_pair ?_ (by assumption)) | (refine State.Kept.foldl _ ?_ ?_) | (intro _ _ _) | split

theorem State.regroup_kept {o : State} (s : State) (ks : List TileKey) (h : o.Kept s) : o.Kept (s.regroup ks) := by
  unfold State.regroup
  repeat' first | assumption | apply State.formGang_kept | (simp only [State.kept_mk]) | (refine State.Kept.of_pair ?_ (by assumption)) | (refine State.Kept.foldl _ ?_ ?_)

theorem State.raise_kept {o : State} (e : Entered) (n : Nat) (l : List Raised) (s : State) (h : o.Kept s) :
    o.Kept (State.raise e n l s) := by
  induction n generalizing l s with
  | zero => cases l <;> exact h
  | succ n ih =>
    cases l with
    | nil => exact h
    | cons r rest =>
      unfold State.raise
      dsimp only
      split
      · exact ih _ _ h
      · split
        · exact ih _ _ h
        · refine ih _ _ ?_
          split
          · exact State.enterTraps_kept _ _ _ h
          · exact h

theorem State.collectFaults_kept {o : State} (s : State) (ks : List TileKey) (gone : List Raised) (h : o.Kept s) :
    o.Kept (s.collectFaults ks gone).1 := by
  refine State.Kept.foldl_fst ks (x := (s, [])) h fun x k hx => ?_
  dsimp only
  split
  · split <;> exact State.setTile_kept _ _ hx
  · exact hx

theorem State.onKeys_kept {o : State} (s : State) (ks : List TileKey) (f : Tile → Tile) (h : o.Kept s) : o.Kept (s.onKeys ks f) := by
  unfold State.onKeys
  repeat' first | assumption | apply State.mapTiles_kept

theorem State.unwindAll_kept {o : State} (ks : List TileKey) (n : Nat) (s : State) (gone : List Raised) (h : o.Kept s) :
    o.Kept (State.unwindAll ks n s gone).1 := by
  induction n generalizing s gone with
  | zero => exact h
  | succ n ih =>
    unfold State.unwindAll
    dsimp only
    split
    · exact h
    · exact ih _ _ (State.raise_kept _ _ _ _ (State.Kept.foldl _ h fun x r hx => State.onKey_kept _ _ _ hx))

theorem State.deliverDue_kept {o : State} (s : State) (ks : List TileKey) (h : o.Kept s) : o.Kept (s.deliverDue ks) := by
  unfold State.deliverDue
  exact State.Kept.foldl _ (State.onKeys_kept _ _ _ (State.collectFaults_kept _ _ _ (State.unwindAll_kept _ _ _ _ h)))
    fun x i hx => State.raise_kept _ _ _ _ hx

theorem State.deadlock_kept {o : State} (s : State) (ks : List TileKey) (f : Freeze) (h : o.Kept s) : o.Kept (s.deadlock ks f) := by
  unfold State.deadlock
  repeat' first | assumption | apply State.raise_kept | apply State.onKeys_kept

theorem State.stopFrozen_kept {o : State} (s : State) (ks : List TileKey) (rill : Option LaunchKey) (f : Freeze) (h : o.Kept s) : o.Kept (s.stopFrozen ks rill f) := by
  unfold State.stopFrozen
  repeat' first | assumption | apply State.setLaunch_kept | apply State.onKeys_kept | (simp only [State.kept_mk]) | (refine State.Kept.of_pair ?_ (by assumption)) | (refine State.Kept.foldl _ ?_ ?_) | (intro _ _ _) | split

theorem State.freezeDomain_kept {o : State} (s : State) (ks : List TileKey) (rill : Option LaunchKey) (c : FreezeCause) (tile : Nat) (recv : Bool) (h : o.Kept s) : o.Kept (s.freezeDomain ks rill c tile recv) := by
  unfold State.freezeDomain
  repeat' first | assumption | apply State.onKeys_kept | apply State.deadlock_kept | apply State.stopFrozen_kept | (simp only [State.kept_mk]) | (refine State.Kept.of_pair ?_ (by assumption)) | (refine State.Kept.foldl _ ?_ ?_) | (intro _ _ _) | split

theorem State.capture_kept {o : State} (s : State) (l : Launch) (k : TileKey) (r : RillOp) (h : o.Kept s) :
    o.Kept (s.capture l k r) := by
  unfold State.capture
  split
  · exact h
  · exact State.onKey_kept _ _ _ h

theorem State.update_kept {o : State} (s : State) (lk : LaunchKey) (k : TileKey) (r : RillOp) (h : o.Kept s) :
    o.Kept (s.update lk k r) := by
  unfold State.update
  split
  · exact h
  · split
    · exact State.setLaunch_kept _ _ h
    · split
      · exact State.onKey_kept _ _ _ h
      · dsimp only
        repeat' first | assumption | apply State.onKey_kept | apply State.setLaunch_kept | split

theorem State.ringPass_kept {o : State} (s : State) (l : Launch) (h : o.Kept s) : o.Kept (s.ringPass l) := by
  unfold State.ringPass
  refine State.mapTiles_kept _ _ (State.Kept.foldl _ (State.mapTiles_kept _ _ (State.Kept.foldl _ h ?_)) ?_)
  · exact fun x a hx => State.capture_kept _ _ _ _ hx
  · exact fun x a hx => State.update_kept _ _ _ _ hx

theorem State.holdAt_kept {o : State} (s : State) (k : TileKey) (c : FreezeCause) (recv : Bool) (h : o.Kept s) : o.Kept (s.holdAt k c recv) := by
  unfold State.holdAt
  repeat' first | assumption | apply State.freezeDomain_kept

theorem State.countCheck_kept {o : State} (s : State) (k : TileKey) (c : StepCheck) (h : o.Kept s) : o.Kept (s.countCheck k c) := by
  unfold State.countCheck
  repeat' first | assumption | apply State.countSoft_kept | (simp only [State.kept_mk]) | (refine State.Kept.of_pair ?_ (by assumption)) | (refine State.Kept.foldl _ ?_ ?_) | (intro _ _ _) | split

theorem State.engineDone_kept {o : State} (s : State) (r : Tile × List Trap) (h : o.Kept s) : o.Kept (s.engineDone r) := by
  unfold State.engineDone
  repeat' first | assumption | apply State.setTile_kept | apply State.raise_kept


end Sys2Proof.Machine
end

