-- ==== Sys2Proof/Laws/KeptExec.lean ====
section
/-! SUPPORT. Every step of the opcode table that is no module reset keeps the wall clock, the global counter and the canonical form
of HBM: one lemma for each form of meaning and for each event. -/

namespace Sys2Proof.Machine

theorem next_inj {s t : State} (e : (Host.Outcome.next s : Host.Outcome State Fault Refusal) = .next t) : s = t := by
  cases e
  rfl

/-- A syllable on its tile. -/
theorem onTile_kept {o s v : State} {f : Tile → Res} (w : o.Kept s) (e : onTile f s = .next v) : o.Kept v := by
  unfold onTile at e
  split at e
  · obtain rfl := next_inj e
    simpa only [State.kept_mk] using w
  · obtain rfl := next_inj e
    exact State.takeTrap_kept _ _ w
  · obtain rfl := next_inj e
    simpa only [State.kept_mk] using w

/-- A management request. -/
theorem State.manage_kept {o s f v : State} {m : MgmtHdr} {k : MgmtClass} (w : o.Kept s) (hf : o.Kept f)
    (e : s.manage m k f = .next v) : o.Kept v := by
  unfold State.manage at e
  split at e
  · cases e
  · cases e
  · split at e
    · obtain rfl := next_inj e
      exact State.reply_kept _ _ _ _ w
    · split at e
      · obtain rfl := next_inj e
        exact hf
      · obtain rfl := next_inj e
        exact State.reply_kept _ _ _ _ w

/-- An event on a tile. -/
theorem State.onNamed_kept {o s v : State} {k : TileKey} {f : Tile → Option State} (hf : ∀ t u, f t = some u → o.Kept u)
    (e : s.onNamed k f = .next v) : o.Kept v := by
  unfold State.onNamed at e
  split at e
  · cases e
  · split at e
    · rename_i r
      obtain rfl := next_inj e
      exact hf _ _ r
    · cases e

/-- An event on a far access. -/
theorem State.onFar_kept {o s v : State} {k : TileKey} {n : Nat} {ok : Tile → FarOp → Bool} {g : Tile → FarOp → Option State}
    (hf : ∀ t f u, g t f = some u → o.Kept u) (e : s.onFar k n ok g = .next v) : o.Kept v := by
  unfold State.onFar at e
  split at e
  · cases e
  · split at e
    · cases e
    · split at e
      · split at e
        · rename_i r
          obtain rfl := next_inj e
          exact hf _ _ _ r
        · cases e
      · cases e

/-- An event on a packet. -/
theorem State.onPacket_kept {o s v : State} {n i ty : Nat} {ok : Packet → Bool} {g : Queue → Packet → State}
    (hf : ∀ q k, o.Kept (g q k)) (e : s.onPacket n i ty ok g = .next v) : o.Kept v := by
  unfold State.onPacket at e
  split at e
  · cases e
  · split at e
    · cases e
    · split at e
      · obtain rfl := next_inj e
        exact hf _ _
      · cases e

theorem State.alight_kept {o s z : State} {m : Hdr} {b : Berth} (w : o.Kept s) (e : s.alight m b = .next z) : o.Kept z := by
  unfold State.alight at e
  dsimp only at e
  split at e
  · split at e
    · obtain rfl := next_inj e
      exact State.setBerth_kept _ _ w
    · obtain rfl := next_inj e
      exact State.takeTrap_kept _ _ w
  · obtain rfl := next_inj e
    exact w

theorem State.linkArrival_kept {o s z : State} {t : Tile} {a b : Nat} (w : o.Kept s) (e : s.linkArrival t a b = .next z) : o.Kept z := by
  unfold State.linkArrival at e
  split at e
  · cases e
  · split at e
    · cases e
    · have h := State.setLaunch_kept s (Launch.unlink ‹_› ‹_›) w
      dsimp only at e
      split at e
      · exact next_inj e ▸ h
      · split at e
        · exact next_inj e ▸ State.onKey_kept _ _ _ h
        · split at e
          · exact next_inj e ▸ State.onKey_kept _ _ _ h
          · cases e

theorem execSend_kept {o z : State} (m : Hdr) (f : VFile) (v x : Nat) (s : State) (w : o.Kept s) (e : execSend m f v x s = .next z) : o.Kept z := by
  unfold execSend at e
  try dsimp only at e
  repeat' first | (split at e) | (cases e; done) | (obtain rfl := next_inj e)
  all_goals
    repeat' first | assumption | apply State.takeTrap_kept | (simp only [State.kept_mk])

theorem execBoard_kept {o z : State} (m : Hdr) (s : State) (w : o.Kept s) (e : execBoard m s = .next z) : o.Kept z := by
  unfold execBoard at e
  try dsimp only at e
  repeat' first | (split at e) | (cases e; done) | (obtain rfl := next_inj e)
  all_goals
    repeat' first | assumption | apply State.setBerth_kept | apply State.takeTrap_kept | (simp only [State.kept_mk])

theorem execAlight_kept {o z : State} (m : Hdr) (s : State) (w : o.Kept s) (e : execAlight m s = .next z) : o.Kept z :=
  State.alight_kept w e

theorem execAlightFree_kept {o z : State} (m : Hdr) (s : State) (w : o.Kept s) (e : execAlightFree m s = .next z) : o.Kept z :=
  State.alight_kept w e

theorem execMnop_kept {o z : State} (_e : Bool) (s : State) (w : o.Kept s) (e : execMnop _e s = .next z) : o.Kept z := by
  unfold execMnop at e
  try dsimp only at e
  repeat' first | (split at e) | (cases e; done) | (obtain rfl := next_inj e)
  all_goals
    repeat' first | assumption

theorem execLandingArrival_kept {o z : State} (k : TileKey) (n : Nat) (buffered : Bool) (s : State) (w : o.Kept s)
    (e : execLandingArrival k n buffered s = .next z) : o.Kept z := by
  refine State.onFar_kept (fun t f u r => ?_) e
  split at r
  · exact Option.some.inj r ▸ State.onKey_kept _ _ _ w
  · exact State.farEvent_kept _ _ _ _ w r

theorem execFarStorePerform_kept {o z : State} (k : TileKey) (n : Nat) (s : State) (w : o.Kept s)
    (e : execFarStorePerform k n s = .next z) : o.Kept z :=
  State.onFar_kept (fun _ _ _ r => State.farEvent_kept _ _ _ _ w r) e

theorem execRemoteAccessApply_kept {o z : State} (k : TileKey) (n : Nat) (s : State) (w : o.Kept s)
    (e : execRemoteAccessApply k n s = .next z) : o.Kept z :=
  State.onFar_kept (fun _ _ _ r => State.farEvent_kept _ _ _ _ w r) e

theorem execRelIncrement_kept {o z : State} (k : TileKey) (n : Nat) (s : State) (w : o.Kept s)
    (e : execRelIncrement k n s = .next z) : o.Kept z :=
  State.onFar_kept (fun _ _ _ r => State.farEvent_kept _ _ _ _ w r) e

theorem execMessageArrival_kept {o z : State} (k : TileKey) (src chan : Nat) (s : State) (w : o.Kept s)
    (e : execMessageArrival k src chan s = .next z) : o.Kept z := by
  unfold execMessageArrival at e
  split at e
  · cases e
  · split at e
    · split at e
      · exact next_inj e ▸ State.onKey_kept _ _ _ w
      · exact State.linkArrival_kept w e
    · exact State.linkArrival_kept w e

theorem execCopyCommandComplete_kept {o z : State} (k : TileKey) (q : Nat) (s : State) (w : o.Kept s) (e : execCopyCommandComplete k q s = .next z) : o.Kept z := by
  unfold execCopyCommandComplete at e
  try dsimp only at e
  repeat' first | (split at e) | (cases e; done) | (obtain rfl := next_inj e)
  all_goals
    repeat' first | assumption | (simp only [State.kept_mk]) | (refine State.Kept.of_pair ?_ (by assumption)) | (refine State.Kept.foldl _ ?_ ?_) | (intro _ _ _) | exact State.farEvent_kept _ _ _ _ w (by assumption) | exact State.copyEvent_kept _ _ _ w (by assumption)

theorem execCopyCommandStop_kept {o z : State} (k : TileKey) (q : Nat) (s : State) (w : o.Kept s) (e : execCopyCommandStop k q s = .next z) : o.Kept z := by
  unfold execCopyCommandStop at e
  try dsimp only at e
  repeat' first | (split at e) | (cases e; done) | (obtain rfl := next_inj e)
  all_goals
    repeat' first | assumption | (simp only [State.kept_mk]) | (refine State.Kept.of_pair ?_ (by assumption)) | (refine State.Kept.foldl _ ?_ ?_) | (intro _ _ _) | exact State.farEvent_kept _ _ _ _ w (by assumption) | exact State.copyEvent_kept _ _ _ w (by assumption)

theorem execTranslationWalk_kept {o z : State} (p va : Nat) (k : AccKind) (a : Agent) (s : State) (w : o.Kept s) (e : execTranslationWalk p va k a s = .next z) : o.Kept z := by
  unfold execTranslationWalk at e
  try dsimp only at e
  repeat' first | (split at e) | (cases e; done) | (obtain rfl := next_inj e)
  all_goals
    repeat' first | assumption | apply State.reach_kept | apply State.walkFails_kept | (simp only [State.kept_mk]) | (refine State.Kept.of_pair ?_ (by assumption))

theorem execRemotePathTimeout_kept {o z : State} (k : TileKey) (n : Nat) (s : State) (w : o.Kept s) (e : execRemotePathTimeout k n s = .next z) : o.Kept z := by
  unfold execRemotePathTimeout at e
  try dsimp only at e
  repeat' first | (split at e) | (cases e; done) | (obtain rfl := next_inj e)
  all_goals
    repeat' first | assumption | apply State.onKey_kept | apply State.stopCopy_kept

theorem execLaunchArm_kept {o z : State} (k : LaunchKey) (s : State) (w : o.Kept s) (e : execLaunchArm k s = .next z) : o.Kept z := by
  unfold execLaunchArm at e
  try dsimp only at e
  repeat' first | (split at e) | (cases e; done) | (obtain rfl := next_inj e)
  all_goals
    repeat' first | assumption | apply State.armFails_kept | apply State.armNow_kept | apply State.armed_kept | apply State.farPreload_kept | apply State.park_kept | apply State.setLaunch_kept | (simp only [State.kept_mk]) | (refine State.Kept.of_pair ?_ (by assumption)) | (refine State.Kept.foldl _ ?_ ?_) | (intro _ _ _)

theorem execLaunchStart_kept {o z : State} (k : LaunchKey) (s : State) (w : o.Kept s) (e : execLaunchStart k s = .next z) : o.Kept z := by
  unfold execLaunchStart at e
  split at e
  · cases e
  · split at e
    · split at e
      · exact next_inj e ▸ State.failLaunch_kept _ _ _ _ (w.of_eq rfl rfl rfl)
      · exact next_inj e ▸ State.setLaunch_kept _ _ (w.of_eq rfl rfl rfl)
    · cases e

theorem execTileStart_kept {o z : State} (k : TileKey) (s : State) (w : o.Kept s) (e : execTileStart k s = .next z) : o.Kept z := by
  unfold execTileStart at e
  try dsimp only at e
  repeat' first | (split at e) | (cases e; done) | (obtain rfl := next_inj e)
  all_goals
    repeat' first | assumption | apply State.onKey_kept

theorem execLaunchTrigger_kept {o z : State} (k : LaunchKey) (s : State) (w : o.Kept s) (e : execLaunchTrigger k s = .next z) : o.Kept z := by
  unfold execLaunchTrigger at e
  try dsimp only at e
  repeat' first | (split at e) | (cases e; done) | (obtain rfl := next_inj e)
  all_goals
    repeat' first | assumption | apply State.onPacketOf_kept | apply State.setLaunch_kept

theorem execLaunchRetire_kept {o z : State} (k : LaunchKey) (s : State) (w : o.Kept s) (e : execLaunchRetire k s = .next z) : o.Kept z := by
  unfold execLaunchRetire at e
  try dsimp only at e
  repeat' first | (split at e) | (cases e; done) | (obtain rfl := next_inj e)
  all_goals
    repeat' first | assumption | apply State.completePacket_kept | apply State.endLaunch_kept | apply State.mapTiles_kept | apply State.newLaunch_kept | apply State.onPacketOf_kept

theorem execQueuePoll_kept {o z : State} (n : Nat) (s : State) (w : o.Kept s) (e : execQueuePoll n s = .next z) : o.Kept z := by
  unfold execQueuePoll at e
  cases hq : s.queue? n with
  | none => rw [hq] at e; cases e
  | some q =>
    rw [hq] at e
    dsimp only at e
    by_cases c : (!s.up || !((s.ctx? q.pasid).map Context.serves).getD false) = true
    · rw [if_pos c] at e; cases e
    · rw [if_neg c] at e
      cases hk : q.packets.find? fun k => k.complete with
      | some k => rw [hk] at e; exact next_inj e ▸ State.signalPacket_kept _ _ _ w
      | none =>
        rw [hk] at e
        dsimp only at e
        by_cases c1 : s.goesIdle q = true
        · rw [if_pos c1] at e; exact next_inj e ▸ State.setQstate_kept _ _ _ w
        · rw [if_neg c1] at e
          by_cases c2 : (decide (s.behind q = 0) || !s.takes q) = true
          · rw [if_pos c2] at e; cases e
          · rw [if_neg c2] at e
            cases hr : s.residency q with
            | none => rw [hr] at e; cases e
            | some t => rw [hr] at e; exact next_inj e ▸ State.pollQueue_kept _ _ (State.residency_kept _ _ w hr)

theorem execTimetable_kept {o z : State} (n i : Nat) (s : State) (w : o.Kept s) (e : execTimetable n i s = .next z) : o.Kept z := by
  refine State.onPacket_kept (fun q k => ?_) e
  repeat' first | assumption | apply State.startLaunch_kept

theorem execTimetableIndirect_kept {o z : State} (n i : Nat) (s : State) (w : o.Kept s) (e : execTimetableIndirect n i s = .next z) : o.Kept z := by
  refine State.onPacket_kept (fun q k => ?_) e
  repeat' first | assumption | apply State.completePacket_kept | apply State.hubRead1_kept | apply State.hubTrouble_kept | apply State.startLaunch_kept | (simp only [State.kept_mk]) | (refine State.Kept.of_pair ?_ (by assumption)) | (refine State.Kept.foldl _ ?_ ?_) | (intro _ _ _) | exact State.farEvent_kept _ _ _ _ w (by assumption) | exact State.copyEvent_kept _ _ _ w (by assumption) | split

theorem execWait_kept {o z : State} (n i : Nat) (s : State) (w : o.Kept s) (e : execWait n i s = .next z) : o.Kept z := by
  refine State.onPacket_kept (fun q k => ?_) e
  repeat' first | assumption | apply State.waitPacket_kept

theorem execBarrierAnd_kept {o z : State} (n i : Nat) (s : State) (w : o.Kept s) (e : execBarrierAnd n i s = .next z) : o.Kept z := by
  refine State.onPacket_kept (fun q k => ?_) e
  repeat' first | assumption | apply State.waitPacket_kept

theorem execSignalConditionMet_kept {o z : State} (n i : Nat) (s : State) (w : o.Kept s) (e : execSignalConditionMet n i s = .next z) : o.Kept z := by
  unfold execSignalConditionMet at e
  try dsimp only at e
  repeat' first | (split at e) | (cases e; done) | (obtain rfl := next_inj e)
  all_goals
    repeat' first | assumption | apply State.testPacket_kept | apply State.waitPacket_kept

theorem execSignal_kept {o z : State} (n i : Nat) (s : State) (w : o.Kept s) (e : execSignal n i s = .next z) : o.Kept z := by
  refine State.onPacket_kept (fun q k => ?_) e
  repeat' first | assumption | apply State.completePacket_kept | apply State.hubAtomic_kept | apply State.hubTrouble_kept | (simp only [State.kept_mk]) | (refine State.Kept.of_pair ?_ (by assumption)) | (refine State.Kept.foldl _ ?_ ?_) | (intro _ _ _) | exact State.farEvent_kept _ _ _ _ w (by assumption) | exact State.copyEvent_kept _ _ _ w (by assumption) | split

theorem execCopy_kept {o z : State} (n i : Nat) (s : State) (w : o.Kept s) (e : execCopy n i s = .next z) : o.Kept z := by
  refine State.onPacket_kept (fun q k => ?_) e
  repeat' first | assumption | apply State.copyPacket_kept

theorem execSeedPush_kept {o z : State} (n i : Nat) (s : State) (w : o.Kept s) (e : execSeedPush n i s = .next z) : o.Kept z := by
  refine State.onPacket_kept (fun q k => ?_) e
  repeat' first | assumption | apply State.seedPacket_kept

theorem execSeedPop_kept {o z : State} (n i : Nat) (s : State) (w : o.Kept s) (e : execSeedPop n i s = .next z) : o.Kept z := by
  refine State.onPacket_kept (fun q k => ?_) e
  repeat' first | assumption | apply State.seedPacket_kept

theorem execSeedFork_kept {o z : State} (n i : Nat) (s : State) (w : o.Kept s) (e : execSeedFork n i s = .next z) : o.Kept z := by
  refine State.onPacket_kept (fun q k => ?_) e
  repeat' first | assumption | apply State.seedPacket_kept

theorem execCheckpointPolicy_kept {o z : State} (n i : Nat) (s : State) (w : o.Kept s) (e : execCheckpointPolicy n i s = .next z) : o.Kept z := by
  refine State.onPacket_kept (fun q k => ?_) e
  repeat' first | assumption | apply State.completePacket_kept | apply State.failPacket_kept | apply State.setCtx_kept | (simp only [State.kept_mk]) | (refine State.Kept.of_pair ?_ (by assumption)) | (refine State.Kept.foldl _ ?_ ?_) | (intro _ _ _) | exact State.farEvent_kept _ _ _ _ w (by assumption) | exact State.copyEvent_kept _ _ _ w (by assumption) | split

theorem execNop_kept {o z : State} (n i : Nat) (s : State) (w : o.Kept s) (e : execNop n i s = .next z) : o.Kept z := by
  refine State.onPacket_kept (fun q k => ?_) e
  repeat' first | assumption | apply State.completePacket_kept

theorem execQueueRestart_kept {o z : State} (n : Nat) (s : State) (w : o.Kept s) (e : execQueueRestart n s = .next z) : o.Kept z := by
  unfold execQueueRestart at e
  cases hq : s.queue? n with
  | none => rw [hq] at e; cases e
  | some q =>
    rw [hq] at e
    dsimp only at e
    by_cases c : s.up = true ∧ s.qword q 3 = 1 ∧ s.qstate q = 3
    · rw [if_pos c] at e
      rw [← next_inj e]
      exact State.onQueue_kept _ _ _ (State.setQstate_kept _ _ _ (State.setQword_kept _ _ _ _ (State.setQword_kept _ _ _ _
        (State.setQword_kept _ _ _ _ (State.setQword_kept _ _ _ _ w)))))
    · rw [if_neg c] at e
      cases e

theorem execQueueDestroy_kept {o z : State} (n : Nat) (s : State) (w : o.Kept s) (e : execQueueDestroy n s = .next z) : o.Kept z := by
  unfold execQueueDestroy at e
  cases hq : s.queue? n with
  | none => rw [hq] at e; cases e
  | some q =>
    rw [hq] at e
    dsimp only at e
    by_cases c : s.up = true ∧ s.qword q 3 = 2 ∧ s.qstate q < 4
    · rw [if_pos c] at e
      rw [← next_inj e]
      exact State.onQueue_kept _ _ _ (State.setQstate_kept _ _ _ (State.setQword_kept _ _ _ _ w))
    · rw [if_neg c] at e
      cases e

theorem execQueueDestroyed_kept {o z : State} (n : Nat) (s : State) (w : o.Kept s) (e : execQueueDestroyed n s = .next z) : o.Kept z := by
  unfold execQueueDestroyed at e
  try dsimp only at e
  repeat' first | (split at e) | (cases e; done) | (obtain rfl := next_inj e)
  all_goals
    repeat' first | assumption | apply State.setQstate_kept

theorem execQueueParkTimeout_kept {o z : State} (n : Nat) (s : State) (w : o.Kept s) (e : execQueueParkTimeout n s = .next z) : o.Kept z := by
  unfold execQueueParkTimeout at e
  try dsimp only at e
  repeat' first | (split at e) | (cases e; done) | (obtain rfl := next_inj e)
  all_goals
    repeat' first | assumption | apply State.parkFails_kept

theorem execPageRequestTimeout_kept {o z : State} (p n : Nat) (s : State) (w : o.Kept s) (e : execPageRequestTimeout p n s = .next z) : o.Kept z := by
  unfold execPageRequestTimeout at e
  try dsimp only at e
  repeat' first | (split at e) | (cases e; done) | (obtain rfl := next_inj e)
  all_goals
    repeat' first | assumption | apply State.endRequest_kept | apply State.keepAnswer_kept

theorem execCollectiveTableWrite_kept {o z : State} (k : TileKey) (n : Nat) (s : State) (w : o.Kept s)
    (e : execCollectiveTableWrite k n s = .next z) : o.Kept z := by
  refine State.onFar_kept (fun t f u r => ?_) e
  dsimp only at r
  split at r
  · split at r
    · split at r
      · cases r
      · exact Option.some.inj r ▸ State.onKey_kept _ _ _ (State.onEntry_kept _ _ _ _ w)
    · cases r
  · cases r

theorem execCollectiveReadyWrite_kept {o z : State} (k : TileKey) (n : Nat) (s : State) (w : o.Kept s)
    (e : execCollectiveReadyWrite k n s = .next z) : o.Kept z := by
  refine State.onFar_kept (fun t f u r => ?_) e
  dsimp only at r
  split at r
  · split at r
    · split at r
      · exact Option.some.inj r ▸ State.onKey_kept _ _ _ w
      · split at r
        · cases r
        · exact Option.some.inj r ▸ State.onKey_kept _ _ _ (State.tell_kept _ _ _ (State.onEntry_kept _ _ _ _ w))
    · cases r
  · cases r

theorem execCollectiveRoundFire_kept {o z : State} (k : LaunchKey) (n : Nat) (s : State) (w : o.Kept s)
    (e : execCollectiveRoundFire k n s = .next z) : o.Kept z := by
  unfold execCollectiveRoundFire at e
  repeat' first | (split at e) | (cases e; done) | (obtain rfl := next_inj e)
  · exact State.fireRound_kept _ _ _ w
  · exact State.onEntry_kept _ _ _ _ w
  · exact State.readRound_kept _ _ _ _ w

theorem execCollectiveRoundComplete_kept {o z : State} (k : LaunchKey) (n : Nat) (s : State) (w : o.Kept s) (e : execCollectiveRoundComplete k n s = .next z) : o.Kept z := by
  unfold execCollectiveRoundComplete at e
  try dsimp only at e
  repeat' first | (split at e) | (cases e; done) | (obtain rfl := next_inj e)
  all_goals
    repeat' first | assumption | apply State.ensureTile_kept | apply State.onEntry_kept | apply State.onKey_kept | apply State.tickFresh_kept | split

theorem execUalinkRemoteRequest_kept {o z : State} (r : RemoteReq) (s : State) (w : o.Kept s) (e : execUalinkRemoteRequest r s = .next z) : o.Kept z := by
  unfold execUalinkRemoteRequest at e
  try dsimp only at e
  repeat' first | (split at e) | (cases e; done) | (obtain rfl := next_inj e)
  all_goals
    repeat' first | assumption | apply State.hbmWrite_kept | apply State.onEntry_kept

theorem execCreateContext_kept {o z : State} (m : MgmtHdr) (block : List Word) (s : State) (w : o.Kept s) (e : execCreateContext m block s = .next z) : o.Kept z := by
  refine State.manage_kept w ?_ e
  repeat' first | assumption | apply State.reply_kept | (simp only [State.kept_mk]) | (refine State.Kept.of_pair ?_ (by assumption)) | (refine State.Kept.foldl _ ?_ ?_) | (intro _ _ _) | exact State.farEvent_kept _ _ _ _ w (by assumption) | exact State.copyEvent_kept _ _ _ w (by assumption) | split

theorem execTeardownContext_kept {o z : State} (m : MgmtHdr) (p : Nat) (s : State) (w : o.Kept s) (e : execTeardownContext m p s = .next z) : o.Kept z := by
  refine State.manage_kept w ?_ e
  split
  · exact State.reply_kept _ _ _ _ w
  · rename_i c _
    split
    · exact State.reply_kept _ _ _ _ w
    · have h4 : ∀ ls, o.Kept (((((((s.abandonPreempt p).mapTiles fun t => if t.key.pasid == p then t.faultStop else t).queues.filter
          fun q => q.pasid == p).foldl (fun (x : State) q => x.queueErrorNow q 0x10 13 0xFFFF 0 0)
            { (s.abandonPreempt p).mapTiles fun t => if t.key.pasid == p then t.faultStop else t with launches := ls }).discardLaunches
              p none 0).dropTlb p fun _ => true).onQueues p fun q => { q.unparked with packets := [] }) := by
        intro ls
        refine State.onQueues_kept _ _ _ (State.dropTlb_kept _ _ _ (State.discardLaunches_kept _ _ _ _
          (State.Kept.foldl _ ?_ fun x q hx => State.queueErrorNow_kept _ _ _ _ _ _ _ hx)))
        exact State.Kept.of_eq (State.mapTiles_kept _ (fun t => if t.key.pasid == p then t.faultStop else t)
          (State.abandonPreempt_kept _ p w)) rfl rfl rfl
      dsimp only
      split
      · exact State.Kept.foldl _ (State.setCtx_kept _ _ (h4 _)) fun x y hx => State.reply_kept _ _ _ _ hx
      · exact h4 _

theorem execTeardownComplete_kept {o z : State} (p : Nat) (s : State) (w : o.Kept s) (e : execTeardownComplete p s = .next z) : o.Kept z := by
  unfold execTeardownComplete at e
  repeat' first | (split at e) | (cases e; done)
  all_goals
    refine next_inj e ▸ State.reply_kept _ _ _ _ ?_
    have h := State.dropTlb_kept s p (fun _ => true) w
    exact h.of_eq rfl rfl rfl

theorem execPreemptContext_kept {o z : State} (m : MgmtHdr) (p : Nat) (s : State) (w : o.Kept s) (e : execPreemptContext m p s = .next z) : o.Kept z := by
  refine State.manage_kept w ?_ e
  repeat' first | assumption | apply State.mapTiles_kept | apply State.raiseDuty_kept | apply State.reply_kept | apply State.setCtx_kept | (simp only [State.kept_mk]) | (refine State.Kept.of_pair ?_ (by assumption)) | (refine State.Kept.foldl _ ?_ ?_) | (intro _ _ _) | exact State.farEvent_kept _ _ _ _ w (by assumption) | exact State.copyEvent_kept _ _ _ w (by assumption) | split

theorem execContextSaveComplete_kept {o z : State} (p : Nat) (s : State) (w : o.Kept s) (e : execContextSaveComplete p s = .next z) :
    o.Kept z := by
  unfold execContextSaveComplete at e
  split at e
  · cases e
  · split at e
    · cases e
    · dsimp only at e
      split at e
      · refine next_inj e ▸ State.reply_kept _ _ _ _ (State.onQueues_kept _ _ _ ?_)
        simp only [State.kept_mk]
        exact State.setCtx_kept _ _ (State.writeAreas_kept _ _ _ (w.of_eq rfl rfl rfl))
      · cases e

theorem execRestoreContext_kept {o z : State} (m : MgmtHdr) (p part : Nat) (s : State) (w : o.Kept s)
    (e : execRestoreContext m p part s = .next z) : o.Kept z := by
  refine State.manage_kept w ?_ e
  split
  · exact State.reply_kept _ _ _ _ w
  · split
    · exact State.reply_kept _ _ _ _ w
    · split
      · exact State.reply_kept _ _ _ _ w
      · split
        · exact State.reply_kept _ _ _ _ (State.setCtx_kept _ _ w)
        · split
          · exact State.reply_kept _ _ _ _ (State.applyAnswers_kept _ _ _ (State.loseContext_kept _ _ _ _ _ _ w))
          · refine State.reply_kept _ _ _ _ (State.applyAnswers_kept _ _ _ (State.Kept.foldl _ ?_ fun x t h => State.placeTile_kept _ _ h))
            simp only [State.kept_mk]
            exact State.dropTlb_kept _ _ _ (State.setCtx_kept _ _ w)

theorem execRegisterQueue_kept {o z : State} (m : MgmtHdr) (p va : Nat) (s : State) (w : o.Kept s) (e : execRegisterQueue m p va s = .next z) : o.Kept z := by
  refine State.manage_kept w ?_ e
  repeat' first | assumption | apply State.reply_kept | apply State.setQstate_kept | apply State.walked_kept | (simp only [State.kept_mk]) | (refine State.Kept.of_pair ?_ (by assumption)) | (refine State.Kept.foldl _ ?_ ?_) | (intro _ _ _) | exact State.farEvent_kept _ _ _ _ w (by assumption) | exact State.copyEvent_kept _ _ _ w (by assumption) | split

theorem execUnregisterQueue_kept {o z : State} (m : MgmtHdr) (n : Nat) (s : State) (w : o.Kept s) (e : execUnregisterQueue m n s = .next z) : o.Kept z := by
  refine State.manage_kept w ?_ e
  repeat' first | assumption | apply State.reply_kept | (simp only [State.kept_mk]) | (refine State.Kept.of_pair ?_ (by assumption)) | (refine State.Kept.foldl _ ?_ ?_) | (intro _ _ _) | exact State.farEvent_kept _ _ _ _ w (by assumption) | exact State.copyEvent_kept _ _ _ w (by assumption) | split

theorem execInvalidateTranslations_kept {o z : State} (m : MgmtHdr) (p : Nat) (range : Option (Nat × Nat)) (s : State) (w : o.Kept s) (e : execInvalidateTranslations m p range s = .next z) : o.Kept z := by
  refine State.manage_kept w ?_ e
  repeat' first | assumption | apply State.reply_kept | apply State.setCtx_kept | (simp only [State.kept_mk]) | (refine State.Kept.of_pair ?_ (by assumption)) | (refine State.Kept.foldl _ ?_ ?_) | (intro _ _ _) | exact State.farEvent_kept _ _ _ _ w (by assumption) | exact State.copyEvent_kept _ _ _ w (by assumption) | split

theorem execInvalidationComplete_kept {o z : State} (p : Nat) (s : State) (w : o.Kept s) (e : execInvalidationComplete p s = .next z) : o.Kept z := by
  unfold execInvalidationComplete at e
  try dsimp only at e
  repeat' first | (split at e) | (cases e; done) | (obtain rfl := next_inj e)
  all_goals
    repeat' first | assumption | apply State.dropTlb_kept | apply State.reply_kept | apply State.setCtx_kept

theorem execAnswerPageRequest_kept {o z : State} (m : MgmtHdr) (p n : Nat) (resolved : Bool) (s : State) (w : o.Kept s) (e : execAnswerPageRequest m p n resolved s = .next z) : o.Kept z := by
  refine State.manage_kept w ?_ e
  repeat' first | assumption | apply State.endRequest_kept | apply State.keepAnswer_kept | apply State.reply_kept | (simp only [State.kept_mk]) | (refine State.Kept.of_pair ?_ (by assumption)) | (refine State.Kept.foldl _ ?_ ?_) | (intro _ _ _) | exact State.farEvent_kept _ _ _ _ w (by assumption) | exact State.copyEvent_kept _ _ _ w (by assumption) | split

theorem execReadLaunchRecord_kept {o z : State} (m : MgmtHdr) (p n : Nat) (s : State) (w : o.Kept s) (e : execReadLaunchRecord m p n s = .next z) : o.Kept z := by
  refine State.manage_kept w ?_ e
  repeat' first | assumption | apply State.reply_kept | (simp only [State.kept_mk]) | (refine State.Kept.of_pair ?_ (by assumption)) | (refine State.Kept.foldl _ ?_ ?_) | (intro _ _ _) | exact State.farEvent_kept _ _ _ _ w (by assumption) | exact State.copyEvent_kept _ _ _ w (by assumption) | split

theorem execReadIdentityKey_kept {o z : State} (m : MgmtHdr) (s : State) (w : o.Kept s) (e : execReadIdentityKey m s = .next z) : o.Kept z := by
  refine State.manage_kept w ?_ e
  repeat' first | assumption | apply State.reply_kept

theorem execManagementConnect_kept {o z : State} (key challenge sig : List Byte) (s : State) (w : o.Kept s) (e : execManagementConnect key challenge sig s = .next z) : o.Kept z := by
  unfold execManagementConnect at e
  try dsimp only at e
  repeat' first | (split at e) | (cases e; done) | (obtain rfl := next_inj e)
  all_goals
    repeat' first | assumption | (simp only [State.kept_mk])

theorem execCheckpointTimer_kept {o z : State} (p : Nat) (s : State) (w : o.Kept s) (e : execCheckpointTimer p s = .next z) : o.Kept z := by
  unfold execCheckpointTimer at e
  try dsimp only at e
  repeat' first | (split at e) | (cases e; done) | (obtain rfl := next_inj e)
  all_goals
    repeat' first | assumption | apply State.timerMark_kept

theorem execCheckpointShardTake_kept {o z : State} (k : LaunchKey) (s : State) (w : o.Kept s) (e : execCheckpointShardTake k s = .next z) : o.Kept z := by
  unfold execCheckpointShardTake at e
  try dsimp only at e
  repeat' first | (split at e) | (cases e; done) | (obtain rfl := next_inj e)
  all_goals
    repeat' first | assumption | apply State.setCtx_kept | apply State.setLaunch_kept | apply State.shardFails_kept

theorem execCheckpointShardTaken_kept {o z : State} (k : LaunchKey) (s : State) (w : o.Kept s) (e : execCheckpointShardTaken k s = .next z) : o.Kept z := by
  unfold execCheckpointShardTaken at e
  try dsimp only at e
  repeat' first | (split at e) | (cases e; done) | (obtain rfl := next_inj e)
  all_goals
    repeat' first | assumption | apply State.readRegions_kept | apply State.shardDone_kept | apply State.shardFails_kept | (simp only [State.kept_mk]) | (refine State.Kept.of_pair ?_ (by assumption))

theorem execSetCheckpointConfig_kept {o z : State} (m : MgmtHdr) (p : Nat) (x : CkptSetting) (s : State) (w : o.Kept s) (e : execSetCheckpointConfig m p x s = .next z) : o.Kept z := by
  refine State.manage_kept w ?_ e
  repeat' first | assumption | apply State.reply_kept | apply State.setCtx_kept | (simp only [State.kept_mk]) | (refine State.Kept.of_pair ?_ (by assumption)) | (refine State.Kept.foldl _ ?_ ?_) | (intro _ _ _) | exact State.farEvent_kept _ _ _ _ w (by assumption) | exact State.copyEvent_kept _ _ _ w (by assumption) | split

theorem execReadLatestShard_kept {o z : State} (m : MgmtHdr) (p : Nat) (s : State) (w : o.Kept s) (e : execReadLatestShard m p s = .next z) : o.Kept z := by
  refine State.manage_kept w ?_ e
  repeat' first | assumption | apply State.reply_kept | (simp only [State.kept_mk]) | (refine State.Kept.of_pair ?_ (by assumption)) | (refine State.Kept.foldl _ ?_ ?_) | (intro _ _ _) | exact State.farEvent_kept _ _ _ _ w (by assumption) | exact State.copyEvent_kept _ _ _ w (by assumption) | split

theorem execRestoreCheckpoint_kept {o z : State} (m : MgmtHdr) (p : Nat) (slot : Bool) (key : List Byte) (s : State) (w : o.Kept s)
    (e : execRestoreCheckpoint m p slot key s = .next z) : o.Kept z := by
  refine State.manage_kept w ?_ e
  repeat' first | exact State.reply_kept _ _ _ _ w | split
  · exact State.reply_kept _ _ _ _ (State.loseShard_kept _ _ _ _ w)
  · exact State.reply_kept _ _ _ _ (State.loadShard_kept _ _ _ (State.Kept.of_pair (State.writeRegions_kept _ _ _ w) (by assumption)))
  · exact State.reply_kept _ _ _ _ (State.loseShard_kept _ _ _ _ (State.Kept.of_pair (State.writeRegions_kept _ _ _ w) (by assumption)))

theorem execScrub_kept {o z : State} (p : Place) (uncor : Bool) (s : State) (w : o.Kept s) (e : execScrub p uncor s = .next z) : o.Kept z := by
  unfold execScrub at e
  try dsimp only at e
  repeat' first | (split at e) | (cases e; done) | (obtain rfl := next_inj e)
  all_goals
    repeat' first | assumption | apply State.uncorrectable_kept | apply State.countAt_kept

theorem execFatalError_kept {o z : State} (code unit : Nat) (s : State) (w : o.Kept s) (e : execFatalError code unit s = .next z) : o.Kept z := by
  unfold execFatalError at e
  try dsimp only at e
  repeat' first | (split at e) | (cases e; done) | (obtain rfl := next_inj e)
  all_goals
    repeat' first | assumption | apply State.fatal_kept

theorem execWatchdogRestart_kept {o z : State} (core : Nat) (s : State) (w : o.Kept s) (e : execWatchdogRestart core s = .next z) : o.Kept z := by
  unfold execWatchdogRestart at e
  try dsimp only at e
  repeat' first | (split at e) | (cases e; done) | (obtain rfl := next_inj e)
  all_goals
    repeat' first | assumption | apply State.fatal_kept | (simp only [State.kept_mk])

theorem execFrontEndCoreRestarted_kept {o z : State} (core : Nat) (s : State) (w : o.Kept s) (e : execFrontEndCoreRestarted core s = .next z) : o.Kept z := by
  unfold execFrontEndCoreRestarted at e
  try dsimp only at e
  repeat' first | (split at e) | (cases e; done) | (obtain rfl := next_inj e)
  all_goals
    repeat' first | assumption | (simp only [State.kept_mk])

theorem execDutyUpdate_kept {o z : State} (s : State) (w : o.Kept s) (e : execDutyUpdate s = .next z) : o.Kept z := by
  unfold execDutyUpdate at e
  try dsimp only at e
  repeat' first | (split at e) | (cases e; done) | (obtain rfl := next_inj e)
  all_goals
    repeat' first | assumption | (simp only [State.kept_mk])

theorem execReadSoftErrorBlock_kept {o z : State} (m : MgmtHdr) (t : PhysTile) (s : State) (w : o.Kept s) (e : execReadSoftErrorBlock m t s = .next z) : o.Kept z := by
  refine State.manage_kept w ?_ e
  repeat' first | assumption | apply State.reply_kept | (simp only [State.kept_mk]) | (refine State.Kept.of_pair ?_ (by assumption)) | (refine State.Kept.foldl _ ?_ ?_) | (intro _ _ _) | exact State.farEvent_kept _ _ _ _ w (by assumption) | exact State.copyEvent_kept _ _ _ w (by assumption) | split

theorem execClearSoftErrorBlock_kept {o z : State} (m : MgmtHdr) (t : PhysTile) (s : State) (w : o.Kept s) (e : execClearSoftErrorBlock m t s = .next z) : o.Kept z := by
  refine State.manage_kept w ?_ e
  repeat' first | assumption | apply State.reply_kept | (simp only [State.kept_mk]) | (refine State.Kept.of_pair ?_ (by assumption)) | (refine State.Kept.foldl _ ?_ ?_) | (intro _ _ _) | exact State.farEvent_kept _ _ _ _ w (by assumption) | exact State.copyEvent_kept _ _ _ w (by assumption) | split

theorem execWriteFieldRepair_kept {o z : State} (m : MgmtHdr) (t : PhysTile) (s : State) (w : o.Kept s) (e : execWriteFieldRepair m t s = .next z) : o.Kept z := by
  refine State.manage_kept w ?_ e
  repeat' first | assumption | apply State.reply_kept | (simp only [State.kept_mk]) | (refine State.Kept.of_pair ?_ (by assumption)) | (refine State.Kept.foldl _ ?_ ?_) | (intro _ _ _) | exact State.farEvent_kept _ _ _ _ w (by assumption) | exact State.copyEvent_kept _ _ _ w (by assumption) | split

theorem execReadRemap_kept {o z : State} (m : MgmtHdr) (die : Nat) (s : State) (w : o.Kept s) (e : execReadRemap m die s = .next z) : o.Kept z := by
  refine State.manage_kept w ?_ e
  repeat' first | assumption | apply State.reply_kept | (simp only [State.kept_mk]) | (refine State.Kept.of_pair ?_ (by assumption)) | (refine State.Kept.foldl _ ?_ ?_) | (intro _ _ _) | exact State.farEvent_kept _ _ _ _ w (by assumption) | exact State.copyEvent_kept _ _ _ w (by assumption) | split

theorem execReadCistern_kept {o z : State} (m : MgmtHdr) (off len : Nat) (s : State) (w : o.Kept s) (e : execReadCistern m off len s = .next z) : o.Kept z := by
  refine State.manage_kept w ?_ e
  repeat' first | assumption | apply State.reply_kept | (simp only [State.kept_mk]) | (refine State.Kept.of_pair ?_ (by assumption)) | (refine State.Kept.foldl _ ?_ ?_) | (intro _ _ _) | exact State.farEvent_kept _ _ _ _ w (by assumption) | exact State.copyEvent_kept _ _ _ w (by assumption) | split

theorem execSetPowerCap_kept {o z : State} (m : MgmtHdr) (watts : Nat) (s : State) (w : o.Kept s) (e : execSetPowerCap m watts s = .next z) : o.Kept z := by
  refine State.manage_kept w ?_ e
  repeat' first | assumption | apply State.reply_kept | (simp only [State.kept_mk]) | (refine State.Kept.of_pair ?_ (by assumption)) | (refine State.Kept.foldl _ ?_ ?_) | (intro _ _ _) | exact State.farEvent_kept _ _ _ _ w (by assumption) | exact State.copyEvent_kept _ _ _ w (by assumption) | split

theorem execReadTelemetry_kept {o z : State} (m : MgmtHdr) (s : State) (w : o.Kept s) (e : execReadTelemetry m s = .next z) : o.Kept z := by
  refine State.manage_kept w ?_ e
  exact State.reply_kept _ _ _ _ (w.of_eq rfl rfl rfl)

theorem execSetModulePosition_kept {o z : State} (m : MgmtHdr) (pos : Nat) (parts : List (Nat × Nat)) (s : State) (w : o.Kept s) (e : execSetModulePosition m pos parts s = .next z) : o.Kept z := by
  refine State.manage_kept w ?_ e
  repeat' first | assumption | apply State.reply_kept | (simp only [State.kept_mk]) | (refine State.Kept.of_pair ?_ (by assumption)) | (refine State.Kept.foldl _ ?_ ?_) | (intro _ _ _) | exact State.farEvent_kept _ _ _ _ w (by assumption) | exact State.copyEvent_kept _ _ _ w (by assumption) | split

theorem execStageFirmware_kept {o z : State} (m : MgmtHdr) (version : Nat) (image sig : List Byte) (s : State) (w : o.Kept s)
    (e : execStageFirmware m version image sig s = .next z) : o.Kept z := by
  refine State.manage_kept w ?_ e
  exact State.reply_kept _ _ _ _ (w.of_eq rfl rfl rfl)

theorem execLandingDue_kept {o z : State} (k : TileKey) (s : State) (w : o.Kept s) (e : execLandingDue k s = .next z) : o.Kept z := by
  refine State.onNamed_kept (fun t u r => ?_) e
  try dsimp only at r
  repeat' first | (split at r) | (cases r; done) | (obtain rfl := Option.some.inj r)
  all_goals
    repeat' first | assumption | apply State.holdAt_kept | apply State.raise_kept | apply State.setTile_kept

theorem execWaitDueTick_kept {o z : State} (k : TileKey) (s : State) (w : o.Kept s) (e : execWaitDueTick k s = .next z) : o.Kept z := by
  refine State.onNamed_kept (fun t u r => ?_) e
  try dsimp only at r
  repeat' first | (split at r) | (cases r; done) | (obtain rfl := Option.some.inj r)
  all_goals
    repeat' first | assumption | apply State.endWaits_kept | apply State.formGang_kept | apply State.holdAt_kept | apply State.setTile_kept

theorem execWaitConditionMet_kept {o z : State} (k : TileKey) (s : State) (w : o.Kept s) (e : execWaitConditionMet k s = .next z) : o.Kept z := by
  refine State.onNamed_kept (fun t u r => ?_) e
  have d := State.tickFresh_kept s w
  dsimp only at r
  split at r
  · split at r
    · exact Option.some.inj r ▸ State.barRead_kept _ _ _ _ _ d
    · obtain ⟨f, -, r⟩ := Option.bind_eq_some_iff.mp r
      exact State.farEvent_kept _ _ _ _ d r
  · split at r
    · exact Option.some.inj r ▸ State.onKeys_kept _ _ _ w
    · cases r

theorem execAcqPassLimit_kept {o z : State} (k : TileKey) (s : State) (w : o.Kept s) (e : execAcqPassLimit k s = .next z) : o.Kept z := by
  refine State.onNamed_kept (fun t u r => ?_) e
  try dsimp only at r
  repeat' first | (split at r) | (cases r; done) | (obtain rfl := Option.some.inj r)
  all_goals
    repeat' first | assumption | apply State.raise_kept

theorem execDeadlock_kept {o z : State} (k : TileKey) (s : State) (w : o.Kept s) (e : execDeadlock k s = .next z) : o.Kept z := by
  refine State.onNamed_kept (fun t u r => ?_) e
  obtain ⟨f, -, r⟩ := Option.map_eq_some_iff.mp r
  exact r ▸ State.deadlock_kept _ _ _ w

theorem execMatrixOpBegin_kept {o z : State} (k : TileKey) (s : State) (w : o.Kept s) (e : execMatrixOpBegin k s = .next z) : o.Kept z := by
  refine State.onNamed_kept (fun t u r => ?_) e
  try dsimp only at r
  repeat' first | (split at r) | (cases r; done) | (obtain rfl := Option.some.inj r)
  all_goals
    repeat' first | assumption | apply State.setTile_kept

theorem execMatrixStepStart_kept {o z : State} (k : TileKey) (s : State) (w : o.Kept s) (e : execMatrixStepStart k s = .next z) : o.Kept z := by
  refine State.onNamed_kept (fun t u r => ?_) e
  try dsimp only at r
  repeat' first | (split at r) | (cases r; done) | (obtain rfl := Option.some.inj r)
  all_goals
    repeat' first | assumption | apply State.holdAt_kept | apply State.setTile_kept

theorem execMatrixStepRetire_kept {o z : State} (k : TileKey) (s : State) (w : o.Kept s) (e : execMatrixStepRetire k s = .next z) : o.Kept z := by
  refine State.onNamed_kept (fun t u r => ?_) e
  try dsimp only at r
  repeat' first | (split at r) | (cases r; done) | (obtain rfl := Option.some.inj r)
  all_goals
    repeat' first | assumption | apply State.setTile_kept

theorem execMatrixStepReplay_kept {o z : State} (k : TileKey) (s : State) (w : o.Kept s) (e : execMatrixStepReplay k s = .next z) : o.Kept z := by
  refine State.onNamed_kept (fun t u r => ?_) e
  obtain ⟨x, -, r⟩ := Option.map_eq_some_iff.mp r
  rw [← r]
  have h := State.countCheck_kept _ k (t.mxReplay x.1 x.2).2 (State.setTile_kept s (t.mxReplay x.1 x.2).1 w)
  dsimp only
  split
  · exact State.countSoft_kept _ _ _ h
  · exact h

theorem execMatrixStepComplete_kept {o z : State} (k : TileKey) (s : State) (w : o.Kept s) (e : execMatrixStepComplete k s = .next z) :
    o.Kept z := by
  refine State.onNamed_kept (fun t u r => ?_) e
  split at r
  · split at r
    · cases r
    · obtain ⟨x, -, r⟩ := Option.map_eq_some_iff.mp r
      exact r ▸ State.engineDone_kept _ _ w
  · cases r

theorem execMdrnComplete_kept {o z : State} (k : TileKey) (s : State) (w : o.Kept s) (e : execMdrnComplete k s = .next z) : o.Kept z := by
  refine State.onNamed_kept (fun t u r => ?_) e
  try dsimp only at r
  repeat' first | (split at r) | (cases r; done) | (obtain rfl := Option.some.inj r)
  all_goals
    repeat' first | assumption | apply State.engineDone_kept

theorem execMclrComplete_kept {o z : State} (k : TileKey) (s : State) (w : o.Kept s) (e : execMclrComplete k s = .next z) : o.Kept z := by
  refine State.onNamed_kept (fun t u r => ?_) e
  try dsimp only at r
  repeat' first | (split at r) | (cases r; done) | (obtain rfl := Option.some.inj r)
  all_goals
    repeat' first | assumption | apply State.engineDone_kept

theorem execMldwComplete_kept {o z : State} (k : TileKey) (s : State) (w : o.Kept s) (e : execMldwComplete k s = .next z) : o.Kept z := by
  refine State.onNamed_kept (fun t u r => ?_) e
  try dsimp only at r
  repeat' first | (split at r) | (cases r; done) | (obtain rfl := Option.some.inj r)
  all_goals
    repeat' first | assumption | apply State.engineDone_kept

theorem execCascadeReadStage_kept {o z : State} (k : TileKey) (s : State) (w : o.Kept s) (e : execCascadeReadStage k s = .next z) : o.Kept z := by
  refine State.onNamed_kept (fun t u r => ?_) e
  try dsimp only at r
  repeat' first | (split at r) | (cases r; done) | (obtain rfl := Option.some.inj r)
  all_goals
    repeat' first | assumption | apply State.setTile_kept

theorem execCascadeSubtreeWrite_kept {o z : State} (k : TileKey) (s : State) (w : o.Kept s) (e : execCascadeSubtreeWrite k s = .next z) : o.Kept z := by
  refine State.onNamed_kept (fun t u r => ?_) e
  try dsimp only at r
  repeat' first | (split at r) | (cases r; done) | (obtain rfl := Option.some.inj r)
  all_goals
    repeat' first | assumption | apply State.engineDone_kept

theorem execCascadeRowMove_kept {o z : State} (k : TileKey) (s : State) (w : o.Kept s) (e : execCascadeRowMove k s = .next z) : o.Kept z := by
  refine State.onNamed_kept (fun t u r => ?_) e
  try dsimp only at r
  repeat' first | (split at r) | (cases r; done) | (obtain rfl := Option.some.inj r)
  all_goals
    repeat' first | assumption | apply State.setTile_kept

theorem execCascadeRowWrite_kept {o z : State} (k : TileKey) (s : State) (w : o.Kept s) (e : execCascadeRowWrite k s = .next z) : o.Kept z := by
  refine State.onNamed_kept (fun t u r => ?_) e
  try dsimp only at r
  repeat' first | (split at r) | (cases r; done) | (obtain rfl := Option.some.inj r)
  all_goals
    repeat' first | assumption | apply State.engineDone_kept

theorem execRillPass_kept {o z : State} (k : LaunchKey) (s : State) (w : o.Kept s) (e : execRillPass k s = .next z) : o.Kept z := by
  unfold execRillPass at e
  try dsimp only at e
  repeat' first | (split at e) | (cases e; done) | (obtain rfl := next_inj e)
  all_goals
    repeat' first | assumption | apply State.ringPass_kept

theorem execCopyCompletionDue_kept {o z : State} (k : TileKey) (s : State) (w : o.Kept s) (e : execCopyCompletionDue k s = .next z) : o.Kept z := by
  refine State.onNamed_kept (fun t u r => ?_) e
  try dsimp only at r
  repeat' first | (split at r) | (cases r; done) | (obtain rfl := Option.some.inj r)
  all_goals
    repeat' first | assumption | apply State.holdAt_kept | apply State.raise_kept | apply State.setTile_kept

/-! Syllables whose change of the tile is written out where they stand. -/

theorem execSnop_kept {o z : State} (_e : Bool) (s : State) (w : o.Kept s) (e : execSnop _e s = .next z) : o.Kept z := by
  unfold execSnop at e
  exact onTile_kept w e

theorem execLis_kept {o z : State} (m : Hdr) (d imm : Nat) (s : State) (w : o.Kept s) (e : execLis m d imm s = .next z) : o.Kept z := by
  unfold execLis at e
  exact onTile_kept w e

theorem execIns1_kept {o z : State} (m : Hdr) (d imm : Nat) (s : State) (w : o.Kept s) (e : execIns1 m d imm s = .next z) : o.Kept z := by
  unfold execIns1 at e
  exact onTile_kept w e

theorem execIns2_kept {o z : State} (m : Hdr) (d imm : Nat) (s : State) (w : o.Kept s) (e : execIns2 m d imm s = .next z) : o.Kept z := by
  unfold execIns2 at e
  exact onTile_kept w e

theorem execIns3_kept {o z : State} (m : Hdr) (d imm : Nat) (s : State) (w : o.Kept s) (e : execIns3 m d imm s = .next z) : o.Kept z := by
  unfold execIns3 at e
  exact onTile_kept w e

theorem execCsrr_kept {o z : State} (m : Hdr) (d : Nat) (c : Csr) (s : State) (w : o.Kept s) (e : execCsrr m d c s = .next z) : o.Kept z := by
  unfold execCsrr at e
  exact onTile_kept w e

theorem execSel_kept {o z : State} (m : Hdr) (d : Dest) (a b : Src) (s : State) (w : o.Kept s) (e : execSel m d a b s = .next z) : o.Kept z := by
  unfold execSel at e
  exact onTile_kept w e

theorem execMovp_kept {o z : State} (m : Hdr) (d : Dest) (a : Nat) (s : State) (w : o.Kept s) (e : execMovp m d a s = .next z) : o.Kept z := by
  unfold execMovp at e
  exact onTile_kept w e

theorem execMovtp_kept {o z : State} (m : Hdr) (d : Nat) (a : Src) (s : State) (w : o.Kept s) (e : execMovtp m d a s = .next z) : o.Kept z := by
  unfold execMovtp at e
  exact onTile_kept w e

theorem execBr_kept {r z : State} (m : Hdr) (o : Int) (s : State) (w : r.Kept s) (e : execBr m o s = .next z) : r.Kept z := by
  unfold execBr at e
  exact onTile_kept w e

theorem execCall_kept {r z : State} (m : Hdr) (o : Int) (s : State) (w : r.Kept s) (e : execCall m o s = .next z) : r.Kept z := by
  unfold execCall at e
  exact onTile_kept w e

theorem execJmpr_kept {o z : State} (m : Hdr) (a : Src) (s : State) (w : o.Kept s) (e : execJmpr m a s = .next z) : o.Kept z := by
  unfold execJmpr at e
  exact onTile_kept w e

theorem execCallr_kept {o z : State} (m : Hdr) (a : Src) (s : State) (w : o.Kept s) (e : execCallr m a s = .next z) : o.Kept z := by
  unfold execCallr at e
  exact onTile_kept w e

theorem execLoopr_kept {o z : State} (m : Hdr) (l : Nat) (a b : Src) (s : State) (w : o.Kept s) (e : execLoopr m l a b s = .next z) : o.Kept z := by
  unfold execLoopr at e
  exact onTile_kept w e

theorem execTrap_kept {o z : State} (m : Hdr) (a : Src) (s : State) (w : o.Kept s) (e : execTrap m a s = .next z) : o.Kept z := by
  unfold execTrap at e
  exact onTile_kept w e

theorem execTret_kept {o z : State} (m : Hdr) (s : State) (w : o.Kept s) (e : execTret m s = .next z) : o.Kept z := by
  unfold execTret at e
  exact onTile_kept w e

theorem execTfence_kept {o z : State} (m : Hdr) (s : State) (w : o.Kept s) (e : execTfence m s = .next z) : o.Kept z := by
  unfold execTfence at e
  exact onTile_kept w e

theorem execExit_kept {o z : State} (m : Hdr) (s : State) (w : o.Kept s) (e : execExit m s = .next z) : o.Kept z := by
  unfold execExit at e
  exact onTile_kept w e

theorem execWaitt_kept {o z : State} (m : Hdr) (a : Src) (s : State) (w : o.Kept s) (e : execWaitt m a s = .next z) : o.Kept z := by
  unfold execWaitt at e
  exact onTile_kept w e

theorem execLoop_kept {o z : State} (m : Hdr) (l : Nat) (a : Src) (len : Nat) (s : State) (w : o.Kept s) (e : execLoop m l a len s = .next z) : o.Kept z := by
  unfold execLoop at e
  exact onTile_kept w e

theorem execSld_kept {r z : State} (m : Hdr) (d : Dest) (a : Src) (size : MemSize) (sx : Bool) (o : Int) (s : State) (w : r.Kept s) (e : execSld m d a size sx o s = .next z) : r.Kept z := by
  unfold execSld at e
  exact onTile_kept w e

theorem execSst_kept {r z : State} (m : Hdr) (d : Nat) (a : Src) (size : MemSize) (o : Int) (s : State) (w : r.Kept s) (e : execSst m d a size o s = .next z) : r.Kept z := by
  unfold execSst at e
  exact onTile_kept w e

theorem execVsel_kept {o z : State} (m : Hdr) (d : Dest) (a b : Src) (s : State) (w : o.Kept s) (e : execVsel m d a b s = .next z) : o.Kept z := by
  unfold execVsel at e
  exact onTile_kept w e

theorem execPand_kept {o z : State} (m : Hdr) (d a b : Nat) (s : State) (w : o.Kept s) (e : execPand m d a b s = .next z) : o.Kept z := by
  unfold execPand at e
  exact onTile_kept w e

theorem execPor_kept {o z : State} (m : Hdr) (d a b : Nat) (s : State) (w : o.Kept s) (e : execPor m d a b s = .next z) : o.Kept z := by
  unfold execPor at e
  exact onTile_kept w e

theorem execPxor_kept {o z : State} (m : Hdr) (d a b : Nat) (s : State) (w : o.Kept s) (e : execPxor m d a b s = .next z) : o.Kept z := by
  unfold execPxor at e
  exact onTile_kept w e

theorem execPandn_kept {o z : State} (m : Hdr) (d a b : Nat) (s : State) (w : o.Kept s) (e : execPandn m d a b s = .next z) : o.Kept z := by
  unfold execPandn at e
  exact onTile_kept w e

theorem execPnot_kept {o z : State} (m : Hdr) (d a : Nat) (s : State) (w : o.Kept s) (e : execPnot m d a s = .next z) : o.Kept z := by
  unfold execPnot at e
  exact onTile_kept w e

theorem execPmov_kept {o z : State} (m : Hdr) (d a : Nat) (s : State) (w : o.Kept s) (e : execPmov m d a s = .next z) : o.Kept z := by
  unfold execPmov at e
  exact onTile_kept w e

theorem execCsrw_kept {o z : State} (m : Hdr) (d : Nat) (c : Csr) (s : State) (w : o.Kept s) (e : execCsrw m d c s = .next z) : o.Kept z := by
  unfold execCsrw at e
  exact onTile_kept w e

theorem execCsrs_kept {o z : State} (m : Hdr) (d : Nat) (c : Csr) (s : State) (w : o.Kept s) (e : execCsrs m d c s = .next z) : o.Kept z := by
  unfold execCsrs at e
  exact onTile_kept w e

theorem execCsrc_kept {o z : State} (m : Hdr) (d : Nat) (c : Csr) (s : State) (w : o.Kept s) (e : execCsrc m d c s = .next z) : o.Kept z := by
  unfold execCsrc at e
  exact onTile_kept w e

theorem execVcmprs_kept {o z : State} (m : Hdr) (d : Dest) (a : Src) (b : Nat) (s : State) (w : o.Kept s) (e : execVcmprs m d a b s = .next z) : o.Kept z := by
  unfold execVcmprs at e
  exact onTile_kept w e

theorem execVexpnd_kept {o z : State} (m : Hdr) (d : Dest) (a : Src) (b : Nat) (s : State) (w : o.Kept s) (e : execVexpnd m d a b s = .next z) : o.Kept z := by
  unfold execVexpnd at e
  exact onTile_kept w e

theorem execVrsum_kept {o z : State} (m : Hdr) (d : Dest) (a : Src) (b : Nat) (s : State) (w : o.Kept s) (e : execVrsum m d a b s = .next z) : o.Kept z := by
  unfold execVrsum at e
  exact onTile_kept w e

theorem execVrmax_kept {o z : State} (m : Hdr) (d : Dest) (a : Src) (b : Nat) (s : State) (w : o.Kept s) (e : execVrmax m d a b s = .next z) : o.Kept z := by
  unfold execVrmax at e
  exact onTile_kept w e

theorem execVrmin_kept {o z : State} (m : Hdr) (d : Dest) (a : Src) (b : Nat) (s : State) (w : o.Kept s) (e : execVrmin m d a b s = .next z) : o.Kept z := by
  unfold execVrmin at e
  exact onTile_kept w e

theorem execVrisum_kept {o z : State} (m : Hdr) (d : Dest) (a : Src) (b : Nat) (s : State) (w : o.Kept s) (e : execVrisum m d a b s = .next z) : o.Kept z := by
  unfold execVrisum at e
  exact onTile_kept w e

theorem execVscan_kept {o z : State} (m : Hdr) (d : Dest) (a : Src) (b : Nat) (s : State) (w : o.Kept s) (e : execVscan m d a b s = .next z) : o.Kept z := by
  unfold execVscan at e
  exact onTile_kept w e

theorem execVrand_kept {o z : State} (m : Hdr) (d : Dest) (a : Src) (b : Nat) (s : State) (w : o.Kept s) (e : execVrand m d a b s = .next z) : o.Kept z := by
  unfold execVrand at e
  exact onTile_kept w e

theorem execVror_kept {o z : State} (m : Hdr) (d : Dest) (a : Src) (b : Nat) (s : State) (w : o.Kept s) (e : execVror m d a b s = .next z) : o.Kept z := by
  unfold execVror at e
  exact onTile_kept w e

theorem execVrxor_kept {o z : State} (m : Hdr) (d : Dest) (a : Src) (b : Nat) (s : State) (w : o.Kept s) (e : execVrxor m d a b s = .next z) : o.Kept z := by
  unfold execVrxor at e
  exact onTile_kept w e

theorem execVmovp_kept {o z : State} (m : Hdr) (d : Dest) (a : Nat) (s : State) (w : o.Kept s) (e : execVmovp m d a s = .next z) : o.Kept z := by
  unfold execVmovp at e
  exact onTile_kept w e

theorem execVpopc_kept {o z : State} (m : Hdr) (d : Dest) (a : Nat) (s : State) (w : o.Kept s) (e : execVpopc m d a s = .next z) : o.Kept z := by
  unfold execVpopc at e
  exact onTile_kept w e

theorem execVrng_kept {o z : State} (m : Hdr) (d : Dest) (a : Src) (s : State) (w : o.Kept s) (e : execVrng m d a s = .next z) : o.Kept z := by
  unfold execVrng at e
  exact onTile_kept w e

theorem execVfmts_kept {o z : State} (m : Hdr) (a : Src) (s : State) (w : o.Kept s) (e : execVfmts m a s = .next z) : o.Kept z := by
  unfold execVfmts at e
  exact onTile_kept w e

theorem execVfmt_kept {o z : State} (m : Hdr) (bind : Bool) (f : Fmt) (s : State) (w : o.Kept s) (e : execVfmt m bind f s = .next z) : o.Kept z := by
  unfold execVfmt at e
  exact onTile_kept w e

theorem execVnop_kept {o z : State} (_e : Bool) (s : State) (w : o.Kept s) (e : execVnop _e s = .next z) : o.Kept z := by
  unfold execVnop at e
  exact onTile_kept w e

theorem execCld_kept {o z : State} (m : Hdr) (f : VFile) (d : Nat) (a : Src) (imm : Int) (s : State) (w : o.Kept s) (e : execCld m f d a imm s = .next z) : o.Kept z := by
  unfold execCld at e
  exact onTile_kept w e

theorem execCst_kept {o z : State} (m : Hdr) (f : VFile) (d : Nat) (a : Src) (imm : Int) (s : State) (w : o.Kept s) (e : execCst m f d a imm s = .next z) : o.Kept z := by
  unfold execCst at e
  exact onTile_kept w e

theorem execCgath_kept {o z : State} (m : Hdr) (f : VFile) (d : Nat) (a : Src) (wide : Bool) (x : Nat) (s : State) (w : o.Kept s) (e : execCgath m f d a wide x s = .next z) : o.Kept z := by
  unfold execCgath at e
  exact onTile_kept w e

theorem execCscat_kept {o z : State} (m : Hdr) (f : VFile) (d : Nat) (a : Src) (wide : Bool) (x : Nat) (s : State) (w : o.Kept s) (e : execCscat m f d a wide x s = .next z) : o.Kept z := by
  unfold execCscat at e
  exact onTile_kept w e

theorem execXcpsx_kept {o z : State} (m : Hdr) (d : Dest) (a : Src) (s : State) (w : o.Kept s) (e : execXcpsx m d a s = .next z) : o.Kept z := by
  unfold execXcpsx at e
  exact onTile_kept w e

theorem execXcpmx_kept {o z : State} (m : Hdr) (d : Dest) (a : Nat) (s : State) (w : o.Kept s) (e : execXcpmx m d a s = .next z) : o.Kept z := by
  unfold execXcpmx at e
  exact onTile_kept w e

theorem execXcpvax_kept {o z : State} (m : Hdr) (d : Dest) (a lane : Nat) (s : State) (w : o.Kept s) (e : execXcpvax m d a lane s = .next z) : o.Kept z := by
  unfold execXcpvax at e
  exact onTile_kept w e

theorem execXcpvbx_kept {o z : State} (m : Hdr) (d : Dest) (a lane : Nat) (s : State) (w : o.Kept s) (e : execXcpvbx m d a lane s = .next z) : o.Kept z := by
  unfold execXcpvbx at e
  exact onTile_kept w e

theorem execCnop_kept {o z : State} (_e : Bool) (s : State) (w : o.Kept s) (e : execCnop _e s = .next z) : o.Kept z := by
  unfold execCnop at e
  exact onTile_kept w e

theorem execLtime_kept {o z : State} (m : Hdr) (d : Dest) (s : State) (w : o.Kept s) (e : execLtime m d s = .next z) : o.Kept z := by
  unfold execLtime at e
  exact onTile_kept w e

theorem execSeedr_kept {o z : State} (m : Hdr) (d : Dest) (k : Nat) (s : State) (w : o.Kept s) (e : execSeedr m d k s = .next z) : o.Kept z := by
  unfold execSeedr at e
  exact onTile_kept w e

theorem execFld_kept {o z : State} (m : Hdr) (d : Nat) (a : Src) (n : Nat) (s : State) (w : o.Kept s) (e : execFld m d a n s = .next z) : o.Kept z := by
  unfold execFld at e
  exact onTile_kept w e

theorem execFst_kept {o z : State} (m : Hdr) (d : Nat) (a : Src) (s : State) (w : o.Kept s) (e : execFst m d a s = .next z) : o.Kept z := by
  unfold execFst at e
  exact onTile_kept w e

theorem execFstv_kept {o z : State} (m : Hdr) (f : VFile) (d : Nat) (a : Src) (s : State) (w : o.Kept s) (e : execFstv m f d a s = .next z) : o.Kept z := by
  unfold execFstv at e
  exact onTile_kept w e

theorem execRecv_kept {o z : State} (m : Hdr) (f : VFile) (v x n : Nat) (s : State) (w : o.Kept s) (e : execRecv m f v x n s = .next z) : o.Kept z := by
  unfold execRecv at e
  exact onTile_kept w e

theorem execGang_kept {o z : State} (m : Hdr) (a b : Src) (s : State) (w : o.Kept s) (e : execGang m a b s = .next z) : o.Kept z := by
  unfold execGang at e
  exact onTile_kept w e

theorem execRcap_kept {o z : State} (m : Hdr) (d : Bool) (a : Src) (s : State) (w : o.Kept s) (e : execRcap m d a s = .next z) : o.Kept z := by
  unfold execRcap at e
  exact onTile_kept w e

theorem execRput_kept {o z : State} (m : Hdr) (a : Src) (b : Bool) (s : State) (w : o.Kept s) (e : execRput m a b s = .next z) : o.Kept z := by
  unfold execRput at e
  exact onTile_kept w e

theorem execRcas_kept {o z : State} (m : Hdr) (d : Dest) (a : Src) (b : Nat) (s : State) (w : o.Kept s) (e : execRcas m d a b s = .next z) : o.Kept z := by
  unfold execRcas at e
  exact onTile_kept w e

theorem execPush_kept {o z : State} (m : Hdr) (q : Nat) (hi : Bool) (p : Nat) (s : State) (w : o.Kept s) (e : execPush m q hi p s = .next z) : o.Kept z := by
  unfold execPush at e
  exact onTile_kept w e

theorem execPop_kept {o z : State} (m : Hdr) (q d p : Nat) (s : State) (w : o.Kept s) (e : execPop m q d p s = .next z) : o.Kept z := by
  unfold execPop at e
  exact onTile_kept w e

theorem execPopStall_kept {o z : State} (m : Hdr) (q d n : Nat) (s : State) (w : o.Kept s) (e : execPopStall m q d n s = .next z) : o.Kept z := by
  unfold execPopStall at e
  exact onTile_kept w e

theorem execAcq_kept {o z : State} (m : Hdr) (k : Nat) (a : Src) (b : Nat) (s : State) (w : o.Kept s) (e : execAcq m k a b s = .next z) : o.Kept z := by
  unfold execAcq at e
  exact onTile_kept w e

theorem execBar_kept {o z : State} (m : Hdr) (k : Nat) (a b : Src) (s : State) (w : o.Kept s) (e : execBar m k a b s = .next z) : o.Kept z := by
  unfold execBar at e
  exact onTile_kept w e

theorem execFence_kept {o z : State} (m : Hdr) (k : Nat) (sc : Scope) (s : State) (w : o.Kept s) (e : execFence m k sc s = .next z) : o.Kept z := by
  unfold execFence at e
  exact onTile_kept w e

theorem execTrig_kept {o z : State} (m : Hdr) (s : State) (w : o.Kept s) (e : execTrig m s = .next z) : o.Kept z := by
  unfold execTrig at e
  exact onTile_kept w e

theorem execStep_kept {o z : State} (m : Hdr) (k : Nat) (s : State) (w : o.Kept s) (e : execStep m k s = .next z) : o.Kept z := by
  unfold execStep at e
  exact onTile_kept w e

theorem execCrgo_kept {o z : State} (m : Hdr) (a : Src) (s : State) (w : o.Kept s) (e : execCrgo m a s = .next z) : o.Kept z := by
  unfold execCrgo at e
  exact onTile_kept w e

theorem execCrgc_kept {o z : State} (m : Hdr) (s : State) (w : o.Kept s) (e : execCrgc m s = .next z) : o.Kept z := by
  unfold execCrgc at e
  exact onTile_kept w e

theorem execMdrn_kept {o z : State} (m : Hdr) (c : Nat) (s : State) (w : o.Kept s) (e : execMdrn m c s = .next z) : o.Kept z := by
  unfold execMdrn at e
  exact onTile_kept w e

theorem execMclr_kept {o z : State} (m : Hdr) (mask : Nat) (s : State) (w : o.Kept s) (e : execMclr m mask s = .next z) : o.Kept z := by
  unfold execMclr at e
  exact onTile_kept w e

theorem execMldw_kept {o z : State} (m : Hdr) (a : MSrc) (w c : Nat) (s : State) (k : o.Kept s) (e : execMldw m a w c s = .next z) : o.Kept z := by
  unfold execMldw at e
  exact onTile_kept k e

theorem execMstop_kept {o z : State} (m : Hdr) (s : State) (w : o.Kept s) (e : execMstop m s = .next z) : o.Kept z := by
  unfold execMstop at e
  exact onTile_kept w e

theorem execMcfg_kept {o z : State} (m : Hdr) (a b : MSrc) (i : MField) (s : State) (w : o.Kept s) (e : execMcfg m a b i s = .next z) : o.Kept z := by
  unfold execMcfg at e
  exact onTile_kept w e

theorem execMmirr_kept {o z : State} (m : Hdr) (on : Bool) (s : State) (w : o.Kept s) (e : execMmirr m on s = .next z) : o.Kept z := by
  unfold execMmirr at e
  exact onTile_kept w e

theorem execMfmt_kept {o z : State} (m : Hdr) (bind : Bool) (fb fa : Fmt) (s : State) (w : o.Kept s) (e : execMfmt m bind fb fa s = .next z) : o.Kept z := by
  unfold execMfmt at e
  exact onTile_kept w e

theorem execMli_kept {o z : State} (m : Hdr) (d imm : Nat) (s : State) (w : o.Kept s) (e : execMli m d imm s = .next z) : o.Kept z := by
  unfold execMli at e
  exact onTile_kept w e

theorem execMstat_kept {o z : State} (m : Hdr) (d i : Nat) (s : State) (w : o.Kept s) (e : execMstat m d i s = .next z) : o.Kept z := by
  unfold execMstat at e
  exact onTile_kept w e

theorem execSpld_kept {o z : State} (m : Hdr) (a b : MSrc) (s : State) (w : o.Kept s) (e : execSpld m a b s = .next z) : o.Kept z := by
  unfold execSpld at e
  exact onTile_kept w e

theorem execSpst_kept {o z : State} (m : Hdr) (a b : MSrc) (s : State) (w : o.Kept s) (e : execSpst m a b s = .next z) : o.Kept z := by
  unfold execSpst at e
  exact onTile_kept w e

theorem execSpscl_kept {o z : State} (m : Hdr) (a : MSrc) (n : Int) (s : State) (w : o.Kept s) (e : execSpscl m a n s = .next z) : o.Kept z := by
  unfold execSpscl at e
  exact onTile_kept w e

theorem execSpclr_kept {o z : State} (m : Hdr) (a : MSrc) (s : State) (w : o.Kept s) (e : execSpclr m a s = .next z) : o.Kept z := by
  unfold execSpclr at e
  exact onTile_kept w e

theorem execSpmode_kept {o z : State} (m : Hdr) (dx : Nat) (f : CFmt) (s : State) (w : o.Kept s) (e : execSpmode m dx f s = .next z) : o.Kept z := by
  unfold execSpmode at e
  exact onTile_kept w e

theorem execSpstat_kept {o z : State} (m : Hdr) (d i : Nat) (s : State) (w : o.Kept s) (e : execSpstat m d i s = .next z) : o.Kept z := by
  unfold execSpstat at e
  exact onTile_kept w e

theorem execRel_kept {o z : State} (m : Hdr) (b : Nat) (s : State) (w : o.Kept s) (e : execRel m b s = .next z) : o.Kept z := by
  unfold execRel at e
  exact onTile_kept w e

end Sys2Proof.Machine
end

