-- ==== Sys2Proof/Laws/KeptStep.lean ====
section
/-! SUPPORT. Every step of the opcode table that is no module reset keeps the clock, the counter and the form of HBM. -/

namespace Sys2Proof.Machine

theorem exec_kept {i : Instr} {s u : State} (h : resetsModule i = false) (e : exec i s = .next u) : s.Kept u := by
  cases i with
  | snop x => exact execSnop_kept x _ (State.Kept.refl _) e
  | add => exact onTile_kept (State.Kept.refl _) e
  | sub => exact onTile_kept (State.Kept.refl _) e
  | and => exact onTile_kept (State.Kept.refl _) e
  | or => exact onTile_kept (State.Kept.refl _) e
  | xor => exact onTile_kept (State.Kept.refl _) e
  | shl => exact onTile_kept (State.Kept.refl _) e
  | shr => exact onTile_kept (State.Kept.refl _) e
  | sra => exact onTile_kept (State.Kept.refl _) e
  | mul => exact onTile_kept (State.Kept.refl _) e
  | mulh => exact onTile_kept (State.Kept.refl _) e
  | mulhu => exact onTile_kept (State.Kept.refl _) e
  | div => exact onTile_kept (State.Kept.refl _) e
  | divu => exact onTile_kept (State.Kept.refl _) e
  | rem => exact onTile_kept (State.Kept.refl _) e
  | remu => exact onTile_kept (State.Kept.refl _) e
  | clz => exact onTile_kept (State.Kept.refl _) e
  | min => exact onTile_kept (State.Kept.refl _) e
  | max => exact onTile_kept (State.Kept.refl _) e
  | minu => exact onTile_kept (State.Kept.refl _) e
  | maxu => exact onTile_kept (State.Kept.refl _) e
  | rotl => exact onTile_kept (State.Kept.refl _) e
  | popc => exact onTile_kept (State.Kept.refl _) e
  | ctz => exact onTile_kept (State.Kept.refl _) e
  | bswap => exact onTile_kept (State.Kept.refl _) e
  | addi => exact onTile_kept (State.Kept.refl _) e
  | andi => exact onTile_kept (State.Kept.refl _) e
  | ori => exact onTile_kept (State.Kept.refl _) e
  | xori => exact onTile_kept (State.Kept.refl _) e
  | shli => exact onTile_kept (State.Kept.refl _) e
  | shri => exact onTile_kept (State.Kept.refl _) e
  | srai => exact onTile_kept (State.Kept.refl _) e
  | rotli => exact onTile_kept (State.Kept.refl _) e
  | lis => exact execLis_kept _ _ _ _ (State.Kept.refl _) e
  | ins1 => exact execIns1_kept _ _ _ _ (State.Kept.refl _) e
  | ins2 => exact execIns2_kept _ _ _ _ (State.Kept.refl _) e
  | ins3 => exact execIns3_kept _ _ _ _ (State.Kept.refl _) e
  | cmpeq => exact onTile_kept (State.Kept.refl _) e
  | cmpne => exact onTile_kept (State.Kept.refl _) e
  | cmplt => exact onTile_kept (State.Kept.refl _) e
  | cmpltu => exact onTile_kept (State.Kept.refl _) e
  | cmple => exact onTile_kept (State.Kept.refl _) e
  | cmpleu => exact onTile_kept (State.Kept.refl _) e
  | cmptst => exact onTile_kept (State.Kept.refl _) e
  | pand => exact execPand_kept _ _ _ _ _ (State.Kept.refl _) e
  | por => exact execPor_kept _ _ _ _ _ (State.Kept.refl _) e
  | pxor => exact execPxor_kept _ _ _ _ _ (State.Kept.refl _) e
  | pandn => exact execPandn_kept _ _ _ _ _ (State.Kept.refl _) e
  | pnot => exact execPnot_kept _ _ _ _ (State.Kept.refl _) e
  | pmov => exact execPmov_kept _ _ _ _ (State.Kept.refl _) e
  | pset => exact onTile_kept (State.Kept.refl _) e
  | pclr => exact onTile_kept (State.Kept.refl _) e
  | csrr => exact execCsrr_kept _ _ _ _ (State.Kept.refl _) e
  | csrw => exact execCsrw_kept _ _ _ _ (State.Kept.refl _) e
  | csrs => exact execCsrs_kept _ _ _ _ (State.Kept.refl _) e
  | csrc => exact execCsrc_kept _ _ _ _ (State.Kept.refl _) e
  | sel => exact execSel_kept _ _ _ _ _ (State.Kept.refl _) e
  | movp => exact execMovp_kept _ _ _ _ (State.Kept.refl _) e
  | movtp => exact execMovtp_kept _ _ _ _ (State.Kept.refl _) e
  | br => exact execBr_kept _ _ _ (State.Kept.refl _) e
  | call => exact execCall_kept _ _ _ (State.Kept.refl _) e
  | jmpr => exact execJmpr_kept _ _ _ (State.Kept.refl _) e
  | callr => exact execCallr_kept _ _ _ (State.Kept.refl _) e
  | loopr => exact execLoopr_kept _ _ _ _ _ (State.Kept.refl _) e
  | trap => exact execTrap_kept _ _ _ (State.Kept.refl _) e
  | tret => exact execTret_kept _ _ (State.Kept.refl _) e
  | tfence => exact execTfence_kept _ _ (State.Kept.refl _) e
  | exit => exact execExit_kept _ _ (State.Kept.refl _) e
  | waitt => exact execWaitt_kept _ _ _ (State.Kept.refl _) e
  | loop => exact execLoop_kept _ _ _ _ _ (State.Kept.refl _) e
  | sld => exact execSld_kept _ _ _ _ _ _ _ (State.Kept.refl _) e
  | sst => exact execSst_kept _ _ _ _ _ _ (State.Kept.refl _) e
  | vadd => exact onTile_kept (State.Kept.refl _) e
  | vsub => exact onTile_kept (State.Kept.refl _) e
  | vmul => exact onTile_kept (State.Kept.refl _) e
  | vmin => exact onTile_kept (State.Kept.refl _) e
  | vmax => exact onTile_kept (State.Kept.refl _) e
  | vabs => exact onTile_kept (State.Kept.refl _) e
  | vneg => exact onTile_kept (State.Kept.refl _) e
  | vcps => exact onTile_kept (State.Kept.refl _) e
  | vfma => exact onTile_kept (State.Kept.refl _) e
  | vfms => exact onTile_kept (State.Kept.refl _) e
  | vfnma => exact onTile_kept (State.Kept.refl _) e
  | vfnms => exact onTile_kept (State.Kept.refl _) e
  | vdiv => exact onTile_kept (State.Kept.refl _) e
  | vsqrt => exact onTile_kept (State.Kept.refl _) e
  | vrcp => exact onTile_kept (State.Kept.refl _) e
  | vrsq => exact onTile_kept (State.Kept.refl _) e
  | vexp2 => exact onTile_kept (State.Kept.refl _) e
  | vlog2 => exact onTile_kept (State.Kept.refl _) e
  | vrint => exact onTile_kept (State.Kept.refl _) e
  | vrintz => exact onTile_kept (State.Kept.refl _) e
  | vclass => exact onTile_kept (State.Kept.refl _) e
  | vscale => exact onTile_kept (State.Kept.refl _) e
  | vgetexp => exact onTile_kept (State.Kept.refl _) e
  | vminnum => exact onTile_kept (State.Kept.refl _) e
  | vfceq => exact onTile_kept (State.Kept.refl _) e
  | vfcne => exact onTile_kept (State.Kept.refl _) e
  | vfclt => exact onTile_kept (State.Kept.refl _) e
  | vfcle => exact onTile_kept (State.Kept.refl _) e
  | vfcgt => exact onTile_kept (State.Kept.refl _) e
  | vfcge => exact onTile_kept (State.Kept.refl _) e
  | vfcunord => exact onTile_kept (State.Kept.refl _) e
  | vfcord => exact onTile_kept (State.Kept.refl _) e
  | viadd => exact onTile_kept (State.Kept.refl _) e
  | visub => exact onTile_kept (State.Kept.refl _) e
  | vimul => exact onTile_kept (State.Kept.refl _) e
  | vimulh => exact onTile_kept (State.Kept.refl _) e
  | vimin => exact onTile_kept (State.Kept.refl _) e
  | vimax => exact onTile_kept (State.Kept.refl _) e
  | viminu => exact onTile_kept (State.Kept.refl _) e
  | vimaxu => exact onTile_kept (State.Kept.refl _) e
  | viadds => exact onTile_kept (State.Kept.refl _) e
  | viaddsu => exact onTile_kept (State.Kept.refl _) e
  | visubs => exact onTile_kept (State.Kept.refl _) e
  | visubsu => exact onTile_kept (State.Kept.refl _) e
  | viabs => exact onTile_kept (State.Kept.refl _) e
  | vineg => exact onTile_kept (State.Kept.refl _) e
  | viavg => exact onTile_kept (State.Kept.refl _) e
  | viavgu => exact onTile_kept (State.Kept.refl _) e
  | vand => exact onTile_kept (State.Kept.refl _) e
  | vor => exact onTile_kept (State.Kept.refl _) e
  | vxor => exact onTile_kept (State.Kept.refl _) e
  | vandn => exact onTile_kept (State.Kept.refl _) e
  | vshl => exact onTile_kept (State.Kept.refl _) e
  | vshr => exact onTile_kept (State.Kept.refl _) e
  | vsra => exact onTile_kept (State.Kept.refl _) e
  | vnot => exact onTile_kept (State.Kept.refl _) e
  | viceq => exact onTile_kept (State.Kept.refl _) e
  | vicne => exact onTile_kept (State.Kept.refl _) e
  | viclt => exact onTile_kept (State.Kept.refl _) e
  | vicltu => exact onTile_kept (State.Kept.refl _) e
  | vicle => exact onTile_kept (State.Kept.refl _) e
  | vicleu => exact onTile_kept (State.Kept.refl _) e
  | victst => exact onTile_kept (State.Kept.refl _) e
  | vcvt => exact onTile_kept (State.Kept.refl _) e
  | vperm => exact onTile_kept (State.Kept.refl _) e
  | vzip => exact onTile_kept (State.Kept.refl _) e
  | vunzip => exact onTile_kept (State.Kept.refl _) e
  | vrev => exact onTile_kept (State.Kept.refl _) e
  | vrot => exact onTile_kept (State.Kept.refl _) e
  | vsel => exact execVsel_kept _ _ _ _ _ (State.Kept.refl _) e
  | vcmprs => exact execVcmprs_kept _ _ _ _ _ (State.Kept.refl _) e
  | vexpnd => exact execVexpnd_kept _ _ _ _ _ (State.Kept.refl _) e
  | vrsum => exact execVrsum_kept _ _ _ _ _ (State.Kept.refl _) e
  | vrmax => exact execVrmax_kept _ _ _ _ _ (State.Kept.refl _) e
  | vrmin => exact execVrmin_kept _ _ _ _ _ (State.Kept.refl _) e
  | vrisum => exact execVrisum_kept _ _ _ _ _ (State.Kept.refl _) e
  | vscan => exact execVscan_kept _ _ _ _ _ (State.Kept.refl _) e
  | vrand => exact execVrand_kept _ _ _ _ _ (State.Kept.refl _) e
  | vror => exact execVror_kept _ _ _ _ _ (State.Kept.refl _) e
  | vrxor => exact execVrxor_kept _ _ _ _ _ (State.Kept.refl _) e
  | vspli => exact onTile_kept (State.Kept.refl _) e
  | viota => exact onTile_kept (State.Kept.refl _) e
  | vsplat => exact onTile_kept (State.Kept.refl _) e
  | vmovp => exact execVmovp_kept _ _ _ _ (State.Kept.refl _) e
  | vpopc => exact execVpopc_kept _ _ _ _ (State.Kept.refl _) e
  | vrng => exact execVrng_kept _ _ _ _ (State.Kept.refl _) e
  | vfmts => exact execVfmts_kept _ _ _ (State.Kept.refl _) e
  | vfmt => exact execVfmt_kept _ _ _ _ (State.Kept.refl _) e
  | vnop x => exact execVnop_kept x _ (State.Kept.refl _) e
  | vdot4s => exact onTile_kept (State.Kept.refl _) e
  | vdot4u => exact onTile_kept (State.Kept.refl _) e
  | vdot2bf => exact onTile_kept (State.Kept.refl _) e
  | vdot2h => exact onTile_kept (State.Kept.refl _) e
  | cld => exact execCld_kept _ _ _ _ _ _ (State.Kept.refl _) e
  | cst => exact execCst_kept _ _ _ _ _ _ (State.Kept.refl _) e
  | cgath => exact execCgath_kept _ _ _ _ _ _ _ (State.Kept.refl _) e
  | cscat => exact execCscat_kept _ _ _ _ _ _ _ (State.Kept.refl _) e
  | xcpsx => exact execXcpsx_kept _ _ _ _ (State.Kept.refl _) e
  | xcpxs => exact onTile_kept (State.Kept.refl _) e
  | xcpmx => exact execXcpmx_kept _ _ _ _ (State.Kept.refl _) e
  | xcpxm => exact onTile_kept (State.Kept.refl _) e
  | xcpvax => exact execXcpvax_kept _ _ _ _ _ (State.Kept.refl _) e
  | xcpvbx => exact execXcpvbx_kept _ _ _ _ _ (State.Kept.refl _) e
  | xcpxva => exact onTile_kept (State.Kept.refl _) e
  | xcpxvb => exact onTile_kept (State.Kept.refl _) e
  | fld => exact execFld_kept _ _ _ _ _ (State.Kept.refl _) e
  | fldv => exact onTile_kept (State.Kept.refl _) e
  | fst => exact execFst_kept _ _ _ _ (State.Kept.refl _) e
  | fstv => exact execFstv_kept _ _ _ _ _ (State.Kept.refl _) e
  | send => exact execSend_kept _ _ _ _ _ (State.Kept.refl _) e
  | recv => exact execRecv_kept _ _ _ _ _ _ (State.Kept.refl _) e
  | push => exact execPush_kept _ _ _ _ _ (State.Kept.refl _) e
  | pop => exact execPop_kept _ _ _ _ _ (State.Kept.refl _) e
  | popStall => exact execPopStall_kept _ _ _ _ _ (State.Kept.refl _) e
  | rcap => exact execRcap_kept _ _ _ _ (State.Kept.refl _) e
  | rput => exact execRput_kept _ _ _ _ (State.Kept.refl _) e
  | radd => exact onTile_kept (State.Kept.refl _) e
  | rcas => exact execRcas_kept _ _ _ _ _ (State.Kept.refl _) e
  | rmaxu => exact onTile_kept (State.Kept.refl _) e
  | ror => exact onTile_kept (State.Kept.refl _) e
  | board => exact execBoard_kept _ _ (State.Kept.refl _) e
  | alight => exact execAlight_kept _ _ (State.Kept.refl _) e
  | alightFree => exact execAlightFree_kept _ _ (State.Kept.refl _) e
  | aadd => exact onTile_kept (State.Kept.refl _) e
  | aincw => exact onTile_kept (State.Kept.refl _) e
  | afaab => exact onTile_kept (State.Kept.refl _) e
  | acas => exact onTile_kept (State.Kept.refl _) e
  | axchg => exact onTile_kept (State.Kept.refl _) e
  | amins => exact onTile_kept (State.Kept.refl _) e
  | amaxu => exact onTile_kept (State.Kept.refl _) e
  | aorb => exact onTile_kept (State.Kept.refl _) e
  | acq => exact execAcq_kept _ _ _ _ _ (State.Kept.refl _) e
  | rel => exact execRel_kept _ _ _ (State.Kept.refl _) e
  | bar => exact execBar_kept _ _ _ _ _ (State.Kept.refl _) e
  | fence => exact execFence_kept _ _ _ _ (State.Kept.refl _) e
  | trig => exact execTrig_kept _ _ (State.Kept.refl _) e
  | step => exact execStep_kept _ _ _ (State.Kept.refl _) e
  | crgo => exact execCrgo_kept _ _ _ (State.Kept.refl _) e
  | crgc => exact execCrgc_kept _ _ (State.Kept.refl _) e
  | cnop x => exact execCnop_kept x _ (State.Kept.refl _) e
  | ltime => exact execLtime_kept _ _ _ (State.Kept.refl _) e
  | seedr => exact execSeedr_kept _ _ _ _ (State.Kept.refl _) e
  | gang => exact execGang_kept _ _ _ _ (State.Kept.refl _) e
  | mcfg => exact execMcfg_kept _ _ _ _ _ (State.Kept.refl _) e
  | mgo => exact onTile_kept (State.Kept.refl _) e
  | mgog => exact onTile_kept (State.Kept.refl _) e
  | mdrn => exact execMdrn_kept _ _ _ (State.Kept.refl _) e
  | mclr => exact execMclr_kept _ _ _ (State.Kept.refl _) e
  | mstat => exact execMstat_kept _ _ _ _ (State.Kept.refl _) e
  | mldw => exact execMldw_kept _ _ _ _ _ (State.Kept.refl _) e
  | mmirr => exact execMmirr_kept _ _ _ (State.Kept.refl _) e
  | mstop => exact execMstop_kept _ _ (State.Kept.refl _) e
  | mfmt => exact execMfmt_kept _ _ _ _ _ (State.Kept.refl _) e
  | spup => exact onTile_kept (State.Kept.refl _) e
  | spdn => exact onTile_kept (State.Kept.refl _) e
  | spld => exact execSpld_kept _ _ _ _ (State.Kept.refl _) e
  | spst => exact execSpst_kept _ _ _ _ (State.Kept.refl _) e
  | spscl => exact execSpscl_kept _ _ _ _ (State.Kept.refl _) e
  | spmode => exact execSpmode_kept _ _ _ _ (State.Kept.refl _) e
  | spclr => exact execSpclr_kept _ _ _ (State.Kept.refl _) e
  | spstat => exact execSpstat_kept _ _ _ _ (State.Kept.refl _) e
  | mli => exact execMli_kept _ _ _ _ (State.Kept.refl _) e
  | mnop x => exact execMnop_kept x _ (State.Kept.refl _) e
  | landingArrival => exact execLandingArrival_kept _ _ _ _ (State.Kept.refl _) e
  | landingDue => exact execLandingDue_kept _ _ (State.Kept.refl _) e
  | messageArrival => exact execMessageArrival_kept _ _ _ _ (State.Kept.refl _) e
  | waitDueTick => exact execWaitDueTick_kept _ _ (State.Kept.refl _) e
  | waitConditionMet => exact execWaitConditionMet_kept _ _ (State.Kept.refl _) e
  | acqPassLimit => exact execAcqPassLimit_kept _ _ (State.Kept.refl _) e
  | deadlock => exact execDeadlock_kept _ _ (State.Kept.refl _) e
  | farStorePerform => exact execFarStorePerform_kept _ _ _ (State.Kept.refl _) e
  | remoteAccessApply => exact execRemoteAccessApply_kept _ _ _ (State.Kept.refl _) e
  | relIncrement => exact execRelIncrement_kept _ _ _ (State.Kept.refl _) e
  | matrixOpBegin => exact execMatrixOpBegin_kept _ _ (State.Kept.refl _) e
  | matrixStepStart => exact execMatrixStepStart_kept _ _ (State.Kept.refl _) e
  | matrixStepRetire => exact execMatrixStepRetire_kept _ _ (State.Kept.refl _) e
  | matrixStepReplay => exact execMatrixStepReplay_kept _ _ (State.Kept.refl _) e
  | matrixStepComplete => exact execMatrixStepComplete_kept _ _ (State.Kept.refl _) e
  | mdrnComplete => exact execMdrnComplete_kept _ _ (State.Kept.refl _) e
  | mclrComplete => exact execMclrComplete_kept _ _ (State.Kept.refl _) e
  | mldwComplete => exact execMldwComplete_kept _ _ (State.Kept.refl _) e
  | cascadeReadStage => exact execCascadeReadStage_kept _ _ (State.Kept.refl _) e
  | cascadeSubtreeWrite => exact execCascadeSubtreeWrite_kept _ _ (State.Kept.refl _) e
  | cascadeRowMove => exact execCascadeRowMove_kept _ _ (State.Kept.refl _) e
  | cascadeRowWrite => exact execCascadeRowWrite_kept _ _ (State.Kept.refl _) e
  | rillPass => exact execRillPass_kept _ _ (State.Kept.refl _) e
  | copyCommandComplete => exact execCopyCommandComplete_kept _ _ _ (State.Kept.refl _) e
  | copyCompletionDue => exact execCopyCompletionDue_kept _ _ (State.Kept.refl _) e
  | copyCommandStop => exact execCopyCommandStop_kept _ _ _ (State.Kept.refl _) e
  | translationWalk => exact execTranslationWalk_kept _ _ _ _ _ (State.Kept.refl _) e
  | pageRequestTimeout => exact execPageRequestTimeout_kept _ _ _ (State.Kept.refl _) e
  | remotePathTimeout => exact execRemotePathTimeout_kept _ _ _ (State.Kept.refl _) e
  | invalidationComplete => exact execInvalidationComplete_kept _ _ (State.Kept.refl _) e
  | teardownComplete => exact execTeardownComplete_kept _ _ (State.Kept.refl _) e
  | contextSaveComplete => exact execContextSaveComplete_kept _ _ (State.Kept.refl _) e
  | queuePoll => exact execQueuePoll_kept _ _ (State.Kept.refl _) e
  | timetable => exact execTimetable_kept _ _ _ (State.Kept.refl _) e
  | timetableIndirect => exact execTimetableIndirect_kept _ _ _ (State.Kept.refl _) e
  | wait => exact execWait_kept _ _ _ (State.Kept.refl _) e
  | signal => exact execSignal_kept _ _ _ (State.Kept.refl _) e
  | copy => exact execCopy_kept _ _ _ (State.Kept.refl _) e
  | seedPush => exact execSeedPush_kept _ _ _ (State.Kept.refl _) e
  | seedPop => exact execSeedPop_kept _ _ _ (State.Kept.refl _) e
  | seedFork => exact execSeedFork_kept _ _ _ (State.Kept.refl _) e
  | checkpointPolicy => exact execCheckpointPolicy_kept _ _ _ (State.Kept.refl _) e
  | barrierAnd => exact execBarrierAnd_kept _ _ _ (State.Kept.refl _) e
  | nop => exact execNop_kept _ _ _ (State.Kept.refl _) e
  | launchArm => exact execLaunchArm_kept _ _ (State.Kept.refl _) e
  | launchStart => exact execLaunchStart_kept _ _ (State.Kept.refl _) e
  | tileStart => exact execTileStart_kept _ _ (State.Kept.refl _) e
  | launchTrigger => exact execLaunchTrigger_kept _ _ (State.Kept.refl _) e
  | launchRetire => exact execLaunchRetire_kept _ _ (State.Kept.refl _) e
  | queueRestart => exact execQueueRestart_kept _ _ (State.Kept.refl _) e
  | queueDestroy => exact execQueueDestroy_kept _ _ (State.Kept.refl _) e
  | queueDestroyed => exact execQueueDestroyed_kept _ _ (State.Kept.refl _) e
  | queueParkTimeout => exact execQueueParkTimeout_kept _ _ (State.Kept.refl _) e
  | watchdogRestart => exact execWatchdogRestart_kept _ _ (State.Kept.refl _) e
  | fatalError => exact execFatalError_kept _ _ _ (State.Kept.refl _) e
  | collectiveTableWrite => exact execCollectiveTableWrite_kept _ _ _ (State.Kept.refl _) e
  | collectiveReadyWrite => exact execCollectiveReadyWrite_kept _ _ _ (State.Kept.refl _) e
  | collectiveRoundFire => exact execCollectiveRoundFire_kept _ _ _ (State.Kept.refl _) e
  | collectiveRoundComplete => exact execCollectiveRoundComplete_kept _ _ _ (State.Kept.refl _) e
  | checkpointTimer => exact execCheckpointTimer_kept _ _ (State.Kept.refl _) e
  | checkpointShardTake => exact execCheckpointShardTake_kept _ _ (State.Kept.refl _) e
  | checkpointShardTaken => exact execCheckpointShardTaken_kept _ _ (State.Kept.refl _) e
  | scrub => exact execScrub_kept _ _ _ (State.Kept.refl _) e
  | dutyUpdate => exact execDutyUpdate_kept _ (State.Kept.refl _) e
  | thermalTrip => cases h
  | powerGood => cases h
  | powerOff => cases h
  | managementConnect => exact execManagementConnect_kept _ _ _ _ (State.Kept.refl _) e
  | registerQueue => exact execRegisterQueue_kept _ _ _ _ (State.Kept.refl _) e
  | unregisterQueue => exact execUnregisterQueue_kept _ _ _ (State.Kept.refl _) e
  | invalidateTranslations => exact execInvalidateTranslations_kept _ _ _ _ (State.Kept.refl _) e
  | answerPageRequest => exact execAnswerPageRequest_kept _ _ _ _ _ (State.Kept.refl _) e
  | createContext => exact execCreateContext_kept _ _ _ (State.Kept.refl _) e
  | teardownContext => exact execTeardownContext_kept _ _ _ (State.Kept.refl _) e
  | preemptContext => exact execPreemptContext_kept _ _ _ (State.Kept.refl _) e
  | restoreContext => exact execRestoreContext_kept _ _ _ _ (State.Kept.refl _) e
  | readLaunchRecord => exact execReadLaunchRecord_kept _ _ _ _ (State.Kept.refl _) e
  | readIdentityKey => exact execReadIdentityKey_kept _ _ (State.Kept.refl _) e
  | setCheckpointConfig => exact execSetCheckpointConfig_kept _ _ _ _ (State.Kept.refl _) e
  | restoreCheckpoint => exact execRestoreCheckpoint_kept _ _ _ _ _ (State.Kept.refl _) e
  | readLatestShard => exact execReadLatestShard_kept _ _ _ (State.Kept.refl _) e
  | readSoftErrorBlock => exact execReadSoftErrorBlock_kept _ _ _ (State.Kept.refl _) e
  | clearSoftErrorBlock => exact execClearSoftErrorBlock_kept _ _ _ (State.Kept.refl _) e
  | writeFieldRepair => exact execWriteFieldRepair_kept _ _ _ (State.Kept.refl _) e
  | readRemap => exact execReadRemap_kept _ _ _ (State.Kept.refl _) e
  | readCistern => exact execReadCistern_kept _ _ _ _ (State.Kept.refl _) e
  | setPowerCap => exact execSetPowerCap_kept _ _ _ (State.Kept.refl _) e
  | readTelemetry => exact execReadTelemetry_kept _ _ (State.Kept.refl _) e
  | setModulePosition => exact execSetModulePosition_kept _ _ _ _ (State.Kept.refl _) e
  | stageFirmware _ v _ _ => exact execStageFirmware_kept _ v _ _ _ (State.Kept.refl _) e
  | resetModule => cases h
  | ualinkRemoteRequest => exact execUalinkRemoteRequest_kept _ _ (State.Kept.refl _) e
  | frontEndCoreRestarted => exact execFrontEndCoreRestarted_kept _ _ (State.Kept.refl _) e
  | signalConditionMet => exact execSignalConditionMet_kept _ _ _ (State.Kept.refl _) e


/-! The schedule. -/

theorem State.Kept.withTile {o s : State} (w : o.Kept s) (t : Tile) : o.Kept { s with tile := t } := w.of_eq rfl rfl rfl

theorem State.attempt_kept {o s : State} {f : State → Host.Outcome State Fault Refusal} (w : o.Kept s)
    (hf : ∀ u, f s = .next u → o.Kept u) : o.Kept (s.attempt f) := by
  unfold State.attempt
  split
  · exact hf _ (by assumption)
  · exact w

/-- A syllable acts. -/
theorem Issued.act_kept {o : State} {p : Issued} (addr next : Nat) (follow : Option Bool) (y : Syl) (w : o.Kept p.s)
    (h : resetsModule y.instr = false) : o.Kept (p.act addr next follow y).s := by
  have v : o.Kept (p.struck y).s := by
    unfold Issued.struck
    split <;> exact w
  unfold Issued.act
  dsimp only
  split
  · rename_i e
    have k := State.Kept.trans (State.Kept.withTile v _) (exec_kept h e)
    split
    · exact v
    · split <;> exact v
    · exact k
  · exact v

theorem wordSyl_quiet {p w : Nat} {k : Option Slot} {y : Syl} (h : wordSyl p w k = some y) : resetsModule y.instr = false := by
  unfold wordSyl at h
  split at h
  · obtain rfl := Option.some.inj h
    exact decodeWord_quiet (by assumption)
  · cases h

theorem mem_insertBy {α : Type} {f : α → Nat} {a x : α} {l : List α} (h : x ∈ insertBy f a l) : x = a ∨ x ∈ l := by
  induction l with
  | nil => exact .inl (List.mem_singleton.mp h)
  | cons b l ih =>
    unfold insertBy at h
    split at h
    · rcases List.mem_cons.mp h with h | h
      · exact .inl h
      · exact .inr h
    · rcases List.mem_cons.mp h with h | h
      · exact .inr (h ▸ List.mem_cons_self)
      · exact (ih h).imp_right (List.mem_cons_of_mem _)

/-- Sorting brings nothing new. -/
theorem mem_sortBy {α : Type} {f : α → Nat} {x : α} {l : List α} (h : x ∈ sortBy f l) : x ∈ l := by
  have g : ∀ (l acc : List α), x ∈ l.foldl (fun acc x => insertBy f x acc) acc → x ∈ l ∨ x ∈ acc := by
    intro l
    induction l with
    | nil => exact fun _ h => .inr h
    | cons b l ih =>
      intro acc h
      rcases ih _ h with h | h
      · exact .inl (List.mem_cons_of_mem _ h)
      · rcases mem_insertBy h with h | h
        · exact .inl (h ▸ List.mem_cons_self)
        · exact .inr h
  simpa using g l [] h

theorem sylsOf_quiet {ws : List Nat} {y : Syl} (h : y ∈ sylsOf ws) : resetsModule y.instr = false := by
  obtain ⟨x, -, e⟩ := List.mem_filterMap.mp (mem_sortBy h)
  exact wordSyl_quiet e

/-- A fold over some elements keeps what each of them keeps. -/
theorem foldl_keep {α β : Type} {P : β → Prop} {f : β → α → β} : ∀ (l : List α) {b : β}, P b → (∀ x a, a ∈ l → P x → P (f x a)) →
    P (l.foldl f b)
  | [], _, h, _ => h
  | a :: l, _, h, hf => foldl_keep l (hf _ a List.mem_cons_self h) fun x c hc => hf x c (List.mem_cons_of_mem _ hc)

/-- The bundle that a tile issues. -/
theorem State.runBundle_kept {o s u : State} {addr : Nat} {ws : List Nat} {follow : Option Bool} (w : o.Kept s)
    (e : s.runBundle addr ws follow = .done u) : o.Kept u := by
  unfold State.runBundle at e
  dsimp only at e
  have h : o.Kept ((sylsOf ws).foldl (fun (p : Issued) y => p.act addr (addr + 4 * ws.length) follow y)
      ⟨{ s with tile := { s.tile with iss := ⟨.s, 0, addr, addr + 4 * ws.length, follow, false, s.tile.spad.touched, none, none, false, false, none⟩ } },
        [], none, none⟩).s :=
    foldl_keep (P := fun p : Issued => o.Kept p.s) _ (w.of_eq rfl rfl rfl)
      fun x y hy k => x.act_kept _ _ _ y k (sylsOf_quiet hy)
  have g : ∀ (p : Issued) (l : List Trap) (v : State), p.verdict l = .done v → v = p.s := by
    intro p l v hv
    unfold Issued.verdict at hv
    split at hv
    · cases hv
    · split at hv <;> cases hv
    · cases hv
    · cases hv
    · injection hv with hv
      exact hv.symm
  split at e
  · rename_i hv
    have k := g _ _ _ hv ▸ h
    split at e
    · injection e with e
      exact e ▸ k
    · injection e with e
      exact e ▸ k.of_eq rfl rfl rfl
  · rename_i hn
    exact absurd e (hn _)

theorem State.prune_kept {o : State} (s : State) (k : TileKey) (h : o.Kept s) : o.Kept (s.prune k) := by
  unfold State.prune
  split
  · exact h
  · dsimp only
    split
    · exact h
    · exact State.onKey_kept _ _ _ h

theorem State.issue_kept {o s u : State} {b : Due} (w : o.Kept s) (e : s.issue b = .done u) : o.Kept u := by
  unfold State.issue at e
  split at e
  · dsimp only at e
    split at e
    · cases e
    · split at e
      · rename_i r
        have k := State.runBundle_kept (State.Kept.withTile w _) r
        injection e with e
        rw [← e]
        split
        · exact k
        · exact State.Kept.withTile k _
      · rename_i hn
        exact absurd e (hn _)
  · dsimp only at e
    split at e
    · rename_i r
      have k := State.runBundle_kept (State.Kept.withTile w _) r
      injection e with e
      exact e ▸ State.prune_kept _ _ (State.Kept.withTile k _)
    · rename_i hn
      exact absurd e (hn _)

theorem Issuing.tile_kept {o : State} (p : Issuing) (k : TileKey) (w : o.Kept p.s) : o.Kept (p.tile k).s := by
  unfold Issuing.tile
  split
  · exact w
  · split
    · exact w
    · split
      · exact w
      · split
        · exact w
        · split
          · rename_i e
            exact State.issue_kept (State.focus_kept _ _ w) e
          · exact w
          · exact w

theorem State.issueAll_kept {o : State} : ∀ (n : Nat) (ks : List TileKey) (s u : State) (l : List TileKey), o.Kept s →
    State.issueAll n ks s = .go u l → o.Kept u
  | 0, _, _, _, _, w, e => by
    injection e with e
    exact e ▸ w
  | n + 1, ks, s, u, l, w, e => by
    unfold State.issueAll at e
    have h : o.Kept (ks.foldl Issuing.tile ⟨s, [], none, []⟩).s :=
      foldl_keep (P := fun p : Issuing => o.Kept p.s) ks w fun x k _ h => x.tile_kept k h
    dsimp only at e
    split at e
    · cases e
    · split at e
      · injection e with e
        exact e ▸ h
      · exact State.issueAll_kept n ks _ u l (State.raise_kept _ _ _ _ w) e

theorem State.readAll_kept {o : State} : ∀ (ks : List TileKey) (s u : State), o.Kept s → State.readAll ks s = .inl u → o.Kept u
  | [], _, _, w, e => by
    injection e with e
    exact e ▸ w
  | k :: ks, s, u, w, e => by
    unfold State.readAll at e
    split at e
    · split at e
      · split at e
        · exact State.readAll_kept ks _ u (State.setTile_kept _ _ w) e
        · cases e
      · exact State.readAll_kept ks _ u w e
    · exact State.readAll_kept ks _ u w e

theorem State.settleWaits_kept {o : State} (s : State) (ks : List TileKey) (w : o.Kept s) : o.Kept (s.settleWaits ks).1 := by
  unfold State.settleWaits
  split
  · exact w
  · refine State.Kept.foldl ks w fun x k h => ?_
    split
    · split
      · exact State.endWaits_kept _ _ h
      · exact h
    · exact h

theorem State.checkSteps_kept {o : State} (s : State) (ks : List TileKey) (w : o.Kept s) : o.Kept (s.checkSteps ks) := by
  unfold State.checkSteps
  refine State.Kept.foldl _ w fun x k h => ?_
  split
  · split
    · exact State.countCheck_kept _ _ _ (State.setTile_kept _ _ h)
    · exact h
  · exact h

theorem State.fallDue_kept {o s u : State} {ks : List TileKey} (w : o.Kept s) (e : s.fallDue ks = .inl u) : o.Kept u := by
  unfold State.fallDue at e
  dsimp only at e
  split at e
  · cases e
  · split at e
    · cases e
    · rename_i r
      have h := State.readAll_kept _ _ _ (State.raise_kept _ _ _ _ (State.deliverDue_kept _ _
        (State.checkSteps_kept _ _ (State.onKeys_kept _ _ _ w)))) r
      split at e
      · cases e
      · rename_i s5 r5
        have k := State.settleWaits_kept _ ks (State.regroup_kept _ ks h)
        rw [r5] at k
        cases e
        exact k

theorem State.trial_kept {o s u : State} {ks l : List TileKey} (w : o.Kept s) (e : s.trial ks = .go u l) : o.Kept u := by
  unfold State.trial at e
  split at e
  · cases e
  · rename_i r
    exact State.issueAll_kept _ _ _ _ _ (State.fallDue_kept w r) e

theorem State.finish_kept {o : State} (s : State) (ks points : List TileKey) (tick : Nat) (w : o.Kept s) :
    o.Kept (s.finish ks points tick) := by
  unfold State.finish
  refine State.Kept.foldl ks (State.onKeys_kept _ _ _ w) fun x k h => ?_
  unfold State.stopMember
  split
  · exact h
  · split
    · exact State.setTile_kept _ _ h
    · exact h

theorem State.thaw_kept {o : State} (s : State) (ks : List TileKey) (w : o.Kept s) : o.Kept (s.thaw ks) := State.onKeys_kept _ _ _ w

theorem State.plainTurn_kept {o : State} (s : State) (ks : List TileKey) (r : Option LaunchKey) (w : o.Kept s) :
    o.Kept (s.plainTurn ks r) := by
  unfold State.plainTurn
  dsimp only
  split
  · rename_i e
    exact State.thaw_kept _ _ (State.finish_kept _ _ _ _ (State.trial_kept w e))
  · exact State.freezeDomain_kept _ _ _ _ _ _ w

theorem State.ringStep_kept {o : State} (s : State) (k : LaunchKey) (w : o.Kept s) : o.Kept (s.ringStep k) := by
  unfold State.ringStep
  split
  · exact w
  · dsimp only
    split
    · exact State.setLaunch_kept _ _ (State.ringPass_kept _ _ w)
    · exact State.ringPass_kept _ _ w

theorem State.holdJoining_kept {o : State} (s : State) (now : List TileKey) (js : List (List TileKey)) (w : o.Kept s) :
    o.Kept (s.holdJoining now js) := by
  unfold State.holdJoining
  refine State.Kept.foldl _ w fun x p h => ?_
  split <;> exact State.freezeDomain_kept _ _ _ _ _ _ h

theorem State.freezeForShard_kept {o : State} (s : State) (ks : List TileKey) (r : Option LaunchKey) (w : o.Kept s) :
    o.Kept (s.freezeForShard ks r) := by
  unfold State.freezeForShard
  exact State.Kept.foldl _ w fun x p h => State.freezeDomain_kept _ _ _ _ _ _ h

theorem State.rillTurn_kept {o : State} (s : State) (k : LaunchKey) (ks : List TileKey) (w : o.Kept s) : o.Kept (s.rillTurn k ks) := by
  unfold State.rillTurn
  split
  · exact w
  · dsimp only
    split
    · exact w
    · split
      · exact State.plainTurn_kept _ _ _ (State.holdJoining_kept _ _ _ w)
      · split
        · exact State.freezeDomain_kept _ _ _ _ _ _ (State.holdJoining_kept _ _ _ w)
        · split
          · rename_i e
            exact State.ringStep_kept _ _ (State.thaw_kept _ _ (State.finish_kept _ _ _ _ (State.trial_kept w e)))
          · exact State.freezeDomain_kept _ _ _ _ _ _ (State.holdJoining_kept _ _ _ w)

theorem State.drainTurn_kept {o : State} (s : State) (k : TileKey) (w : o.Kept s) : o.Kept (s.drainTurn k) := by
  unfold State.drainTurn
  split
  · exact w
  · exact State.raise_kept _ _ _ _ (State.setTile_kept _ _ w)

theorem State.shardCheck_kept {o : State} (s : State) (w : o.Kept s) : o.Kept s.shardCheck := by
  unfold State.shardCheck
  exact State.Kept.foldl _ w fun x l h => State.attempt_kept h fun u e => execCheckpointShardTake_kept _ _ h e

/-- The turn of a domain keeps the clock, the counter and the form of HBM. -/
theorem State.domainTurn_kept {o : State} (s : State) (d : Domain) (w : o.Kept s) : o.Kept (s.domainTurn d) := by
  unfold State.domainTurn
  dsimp only
  split
  · exact w
  · split
    · exact State.freezeForShard_kept _ _ _ w
    · apply State.shardCheck_kept
      split
      · exact State.rillTurn_kept _ _ _ w
      · split
        · exact State.Kept.foldl _ w fun x k h => State.drainTurn_kept x k h
        · exact State.plainTurn_kept _ _ _ w

/-- What has come due on the wall clock. -/
theorem State.wallClock_kept {o : State} (s : State) (w : o.Kept s) : o.Kept s.wallClock := by
  unfold State.wallClock
  refine State.Kept.foldl _ (State.Kept.foldl _ (State.Kept.foldl _ (State.Kept.foldl _ (State.Kept.foldl _ ?_ ?_) ?_) ?_) ?_) ?_
  · split
    · exact State.attempt_kept w fun u e => execDutyUpdate_kept _ w e
    · exact w
  · exact fun x c h => State.attempt_kept h fun u e => execFrontEndCoreRestarted_kept _ _ h e
  · intro x c h
    have k : o.Kept (c.requests.foldl (fun (y : State) r => y.attempt (execPageRequestTimeout c.pasid r.num)) x) :=
      State.Kept.foldl _ h fun y r h => State.attempt_kept h fun u e => execPageRequestTimeout_kept _ _ _ h e
    exact State.attempt_kept k fun u e => execCheckpointTimer_kept _ _ k e
  · exact fun x q h => State.Kept.foldl _ (State.attempt_kept h fun u e => execQueueParkTimeout_kept _ _ h e)
      fun y k h => State.attempt_kept h fun u e => execCopy_kept _ _ _ h e
  · exact fun x t h => State.Kept.foldl _ h fun y n h => State.attempt_kept h fun u e => execRemotePathTimeout_kept _ _ _ h e
  · exact fun x l h => State.Kept.foldl _ h fun y n h => State.attempt_kept h fun u e => execCollectiveRoundFire_kept _ _ _ h e

theorem State.starts_kept {o : State} (s : State) (w : o.Kept s) : o.Kept s.starts := by
  unfold State.starts
  refine State.Kept.foldl _ (State.Kept.foldl _ (State.Kept.foldl _ w ?_) ?_) ?_
  · exact fun x l h => State.attempt_kept h fun u e => execLaunchStart_kept _ _ h e
  · exact fun x k h => State.attempt_kept h fun u e => execTileStart_kept _ _ h e
  · intro x k h
    split
    · exact State.attempt_kept h fun u e => execDeadlock_kept _ _ h e
    · exact h

end Sys2Proof.Machine
end

