-- ==== Sys2Proof/Laws/Ops.lean ====
section
/-! SUPPORT. The shared operations, each once: how a syllable's answer becomes the machine's, how a thing that is looked up by name
reads after a change of its kind, and what taking a trap leaves. -/

namespace Sys2Proof.Machine

/-! A syllable's answer. -/

theorem onTile_ok {f : Tile → Res} {s : State} {t : Tile} (h : f s.tile = .ok t) : onTile f s = s.nextTile t := by
  simp [onTile, h, State.nextTile]

theorem onTile_trap {f : Tile → Res} {s : State} {tr : Trap} (h : f s.tile = .trap tr) :
    onTile f s = .next (s.takeTrap tr) := by
  simp [onTile, h]

theorem onTile_hold {f : Tile → Res} {s : State} {c : FreezeCause} {n : Nat} (h : f s.tile = .hold c n) :
    onTile f s = s.nextTile { s.tile with iss := { s.tile.iss with held := some (c, n) } } := by
  simp [onTile, h, State.nextTile]

/-- A syllable answers a next state: its tile, a trap taken, or a hold. -/
theorem onTile_next (f : Tile → Res) (s : State) : ∃ u, onTile f s = .next u := by
  unfold onTile; split <;> exact ⟨_, rfl⟩

/-- What a syllable can do, once and for all. -/
theorem onTile_cases {f : Tile → Res} {s u : State} (h : onTile f s = .next u) :
    (∃ t, f s.tile = .ok t ∧ u = { s with tile := t }) ∨ (∃ tr, f s.tile = .trap tr ∧ u = s.takeTrap tr) ∨
    (∃ c n, f s.tile = .hold c n ∧ u = { s with tile := { s.tile with iss := { s.tile.iss with held := some (c, n) } } }) := by
  unfold onTile at h
  split at h <;> cases h
  · exact .inl ⟨_, ‹_›, rfl⟩
  · exact .inr (.inl ⟨_, ‹_›, rfl⟩)
  · exact .inr (.inr ⟨_, _, ‹_›, rfl⟩)

/-! Lists looked up by a key. -/

theorem find_map_key {α κ : Type} [DecidableEq κ] (key : α → κ) (f : α → α) (hf : ∀ x, key (f x) = key x) (k : κ) (l : List α) :
    (l.map f).find? (fun x => decide (key x = k)) = (l.find? fun x => decide (key x = k)).map f := by
  induction l with
  | nil => rfl
  | cons x t ih =>
    by_cases h : key x = k
    · simp [h, hf]
    · simp [h, hf, ih]

/-! Tiles. -/

theorem State.tile?_key {s : State} {k : TileKey} {t : Tile} (h : s.tile? k = some t) : t.key = k := by
  have := List.find?_some h; simpa using this

theorem State.tile?_mapTiles (s : State) (f : Tile → Tile) (hf : ∀ t, (f t).key = t.key) (j : TileKey) :
    (s.mapTiles f).tile? j = (s.tile? j).map f := by
  have h := find_map_key Tile.key f hf j s.tiles
  simpa [State.tile?, State.tiles, State.mapTiles, beq_eq_decide] using h

theorem State.tile?_onKey_same {s : State} {k : TileKey} {t : Tile} (f : Tile → Tile) (hf : ∀ u, (f u).key = u.key)
    (h : s.tile? k = some t) : (s.onKey k f).tile? k = some (f t) := by
  have hk := State.tile?_key h
  unfold State.onKey
  rw [State.tile?_mapTiles _ _ (by intro u; split <;> simp [hf]), h]
  simp [hk]

theorem State.tile?_onKey_other {s : State} {j k : TileKey} (f : Tile → Tile) (hf : ∀ u, (f u).key = u.key) (hj : j ≠ k) :
    (s.onKey k f).tile? j = s.tile? j := by
  unfold State.onKey
  rw [State.tile?_mapTiles _ _ (by intro u; split <;> simp [hf])]
  cases h : s.tile? j with
  | none => rfl
  | some t => have := State.tile?_key h; simp [this, hj]

theorem State.tile?_setTile {s : State} {k : TileKey} {t : Tile} (u : Tile) (hu : u.key = k) (h : s.tile? k = some t) :
    (s.setTile u).tile? k = some u := by
  have hk := State.tile?_key h
  have e : s.setTile u = s.mapTiles fun v => if v.key == u.key then u else v := rfl
  rw [e, State.tile?_mapTiles _ _ (by
    intro v; by_cases hv : v.key = u.key <;> simp [hv]), h]
  simp [hk, hu]

@[simp] theorem State.tile?_tickFresh (s : State) (k : TileKey) : s.tickFresh.tile? k = s.tile? k := rfl
@[simp] theorem State.ctx?_tickFresh (s : State) (p : Nat) : s.tickFresh.ctx? p = s.ctx? p := rfl
@[simp] theorem State.launch?_tickFresh (s : State) (k : LaunchKey) : s.tickFresh.launch? k = s.launch? k := rfl
@[simp] theorem State.ctx?_mapTiles (s : State) (f : Tile → Tile) (p : Nat) : (s.mapTiles f).ctx? p = s.ctx? p := rfl
@[simp] theorem State.ctx?_onKey (s : State) (k : TileKey) (f : Tile → Tile) (p : Nat) : (s.onKey k f).ctx? p = s.ctx? p := rfl
@[simp] theorem State.launch?_mapTiles (s : State) (f : Tile → Tile) (k : LaunchKey) :
    (s.mapTiles f).launch? k = s.launch? k := rfl
@[simp] theorem State.launch?_onKey (s : State) (k : TileKey) (f : Tile → Tile) (l : LaunchKey) :
    (s.onKey k f).launch? l = s.launch? l := rfl

/-- A tile that exists is not made again. -/
theorem State.ensureTile_of_some {s : State} {k : TileKey} {t : Tile} (h : s.tile? k = some t) : s.ensureTile k = s := by
  simp [State.ensureTile, h]

/-! Contexts, launches, queues. -/

theorem State.ctx?_pasid {s : State} {p : Nat} {c : Context} (h : s.ctx? p = some c) : c.pasid = p := by
  have := List.find?_some h; simpa using this

theorem State.launch?_key {s : State} {k : LaunchKey} {l : Launch} (h : s.launch? k = some l) : l.key = k := by
  have := List.find?_some h; simpa using this

theorem State.queue?_num {s : State} {n : Nat} {q : Queue} (h : s.queue? n = some q) : q.num = n := by
  have := List.find?_some h; simpa using this

theorem State.ctx?_setCtx {s : State} {p : Nat} {c : Context} (d : Context) (hd : d.pasid = p) (h : s.ctx? p = some c) :
    (s.setCtx d).ctx? p = some d := by
  have hc := State.ctx?_pasid h
  have e := find_map_key Context.pasid (fun x => if x.pasid == d.pasid then d else x)
    (by intro x; by_cases hx : x.pasid = d.pasid <;> simp [hx]) p s.contexts
  have e2 : s.contexts.find? (fun x => decide (x.pasid = p)) = some c := by
    simpa [State.ctx?, beq_eq_decide] using h
  rw [e2] at e
  simpa [State.ctx?, State.setCtx, beq_eq_decide, hc, hd] using e

theorem State.ctx?_setCtx_other {s : State} {p : Nat} (d : Context) (hd : d.pasid ≠ p) : (s.setCtx d).ctx? p = s.ctx? p := by
  have e := find_map_key Context.pasid (fun x => if x.pasid == d.pasid then d else x)
    (by intro x; by_cases hx : x.pasid = d.pasid <;> simp [hx]) p s.contexts
  have e3 : (s.setCtx d).ctx? p = (s.ctx? p).map (fun x => if x.pasid == d.pasid then d else x) := by
    simpa [State.ctx?, State.setCtx, beq_eq_decide] using e
  rw [e3]
  cases hc : s.ctx? p with
  | none => rfl
  | some c =>
    have := State.ctx?_pasid hc
    have hne : ¬ p = d.pasid := fun h => hd h.symm
    simp [this, hne]

theorem State.launch?_setLaunch {s : State} {k : LaunchKey} {l : Launch} (m : Launch) (hm : m.key = k)
    (h : s.launch? k = some l) : (s.setLaunch m).launch? k = some m := by
  have hc := State.launch?_key h
  have e := find_map_key Launch.key (fun x => if x.key == m.key then m else x)
    (by intro x; by_cases hx : x.key = m.key <;> simp [hx]) k s.launches
  have e2 : s.launches.find? (fun x => decide (x.key = k)) = some l := by
    simpa [State.launch?, beq_eq_decide] using h
  rw [e2] at e
  simpa [State.launch?, State.setLaunch, beq_eq_decide, hc, hm] using e

@[simp] theorem State.ctx?_setLaunch (s : State) (l : Launch) (p : Nat) : (s.setLaunch l).ctx? p = s.ctx? p := rfl
@[simp] theorem State.launch?_setCtx (s : State) (c : Context) (k : LaunchKey) : (s.setCtx c).launch? k = s.launch? k := rfl
@[simp] theorem State.tile?_setCtx (s : State) (c : Context) (k : TileKey) : (s.setCtx c).tile? k = s.tile? k := rfl
@[simp] theorem State.tile?_setLaunch (s : State) (l : Launch) (k : TileKey) : (s.setLaunch l).tile? k = s.tile? k := rfl

/-! HBM: writing bytes changes nothing else. -/

@[simp] theorem State.tile?_hbmWrite (s : State) (a : Nat) (bs : List Byte) (k : TileKey) :
    (s.hbmWrite a bs).tile? k = s.tile? k := rfl
@[simp] theorem State.ctx?_hbmWrite (s : State) (a : Nat) (bs : List Byte) (p : Nat) : (s.hbmWrite a bs).ctx? p = s.ctx? p := rfl
@[simp] theorem State.launch?_hbmWrite (s : State) (a : Nat) (bs : List Byte) (k : LaunchKey) :
    (s.hbmWrite a bs).launch? k = s.launch? k := rfl
@[simp] theorem State.queues_hbmWrite (s : State) (a : Nat) (bs : List Byte) : (s.hbmWrite a bs).queues = s.queues := rfl
@[simp] theorem State.tiles_hbmWrite (s : State) (a : Nat) (bs : List Byte) : (s.hbmWrite a bs).tiles = s.tiles := rfl
@[simp] theorem State.contexts_hbmWrite (s : State) (a : Nat) (bs : List Byte) : (s.hbmWrite a bs).contexts = s.contexts := rfl
@[simp] theorem State.launches_hbmWrite (s : State) (a : Nat) (bs : List Byte) : (s.hbmWrite a bs).launches = s.launches := rfl

/-- A queue in ERROR changes HBM and its poison alone. -/
theorem State.queueError_same (s : State) (q : Queue) (a b c d e : Nat) :
    (s.queueError q a b c d e).tiles = s.tiles ∧ (s.queueError q a b c d e).contexts = s.contexts ∧
    (s.queueError q a b c d e).launches = s.launches ∧ (s.queueError q a b c d e).queues = s.queues := by
  unfold State.queueError State.queueErrorNow State.setQstate State.setQword
  split <;> simp only [State.tiles_hbmWrite, State.contexts_hbmWrite, State.launches_hbmWrite, State.queues_hbmWrite, and_self]

/-! Requests of the management controller. -/

/-- A request that is served has its effect. -/
theorem State.manage_served {s : State} {h : MgmtHdr} (hm : s.managed h) (k : MgmtClass) (f : State) : s.manage h k f = .next f := by
  obtain ⟨hp, hc⟩ := hm
  have : ¬ s.board.conns ≤ h.conn := by omega
  cases k <;> simp [State.manage, hp, this, Power.answers]

/-- Without a connection the answer is status 4 and nothing changes (R389). -/
theorem State.manage_unconnected {s : State} {h : MgmtHdr} (hp : s.board.power = .ready) (hc : s.board.conns ≤ h.conn)
    (k : MgmtClass) (f : State) : s.manage h k f = .next (s.reply h 4 []) := by
  simp [State.manage, hp, hc]

/-! Events. -/

theorem State.onNamed_some {s : State} {k : TileKey} {t : Tile} {f : Tile → Option State} {u : State} (h : s.tile? k = some t)
    (hf : f t = some u) : s.onNamed k f = .next u := by
  simp [State.onNamed, h, hf]

theorem State.onFar_some {s u : State} {k : TileKey} {t : Tile} {n : Nat} {o : FarOp} {ok : Tile → FarOp → Bool}
    {f : Tile → FarOp → Option State} (h : s.tile? k = some t) (ho : t.farOp n = some o) (hok : ok t o = true)
    (hf : f t o = some u) : s.onFar k n ok f = .next u := by
  simp [State.onFar, h, ho, hok, hf]

theorem State.onPacket_some {s : State} {n i type : Nat} {q : Queue} {k : Packet} {ok : Packet → Bool} (f : Queue → Packet → State)
    (hq : s.queue? n = some q) (hk : q.packet? i = some k) (ht : k.type = type) (hs : s.mayStart q k = true) (hok : ok k = true) :
    s.onPacket n i type ok f = .next (f q k) := by
  simp [State.onPacket, hq, hk, ht, hs, hok]

/-- With one unit left there is no choice. -/
theorem State.pick_one (s : State) : s.pick 1 = 0 := by simp [State.pick, Nat.mod_one]

end Sys2Proof.Machine
end

