-- ==== Sys2Proof/Laws/PerInstr.lean ====
section
/-! SUPPORT. For every instruction: the word of a well-formed syllable is a word of 32 bits (R61), one lemma for each constructor;
an event has no word. -/

set_option Elab.async false

namespace Sys2Proof

/-! The bound of each field of a word. -/

theorem Hdr.field_le {h : Hdr} (w : h.ok = true) : h.field ≤ 2178940928 := by
  simp only [Hdr.ok, decide_eq_true_eq] at w
  have := Bool.toNat_le h.e
  simp only [Hdr.field]
  omega

theorem Src.code_le {n : Nat} {a : Src} (hn : n ≤ 32) (w : a.ok n = true) : a.code ≤ 39 := by
  cases a <;> simp only [Src.ok, decide_eq_true_eq] at w <;> simp only [Src.code] <;> omega

theorem Dest.field_le {n : Nat} {d : Dest} (hn : n ≤ 32) (w : d.ok n = true) : d.field ≤ 1048576 := by
  cases d with
  | reg n => simp only [Dest.ok, decide_eq_true_eq] at w; simp only [Dest.field]; omega
  | suppressed => simp only [Dest.field]; omega

theorem MSrc.code_le {a : MSrc} (w : a.ok = true) : a.code ≤ 23 := by
  cases a <;> simp only [MSrc.ok, decide_eq_true_eq] at w <;> simp only [MSrc.code] <;> omega

theorem VFile.code_le (f : VFile) : f.code ≤ 1 := by cases f <;> decide

theorem Fmt.code_le (f : Fmt) : f.code ≤ 15 := by cases f <;> decide

theorem RndOvr.code_le (r : RndOvr) : r.code ≤ 5 := by
  cases r with
  | slot => decide
  | mode r => cases r <;> decide

theorem MemSize.code_le (z : MemSize) : z.code ≤ 3 := by cases z <;> decide

theorem Scope.code_le (z : Scope) : z.code ≤ 5 := by cases z <;> decide

theorem CFmt.code_le (z : CFmt) : z.code ≤ 2 := by cases z <;> decide

theorem Csr.number_le {c : Csr} (w : c.ok = true) : c.number ≤ 259 := by
  cases c <;> simp only [Csr.ok, decide_eq_true_eq] at w <;> simp only [Csr.number] <;> omega

theorem MField.index_le {f : MField} (w : f.ok = true) : f.index ≤ 27 := by
  cases f <;> simp only [MField.ok, decide_eq_true_eq] at w <;> simp only [MField.index] <;> omega

theorem mstatItem_le {i : Nat} (w : mstatItem i = true) : i ≤ 29 := by
  simp only [mstatItem, Bool.or_eq_true, Bool.and_eq_true, decide_eq_true_eq] at w
  omega

theorem enc2_lt (n : Nat) (x : Int) : enc2 n x < 2 ^ n := by
  have h : (0 : Int) < ((2 ^ n : Nat) : Int) := by exact_mod_cast Nat.two_pow_pos n
  have := Int.emod_nonneg x h.ne'
  have := Int.emod_lt_of_pos x h
  unfold enc2
  omega

theorem enc2_six (x : Int) : enc2 6 x ≤ 63 := by have := enc2_lt 6 x; omega

theorem enc2_eight (x : Int) : enc2 8 x ≤ 255 := by have := enc2_lt 8 x; omega

theorem enc2_nine (x : Int) : enc2 9 x ≤ 511 := by have := enc2_lt 9 x; omega

theorem enc2_twentyone (x : Int) : enc2 21 x ≤ 2097151 := by have := enc2_lt 21 x; omega

end Sys2Proof

namespace Sys2Proof.Laws.Width

/-- The word of a well-formed syllable is a word of 32 bits (R61). -/
def Statement (i : Instr) : Prop := ∀ w, i.wf = true → encode i = some w → w < 4294967296

theorem snop (e : Bool) : Statement (.snop e) := by
  intro v w enc
  clear w
  have := Bool.toNat_le e
  injection enc
  omega

theorem add (h : Hdr) (d : Dest) (a : Src) (b : Src) : Statement (.add h d a b) := by
  intro v w enc
  simp only [Instr.wf, Bool.and_eq_true] at w
  obtain ⟨⟨⟨w0, w1⟩, w2⟩, w3⟩ := w
  have := Hdr.field_le w0
  have := Dest.field_le (by decide) w1
  have := Src.code_le (by decide) w2
  have := Src.code_le (by decide) w3
  injection enc
  omega

theorem sub (h : Hdr) (d : Dest) (a : Src) (b : Src) : Statement (.sub h d a b) := by
  intro v w enc
  simp only [Instr.wf, Bool.and_eq_true] at w
  obtain ⟨⟨⟨w0, w1⟩, w2⟩, w3⟩ := w
  have := Hdr.field_le w0
  have := Dest.field_le (by decide) w1
  have := Src.code_le (by decide) w2
  have := Src.code_le (by decide) w3
  injection enc
  omega

theorem and (h : Hdr) (d : Dest) (a : Src) (b : Src) : Statement (.and h d a b) := by
  intro v w enc
  simp only [Instr.wf, Bool.and_eq_true] at w
  obtain ⟨⟨⟨w0, w1⟩, w2⟩, w3⟩ := w
  have := Hdr.field_le w0
  have := Dest.field_le (by decide) w1
  have := Src.code_le (by decide) w2
  have := Src.code_le (by decide) w3
  injection enc
  omega

theorem or (h : Hdr) (d : Dest) (a : Src) (b : Src) : Statement (.or h d a b) := by
  intro v w enc
  simp only [Instr.wf, Bool.and_eq_true] at w
  obtain ⟨⟨⟨w0, w1⟩, w2⟩, w3⟩ := w
  have := Hdr.field_le w0
  have := Dest.field_le (by decide) w1
  have := Src.code_le (by decide) w2
  have := Src.code_le (by decide) w3
  injection enc
  omega

theorem xor (h : Hdr) (d : Dest) (a : Src) (b : Src) : Statement (.xor h d a b) := by
  intro v w enc
  simp only [Instr.wf, Bool.and_eq_true] at w
  obtain ⟨⟨⟨w0, w1⟩, w2⟩, w3⟩ := w
  have := Hdr.field_le w0
  have := Dest.field_le (by decide) w1
  have := Src.code_le (by decide) w2
  have := Src.code_le (by decide) w3
  injection enc
  omega

theorem shl (h : Hdr) (d : Dest) (a : Src) (b : Src) : Statement (.shl h d a b) := by
  intro v w enc
  simp only [Instr.wf, Bool.and_eq_true] at w
  obtain ⟨⟨⟨w0, w1⟩, w2⟩, w3⟩ := w
  have := Hdr.field_le w0
  have := Dest.field_le (by decide) w1
  have := Src.code_le (by decide) w2
  have := Src.code_le (by decide) w3
  injection enc
  omega

theorem shr (h : Hdr) (d : Dest) (a : Src) (b : Src) : Statement (.shr h d a b) := by
  intro v w enc
  simp only [Instr.wf, Bool.and_eq_true] at w
  obtain ⟨⟨⟨w0, w1⟩, w2⟩, w3⟩ := w
  have := Hdr.field_le w0
  have := Dest.field_le (by decide) w1
  have := Src.code_le (by decide) w2
  have := Src.code_le (by decide) w3
  injection enc
  omega

theorem sra (h : Hdr) (d : Dest) (a : Src) (b : Src) : Statement (.sra h d a b) := by
  intro v w enc
  simp only [Instr.wf, Bool.and_eq_true] at w
  obtain ⟨⟨⟨w0, w1⟩, w2⟩, w3⟩ := w
  have := Hdr.field_le w0
  have := Dest.field_le (by decide) w1
  have := Src.code_le (by decide) w2
  have := Src.code_le (by decide) w3
  injection enc
  omega

theorem mul (h : Hdr) (d : Dest) (a : Src) (b : Src) : Statement (.mul h d a b) := by
  intro v w enc
  simp only [Instr.wf, Bool.and_eq_true] at w
  obtain ⟨⟨⟨w0, w1⟩, w2⟩, w3⟩ := w
  have := Hdr.field_le w0
  have := Dest.field_le (by decide) w1
  have := Src.code_le (by decide) w2
  have := Src.code_le (by decide) w3
  injection enc
  omega

theorem mulh (h : Hdr) (d : Dest) (a : Src) (b : Src) : Statement (.mulh h d a b) := by
  intro v w enc
  simp only [Instr.wf, Bool.and_eq_true] at w
  obtain ⟨⟨⟨w0, w1⟩, w2⟩, w3⟩ := w
  have := Hdr.field_le w0
  have := Dest.field_le (by decide) w1
  have := Src.code_le (by decide) w2
  have := Src.code_le (by decide) w3
  injection enc
  omega

theorem mulhu (h : Hdr) (d : Dest) (a : Src) (b : Src) : Statement (.mulhu h d a b) := by
  intro v w enc
  simp only [Instr.wf, Bool.and_eq_true] at w
  obtain ⟨⟨⟨w0, w1⟩, w2⟩, w3⟩ := w
  have := Hdr.field_le w0
  have := Dest.field_le (by decide) w1
  have := Src.code_le (by decide) w2
  have := Src.code_le (by decide) w3
  injection enc
  omega

theorem div (h : Hdr) (d : Dest) (a : Src) (b : Src) : Statement (.div h d a b) := by
  intro v w enc
  simp only [Instr.wf, Bool.and_eq_true] at w
  obtain ⟨⟨⟨w0, w1⟩, w2⟩, w3⟩ := w
  have := Hdr.field_le w0
  have := Dest.field_le (by decide) w1
  have := Src.code_le (by decide) w2
  have := Src.code_le (by decide) w3
  injection enc
  omega

theorem divu (h : Hdr) (d : Dest) (a : Src) (b : Src) : Statement (.divu h d a b) := by
  intro v w enc
  simp only [Instr.wf, Bool.and_eq_true] at w
  obtain ⟨⟨⟨w0, w1⟩, w2⟩, w3⟩ := w
  have := Hdr.field_le w0
  have := Dest.field_le (by decide) w1
  have := Src.code_le (by decide) w2
  have := Src.code_le (by decide) w3
  injection enc
  omega

theorem rem (h : Hdr) (d : Dest) (a : Src) (b : Src) : Statement (.rem h d a b) := by
  intro v w enc
  simp only [Instr.wf, Bool.and_eq_true] at w
  obtain ⟨⟨⟨w0, w1⟩, w2⟩, w3⟩ := w
  have := Hdr.field_le w0
  have := Dest.field_le (by decide) w1
  have := Src.code_le (by decide) w2
  have := Src.code_le (by decide) w3
  injection enc
  omega

theorem remu (h : Hdr) (d : Dest) (a : Src) (b : Src) : Statement (.remu h d a b) := by
  intro v w enc
  simp only [Instr.wf, Bool.and_eq_true] at w
  obtain ⟨⟨⟨w0, w1⟩, w2⟩, w3⟩ := w
  have := Hdr.field_le w0
  have := Dest.field_le (by decide) w1
  have := Src.code_le (by decide) w2
  have := Src.code_le (by decide) w3
  injection enc
  omega

theorem clz (h : Hdr) (d : Dest) (a : Src) : Statement (.clz h d a) := by
  intro v w enc
  simp only [Instr.wf, Bool.and_eq_true] at w
  obtain ⟨⟨w0, w1⟩, w2⟩ := w
  have := Hdr.field_le w0
  have := Dest.field_le (by decide) w1
  have := Src.code_le (by decide) w2
  injection enc
  omega

theorem min (h : Hdr) (d : Dest) (a : Src) (b : Src) : Statement (.min h d a b) := by
  intro v w enc
  simp only [Instr.wf, Bool.and_eq_true] at w
  obtain ⟨⟨⟨w0, w1⟩, w2⟩, w3⟩ := w
  have := Hdr.field_le w0
  have := Dest.field_le (by decide) w1
  have := Src.code_le (by decide) w2
  have := Src.code_le (by decide) w3
  injection enc
  omega

theorem max (h : Hdr) (d : Dest) (a : Src) (b : Src) : Statement (.max h d a b) := by
  intro v w enc
  simp only [Instr.wf, Bool.and_eq_true] at w
  obtain ⟨⟨⟨w0, w1⟩, w2⟩, w3⟩ := w
  have := Hdr.field_le w0
  have := Dest.field_le (by decide) w1
  have := Src.code_le (by decide) w2
  have := Src.code_le (by decide) w3
  injection enc
  omega

theorem minu (h : Hdr) (d : Dest) (a : Src) (b : Src) : Statement (.minu h d a b) := by
  intro v w enc
  simp only [Instr.wf, Bool.and_eq_true] at w
  obtain ⟨⟨⟨w0, w1⟩, w2⟩, w3⟩ := w
  have := Hdr.field_le w0
  have := Dest.field_le (by decide) w1
  have := Src.code_le (by decide) w2
  have := Src.code_le (by decide) w3
  injection enc
  omega

theorem maxu (h : Hdr) (d : Dest) (a : Src) (b : Src) : Statement (.maxu h d a b) := by
  intro v w enc
  simp only [Instr.wf, Bool.and_eq_true] at w
  obtain ⟨⟨⟨w0, w1⟩, w2⟩, w3⟩ := w
  have := Hdr.field_le w0
  have := Dest.field_le (by decide) w1
  have := Src.code_le (by decide) w2
  have := Src.code_le (by decide) w3
  injection enc
  omega

theorem rotl (h : Hdr) (d : Dest) (a : Src) (b : Src) : Statement (.rotl h d a b) := by
  intro v w enc
  simp only [Instr.wf, Bool.and_eq_true] at w
  obtain ⟨⟨⟨w0, w1⟩, w2⟩, w3⟩ := w
  have := Hdr.field_le w0
  have := Dest.field_le (by decide) w1
  have := Src.code_le (by decide) w2
  have := Src.code_le (by decide) w3
  injection enc
  omega

theorem popc (h : Hdr) (d : Dest) (a : Src) : Statement (.popc h d a) := by
  intro v w enc
  simp only [Instr.wf, Bool.and_eq_true] at w
  obtain ⟨⟨w0, w1⟩, w2⟩ := w
  have := Hdr.field_le w0
  have := Dest.field_le (by decide) w1
  have := Src.code_le (by decide) w2
  injection enc
  omega

theorem ctz (h : Hdr) (d : Dest) (a : Src) : Statement (.ctz h d a) := by
  intro v w enc
  simp only [Instr.wf, Bool.and_eq_true] at w
  obtain ⟨⟨w0, w1⟩, w2⟩ := w
  have := Hdr.field_le w0
  have := Dest.field_le (by decide) w1
  have := Src.code_le (by decide) w2
  injection enc
  omega

theorem bswap (h : Hdr) (d : Dest) (a : Src) : Statement (.bswap h d a) := by
  intro v w enc
  simp only [Instr.wf, Bool.and_eq_true] at w
  obtain ⟨⟨w0, w1⟩, w2⟩ := w
  have := Hdr.field_le w0
  have := Dest.field_le (by decide) w1
  have := Src.code_le (by decide) w2
  injection enc
  omega

theorem addi (h : Hdr) (d : Dest) (a : Src) (imm : Int) : Statement (.addi h d a imm) := by
  intro v w enc
  simp only [Instr.wf, Bool.and_eq_true] at w
  obtain ⟨⟨⟨w0, w1⟩, w2⟩, w3⟩ := w
  have := Hdr.field_le w0
  have := Dest.field_le (by decide) w1
  have := Src.code_le (by decide) w2
  have := enc2_nine imm
  injection enc
  omega

theorem andi (h : Hdr) (d : Dest) (a : Src) (imm : Int) : Statement (.andi h d a imm) := by
  intro v w enc
  simp only [Instr.wf, Bool.and_eq_true] at w
  obtain ⟨⟨⟨w0, w1⟩, w2⟩, w3⟩ := w
  have := Hdr.field_le w0
  have := Dest.field_le (by decide) w1
  have := Src.code_le (by decide) w2
  have := enc2_nine imm
  injection enc
  omega

theorem ori (h : Hdr) (d : Dest) (a : Src) (imm : Int) : Statement (.ori h d a imm) := by
  intro v w enc
  simp only [Instr.wf, Bool.and_eq_true] at w
  obtain ⟨⟨⟨w0, w1⟩, w2⟩, w3⟩ := w
  have := Hdr.field_le w0
  have := Dest.field_le (by decide) w1
  have := Src.code_le (by decide) w2
  have := enc2_nine imm
  injection enc
  omega

theorem xori (h : Hdr) (d : Dest) (a : Src) (imm : Int) : Statement (.xori h d a imm) := by
  intro v w enc
  simp only [Instr.wf, Bool.and_eq_true] at w
  obtain ⟨⟨⟨w0, w1⟩, w2⟩, w3⟩ := w
  have := Hdr.field_le w0
  have := Dest.field_le (by decide) w1
  have := Src.code_le (by decide) w2
  have := enc2_nine imm
  injection enc
  omega

theorem shli (h : Hdr) (d : Dest) (a : Src) (n : Nat) : Statement (.shli h d a n) := by
  intro v w enc
  simp only [Instr.wf, Bool.and_eq_true, decide_eq_true_eq] at w
  obtain ⟨⟨⟨w0, w1⟩, w2⟩, w3⟩ := w
  have := Hdr.field_le w0
  have := Dest.field_le (by decide) w1
  have := Src.code_le (by decide) w2
  injection enc
  omega

theorem shri (h : Hdr) (d : Dest) (a : Src) (n : Nat) : Statement (.shri h d a n) := by
  intro v w enc
  simp only [Instr.wf, Bool.and_eq_true, decide_eq_true_eq] at w
  obtain ⟨⟨⟨w0, w1⟩, w2⟩, w3⟩ := w
  have := Hdr.field_le w0
  have := Dest.field_le (by decide) w1
  have := Src.code_le (by decide) w2
  injection enc
  omega

theorem srai (h : Hdr) (d : Dest) (a : Src) (n : Nat) : Statement (.srai h d a n) := by
  intro v w enc
  simp only [Instr.wf, Bool.and_eq_true, decide_eq_true_eq] at w
  obtain ⟨⟨⟨w0, w1⟩, w2⟩, w3⟩ := w
  have := Hdr.field_le w0
  have := Dest.field_le (by decide) w1
  have := Src.code_le (by decide) w2
  injection enc
  omega

theorem rotli (h : Hdr) (d : Dest) (a : Src) (n : Nat) : Statement (.rotli h d a n) := by
  intro v w enc
  simp only [Instr.wf, Bool.and_eq_true, decide_eq_true_eq] at w
  obtain ⟨⟨⟨w0, w1⟩, w2⟩, w3⟩ := w
  have := Hdr.field_le w0
  have := Dest.field_le (by decide) w1
  have := Src.code_le (by decide) w2
  injection enc
  omega

theorem lis (h : Hdr) (d : Nat) (imm : Nat) : Statement (.lis h d imm) := by
  intro v w enc
  simp only [Instr.wf, Bool.and_eq_true, decide_eq_true_eq] at w
  obtain ⟨⟨w0, w1⟩, w2⟩ := w
  have := Hdr.field_le w0
  injection enc
  omega

theorem ins1 (h : Hdr) (d : Nat) (imm : Nat) : Statement (.ins1 h d imm) := by
  intro v w enc
  simp only [Instr.wf, Bool.and_eq_true, decide_eq_true_eq] at w
  obtain ⟨⟨w0, w1⟩, w2⟩ := w
  have := Hdr.field_le w0
  injection enc
  omega

theorem ins2 (h : Hdr) (d : Nat) (imm : Nat) : Statement (.ins2 h d imm) := by
  intro v w enc
  simp only [Instr.wf, Bool.and_eq_true, decide_eq_true_eq] at w
  obtain ⟨⟨w0, w1⟩, w2⟩ := w
  have := Hdr.field_le w0
  injection enc
  omega

theorem ins3 (h : Hdr) (d : Nat) (imm : Nat) : Statement (.ins3 h d imm) := by
  intro v w enc
  simp only [Instr.wf, Bool.and_eq_true, decide_eq_true_eq] at w
  obtain ⟨⟨w0, w1⟩, w2⟩ := w
  have := Hdr.field_le w0
  injection enc
  omega

theorem cmpeq (h : Hdr) (d : Nat) (a : Src) (b : Src) : Statement (.cmpeq h d a b) := by
  intro v w enc
  simp only [Instr.wf, Bool.and_eq_true, decide_eq_true_eq] at w
  obtain ⟨⟨⟨⟨w0, w1⟩, w2⟩, w3⟩, w4⟩ := w
  have := Hdr.field_le w0
  have := Src.code_le (by decide) w3
  have := Src.code_le (by decide) w4
  injection enc
  omega

theorem cmpne (h : Hdr) (d : Nat) (a : Src) (b : Src) : Statement (.cmpne h d a b) := by
  intro v w enc
  simp only [Instr.wf, Bool.and_eq_true, decide_eq_true_eq] at w
  obtain ⟨⟨⟨⟨w0, w1⟩, w2⟩, w3⟩, w4⟩ := w
  have := Hdr.field_le w0
  have := Src.code_le (by decide) w3
  have := Src.code_le (by decide) w4
  injection enc
  omega

theorem cmplt (h : Hdr) (d : Nat) (a : Src) (b : Src) : Statement (.cmplt h d a b) := by
  intro v w enc
  simp only [Instr.wf, Bool.and_eq_true, decide_eq_true_eq] at w
  obtain ⟨⟨⟨⟨w0, w1⟩, w2⟩, w3⟩, w4⟩ := w
  have := Hdr.field_le w0
  have := Src.code_le (by decide) w3
  have := Src.code_le (by decide) w4
  injection enc
  omega

theorem cmpltu (h : Hdr) (d : Nat) (a : Src) (b : Src) : Statement (.cmpltu h d a b) := by
  intro v w enc
  simp only [Instr.wf, Bool.and_eq_true, decide_eq_true_eq] at w
  obtain ⟨⟨⟨⟨w0, w1⟩, w2⟩, w3⟩, w4⟩ := w
  have := Hdr.field_le w0
  have := Src.code_le (by decide) w3
  have := Src.code_le (by decide) w4
  injection enc
  omega

theorem cmple (h : Hdr) (d : Nat) (a : Src) (b : Src) : Statement (.cmple h d a b) := by
  intro v w enc
  simp only [Instr.wf, Bool.and_eq_true, decide_eq_true_eq] at w
  obtain ⟨⟨⟨⟨w0, w1⟩, w2⟩, w3⟩, w4⟩ := w
  have := Hdr.field_le w0
  have := Src.code_le (by decide) w3
  have := Src.code_le (by decide) w4
  injection enc
  omega

theorem cmpleu (h : Hdr) (d : Nat) (a : Src) (b : Src) : Statement (.cmpleu h d a b) := by
  intro v w enc
  simp only [Instr.wf, Bool.and_eq_true, decide_eq_true_eq] at w
  obtain ⟨⟨⟨⟨w0, w1⟩, w2⟩, w3⟩, w4⟩ := w
  have := Hdr.field_le w0
  have := Src.code_le (by decide) w3
  have := Src.code_le (by decide) w4
  injection enc
  omega

theorem cmptst (h : Hdr) (d : Nat) (a : Src) (b : Src) : Statement (.cmptst h d a b) := by
  intro v w enc
  simp only [Instr.wf, Bool.and_eq_true, decide_eq_true_eq] at w
  obtain ⟨⟨⟨⟨w0, w1⟩, w2⟩, w3⟩, w4⟩ := w
  have := Hdr.field_le w0
  have := Src.code_le (by decide) w3
  have := Src.code_le (by decide) w4
  injection enc
  omega

theorem pand (h : Hdr) (d : Nat) (a : Nat) (b : Nat) : Statement (.pand h d a b) := by
  intro v w enc
  simp only [Instr.wf, Bool.and_eq_true, decide_eq_true_eq] at w
  obtain ⟨⟨⟨⟨w0, w1⟩, w2⟩, w3⟩, w4⟩ := w
  have := Hdr.field_le w0
  injection enc
  omega

theorem por (h : Hdr) (d : Nat) (a : Nat) (b : Nat) : Statement (.por h d a b) := by
  intro v w enc
  simp only [Instr.wf, Bool.and_eq_true, decide_eq_true_eq] at w
  obtain ⟨⟨⟨⟨w0, w1⟩, w2⟩, w3⟩, w4⟩ := w
  have := Hdr.field_le w0
  injection enc
  omega

theorem pxor (h : Hdr) (d : Nat) (a : Nat) (b : Nat) : Statement (.pxor h d a b) := by
  intro v w enc
  simp only [Instr.wf, Bool.and_eq_true, decide_eq_true_eq] at w
  obtain ⟨⟨⟨⟨w0, w1⟩, w2⟩, w3⟩, w4⟩ := w
  have := Hdr.field_le w0
  injection enc
  omega

theorem pandn (h : Hdr) (d : Nat) (a : Nat) (b : Nat) : Statement (.pandn h d a b) := by
  intro v w enc
  simp only [Instr.wf, Bool.and_eq_true, decide_eq_true_eq] at w
  obtain ⟨⟨⟨⟨w0, w1⟩, w2⟩, w3⟩, w4⟩ := w
  have := Hdr.field_le w0
  injection enc
  omega

theorem pnot (h : Hdr) (d : Nat) (a : Nat) : Statement (.pnot h d a) := by
  intro v w enc
  simp only [Instr.wf, Bool.and_eq_true, decide_eq_true_eq] at w
  obtain ⟨⟨⟨w0, w1⟩, w2⟩, w3⟩ := w
  have := Hdr.field_le w0
  injection enc
  omega

theorem pmov (h : Hdr) (d : Nat) (a : Nat) : Statement (.pmov h d a) := by
  intro v w enc
  simp only [Instr.wf, Bool.and_eq_true, decide_eq_true_eq] at w
  obtain ⟨⟨⟨w0, w1⟩, w2⟩, w3⟩ := w
  have := Hdr.field_le w0
  injection enc
  omega

theorem pset (h : Hdr) (d : Nat) : Statement (.pset h d) := by
  intro v w enc
  simp only [Instr.wf, Bool.and_eq_true, decide_eq_true_eq] at w
  obtain ⟨⟨w0, w1⟩, w2⟩ := w
  have := Hdr.field_le w0
  injection enc
  omega

theorem pclr (h : Hdr) (d : Nat) : Statement (.pclr h d) := by
  intro v w enc
  simp only [Instr.wf, Bool.and_eq_true, decide_eq_true_eq] at w
  obtain ⟨⟨w0, w1⟩, w2⟩ := w
  have := Hdr.field_le w0
  injection enc
  omega

theorem csrr (h : Hdr) (d : Nat) (c : Csr) : Statement (.csrr h d c) := by
  intro v w enc
  simp only [Instr.wf, Bool.and_eq_true, decide_eq_true_eq] at w
  obtain ⟨⟨w0, w1⟩, w2⟩ := w
  have := Hdr.field_le w0
  have := Csr.number_le w2
  injection enc
  omega

theorem csrw (h : Hdr) (d : Nat) (c : Csr) : Statement (.csrw h d c) := by
  intro v w enc
  simp only [Instr.wf, Bool.and_eq_true, decide_eq_true_eq] at w
  obtain ⟨⟨w0, w1⟩, w2⟩ := w
  have := Hdr.field_le w0
  have := Csr.number_le w2
  injection enc
  omega

theorem csrs (h : Hdr) (d : Nat) (c : Csr) : Statement (.csrs h d c) := by
  intro v w enc
  simp only [Instr.wf, Bool.and_eq_true, decide_eq_true_eq] at w
  obtain ⟨⟨w0, w1⟩, w2⟩ := w
  have := Hdr.field_le w0
  have := Csr.number_le w2
  injection enc
  omega

theorem csrc (h : Hdr) (d : Nat) (c : Csr) : Statement (.csrc h d c) := by
  intro v w enc
  simp only [Instr.wf, Bool.and_eq_true, decide_eq_true_eq] at w
  obtain ⟨⟨w0, w1⟩, w2⟩ := w
  have := Hdr.field_le w0
  have := Csr.number_le w2
  injection enc
  omega

theorem sel (h : Hdr) (d : Dest) (a : Src) (b : Src) : Statement (.sel h d a b) := by
  intro v w enc
  simp only [Instr.wf, Bool.and_eq_true] at w
  obtain ⟨⟨⟨w0, w1⟩, w2⟩, w3⟩ := w
  have := Hdr.field_le w0
  have := Dest.field_le (by decide) w1
  have := Src.code_le (by decide) w2
  have := Src.code_le (by decide) w3
  injection enc
  omega

theorem movp (h : Hdr) (d : Dest) (a : Nat) : Statement (.movp h d a) := by
  intro v w enc
  simp only [Instr.wf, Bool.and_eq_true, decide_eq_true_eq] at w
  obtain ⟨⟨w0, w1⟩, w2⟩ := w
  have := Hdr.field_le w0
  have := Dest.field_le (by decide) w1
  injection enc
  omega

theorem movtp (h : Hdr) (d : Nat) (a : Src) : Statement (.movtp h d a) := by
  intro v w enc
  simp only [Instr.wf, Bool.and_eq_true, decide_eq_true_eq] at w
  obtain ⟨⟨⟨w0, w1⟩, w2⟩, w3⟩ := w
  have := Hdr.field_le w0
  have := Src.code_le (by decide) w3
  injection enc
  omega

theorem br (h : Hdr) (o : Int) : Statement (.br h o) := by
  intro v w enc
  simp only [Instr.wf, Bool.and_eq_true] at w
  obtain ⟨w0, w1⟩ := w
  have := Hdr.field_le w0
  have := enc2_twentyone o
  injection enc
  omega

theorem call (h : Hdr) (o : Int) : Statement (.call h o) := by
  intro v w enc
  simp only [Instr.wf, Bool.and_eq_true] at w
  obtain ⟨w0, w1⟩ := w
  have := Hdr.field_le w0
  have := enc2_twentyone o
  injection enc
  omega

theorem jmpr (h : Hdr) (a : Src) : Statement (.jmpr h a) := by
  intro v w enc
  simp only [Instr.wf, Bool.and_eq_true] at w
  obtain ⟨w0, w1⟩ := w
  have := Hdr.field_le w0
  have := Src.code_le (by decide) w1
  injection enc
  omega

theorem callr (h : Hdr) (a : Src) : Statement (.callr h a) := by
  intro v w enc
  simp only [Instr.wf, Bool.and_eq_true] at w
  obtain ⟨w0, w1⟩ := w
  have := Hdr.field_le w0
  have := Src.code_le (by decide) w1
  injection enc
  omega

theorem loopr (h : Hdr) (l : Nat) (a : Src) (b : Src) : Statement (.loopr h l a b) := by
  intro v w enc
  simp only [Instr.wf, Bool.and_eq_true, decide_eq_true_eq] at w
  obtain ⟨⟨⟨w0, w1⟩, w2⟩, w3⟩ := w
  have := Hdr.field_le w0
  have := Src.code_le (by decide) w2
  have := Src.code_le (by decide) w3
  injection enc
  omega

theorem trap (h : Hdr) (a : Src) : Statement (.trap h a) := by
  intro v w enc
  simp only [Instr.wf, Bool.and_eq_true] at w
  obtain ⟨w0, w1⟩ := w
  have := Hdr.field_le w0
  have := Src.code_le (by decide) w1
  injection enc
  omega

theorem tret (h : Hdr) : Statement (.tret h) := by
  intro v w enc
  simp only [Instr.wf] at w
  have w0 := w
  have := Hdr.field_le w0
  injection enc
  omega

theorem tfence (h : Hdr) : Statement (.tfence h) := by
  intro v w enc
  simp only [Instr.wf] at w
  have w0 := w
  have := Hdr.field_le w0
  injection enc
  omega

theorem exit (h : Hdr) : Statement (.exit h) := by
  intro v w enc
  simp only [Instr.wf] at w
  have w0 := w
  have := Hdr.field_le w0
  injection enc
  omega

theorem waitt (h : Hdr) (a : Src) : Statement (.waitt h a) := by
  intro v w enc
  simp only [Instr.wf, Bool.and_eq_true] at w
  obtain ⟨w0, w1⟩ := w
  have := Hdr.field_le w0
  have := Src.code_le (by decide) w1
  injection enc
  omega

theorem loop (h : Hdr) (l : Nat) (a : Src) (len : Nat) : Statement (.loop h l a len) := by
  intro v w enc
  simp only [Instr.wf, Bool.and_eq_true, decide_eq_true_eq] at w
  obtain ⟨⟨⟨⟨w0, w1⟩, w2⟩, w3⟩, w4⟩ := w
  have := Hdr.field_le w0
  have := Src.code_le (by decide) w2
  injection enc
  omega

theorem sld (h : Hdr) (d : Dest) (a : Src) (size : MemSize) (sx : Bool) (o : Int) : Statement (.sld h d a size sx o) := by
  intro v w enc
  simp only [Instr.wf, Bool.and_eq_true] at w
  obtain ⟨⟨⟨⟨w0, w1⟩, w2⟩, w3⟩, w4⟩ := w
  have := Hdr.field_le w0
  have := Dest.field_le (by decide) w1
  have := Src.code_le (by decide) w2
  have := MemSize.code_le size
  have := Bool.toNat_le sx
  have := enc2_six o
  injection enc
  omega

theorem sst (h : Hdr) (d : Nat) (a : Src) (size : MemSize) (o : Int) : Statement (.sst h d a size o) := by
  intro v w enc
  simp only [Instr.wf, Bool.and_eq_true, decide_eq_true_eq] at w
  obtain ⟨⟨⟨w0, w1⟩, w2⟩, w3⟩ := w
  have := Hdr.field_le w0
  have := Src.code_le (by decide) w2
  have := MemSize.code_le size
  have := enc2_six o
  injection enc
  omega

theorem vadd (h : Hdr) (d : Dest) (a : Src) (b : Src) : Statement (.vadd h d a b) := by
  intro v w enc
  simp only [Instr.wf, Bool.and_eq_true] at w
  obtain ⟨⟨⟨w0, w1⟩, w2⟩, w3⟩ := w
  have := Hdr.field_le w0
  have := Dest.field_le (by decide) w1
  have := Src.code_le (by decide) w2
  have := Src.code_le (by decide) w3
  injection enc
  omega

theorem vsub (h : Hdr) (d : Dest) (a : Src) (b : Src) : Statement (.vsub h d a b) := by
  intro v w enc
  simp only [Instr.wf, Bool.and_eq_true] at w
  obtain ⟨⟨⟨w0, w1⟩, w2⟩, w3⟩ := w
  have := Hdr.field_le w0
  have := Dest.field_le (by decide) w1
  have := Src.code_le (by decide) w2
  have := Src.code_le (by decide) w3
  injection enc
  omega

theorem vmul (h : Hdr) (d : Dest) (a : Src) (b : Src) : Statement (.vmul h d a b) := by
  intro v w enc
  simp only [Instr.wf, Bool.and_eq_true] at w
  obtain ⟨⟨⟨w0, w1⟩, w2⟩, w3⟩ := w
  have := Hdr.field_le w0
  have := Dest.field_le (by decide) w1
  have := Src.code_le (by decide) w2
  have := Src.code_le (by decide) w3
  injection enc
  omega

theorem vmin (h : Hdr) (d : Dest) (a : Src) (b : Src) : Statement (.vmin h d a b) := by
  intro v w enc
  simp only [Instr.wf, Bool.and_eq_true] at w
  obtain ⟨⟨⟨w0, w1⟩, w2⟩, w3⟩ := w
  have := Hdr.field_le w0
  have := Dest.field_le (by decide) w1
  have := Src.code_le (by decide) w2
  have := Src.code_le (by decide) w3
  injection enc
  omega

theorem vmax (h : Hdr) (d : Dest) (a : Src) (b : Src) : Statement (.vmax h d a b) := by
  intro v w enc
  simp only [Instr.wf, Bool.and_eq_true] at w
  obtain ⟨⟨⟨w0, w1⟩, w2⟩, w3⟩ := w
  have := Hdr.field_le w0
  have := Dest.field_le (by decide) w1
  have := Src.code_le (by decide) w2
  have := Src.code_le (by decide) w3
  injection enc
  omega

theorem vabs (h : Hdr) (d : Dest) (a : Src) : Statement (.vabs h d a) := by
  intro v w enc
  simp only [Instr.wf, Bool.and_eq_true] at w
  obtain ⟨⟨w0, w1⟩, w2⟩ := w
  have := Hdr.field_le w0
  have := Dest.field_le (by decide) w1
  have := Src.code_le (by decide) w2
  injection enc
  omega

theorem vneg (h : Hdr) (d : Dest) (a : Src) : Statement (.vneg h d a) := by
  intro v w enc
  simp only [Instr.wf, Bool.and_eq_true] at w
  obtain ⟨⟨w0, w1⟩, w2⟩ := w
  have := Hdr.field_le w0
  have := Dest.field_le (by decide) w1
  have := Src.code_le (by decide) w2
  injection enc
  omega

theorem vcps (h : Hdr) (d : Dest) (a : Src) (b : Src) : Statement (.vcps h d a b) := by
  intro v w enc
  simp only [Instr.wf, Bool.and_eq_true] at w
  obtain ⟨⟨⟨w0, w1⟩, w2⟩, w3⟩ := w
  have := Hdr.field_le w0
  have := Dest.field_le (by decide) w1
  have := Src.code_le (by decide) w2
  have := Src.code_le (by decide) w3
  injection enc
  omega

theorem vfma (h : Hdr) (d : Nat) (a : Src) (b : Src) : Statement (.vfma h d a b) := by
  intro v w enc
  simp only [Instr.wf, Bool.and_eq_true, decide_eq_true_eq] at w
  obtain ⟨⟨⟨w0, w1⟩, w2⟩, w3⟩ := w
  have := Hdr.field_le w0
  have := Src.code_le (by decide) w2
  have := Src.code_le (by decide) w3
  injection enc
  omega

theorem vfms (h : Hdr) (d : Nat) (a : Src) (b : Src) : Statement (.vfms h d a b) := by
  intro v w enc
  simp only [Instr.wf, Bool.and_eq_true, decide_eq_true_eq] at w
  obtain ⟨⟨⟨w0, w1⟩, w2⟩, w3⟩ := w
  have := Hdr.field_le w0
  have := Src.code_le (by decide) w2
  have := Src.code_le (by decide) w3
  injection enc
  omega

theorem vfnma (h : Hdr) (d : Nat) (a : Src) (b : Src) : Statement (.vfnma h d a b) := by
  intro v w enc
  simp only [Instr.wf, Bool.and_eq_true, decide_eq_true_eq] at w
  obtain ⟨⟨⟨w0, w1⟩, w2⟩, w3⟩ := w
  have := Hdr.field_le w0
  have := Src.code_le (by decide) w2
  have := Src.code_le (by decide) w3
  injection enc
  omega

theorem vfnms (h : Hdr) (d : Nat) (a : Src) (b : Src) : Statement (.vfnms h d a b) := by
  intro v w enc
  simp only [Instr.wf, Bool.and_eq_true, decide_eq_true_eq] at w
  obtain ⟨⟨⟨w0, w1⟩, w2⟩, w3⟩ := w
  have := Hdr.field_le w0
  have := Src.code_le (by decide) w2
  have := Src.code_le (by decide) w3
  injection enc
  omega

theorem vdiv (h : Hdr) (d : Nat) (a : Src) (b : Src) : Statement (.vdiv h d a b) := by
  intro v w enc
  simp only [Instr.wf, Bool.and_eq_true, decide_eq_true_eq] at w
  obtain ⟨⟨⟨w0, w1⟩, w2⟩, w3⟩ := w
  have := Hdr.field_le w0
  have := Src.code_le (by decide) w2
  have := Src.code_le (by decide) w3
  injection enc
  omega

theorem vsqrt (h : Hdr) (d : Nat) (a : Src) : Statement (.vsqrt h d a) := by
  intro v w enc
  simp only [Instr.wf, Bool.and_eq_true, decide_eq_true_eq] at w
  obtain ⟨⟨w0, w1⟩, w2⟩ := w
  have := Hdr.field_le w0
  have := Src.code_le (by decide) w2
  injection enc
  omega

theorem vrcp (h : Hdr) (d : Nat) (a : Src) : Statement (.vrcp h d a) := by
  intro v w enc
  simp only [Instr.wf, Bool.and_eq_true, decide_eq_true_eq] at w
  obtain ⟨⟨w0, w1⟩, w2⟩ := w
  have := Hdr.field_le w0
  have := Src.code_le (by decide) w2
  injection enc
  omega

theorem vrsq (h : Hdr) (d : Nat) (a : Src) : Statement (.vrsq h d a) := by
  intro v w enc
  simp only [Instr.wf, Bool.and_eq_true, decide_eq_true_eq] at w
  obtain ⟨⟨w0, w1⟩, w2⟩ := w
  have := Hdr.field_le w0
  have := Src.code_le (by decide) w2
  injection enc
  omega

theorem vexp2 (h : Hdr) (d : Dest) (a : Src) : Statement (.vexp2 h d a) := by
  intro v w enc
  simp only [Instr.wf, Bool.and_eq_true] at w
  obtain ⟨⟨w0, w1⟩, w2⟩ := w
  have := Hdr.field_le w0
  have := Dest.field_le (by decide) w1
  have := Src.code_le (by decide) w2
  injection enc
  omega

theorem vlog2 (h : Hdr) (d : Dest) (a : Src) : Statement (.vlog2 h d a) := by
  intro v w enc
  simp only [Instr.wf, Bool.and_eq_true] at w
  obtain ⟨⟨w0, w1⟩, w2⟩ := w
  have := Hdr.field_le w0
  have := Dest.field_le (by decide) w1
  have := Src.code_le (by decide) w2
  injection enc
  omega

theorem vrint (h : Hdr) (d : Dest) (a : Src) : Statement (.vrint h d a) := by
  intro v w enc
  simp only [Instr.wf, Bool.and_eq_true] at w
  obtain ⟨⟨w0, w1⟩, w2⟩ := w
  have := Hdr.field_le w0
  have := Dest.field_le (by decide) w1
  have := Src.code_le (by decide) w2
  injection enc
  omega

theorem vrintz (h : Hdr) (d : Dest) (a : Src) : Statement (.vrintz h d a) := by
  intro v w enc
  simp only [Instr.wf, Bool.and_eq_true] at w
  obtain ⟨⟨w0, w1⟩, w2⟩ := w
  have := Hdr.field_le w0
  have := Dest.field_le (by decide) w1
  have := Src.code_le (by decide) w2
  injection enc
  omega

theorem vclass (h : Hdr) (d : Dest) (a : Src) : Statement (.vclass h d a) := by
  intro v w enc
  simp only [Instr.wf, Bool.and_eq_true] at w
  obtain ⟨⟨w0, w1⟩, w2⟩ := w
  have := Hdr.field_le w0
  have := Dest.field_le (by decide) w1
  have := Src.code_le (by decide) w2
  injection enc
  omega

theorem vscale (h : Hdr) (d : Dest) (a : Src) (b : Src) : Statement (.vscale h d a b) := by
  intro v w enc
  simp only [Instr.wf, Bool.and_eq_true] at w
  obtain ⟨⟨⟨w0, w1⟩, w2⟩, w3⟩ := w
  have := Hdr.field_le w0
  have := Dest.field_le (by decide) w1
  have := Src.code_le (by decide) w2
  have := Src.code_le (by decide) w3
  injection enc
  omega

theorem vgetexp (h : Hdr) (d : Dest) (a : Src) : Statement (.vgetexp h d a) := by
  intro v w enc
  simp only [Instr.wf, Bool.and_eq_true] at w
  obtain ⟨⟨w0, w1⟩, w2⟩ := w
  have := Hdr.field_le w0
  have := Dest.field_le (by decide) w1
  have := Src.code_le (by decide) w2
  injection enc
  omega

theorem vminnum (h : Hdr) (d : Dest) (a : Src) (b : Src) : Statement (.vminnum h d a b) := by
  intro v w enc
  simp only [Instr.wf, Bool.and_eq_true] at w
  obtain ⟨⟨⟨w0, w1⟩, w2⟩, w3⟩ := w
  have := Hdr.field_le w0
  have := Dest.field_le (by decide) w1
  have := Src.code_le (by decide) w2
  have := Src.code_le (by decide) w3
  injection enc
  omega

theorem vfceq (h : Hdr) (d : Nat) (a : Src) (b : Src) : Statement (.vfceq h d a b) := by
  intro v w enc
  simp only [Instr.wf, Bool.and_eq_true, decide_eq_true_eq] at w
  obtain ⟨⟨⟨⟨w0, w1⟩, w2⟩, w3⟩, w4⟩ := w
  have := Hdr.field_le w0
  have := Src.code_le (by decide) w3
  have := Src.code_le (by decide) w4
  injection enc
  omega

theorem vfcne (h : Hdr) (d : Nat) (a : Src) (b : Src) : Statement (.vfcne h d a b) := by
  intro v w enc
  simp only [Instr.wf, Bool.and_eq_true, decide_eq_true_eq] at w
  obtain ⟨⟨⟨⟨w0, w1⟩, w2⟩, w3⟩, w4⟩ := w
  have := Hdr.field_le w0
  have := Src.code_le (by decide) w3
  have := Src.code_le (by decide) w4
  injection enc
  omega

theorem vfclt (h : Hdr) (d : Nat) (a : Src) (b : Src) : Statement (.vfclt h d a b) := by
  intro v w enc
  simp only [Instr.wf, Bool.and_eq_true, decide_eq_true_eq] at w
  obtain ⟨⟨⟨⟨w0, w1⟩, w2⟩, w3⟩, w4⟩ := w
  have := Hdr.field_le w0
  have := Src.code_le (by decide) w3
  have := Src.code_le (by decide) w4
  injection enc
  omega

theorem vfcle (h : Hdr) (d : Nat) (a : Src) (b : Src) : Statement (.vfcle h d a b) := by
  intro v w enc
  simp only [Instr.wf, Bool.and_eq_true, decide_eq_true_eq] at w
  obtain ⟨⟨⟨⟨w0, w1⟩, w2⟩, w3⟩, w4⟩ := w
  have := Hdr.field_le w0
  have := Src.code_le (by decide) w3
  have := Src.code_le (by decide) w4
  injection enc
  omega

theorem vfcgt (h : Hdr) (d : Nat) (a : Src) (b : Src) : Statement (.vfcgt h d a b) := by
  intro v w enc
  simp only [Instr.wf, Bool.and_eq_true, decide_eq_true_eq] at w
  obtain ⟨⟨⟨⟨w0, w1⟩, w2⟩, w3⟩, w4⟩ := w
  have := Hdr.field_le w0
  have := Src.code_le (by decide) w3
  have := Src.code_le (by decide) w4
  injection enc
  omega

theorem vfcge (h : Hdr) (d : Nat) (a : Src) (b : Src) : Statement (.vfcge h d a b) := by
  intro v w enc
  simp only [Instr.wf, Bool.and_eq_true, decide_eq_true_eq] at w
  obtain ⟨⟨⟨⟨w0, w1⟩, w2⟩, w3⟩, w4⟩ := w
  have := Hdr.field_le w0
  have := Src.code_le (by decide) w3
  have := Src.code_le (by decide) w4
  injection enc
  omega

theorem vfcunord (h : Hdr) (d : Nat) (a : Src) (b : Src) : Statement (.vfcunord h d a b) := by
  intro v w enc
  simp only [Instr.wf, Bool.and_eq_true, decide_eq_true_eq] at w
  obtain ⟨⟨⟨⟨w0, w1⟩, w2⟩, w3⟩, w4⟩ := w
  have := Hdr.field_le w0
  have := Src.code_le (by decide) w3
  have := Src.code_le (by decide) w4
  injection enc
  omega

theorem vfcord (h : Hdr) (d : Nat) (a : Src) (b : Src) : Statement (.vfcord h d a b) := by
  intro v w enc
  simp only [Instr.wf, Bool.and_eq_true, decide_eq_true_eq] at w
  obtain ⟨⟨⟨⟨w0, w1⟩, w2⟩, w3⟩, w4⟩ := w
  have := Hdr.field_le w0
  have := Src.code_le (by decide) w3
  have := Src.code_le (by decide) w4
  injection enc
  omega

theorem viadd (h : Hdr) (d : Dest) (a : Src) (b : Src) : Statement (.viadd h d a b) := by
  intro v w enc
  simp only [Instr.wf, Bool.and_eq_true] at w
  obtain ⟨⟨⟨w0, w1⟩, w2⟩, w3⟩ := w
  have := Hdr.field_le w0
  have := Dest.field_le (by decide) w1
  have := Src.code_le (by decide) w2
  have := Src.code_le (by decide) w3
  injection enc
  omega

theorem visub (h : Hdr) (d : Dest) (a : Src) (b : Src) : Statement (.visub h d a b) := by
  intro v w enc
  simp only [Instr.wf, Bool.and_eq_true] at w
  obtain ⟨⟨⟨w0, w1⟩, w2⟩, w3⟩ := w
  have := Hdr.field_le w0
  have := Dest.field_le (by decide) w1
  have := Src.code_le (by decide) w2
  have := Src.code_le (by decide) w3
  injection enc
  omega

theorem vimul (h : Hdr) (d : Dest) (a : Src) (b : Src) : Statement (.vimul h d a b) := by
  intro v w enc
  simp only [Instr.wf, Bool.and_eq_true] at w
  obtain ⟨⟨⟨w0, w1⟩, w2⟩, w3⟩ := w
  have := Hdr.field_le w0
  have := Dest.field_le (by decide) w1
  have := Src.code_le (by decide) w2
  have := Src.code_le (by decide) w3
  injection enc
  omega

theorem vimulh (h : Hdr) (d : Dest) (a : Src) (b : Src) : Statement (.vimulh h d a b) := by
  intro v w enc
  simp only [Instr.wf, Bool.and_eq_true] at w
  obtain ⟨⟨⟨w0, w1⟩, w2⟩, w3⟩ := w
  have := Hdr.field_le w0
  have := Dest.field_le (by decide) w1
  have := Src.code_le (by decide) w2
  have := Src.code_le (by decide) w3
  injection enc
  omega

theorem vimin (h : Hdr) (d : Dest) (a : Src) (b : Src) : Statement (.vimin h d a b) := by
  intro v w enc
  simp only [Instr.wf, Bool.and_eq_true] at w
  obtain ⟨⟨⟨w0, w1⟩, w2⟩, w3⟩ := w
  have := Hdr.field_le w0
  have := Dest.field_le (by decide) w1
  have := Src.code_le (by decide) w2
  have := Src.code_le (by decide) w3
  injection enc
  omega

theorem vimax (h : Hdr) (d : Dest) (a : Src) (b : Src) : Statement (.vimax h d a b) := by
  intro v w enc
  simp only [Instr.wf, Bool.and_eq_true] at w
  obtain ⟨⟨⟨w0, w1⟩, w2⟩, w3⟩ := w
  have := Hdr.field_le w0
  have := Dest.field_le (by decide) w1
  have := Src.code_le (by decide) w2
  have := Src.code_le (by decide) w3
  injection enc
  omega

theorem viminu (h : Hdr) (d : Dest) (a : Src) (b : Src) : Statement (.viminu h d a b) := by
  intro v w enc
  simp only [Instr.wf, Bool.and_eq_true] at w
  obtain ⟨⟨⟨w0, w1⟩, w2⟩, w3⟩ := w
  have := Hdr.field_le w0
  have := Dest.field_le (by decide) w1
  have := Src.code_le (by decide) w2
  have := Src.code_le (by decide) w3
  injection enc
  omega

theorem vimaxu (h : Hdr) (d : Dest) (a : Src) (b : Src) : Statement (.vimaxu h d a b) := by
  intro v w enc
  simp only [Instr.wf, Bool.and_eq_true] at w
  obtain ⟨⟨⟨w0, w1⟩, w2⟩, w3⟩ := w
  have := Hdr.field_le w0
  have := Dest.field_le (by decide) w1
  have := Src.code_le (by decide) w2
  have := Src.code_le (by decide) w3
  injection enc
  omega

theorem viadds (h : Hdr) (d : Dest) (a : Src) (b : Src) : Statement (.viadds h d a b) := by
  intro v w enc
  simp only [Instr.wf, Bool.and_eq_true] at w
  obtain ⟨⟨⟨w0, w1⟩, w2⟩, w3⟩ := w
  have := Hdr.field_le w0
  have := Dest.field_le (by decide) w1
  have := Src.code_le (by decide) w2
  have := Src.code_le (by decide) w3
  injection enc
  omega

theorem viaddsu (h : Hdr) (d : Dest) (a : Src) (b : Src) : Statement (.viaddsu h d a b) := by
  intro v w enc
  simp only [Instr.wf, Bool.and_eq_true] at w
  obtain ⟨⟨⟨w0, w1⟩, w2⟩, w3⟩ := w
  have := Hdr.field_le w0
  have := Dest.field_le (by decide) w1
  have := Src.code_le (by decide) w2
  have := Src.code_le (by decide) w3
  injection enc
  omega

theorem visubs (h : Hdr) (d : Dest) (a : Src) (b : Src) : Statement (.visubs h d a b) := by
  intro v w enc
  simp only [Instr.wf, Bool.and_eq_true] at w
  obtain ⟨⟨⟨w0, w1⟩, w2⟩, w3⟩ := w
  have := Hdr.field_le w0
  have := Dest.field_le (by decide) w1
  have := Src.code_le (by decide) w2
  have := Src.code_le (by decide) w3
  injection enc
  omega

theorem visubsu (h : Hdr) (d : Dest) (a : Src) (b : Src) : Statement (.visubsu h d a b) := by
  intro v w enc
  simp only [Instr.wf, Bool.and_eq_true] at w
  obtain ⟨⟨⟨w0, w1⟩, w2⟩, w3⟩ := w
  have := Hdr.field_le w0
  have := Dest.field_le (by decide) w1
  have := Src.code_le (by decide) w2
  have := Src.code_le (by decide) w3
  injection enc
  omega

theorem viabs (h : Hdr) (d : Dest) (a : Src) : Statement (.viabs h d a) := by
  intro v w enc
  simp only [Instr.wf, Bool.and_eq_true] at w
  obtain ⟨⟨w0, w1⟩, w2⟩ := w
  have := Hdr.field_le w0
  have := Dest.field_le (by decide) w1
  have := Src.code_le (by decide) w2
  injection enc
  omega

theorem vineg (h : Hdr) (d : Dest) (a : Src) : Statement (.vineg h d a) := by
  intro v w enc
  simp only [Instr.wf, Bool.and_eq_true] at w
  obtain ⟨⟨w0, w1⟩, w2⟩ := w
  have := Hdr.field_le w0
  have := Dest.field_le (by decide) w1
  have := Src.code_le (by decide) w2
  injection enc
  omega

theorem viavg (h : Hdr) (d : Dest) (a : Src) (b : Src) : Statement (.viavg h d a b) := by
  intro v w enc
  simp only [Instr.wf, Bool.and_eq_true] at w
  obtain ⟨⟨⟨w0, w1⟩, w2⟩, w3⟩ := w
  have := Hdr.field_le w0
  have := Dest.field_le (by decide) w1
  have := Src.code_le (by decide) w2
  have := Src.code_le (by decide) w3
  injection enc
  omega

theorem viavgu (h : Hdr) (d : Dest) (a : Src) (b : Src) : Statement (.viavgu h d a b) := by
  intro v w enc
  simp only [Instr.wf, Bool.and_eq_true] at w
  obtain ⟨⟨⟨w0, w1⟩, w2⟩, w3⟩ := w
  have := Hdr.field_le w0
  have := Dest.field_le (by decide) w1
  have := Src.code_le (by decide) w2
  have := Src.code_le (by decide) w3
  injection enc
  omega

theorem vand (h : Hdr) (d : Dest) (a : Src) (b : Src) : Statement (.vand h d a b) := by
  intro v w enc
  simp only [Instr.wf, Bool.and_eq_true] at w
  obtain ⟨⟨⟨w0, w1⟩, w2⟩, w3⟩ := w
  have := Hdr.field_le w0
  have := Dest.field_le (by decide) w1
  have := Src.code_le (by decide) w2
  have := Src.code_le (by decide) w3
  injection enc
  omega

theorem vor (h : Hdr) (d : Dest) (a : Src) (b : Src) : Statement (.vor h d a b) := by
  intro v w enc
  simp only [Instr.wf, Bool.and_eq_true] at w
  obtain ⟨⟨⟨w0, w1⟩, w2⟩, w3⟩ := w
  have := Hdr.field_le w0
  have := Dest.field_le (by decide) w1
  have := Src.code_le (by decide) w2
  have := Src.code_le (by decide) w3
  injection enc
  omega

theorem vxor (h : Hdr) (d : Dest) (a : Src) (b : Src) : Statement (.vxor h d a b) := by
  intro v w enc
  simp only [Instr.wf, Bool.and_eq_true] at w
  obtain ⟨⟨⟨w0, w1⟩, w2⟩, w3⟩ := w
  have := Hdr.field_le w0
  have := Dest.field_le (by decide) w1
  have := Src.code_le (by decide) w2
  have := Src.code_le (by decide) w3
  injection enc
  omega

theorem vandn (h : Hdr) (d : Dest) (a : Src) (b : Src) : Statement (.vandn h d a b) := by
  intro v w enc
  simp only [Instr.wf, Bool.and_eq_true] at w
  obtain ⟨⟨⟨w0, w1⟩, w2⟩, w3⟩ := w
  have := Hdr.field_le w0
  have := Dest.field_le (by decide) w1
  have := Src.code_le (by decide) w2
  have := Src.code_le (by decide) w3
  injection enc
  omega

theorem vshl (h : Hdr) (d : Dest) (a : Src) (b : Src) : Statement (.vshl h d a b) := by
  intro v w enc
  simp only [Instr.wf, Bool.and_eq_true] at w
  obtain ⟨⟨⟨w0, w1⟩, w2⟩, w3⟩ := w
  have := Hdr.field_le w0
  have := Dest.field_le (by decide) w1
  have := Src.code_le (by decide) w2
  have := Src.code_le (by decide) w3
  injection enc
  omega

theorem vshr (h : Hdr) (d : Dest) (a : Src) (b : Src) : Statement (.vshr h d a b) := by
  intro v w enc
  simp only [Instr.wf, Bool.and_eq_true] at w
  obtain ⟨⟨⟨w0, w1⟩, w2⟩, w3⟩ := w
  have := Hdr.field_le w0
  have := Dest.field_le (by decide) w1
  have := Src.code_le (by decide) w2
  have := Src.code_le (by decide) w3
  injection enc
  omega

theorem vsra (h : Hdr) (d : Dest) (a : Src) (b : Src) : Statement (.vsra h d a b) := by
  intro v w enc
  simp only [Instr.wf, Bool.and_eq_true] at w
  obtain ⟨⟨⟨w0, w1⟩, w2⟩, w3⟩ := w
  have := Hdr.field_le w0
  have := Dest.field_le (by decide) w1
  have := Src.code_le (by decide) w2
  have := Src.code_le (by decide) w3
  injection enc
  omega

theorem vnot (h : Hdr) (d : Dest) (a : Src) : Statement (.vnot h d a) := by
  intro v w enc
  simp only [Instr.wf, Bool.and_eq_true] at w
  obtain ⟨⟨w0, w1⟩, w2⟩ := w
  have := Hdr.field_le w0
  have := Dest.field_le (by decide) w1
  have := Src.code_le (by decide) w2
  injection enc
  omega

theorem viceq (h : Hdr) (d : Nat) (a : Src) (b : Src) : Statement (.viceq h d a b) := by
  intro v w enc
  simp only [Instr.wf, Bool.and_eq_true, decide_eq_true_eq] at w
  obtain ⟨⟨⟨⟨w0, w1⟩, w2⟩, w3⟩, w4⟩ := w
  have := Hdr.field_le w0
  have := Src.code_le (by decide) w3
  have := Src.code_le (by decide) w4
  injection enc
  omega

theorem vicne (h : Hdr) (d : Nat) (a : Src) (b : Src) : Statement (.vicne h d a b) := by
  intro v w enc
  simp only [Instr.wf, Bool.and_eq_true, decide_eq_true_eq] at w
  obtain ⟨⟨⟨⟨w0, w1⟩, w2⟩, w3⟩, w4⟩ := w
  have := Hdr.field_le w0
  have := Src.code_le (by decide) w3
  have := Src.code_le (by decide) w4
  injection enc
  omega

theorem viclt (h : Hdr) (d : Nat) (a : Src) (b : Src) : Statement (.viclt h d a b) := by
  intro v w enc
  simp only [Instr.wf, Bool.and_eq_true, decide_eq_true_eq] at w
  obtain ⟨⟨⟨⟨w0, w1⟩, w2⟩, w3⟩, w4⟩ := w
  have := Hdr.field_le w0
  have := Src.code_le (by decide) w3
  have := Src.code_le (by decide) w4
  injection enc
  omega

theorem vicltu (h : Hdr) (d : Nat) (a : Src) (b : Src) : Statement (.vicltu h d a b) := by
  intro v w enc
  simp only [Instr.wf, Bool.and_eq_true, decide_eq_true_eq] at w
  obtain ⟨⟨⟨⟨w0, w1⟩, w2⟩, w3⟩, w4⟩ := w
  have := Hdr.field_le w0
  have := Src.code_le (by decide) w3
  have := Src.code_le (by decide) w4
  injection enc
  omega

theorem vicle (h : Hdr) (d : Nat) (a : Src) (b : Src) : Statement (.vicle h d a b) := by
  intro v w enc
  simp only [Instr.wf, Bool.and_eq_true, decide_eq_true_eq] at w
  obtain ⟨⟨⟨⟨w0, w1⟩, w2⟩, w3⟩, w4⟩ := w
  have := Hdr.field_le w0
  have := Src.code_le (by decide) w3
  have := Src.code_le (by decide) w4
  injection enc
  omega

theorem vicleu (h : Hdr) (d : Nat) (a : Src) (b : Src) : Statement (.vicleu h d a b) := by
  intro v w enc
  simp only [Instr.wf, Bool.and_eq_true, decide_eq_true_eq] at w
  obtain ⟨⟨⟨⟨w0, w1⟩, w2⟩, w3⟩, w4⟩ := w
  have := Hdr.field_le w0
  have := Src.code_le (by decide) w3
  have := Src.code_le (by decide) w4
  injection enc
  omega

theorem victst (h : Hdr) (d : Nat) (a : Src) (b : Src) : Statement (.victst h d a b) := by
  intro v w enc
  simp only [Instr.wf, Bool.and_eq_true, decide_eq_true_eq] at w
  obtain ⟨⟨⟨⟨w0, w1⟩, w2⟩, w3⟩, w4⟩ := w
  have := Hdr.field_le w0
  have := Src.code_le (by decide) w3
  have := Src.code_le (by decide) w4
  injection enc
  omega

theorem vcvt (h : Hdr) (d : Dest) (a : Src) (t : Fmt) (r : RndOvr) (sat : Bool) : Statement (.vcvt h d a t r sat) := by
  intro v w enc
  simp only [Instr.wf, Bool.and_eq_true] at w
  obtain ⟨⟨w0, w1⟩, w2⟩ := w
  have := Hdr.field_le w0
  have := Dest.field_le (by decide) w1
  have := Src.code_le (by decide) w2
  have := Fmt.code_le t
  have := RndOvr.code_le r
  have := Bool.toNat_le sat
  injection enc
  omega

theorem vperm (h : Hdr) (d : Dest) (a : Src) (b : Src) : Statement (.vperm h d a b) := by
  intro v w enc
  simp only [Instr.wf, Bool.and_eq_true] at w
  obtain ⟨⟨⟨w0, w1⟩, w2⟩, w3⟩ := w
  have := Hdr.field_le w0
  have := Dest.field_le (by decide) w1
  have := Src.code_le (by decide) w2
  have := Src.code_le (by decide) w3
  injection enc
  omega

theorem vzip (h : Hdr) (d : Dest) (a : Src) (b : Src) : Statement (.vzip h d a b) := by
  intro v w enc
  simp only [Instr.wf, Bool.and_eq_true] at w
  obtain ⟨⟨⟨w0, w1⟩, w2⟩, w3⟩ := w
  have := Hdr.field_le w0
  have := Dest.field_le (by decide) w1
  have := Src.code_le (by decide) w2
  have := Src.code_le (by decide) w3
  injection enc
  omega

theorem vunzip (h : Hdr) (d : Dest) (a : Src) (b : Src) : Statement (.vunzip h d a b) := by
  intro v w enc
  simp only [Instr.wf, Bool.and_eq_true] at w
  obtain ⟨⟨⟨w0, w1⟩, w2⟩, w3⟩ := w
  have := Hdr.field_le w0
  have := Dest.field_le (by decide) w1
  have := Src.code_le (by decide) w2
  have := Src.code_le (by decide) w3
  injection enc
  omega

theorem vrev (h : Hdr) (d : Dest) (a : Src) : Statement (.vrev h d a) := by
  intro v w enc
  simp only [Instr.wf, Bool.and_eq_true] at w
  obtain ⟨⟨w0, w1⟩, w2⟩ := w
  have := Hdr.field_le w0
  have := Dest.field_le (by decide) w1
  have := Src.code_le (by decide) w2
  injection enc
  omega

theorem vrot (h : Hdr) (d : Dest) (a : Src) (b : Src) : Statement (.vrot h d a b) := by
  intro v w enc
  simp only [Instr.wf, Bool.and_eq_true] at w
  obtain ⟨⟨⟨w0, w1⟩, w2⟩, w3⟩ := w
  have := Hdr.field_le w0
  have := Dest.field_le (by decide) w1
  have := Src.code_le (by decide) w2
  have := Src.code_le (by decide) w3
  injection enc
  omega

theorem vsel (h : Hdr) (d : Dest) (a : Src) (b : Src) : Statement (.vsel h d a b) := by
  intro v w enc
  simp only [Instr.wf, Bool.and_eq_true] at w
  obtain ⟨⟨⟨w0, w1⟩, w2⟩, w3⟩ := w
  have := Hdr.field_le w0
  have := Dest.field_le (by decide) w1
  have := Src.code_le (by decide) w2
  have := Src.code_le (by decide) w3
  injection enc
  omega

theorem vcmprs (h : Hdr) (d : Dest) (a : Src) (b : Nat) : Statement (.vcmprs h d a b) := by
  intro v w enc
  simp only [Instr.wf, Bool.and_eq_true, decide_eq_true_eq] at w
  obtain ⟨⟨⟨w0, w1⟩, w2⟩, w3⟩ := w
  have := Hdr.field_le w0
  have := Dest.field_le (by decide) w1
  have := Src.code_le (by decide) w2
  injection enc
  omega

theorem vexpnd (h : Hdr) (d : Dest) (a : Src) (b : Nat) : Statement (.vexpnd h d a b) := by
  intro v w enc
  simp only [Instr.wf, Bool.and_eq_true, decide_eq_true_eq] at w
  obtain ⟨⟨⟨w0, w1⟩, w2⟩, w3⟩ := w
  have := Hdr.field_le w0
  have := Dest.field_le (by decide) w1
  have := Src.code_le (by decide) w2
  injection enc
  omega

theorem vrsum (h : Hdr) (d : Dest) (a : Src) (b : Nat) : Statement (.vrsum h d a b) := by
  intro v w enc
  simp only [Instr.wf, Bool.and_eq_true, decide_eq_true_eq] at w
  obtain ⟨⟨⟨w0, w1⟩, w2⟩, w3⟩ := w
  have := Hdr.field_le w0
  have := Dest.field_le (by decide) w1
  have := Src.code_le (by decide) w2
  injection enc
  omega

theorem vrmax (h : Hdr) (d : Dest) (a : Src) (b : Nat) : Statement (.vrmax h d a b) := by
  intro v w enc
  simp only [Instr.wf, Bool.and_eq_true, decide_eq_true_eq] at w
  obtain ⟨⟨⟨w0, w1⟩, w2⟩, w3⟩ := w
  have := Hdr.field_le w0
  have := Dest.field_le (by decide) w1
  have := Src.code_le (by decide) w2
  injection enc
  omega

theorem vrmin (h : Hdr) (d : Dest) (a : Src) (b : Nat) : Statement (.vrmin h d a b) := by
  intro v w enc
  simp only [Instr.wf, Bool.and_eq_true, decide_eq_true_eq] at w
  obtain ⟨⟨⟨w0, w1⟩, w2⟩, w3⟩ := w
  have := Hdr.field_le w0
  have := Dest.field_le (by decide) w1
  have := Src.code_le (by decide) w2
  injection enc
  omega

theorem vrisum (h : Hdr) (d : Dest) (a : Src) (b : Nat) : Statement (.vrisum h d a b) := by
  intro v w enc
  simp only [Instr.wf, Bool.and_eq_true, decide_eq_true_eq] at w
  obtain ⟨⟨⟨w0, w1⟩, w2⟩, w3⟩ := w
  have := Hdr.field_le w0
  have := Dest.field_le (by decide) w1
  have := Src.code_le (by decide) w2
  injection enc
  omega

theorem vscan (h : Hdr) (d : Dest) (a : Src) (b : Nat) : Statement (.vscan h d a b) := by
  intro v w enc
  simp only [Instr.wf, Bool.and_eq_true, decide_eq_true_eq] at w
  obtain ⟨⟨⟨w0, w1⟩, w2⟩, w3⟩ := w
  have := Hdr.field_le w0
  have := Dest.field_le (by decide) w1
  have := Src.code_le (by decide) w2
  injection enc
  omega

theorem vrand (h : Hdr) (d : Dest) (a : Src) (b : Nat) : Statement (.vrand h d a b) := by
  intro v w enc
  simp only [Instr.wf, Bool.and_eq_true, decide_eq_true_eq] at w
  obtain ⟨⟨⟨w0, w1⟩, w2⟩, w3⟩ := w
  have := Hdr.field_le w0
  have := Dest.field_le (by decide) w1
  have := Src.code_le (by decide) w2
  injection enc
  omega

theorem vror (h : Hdr) (d : Dest) (a : Src) (b : Nat) : Statement (.vror h d a b) := by
  intro v w enc
  simp only [Instr.wf, Bool.and_eq_true, decide_eq_true_eq] at w
  obtain ⟨⟨⟨w0, w1⟩, w2⟩, w3⟩ := w
  have := Hdr.field_le w0
  have := Dest.field_le (by decide) w1
  have := Src.code_le (by decide) w2
  injection enc
  omega

theorem vrxor (h : Hdr) (d : Dest) (a : Src) (b : Nat) : Statement (.vrxor h d a b) := by
  intro v w enc
  simp only [Instr.wf, Bool.and_eq_true, decide_eq_true_eq] at w
  obtain ⟨⟨⟨w0, w1⟩, w2⟩, w3⟩ := w
  have := Hdr.field_le w0
  have := Dest.field_le (by decide) w1
  have := Src.code_le (by decide) w2
  injection enc
  omega

theorem vspli (h : Hdr) (d : Nat) (imm : Nat) : Statement (.vspli h d imm) := by
  intro v w enc
  simp only [Instr.wf, Bool.and_eq_true, decide_eq_true_eq] at w
  obtain ⟨⟨w0, w1⟩, w2⟩ := w
  have := Hdr.field_le w0
  injection enc
  omega

theorem viota (h : Hdr) (d : Dest) : Statement (.viota h d) := by
  intro v w enc
  simp only [Instr.wf, Bool.and_eq_true] at w
  obtain ⟨w0, w1⟩ := w
  have := Hdr.field_le w0
  have := Dest.field_le (by decide) w1
  injection enc
  omega

theorem vsplat (h : Hdr) (d : Dest) (a : Src) (b : Src) : Statement (.vsplat h d a b) := by
  intro v w enc
  simp only [Instr.wf, Bool.and_eq_true] at w
  obtain ⟨⟨⟨w0, w1⟩, w2⟩, w3⟩ := w
  have := Hdr.field_le w0
  have := Dest.field_le (by decide) w1
  have := Src.code_le (by decide) w2
  have := Src.code_le (by decide) w3
  injection enc
  omega

theorem vmovp (h : Hdr) (d : Dest) (a : Nat) : Statement (.vmovp h d a) := by
  intro v w enc
  simp only [Instr.wf, Bool.and_eq_true, decide_eq_true_eq] at w
  obtain ⟨⟨w0, w1⟩, w2⟩ := w
  have := Hdr.field_le w0
  have := Dest.field_le (by decide) w1
  injection enc
  omega

theorem vpopc (h : Hdr) (d : Dest) (a : Nat) : Statement (.vpopc h d a) := by
  intro v w enc
  simp only [Instr.wf, Bool.and_eq_true, decide_eq_true_eq] at w
  obtain ⟨⟨w0, w1⟩, w2⟩ := w
  have := Hdr.field_le w0
  have := Dest.field_le (by decide) w1
  injection enc
  omega

theorem vrng (h : Hdr) (d : Dest) (a : Src) : Statement (.vrng h d a) := by
  intro v w enc
  simp only [Instr.wf, Bool.and_eq_true] at w
  obtain ⟨⟨w0, w1⟩, w2⟩ := w
  have := Hdr.field_le w0
  have := Dest.field_le (by decide) w1
  have := Src.code_le (by decide) w2
  injection enc
  omega

theorem vfmts (h : Hdr) (a : Src) : Statement (.vfmts h a) := by
  intro v w enc
  simp only [Instr.wf, Bool.and_eq_true] at w
  obtain ⟨w0, w1⟩ := w
  have := Hdr.field_le w0
  have := Src.code_le (by decide) w1
  injection enc
  omega

theorem vfmt (h : Hdr) (bind : Bool) (f : Fmt) : Statement (.vfmt h bind f) := by
  intro v w enc
  simp only [Instr.wf] at w
  have w0 := w
  have := Hdr.field_le w0
  have := Bool.toNat_le bind
  have := Fmt.code_le f
  injection enc
  omega

theorem vnop (e : Bool) : Statement (.vnop e) := by
  intro v w enc
  clear w
  have := Bool.toNat_le e
  injection enc
  omega

theorem vdot4s (h : Hdr) (d : Nat) (a : Src) (b : Src) : Statement (.vdot4s h d a b) := by
  intro v w enc
  simp only [Instr.wf, Bool.and_eq_true, decide_eq_true_eq] at w
  obtain ⟨⟨⟨w0, w1⟩, w2⟩, w3⟩ := w
  have := Hdr.field_le w0
  have := Src.code_le (by decide) w2
  have := Src.code_le (by decide) w3
  injection enc
  omega

theorem vdot4u (h : Hdr) (d : Nat) (a : Src) (b : Src) : Statement (.vdot4u h d a b) := by
  intro v w enc
  simp only [Instr.wf, Bool.and_eq_true, decide_eq_true_eq] at w
  obtain ⟨⟨⟨w0, w1⟩, w2⟩, w3⟩ := w
  have := Hdr.field_le w0
  have := Src.code_le (by decide) w2
  have := Src.code_le (by decide) w3
  injection enc
  omega

theorem vdot2bf (h : Hdr) (d : Nat) (a : Src) (b : Src) : Statement (.vdot2bf h d a b) := by
  intro v w enc
  simp only [Instr.wf, Bool.and_eq_true, decide_eq_true_eq] at w
  obtain ⟨⟨⟨w0, w1⟩, w2⟩, w3⟩ := w
  have := Hdr.field_le w0
  have := Src.code_le (by decide) w2
  have := Src.code_le (by decide) w3
  injection enc
  omega

theorem vdot2h (h : Hdr) (d : Nat) (a : Src) (b : Src) : Statement (.vdot2h h d a b) := by
  intro v w enc
  simp only [Instr.wf, Bool.and_eq_true, decide_eq_true_eq] at w
  obtain ⟨⟨⟨w0, w1⟩, w2⟩, w3⟩ := w
  have := Hdr.field_le w0
  have := Src.code_le (by decide) w2
  have := Src.code_le (by decide) w3
  injection enc
  omega

theorem cld (h : Hdr) (f : VFile) (d : Nat) (a : Src) (imm : Int) : Statement (.cld h f d a imm) := by
  intro v w enc
  simp only [Instr.wf, Bool.and_eq_true, decide_eq_true_eq] at w
  obtain ⟨⟨⟨w0, w1⟩, w2⟩, w3⟩ := w
  have := Hdr.field_le w0
  have := VFile.code_le f
  have := Src.code_le (by decide) w2
  have := enc2_nine imm
  injection enc
  omega

theorem cst (h : Hdr) (f : VFile) (d : Nat) (a : Src) (imm : Int) : Statement (.cst h f d a imm) := by
  intro v w enc
  simp only [Instr.wf, Bool.and_eq_true, decide_eq_true_eq] at w
  obtain ⟨⟨⟨w0, w1⟩, w2⟩, w3⟩ := w
  have := Hdr.field_le w0
  have := VFile.code_le f
  have := Src.code_le (by decide) w2
  have := enc2_nine imm
  injection enc
  omega

theorem cgath (h : Hdr) (f : VFile) (d : Nat) (a : Src) (wide : Bool) (x : Nat) : Statement (.cgath h f d a wide x) := by
  intro v w enc
  simp only [Instr.wf, Bool.and_eq_true, decide_eq_true_eq] at w
  obtain ⟨⟨⟨w0, w1⟩, w2⟩, w3⟩ := w
  have := Hdr.field_le w0
  have := VFile.code_le f
  have := Src.code_le (by decide) w2
  have := Bool.toNat_le wide
  injection enc
  omega

theorem cscat (h : Hdr) (f : VFile) (d : Nat) (a : Src) (wide : Bool) (x : Nat) : Statement (.cscat h f d a wide x) := by
  intro v w enc
  simp only [Instr.wf, Bool.and_eq_true, decide_eq_true_eq] at w
  obtain ⟨⟨⟨w0, w1⟩, w2⟩, w3⟩ := w
  have := Hdr.field_le w0
  have := VFile.code_le f
  have := Src.code_le (by decide) w2
  have := Bool.toNat_le wide
  injection enc
  omega

theorem xcpsx (h : Hdr) (d : Dest) (a : Src) : Statement (.xcpsx h d a) := by
  intro v w enc
  simp only [Instr.wf, Bool.and_eq_true] at w
  obtain ⟨⟨w0, w1⟩, w2⟩ := w
  have := Hdr.field_le w0
  have := Dest.field_le (by decide) w1
  have := Src.code_le (by decide) w2
  injection enc
  omega

theorem xcpxs (h : Hdr) (d : Dest) (a : Src) : Statement (.xcpxs h d a) := by
  intro v w enc
  simp only [Instr.wf, Bool.and_eq_true] at w
  obtain ⟨⟨w0, w1⟩, w2⟩ := w
  have := Hdr.field_le w0
  have := Dest.field_le (by decide) w1
  have := Src.code_le (by decide) w2
  injection enc
  omega

theorem xcpmx (h : Hdr) (d : Dest) (a : Nat) : Statement (.xcpmx h d a) := by
  intro v w enc
  simp only [Instr.wf, Bool.and_eq_true, decide_eq_true_eq] at w
  obtain ⟨⟨w0, w1⟩, w2⟩ := w
  have := Hdr.field_le w0
  have := Dest.field_le (by decide) w1
  injection enc
  omega

theorem xcpxm (h : Hdr) (d : Dest) (a : Src) : Statement (.xcpxm h d a) := by
  intro v w enc
  simp only [Instr.wf, Bool.and_eq_true] at w
  obtain ⟨⟨w0, w1⟩, w2⟩ := w
  have := Hdr.field_le w0
  have := Dest.field_le (by decide) w1
  have := Src.code_le (by decide) w2
  injection enc
  omega

theorem xcpvax (h : Hdr) (d : Dest) (a : Nat) (lane : Nat) : Statement (.xcpvax h d a lane) := by
  intro v w enc
  simp only [Instr.wf, Bool.and_eq_true, decide_eq_true_eq] at w
  obtain ⟨⟨⟨w0, w1⟩, w2⟩, w3⟩ := w
  have := Hdr.field_le w0
  have := Dest.field_le (by decide) w1
  injection enc
  omega

theorem xcpvbx (h : Hdr) (d : Dest) (a : Nat) (lane : Nat) : Statement (.xcpvbx h d a lane) := by
  intro v w enc
  simp only [Instr.wf, Bool.and_eq_true, decide_eq_true_eq] at w
  obtain ⟨⟨⟨w0, w1⟩, w2⟩, w3⟩ := w
  have := Hdr.field_le w0
  have := Dest.field_le (by decide) w1
  injection enc
  omega

theorem xcpxva (h : Hdr) (d : Dest) (a : Src) (lane : Nat) : Statement (.xcpxva h d a lane) := by
  intro v w enc
  simp only [Instr.wf, Bool.and_eq_true, decide_eq_true_eq] at w
  obtain ⟨⟨⟨w0, w1⟩, w2⟩, w3⟩ := w
  have := Hdr.field_le w0
  have := Dest.field_le (by decide) w1
  have := Src.code_le (by decide) w2
  injection enc
  omega

theorem xcpxvb (h : Hdr) (d : Dest) (a : Src) (lane : Nat) : Statement (.xcpxvb h d a lane) := by
  intro v w enc
  simp only [Instr.wf, Bool.and_eq_true, decide_eq_true_eq] at w
  obtain ⟨⟨⟨w0, w1⟩, w2⟩, w3⟩ := w
  have := Hdr.field_le w0
  have := Dest.field_le (by decide) w1
  have := Src.code_le (by decide) w2
  injection enc
  omega

theorem fld (h : Hdr) (d : Nat) (a : Src) (n : Nat) : Statement (.fld h d a n) := by
  intro v w enc
  simp only [Instr.wf, Bool.and_eq_true, decide_eq_true_eq] at w
  obtain ⟨⟨⟨⟨w0, w1⟩, w2⟩, w3⟩, w4⟩ := w
  have := Hdr.field_le w0
  have := Src.code_le (by decide) w2
  injection enc
  omega

theorem fldv (h : Hdr) (f : VFile) (d : Nat) (a : Src) (n : Nat) : Statement (.fldv h f d a n) := by
  intro v w enc
  simp only [Instr.wf, Bool.and_eq_true, decide_eq_true_eq] at w
  obtain ⟨⟨⟨⟨w0, w1⟩, w2⟩, w3⟩, w4⟩ := w
  have := Hdr.field_le w0
  have := VFile.code_le f
  have := Src.code_le (by decide) w2
  injection enc
  omega

theorem fst (h : Hdr) (d : Nat) (a : Src) : Statement (.fst h d a) := by
  intro v w enc
  simp only [Instr.wf, Bool.and_eq_true, decide_eq_true_eq] at w
  obtain ⟨⟨w0, w1⟩, w2⟩ := w
  have := Hdr.field_le w0
  have := Src.code_le (by decide) w2
  injection enc
  omega

theorem fstv (h : Hdr) (f : VFile) (d : Nat) (a : Src) : Statement (.fstv h f d a) := by
  intro v w enc
  simp only [Instr.wf, Bool.and_eq_true, decide_eq_true_eq] at w
  obtain ⟨⟨w0, w1⟩, w2⟩ := w
  have := Hdr.field_le w0
  have := VFile.code_le f
  have := Src.code_le (by decide) w2
  injection enc
  omega

theorem send (h : Hdr) (f : VFile) (v : Nat) (x : Nat) : Statement (.send h f v x) := by
  intro v w enc
  simp only [Instr.wf, Bool.and_eq_true, decide_eq_true_eq] at w
  obtain ⟨⟨w0, w1⟩, w2⟩ := w
  have := Hdr.field_le w0
  have := VFile.code_le f
  injection enc
  omega

theorem recv (h : Hdr) (f : VFile) (v : Nat) (x : Nat) (n : Nat) : Statement (.recv h f v x n) := by
  intro v w enc
  simp only [Instr.wf, Bool.and_eq_true, decide_eq_true_eq] at w
  obtain ⟨⟨⟨⟨w0, w1⟩, w2⟩, w3⟩, w4⟩ := w
  have := Hdr.field_le w0
  have := VFile.code_le f
  injection enc
  omega

theorem push (h : Hdr) (q : Nat) (hi : Bool) (p : Nat) : Statement (.push h q hi p) := by
  intro v w enc
  simp only [Instr.wf, Bool.and_eq_true, decide_eq_true_eq] at w
  obtain ⟨⟨⟨w0, w1⟩, w2⟩, w3⟩ := w
  have := Hdr.field_le w0
  have := Bool.toNat_le hi
  injection enc
  omega

theorem pop (h : Hdr) (q : Nat) (d : Nat) (p : Nat) : Statement (.pop h q d p) := by
  intro v w enc
  simp only [Instr.wf, Bool.and_eq_true, decide_eq_true_eq] at w
  obtain ⟨⟨⟨⟨w0, w1⟩, w2⟩, w3⟩, w4⟩ := w
  have := Hdr.field_le w0
  injection enc
  omega

theorem popStall (h : Hdr) (q : Nat) (d : Nat) (n : Nat) : Statement (.popStall h q d n) := by
  intro v w enc
  simp only [Instr.wf, Bool.and_eq_true, decide_eq_true_eq] at w
  obtain ⟨⟨⟨⟨w0, w1⟩, w2⟩, w3⟩, w4⟩ := w
  have := Hdr.field_le w0
  injection enc
  omega

theorem rcap (h : Hdr) (d : Bool) (a : Src) : Statement (.rcap h d a) := by
  intro v w enc
  simp only [Instr.wf, Bool.and_eq_true] at w
  obtain ⟨w0, w1⟩ := w
  have := Hdr.field_le w0
  have := Bool.toNat_le d
  have := Src.code_le (by decide) w1
  injection enc
  omega

theorem rput (h : Hdr) (a : Src) (b : Bool) : Statement (.rput h a b) := by
  intro v w enc
  simp only [Instr.wf, Bool.and_eq_true] at w
  obtain ⟨w0, w1⟩ := w
  have := Hdr.field_le w0
  have := Src.code_le (by decide) w1
  have := Bool.toNat_le b
  injection enc
  omega

theorem radd (h : Hdr) (d : Dest) (a : Src) (b : Src) : Statement (.radd h d a b) := by
  intro v w enc
  simp only [Instr.wf, Bool.and_eq_true] at w
  obtain ⟨⟨⟨w0, w1⟩, w2⟩, w3⟩ := w
  have := Hdr.field_le w0
  have := Dest.field_le (by decide) w1
  have := Src.code_le (by decide) w2
  have := Src.code_le (by decide) w3
  injection enc
  omega

theorem rcas (h : Hdr) (d : Dest) (a : Src) (b : Nat) : Statement (.rcas h d a b) := by
  intro v w enc
  simp only [Instr.wf, Bool.and_eq_true, decide_eq_true_eq] at w
  obtain ⟨⟨⟨⟨w0, w1⟩, w2⟩, w3⟩, w4⟩ := w
  have := Hdr.field_le w0
  have := Dest.field_le (by decide) w1
  have := Src.code_le (by decide) w2
  injection enc
  omega

theorem rmaxu (h : Hdr) (d : Dest) (a : Src) (b : Src) : Statement (.rmaxu h d a b) := by
  intro v w enc
  simp only [Instr.wf, Bool.and_eq_true] at w
  obtain ⟨⟨⟨w0, w1⟩, w2⟩, w3⟩ := w
  have := Hdr.field_le w0
  have := Dest.field_le (by decide) w1
  have := Src.code_le (by decide) w2
  have := Src.code_le (by decide) w3
  injection enc
  omega

theorem ror (h : Hdr) (d : Dest) (a : Src) (b : Src) : Statement (.ror h d a b) := by
  intro v w enc
  simp only [Instr.wf, Bool.and_eq_true] at w
  obtain ⟨⟨⟨w0, w1⟩, w2⟩, w3⟩ := w
  have := Hdr.field_le w0
  have := Dest.field_le (by decide) w1
  have := Src.code_le (by decide) w2
  have := Src.code_le (by decide) w3
  injection enc
  omega

theorem board (h : Hdr) : Statement (.board h) := by
  intro v w enc
  simp only [Instr.wf] at w
  have w0 := w
  have := Hdr.field_le w0
  injection enc
  omega

theorem alight (h : Hdr) : Statement (.alight h) := by
  intro v w enc
  simp only [Instr.wf] at w
  have w0 := w
  have := Hdr.field_le w0
  injection enc
  omega

theorem alightFree (h : Hdr) : Statement (.alightFree h) := by
  intro v w enc
  simp only [Instr.wf] at w
  have w0 := w
  have := Hdr.field_le w0
  injection enc
  omega

theorem aadd (h : Hdr) (d : Dest) (a : Src) (b : Src) : Statement (.aadd h d a b) := by
  intro v w enc
  simp only [Instr.wf, Bool.and_eq_true] at w
  obtain ⟨⟨⟨w0, w1⟩, w2⟩, w3⟩ := w
  have := Hdr.field_le w0
  have := Dest.field_le (by decide) w1
  have := Src.code_le (by decide) w2
  have := Src.code_le (by decide) w3
  injection enc
  omega

theorem aincw (h : Hdr) (d : Dest) (a : Src) (b : Src) : Statement (.aincw h d a b) := by
  intro v w enc
  simp only [Instr.wf, Bool.and_eq_true] at w
  obtain ⟨⟨⟨w0, w1⟩, w2⟩, w3⟩ := w
  have := Hdr.field_le w0
  have := Dest.field_le (by decide) w1
  have := Src.code_le (by decide) w2
  have := Src.code_le (by decide) w3
  injection enc
  omega

theorem afaab (h : Hdr) (d : Nat) (a : Src) (b : Nat) : Statement (.afaab h d a b) := by
  intro v w enc
  simp only [Instr.wf, Bool.and_eq_true, decide_eq_true_eq] at w
  obtain ⟨⟨⟨⟨⟨w0, w1⟩, w2⟩, w3⟩, w4⟩, w5⟩ := w
  have := Hdr.field_le w0
  have := Src.code_le (by decide) w3
  injection enc
  omega

theorem acas (h : Hdr) (d : Dest) (a : Src) (b : Nat) : Statement (.acas h d a b) := by
  intro v w enc
  simp only [Instr.wf, Bool.and_eq_true, decide_eq_true_eq] at w
  obtain ⟨⟨⟨⟨w0, w1⟩, w2⟩, w3⟩, w4⟩ := w
  have := Hdr.field_le w0
  have := Dest.field_le (by decide) w1
  have := Src.code_le (by decide) w2
  injection enc
  omega

theorem axchg (h : Hdr) (d : Dest) (a : Src) (b : Src) : Statement (.axchg h d a b) := by
  intro v w enc
  simp only [Instr.wf, Bool.and_eq_true] at w
  obtain ⟨⟨⟨w0, w1⟩, w2⟩, w3⟩ := w
  have := Hdr.field_le w0
  have := Dest.field_le (by decide) w1
  have := Src.code_le (by decide) w2
  have := Src.code_le (by decide) w3
  injection enc
  omega

theorem amins (h : Hdr) (d : Dest) (a : Src) (b : Src) : Statement (.amins h d a b) := by
  intro v w enc
  simp only [Instr.wf, Bool.and_eq_true] at w
  obtain ⟨⟨⟨w0, w1⟩, w2⟩, w3⟩ := w
  have := Hdr.field_le w0
  have := Dest.field_le (by decide) w1
  have := Src.code_le (by decide) w2
  have := Src.code_le (by decide) w3
  injection enc
  omega

theorem amaxu (h : Hdr) (d : Dest) (a : Src) (b : Src) : Statement (.amaxu h d a b) := by
  intro v w enc
  simp only [Instr.wf, Bool.and_eq_true] at w
  obtain ⟨⟨⟨w0, w1⟩, w2⟩, w3⟩ := w
  have := Hdr.field_le w0
  have := Dest.field_le (by decide) w1
  have := Src.code_le (by decide) w2
  have := Src.code_le (by decide) w3
  injection enc
  omega

theorem aorb (h : Hdr) (d : Dest) (a : Src) (b : Src) : Statement (.aorb h d a b) := by
  intro v w enc
  simp only [Instr.wf, Bool.and_eq_true] at w
  obtain ⟨⟨⟨w0, w1⟩, w2⟩, w3⟩ := w
  have := Hdr.field_le w0
  have := Dest.field_le (by decide) w1
  have := Src.code_le (by decide) w2
  have := Src.code_le (by decide) w3
  injection enc
  omega

theorem acq (h : Hdr) (k : Nat) (a : Src) (b : Nat) : Statement (.acq h k a b) := by
  intro v w enc
  simp only [Instr.wf, Bool.and_eq_true, decide_eq_true_eq] at w
  obtain ⟨⟨⟨w0, w1⟩, w2⟩, w3⟩ := w
  have := Hdr.field_le w0
  have := Src.code_le (by decide) w2
  injection enc
  omega

theorem rel (h : Hdr) (b : Nat) : Statement (.rel h b) := by
  intro v w enc
  simp only [Instr.wf, Bool.and_eq_true, decide_eq_true_eq] at w
  obtain ⟨w0, w1⟩ := w
  have := Hdr.field_le w0
  injection enc
  omega

theorem bar (h : Hdr) (k : Nat) (a : Src) (b : Src) : Statement (.bar h k a b) := by
  intro v w enc
  simp only [Instr.wf, Bool.and_eq_true, decide_eq_true_eq] at w
  obtain ⟨⟨⟨w0, w1⟩, w2⟩, w3⟩ := w
  have := Hdr.field_le w0
  have := Src.code_le (by decide) w2
  have := Src.code_le (by decide) w3
  injection enc
  omega

theorem fence (h : Hdr) (k : Nat) (s : Scope) : Statement (.fence h k s) := by
  intro v w enc
  simp only [Instr.wf, Bool.and_eq_true, decide_eq_true_eq] at w
  obtain ⟨w0, w1⟩ := w
  have := Hdr.field_le w0
  have := Scope.code_le s
  injection enc
  omega

theorem trig (h : Hdr) : Statement (.trig h) := by
  intro v w enc
  simp only [Instr.wf] at w
  have w0 := w
  have := Hdr.field_le w0
  injection enc
  omega

theorem step (h : Hdr) (k : Nat) : Statement (.step h k) := by
  intro v w enc
  simp only [Instr.wf, Bool.and_eq_true, decide_eq_true_eq] at w
  obtain ⟨w0, w1⟩ := w
  have := Hdr.field_le w0
  injection enc
  omega

theorem crgo (h : Hdr) (a : Src) : Statement (.crgo h a) := by
  intro v w enc
  simp only [Instr.wf, Bool.and_eq_true] at w
  obtain ⟨w0, w1⟩ := w
  have := Hdr.field_le w0
  have := Src.code_le (by decide) w1
  injection enc
  omega

theorem crgc (h : Hdr) : Statement (.crgc h) := by
  intro v w enc
  simp only [Instr.wf] at w
  have w0 := w
  have := Hdr.field_le w0
  injection enc
  omega

theorem cnop (e : Bool) : Statement (.cnop e) := by
  intro v w enc
  clear w
  have := Bool.toNat_le e
  injection enc
  omega

theorem ltime (h : Hdr) (d : Dest) : Statement (.ltime h d) := by
  intro v w enc
  simp only [Instr.wf, Bool.and_eq_true] at w
  obtain ⟨w0, w1⟩ := w
  have := Hdr.field_le w0
  have := Dest.field_le (by decide) w1
  injection enc
  omega

theorem seedr (h : Hdr) (d : Dest) (k : Nat) : Statement (.seedr h d k) := by
  intro v w enc
  simp only [Instr.wf, Bool.and_eq_true, decide_eq_true_eq] at w
  obtain ⟨⟨w0, w1⟩, w2⟩ := w
  have := Hdr.field_le w0
  have := Dest.field_le (by decide) w1
  injection enc
  omega

theorem gang (h : Hdr) (a : Src) (b : Src) : Statement (.gang h a b) := by
  intro v w enc
  simp only [Instr.wf, Bool.and_eq_true] at w
  obtain ⟨⟨w0, w1⟩, w2⟩ := w
  have := Hdr.field_le w0
  have := Src.code_le (by decide) w1
  have := Src.code_le (by decide) w2
  injection enc
  omega

theorem mcfg (h : Hdr) (a : MSrc) (b : MSrc) (i : MField) : Statement (.mcfg h a b i) := by
  intro v w enc
  simp only [Instr.wf, Bool.and_eq_true] at w
  obtain ⟨⟨⟨w0, w1⟩, w2⟩, w3⟩ := w
  have := Hdr.field_le w0
  have := MSrc.code_le w1
  have := MSrc.code_le w2
  have := MField.index_le w3
  injection enc
  omega

theorem mgo (h : Hdr) : Statement (.mgo h) := by
  intro v w enc
  simp only [Instr.wf] at w
  have w0 := w
  have := Hdr.field_le w0
  injection enc
  omega

theorem mgog (h : Hdr) : Statement (.mgog h) := by
  intro v w enc
  simp only [Instr.wf] at w
  have w0 := w
  have := Hdr.field_le w0
  injection enc
  omega

theorem mdrn (h : Hdr) (c : Nat) : Statement (.mdrn h c) := by
  intro v w enc
  simp only [Instr.wf, Bool.and_eq_true, decide_eq_true_eq] at w
  obtain ⟨w0, w1⟩ := w
  have := Hdr.field_le w0
  injection enc
  omega

theorem mclr (h : Hdr) (mask : Nat) : Statement (.mclr h mask) := by
  intro v w enc
  simp only [Instr.wf, Bool.and_eq_true, decide_eq_true_eq] at w
  obtain ⟨⟨w0, w1⟩, w2⟩ := w
  have := Hdr.field_le w0
  injection enc
  omega

theorem mstat (h : Hdr) (d : Nat) (i : Nat) : Statement (.mstat h d i) := by
  intro v w enc
  simp only [Instr.wf, Bool.and_eq_true, decide_eq_true_eq] at w
  obtain ⟨⟨w0, w1⟩, w2⟩ := w
  have := Hdr.field_le w0
  have := mstatItem_le w2
  injection enc
  omega

theorem mldw (h : Hdr) (a : MSrc) (w : Nat) (c : Nat) : Statement (.mldw h a w c) := by
  intro v w enc
  simp only [Instr.wf, Bool.and_eq_true, decide_eq_true_eq] at w
  obtain ⟨⟨⟨w0, w1⟩, w2⟩, w3⟩ := w
  have := Hdr.field_le w0
  have := MSrc.code_le w1
  injection enc
  omega

theorem mmirr (h : Hdr) (on : Bool) : Statement (.mmirr h on) := by
  intro v w enc
  simp only [Instr.wf] at w
  have w0 := w
  have := Hdr.field_le w0
  have := Bool.toNat_le on
  injection enc
  omega

theorem mstop (h : Hdr) : Statement (.mstop h) := by
  intro v w enc
  simp only [Instr.wf] at w
  have w0 := w
  have := Hdr.field_le w0
  injection enc
  omega

theorem mfmt (h : Hdr) (bind : Bool) (fb : Fmt) (fa : Fmt) : Statement (.mfmt h bind fb fa) := by
  intro v w enc
  simp only [Instr.wf] at w
  have w0 := w
  have := Hdr.field_le w0
  have := Bool.toNat_le bind
  have := Fmt.code_le fb
  have := Fmt.code_le fa
  injection enc
  omega

theorem spup (h : Hdr) (a : MSrc) : Statement (.spup h a) := by
  intro v w enc
  simp only [Instr.wf, Bool.and_eq_true] at w
  obtain ⟨w0, w1⟩ := w
  have := Hdr.field_le w0
  have := MSrc.code_le w1
  injection enc
  omega

theorem spdn (h : Hdr) (a : MSrc) : Statement (.spdn h a) := by
  intro v w enc
  simp only [Instr.wf, Bool.and_eq_true] at w
  obtain ⟨w0, w1⟩ := w
  have := Hdr.field_le w0
  have := MSrc.code_le w1
  injection enc
  omega

theorem spld (h : Hdr) (a : MSrc) (b : MSrc) : Statement (.spld h a b) := by
  intro v w enc
  simp only [Instr.wf, Bool.and_eq_true] at w
  obtain ⟨⟨w0, w1⟩, w2⟩ := w
  have := Hdr.field_le w0
  have := MSrc.code_le w1
  have := MSrc.code_le w2
  injection enc
  omega

theorem spst (h : Hdr) (a : MSrc) (b : MSrc) : Statement (.spst h a b) := by
  intro v w enc
  simp only [Instr.wf, Bool.and_eq_true] at w
  obtain ⟨⟨w0, w1⟩, w2⟩ := w
  have := Hdr.field_le w0
  have := MSrc.code_le w1
  have := MSrc.code_le w2
  injection enc
  omega

theorem spscl (h : Hdr) (a : MSrc) (n : Int) : Statement (.spscl h a n) := by
  intro v w enc
  simp only [Instr.wf, Bool.and_eq_true] at w
  obtain ⟨⟨w0, w1⟩, w2⟩ := w
  have := Hdr.field_le w0
  have := MSrc.code_le w1
  have := enc2_eight n
  injection enc
  omega

theorem spmode (h : Hdr) (dx : Nat) (f : CFmt) : Statement (.spmode h dx f) := by
  intro v w enc
  simp only [Instr.wf, Bool.and_eq_true, decide_eq_true_eq] at w
  obtain ⟨w0, w1⟩ := w
  have := Hdr.field_le w0
  have := CFmt.code_le f
  injection enc
  omega

theorem spclr (h : Hdr) (a : MSrc) : Statement (.spclr h a) := by
  intro v w enc
  simp only [Instr.wf, Bool.and_eq_true] at w
  obtain ⟨w0, w1⟩ := w
  have := Hdr.field_le w0
  have := MSrc.code_le w1
  injection enc
  omega

theorem spstat (h : Hdr) (d : Nat) (i : Nat) : Statement (.spstat h d i) := by
  intro v w enc
  simp only [Instr.wf, Bool.and_eq_true, decide_eq_true_eq] at w
  obtain ⟨⟨w0, w1⟩, w2⟩ := w
  have := Hdr.field_le w0
  injection enc
  omega

theorem mli (h : Hdr) (d : Nat) (imm : Nat) : Statement (.mli h d imm) := by
  intro v w enc
  simp only [Instr.wf, Bool.and_eq_true, decide_eq_true_eq] at w
  obtain ⟨⟨w0, w1⟩, w2⟩ := w
  have := Hdr.field_le w0
  injection enc
  omega

theorem mnop (e : Bool) : Statement (.mnop e) := by
  intro v w enc
  clear w
  have := Bool.toNat_le e
  injection enc
  omega

theorem landingArrival (k : TileKey) (n : Nat) (buffered : Bool) : Statement (.landingArrival k n buffered) := fun _ _ e => nomatch e

theorem landingDue (k : TileKey) : Statement (.landingDue k) := fun _ _ e => nomatch e

theorem messageArrival (k : TileKey) (src : Nat) (chan : Nat) : Statement (.messageArrival k src chan) := fun _ _ e => nomatch e

theorem waitDueTick (k : TileKey) : Statement (.waitDueTick k) := fun _ _ e => nomatch e

theorem waitConditionMet (k : TileKey) : Statement (.waitConditionMet k) := fun _ _ e => nomatch e

theorem acqPassLimit (k : TileKey) : Statement (.acqPassLimit k) := fun _ _ e => nomatch e

theorem deadlock (k : TileKey) : Statement (.deadlock k) := fun _ _ e => nomatch e

theorem farStorePerform (k : TileKey) (n : Nat) : Statement (.farStorePerform k n) := fun _ _ e => nomatch e

theorem remoteAccessApply (k : TileKey) (n : Nat) : Statement (.remoteAccessApply k n) := fun _ _ e => nomatch e

theorem relIncrement (k : TileKey) (n : Nat) : Statement (.relIncrement k n) := fun _ _ e => nomatch e

theorem matrixOpBegin (k : TileKey) : Statement (.matrixOpBegin k) := fun _ _ e => nomatch e

theorem matrixStepStart (k : TileKey) : Statement (.matrixStepStart k) := fun _ _ e => nomatch e

theorem matrixStepRetire (k : TileKey) : Statement (.matrixStepRetire k) := fun _ _ e => nomatch e

theorem matrixStepReplay (k : TileKey) : Statement (.matrixStepReplay k) := fun _ _ e => nomatch e

theorem matrixStepComplete (k : TileKey) : Statement (.matrixStepComplete k) := fun _ _ e => nomatch e

theorem mdrnComplete (k : TileKey) : Statement (.mdrnComplete k) := fun _ _ e => nomatch e

theorem mclrComplete (k : TileKey) : Statement (.mclrComplete k) := fun _ _ e => nomatch e

theorem mldwComplete (k : TileKey) : Statement (.mldwComplete k) := fun _ _ e => nomatch e

theorem cascadeReadStage (k : TileKey) : Statement (.cascadeReadStage k) := fun _ _ e => nomatch e

theorem cascadeSubtreeWrite (k : TileKey) : Statement (.cascadeSubtreeWrite k) := fun _ _ e => nomatch e

theorem cascadeRowMove (k : TileKey) : Statement (.cascadeRowMove k) := fun _ _ e => nomatch e

theorem cascadeRowWrite (k : TileKey) : Statement (.cascadeRowWrite k) := fun _ _ e => nomatch e

theorem rillPass (l : LaunchKey) : Statement (.rillPass l) := fun _ _ e => nomatch e

theorem copyCommandComplete (k : TileKey) (q : Nat) : Statement (.copyCommandComplete k q) := fun _ _ e => nomatch e

theorem copyCompletionDue (k : TileKey) : Statement (.copyCompletionDue k) := fun _ _ e => nomatch e

theorem copyCommandStop (k : TileKey) (q : Nat) : Statement (.copyCommandStop k q) := fun _ _ e => nomatch e

theorem translationWalk (pasid : Nat) (va : Nat) (kind : AccKind) (agent : Agent) : Statement (.translationWalk pasid va kind agent) := fun _ _ e => nomatch e

theorem pageRequestTimeout (pasid : Nat) (req : Nat) : Statement (.pageRequestTimeout pasid req) := fun _ _ e => nomatch e

theorem remotePathTimeout (k : TileKey) (n : Nat) : Statement (.remotePathTimeout k n) := fun _ _ e => nomatch e

theorem invalidationComplete (pasid : Nat) : Statement (.invalidationComplete pasid) := fun _ _ e => nomatch e

theorem teardownComplete (pasid : Nat) : Statement (.teardownComplete pasid) := fun _ _ e => nomatch e

theorem contextSaveComplete (pasid : Nat) : Statement (.contextSaveComplete pasid) := fun _ _ e => nomatch e

theorem queuePoll (q : Nat) : Statement (.queuePoll q) := fun _ _ e => nomatch e

theorem timetable (q : Nat) (n : Nat) : Statement (.timetable q n) := fun _ _ e => nomatch e

theorem timetableIndirect (q : Nat) (n : Nat) : Statement (.timetableIndirect q n) := fun _ _ e => nomatch e

theorem wait (q : Nat) (n : Nat) : Statement (.wait q n) := fun _ _ e => nomatch e

theorem signal (q : Nat) (n : Nat) : Statement (.signal q n) := fun _ _ e => nomatch e

theorem copy (q : Nat) (n : Nat) : Statement (.copy q n) := fun _ _ e => nomatch e

theorem seedPush (q : Nat) (n : Nat) : Statement (.seedPush q n) := fun _ _ e => nomatch e

theorem seedPop (q : Nat) (n : Nat) : Statement (.seedPop q n) := fun _ _ e => nomatch e

theorem seedFork (q : Nat) (n : Nat) : Statement (.seedFork q n) := fun _ _ e => nomatch e

theorem checkpointPolicy (q : Nat) (n : Nat) : Statement (.checkpointPolicy q n) := fun _ _ e => nomatch e

theorem barrierAnd (q : Nat) (n : Nat) : Statement (.barrierAnd q n) := fun _ _ e => nomatch e

theorem nop (q : Nat) (n : Nat) : Statement (.nop q n) := fun _ _ e => nomatch e

theorem launchArm (l : LaunchKey) : Statement (.launchArm l) := fun _ _ e => nomatch e

theorem launchStart (l : LaunchKey) : Statement (.launchStart l) := fun _ _ e => nomatch e

theorem tileStart (k : TileKey) : Statement (.tileStart k) := fun _ _ e => nomatch e

theorem launchTrigger (l : LaunchKey) : Statement (.launchTrigger l) := fun _ _ e => nomatch e

theorem launchRetire (l : LaunchKey) : Statement (.launchRetire l) := fun _ _ e => nomatch e

theorem queueRestart (q : Nat) : Statement (.queueRestart q) := fun _ _ e => nomatch e

theorem queueDestroy (q : Nat) : Statement (.queueDestroy q) := fun _ _ e => nomatch e

theorem queueDestroyed (q : Nat) : Statement (.queueDestroyed q) := fun _ _ e => nomatch e

theorem queueParkTimeout (q : Nat) : Statement (.queueParkTimeout q) := fun _ _ e => nomatch e

theorem watchdogRestart (core : Nat) : Statement (.watchdogRestart core) := fun _ _ e => nomatch e

theorem fatalError (code : Nat) (unit : Nat) : Statement (.fatalError code unit) := fun _ _ e => nomatch e

theorem collectiveTableWrite (k : TileKey) (n : Nat) : Statement (.collectiveTableWrite k n) := fun _ _ e => nomatch e

theorem collectiveReadyWrite (k : TileKey) (n : Nat) : Statement (.collectiveReadyWrite k n) := fun _ _ e => nomatch e

theorem collectiveRoundFire (l : LaunchKey) (n : Nat) : Statement (.collectiveRoundFire l n) := fun _ _ e => nomatch e

theorem collectiveRoundComplete (l : LaunchKey) (n : Nat) : Statement (.collectiveRoundComplete l n) := fun _ _ e => nomatch e

theorem checkpointTimer (pasid : Nat) : Statement (.checkpointTimer pasid) := fun _ _ e => nomatch e

theorem checkpointShardTake (l : LaunchKey) : Statement (.checkpointShardTake l) := fun _ _ e => nomatch e

theorem checkpointShardTaken (l : LaunchKey) : Statement (.checkpointShardTaken l) := fun _ _ e => nomatch e

theorem scrub (place : Place) (uncor : Bool) : Statement (.scrub place uncor) := fun _ _ e => nomatch e

theorem dutyUpdate : Statement (.dutyUpdate) := fun _ _ e => nomatch e

theorem thermalTrip : Statement (.thermalTrip) := fun _ _ e => nomatch e

theorem powerGood : Statement (.powerGood) := fun _ _ e => nomatch e

theorem powerOff : Statement (.powerOff) := fun _ _ e => nomatch e

theorem managementConnect (key : List Byte) (challenge : List Byte) (sig : List Byte) : Statement (.managementConnect key challenge sig) := fun _ _ e => nomatch e

theorem registerQueue (h : MgmtHdr) (pasid : Nat) (va : Nat) : Statement (.registerQueue h pasid va) := fun _ _ e => nomatch e

theorem unregisterQueue (h : MgmtHdr) (q : Nat) : Statement (.unregisterQueue h q) := fun _ _ e => nomatch e

theorem invalidateTranslations (h : MgmtHdr) (pasid : Nat) (range : Option (Nat × Nat)) : Statement (.invalidateTranslations h pasid range) := fun _ _ e => nomatch e

theorem answerPageRequest (h : MgmtHdr) (pasid : Nat) (req : Nat) (resolved : Bool) : Statement (.answerPageRequest h pasid req resolved) := fun _ _ e => nomatch e

theorem createContext (h : MgmtHdr) (block : List Word) : Statement (.createContext h block) := fun _ _ e => nomatch e

theorem teardownContext (h : MgmtHdr) (pasid : Nat) : Statement (.teardownContext h pasid) := fun _ _ e => nomatch e

theorem preemptContext (h : MgmtHdr) (pasid : Nat) : Statement (.preemptContext h pasid) := fun _ _ e => nomatch e

theorem restoreContext (h : MgmtHdr) (pasid : Nat) (part : Nat) : Statement (.restoreContext h pasid part) := fun _ _ e => nomatch e

theorem readLaunchRecord (h : MgmtHdr) (pasid : Nat) (seq : Nat) : Statement (.readLaunchRecord h pasid seq) := fun _ _ e => nomatch e

theorem readIdentityKey (h : MgmtHdr) : Statement (.readIdentityKey h) := fun _ _ e => nomatch e

theorem setCheckpointConfig (h : MgmtHdr) (pasid : Nat) (c : CkptSetting) : Statement (.setCheckpointConfig h pasid c) := fun _ _ e => nomatch e

theorem restoreCheckpoint (h : MgmtHdr) (pasid : Nat) (slot : Bool) (key : List Byte) : Statement (.restoreCheckpoint h pasid slot key) := fun _ _ e => nomatch e

theorem readLatestShard (h : MgmtHdr) (pasid : Nat) : Statement (.readLatestShard h pasid) := fun _ _ e => nomatch e

theorem readSoftErrorBlock (h : MgmtHdr) (t : PhysTile) : Statement (.readSoftErrorBlock h t) := fun _ _ e => nomatch e

theorem clearSoftErrorBlock (h : MgmtHdr) (t : PhysTile) : Statement (.clearSoftErrorBlock h t) := fun _ _ e => nomatch e

theorem writeFieldRepair (h : MgmtHdr) (t : PhysTile) : Statement (.writeFieldRepair h t) := fun _ _ e => nomatch e

theorem readRemap (h : MgmtHdr) (die : Nat) : Statement (.readRemap h die) := fun _ _ e => nomatch e

theorem readCistern (h : MgmtHdr) (off : Nat) (len : Nat) : Statement (.readCistern h off len) := fun _ _ e => nomatch e

theorem setPowerCap (h : MgmtHdr) (watts : Nat) : Statement (.setPowerCap h watts) := fun _ _ e => nomatch e

theorem readTelemetry (h : MgmtHdr) : Statement (.readTelemetry h) := fun _ _ e => nomatch e

theorem setModulePosition (h : MgmtHdr) (pos : Nat) (parts : List (Nat × Nat)) : Statement (.setModulePosition h pos parts) := fun _ _ e => nomatch e

theorem stageFirmware (h : MgmtHdr) (version : Nat) (image : List Byte) (sig : List Byte) : Statement (.stageFirmware h version image sig) := fun _ _ e => nomatch e

theorem resetModule (h : MgmtHdr) : Statement (.resetModule h) := fun _ _ e => nomatch e

theorem ualinkRemoteRequest (r : RemoteReq) : Statement (.ualinkRemoteRequest r) := fun _ _ e => nomatch e

theorem frontEndCoreRestarted (core : Nat) : Statement (.frontEndCoreRestarted core) := fun _ _ e => nomatch e

theorem signalConditionMet (q : Nat) (n : Nat) : Statement (.signalConditionMet q n) := fun _ _ e => nomatch e

end Sys2Proof.Laws.Width
end

