-- ==== Sys2Proof/Tests/Slice0.lean ====
section
/-! SUPPORT. Tests: the smoke test of WellFormed, a decoded word of every syllable, single steps against the spec's worked
examples, and the witnesses of the statements. -/

set_option Elab.async false
set_option maxRecDepth 100000
set_option exponentiation.threshold 4096

open Sys2Proof Sys2Proof.Machine

namespace Sys2Proof.Tests

/-! WellFormed: one ill-formed term for each check, which the check refuses. -/

/-! Well-formed terms, and an ill-formed one for each check of each shape of operands (R65). -/

/-- Terms that are well formed. -/
theorem test_wf_0 : ([.add ⟨true, 0⟩ (.reg 2) (.reg 2) (.reg 2),
    .clz ⟨true, 0⟩ (.reg 2) (.reg 2),
    .addi ⟨true, 0⟩ (.reg 2) (.reg 2) 3,
    .shli ⟨true, 0⟩ (.reg 2) (.reg 2) 2,
    .lis ⟨true, 0⟩ 2 2,
    .cmpeq ⟨true, 0⟩ 2 (.reg 2) (.reg 2),
    .pand ⟨true, 0⟩ 2 2 2,
    .pnot ⟨true, 0⟩ 2 2,
    .pset ⟨true, 0⟩ 2,
    .csrr ⟨true, 0⟩ 2 .fpcr,
    .movp ⟨true, 0⟩ (.reg 2) 2,
    .movtp ⟨true, 0⟩ 2 (.reg 2),
    .br ⟨true, 0⟩ 3,
    .jmpr ⟨true, 0⟩ (.reg 2),
    .loopr ⟨true, 0⟩ 2 (.reg 2) (.reg 2),
    .tret ⟨true, 0⟩,
    .loop ⟨true, 0⟩ 2 (.reg 2) 2,
    .sld ⟨true, 0⟩ (.reg 2) (.reg 2) .b4 true 3,
    .sst ⟨true, 0⟩ 2 (.reg 2) .b4 3,
    .vfma ⟨true, 0⟩ 2 (.reg 2) (.reg 2),
    .vsqrt ⟨true, 0⟩ 2 (.reg 2),
    .vcmprs ⟨true, 0⟩ (.reg 2) (.reg 2) 2,
    .viota ⟨true, 0⟩ (.reg 2),
    .cld ⟨true, 0⟩ .va 2 (.reg 2) 3,
    .cgath ⟨true, 0⟩ .va 2 (.reg 2) true 2,
    .xcpsx ⟨true, 0⟩ (.reg 2) (.reg 2),
    .xcpxs ⟨true, 0⟩ (.reg 2) (.reg 2),
    .xcpmx ⟨true, 0⟩ (.reg 2) 2,
    .xcpxm ⟨true, 0⟩ (.reg 2) (.reg 2),
    .xcpvax ⟨true, 0⟩ (.reg 2) 2 2] : List Instr).all (fun i => i.wf) = true := by decide

/-- Terms that are well formed. -/
theorem test_wf_1 : ([.xcpxva ⟨true, 0⟩ (.reg 2) (.reg 2) 2,
    .fld ⟨true, 0⟩ 2 (.reg 2) 2,
    .fldv ⟨true, 0⟩ .va 2 (.reg 2) 2,
    .fst ⟨true, 0⟩ 2 (.reg 2),
    .fstv ⟨true, 0⟩ .va 2 (.reg 2),
    .send ⟨true, 0⟩ .va 2 2,
    .recv ⟨true, 0⟩ .va 2 2 2,
    .push ⟨true, 0⟩ 2 true 2,
    .pop ⟨true, 0⟩ 2 2 2,
    .popStall ⟨true, 0⟩ 2 2 2,
    .rcap ⟨true, 0⟩ true (.reg 2),
    .radd ⟨true, 0⟩ (.reg 2) (.reg 2) (.reg 2),
    .rcas ⟨true, 0⟩ (.reg 2) (.reg 2) 2,
    .afaab ⟨true, 0⟩ 2 (.reg 2) 2,
    .acq ⟨true, 0⟩ 2 (.reg 2) 2,
    .rel ⟨true, 0⟩ 2,
    .bar ⟨true, 0⟩ 2 (.reg 2) (.reg 2),
    .fence ⟨true, 0⟩ 2 .die,
    .ltime ⟨true, 0⟩ (.reg 2),
    .seedr ⟨true, 0⟩ (.reg 2) 2,
    .gang ⟨true, 0⟩ (.reg 2) (.reg 2),
    .mcfg ⟨true, 0⟩ (.reg 2) (.reg 2) (.ring 0),
    .mdrn ⟨true, 0⟩ 2,
    .mclr ⟨true, 0⟩ 2,
    .mstat ⟨true, 0⟩ 2 2,
    .mldw ⟨true, 0⟩ (.reg 2) 2 2,
    .spup ⟨true, 0⟩ (.reg 2),
    .spld ⟨true, 0⟩ (.reg 2) (.reg 2),
    .spscl ⟨true, 0⟩ (.reg 2) 3,
    .spmode ⟨true, 0⟩ 2 .ps32] : List Instr).all (fun i => i.wf) = true := by decide

/-- Terms that are well formed. -/
theorem test_wf_2 : ([.spstat ⟨true, 0⟩ 2 2,
    .mli ⟨true, 0⟩ 2 2,
    .landingArrival ⟨1, 2⟩ 2 true,
    .rillPass ⟨1, 2⟩,
    .translationWalk 2 2 .read .frontEnd] : List Instr).all (fun i => i.wf) = true := by decide

/-- Terms that a check of well-formedness refuses. -/
theorem test_illformed_0 : ([.add ⟨true, 16⟩ (.reg 2) (.reg 2) (.reg 2),
    .add ⟨true, 0⟩ (.reg 32) (.reg 2) (.reg 2),
    .add ⟨true, 0⟩ (.reg 2) (.reg 32) (.reg 2),
    .add ⟨true, 0⟩ (.reg 2) (.latch 8) (.reg 2),
    .add ⟨true, 0⟩ (.reg 2) (.reg 2) (.reg 32),
    .add ⟨true, 0⟩ (.reg 2) (.reg 2) (.latch 8),
    .clz ⟨true, 16⟩ (.reg 2) (.reg 2),
    .clz ⟨true, 0⟩ (.reg 32) (.reg 2),
    .clz ⟨true, 0⟩ (.reg 2) (.reg 32),
    .clz ⟨true, 0⟩ (.reg 2) (.latch 8),
    .addi ⟨true, 16⟩ (.reg 2) (.reg 2) 3,
    .addi ⟨true, 0⟩ (.reg 32) (.reg 2) 3,
    .addi ⟨true, 0⟩ (.reg 2) (.reg 32) 3,
    .addi ⟨true, 0⟩ (.reg 2) (.latch 8) 3,
    .addi ⟨true, 0⟩ (.reg 2) (.reg 2) 256,
    .addi ⟨true, 0⟩ (.reg 2) (.reg 2) (-257),
    .shli ⟨true, 16⟩ (.reg 2) (.reg 2) 2,
    .shli ⟨true, 0⟩ (.reg 32) (.reg 2) 2,
    .shli ⟨true, 0⟩ (.reg 2) (.reg 32) 2,
    .shli ⟨true, 0⟩ (.reg 2) (.latch 8) 2,
    .shli ⟨true, 0⟩ (.reg 2) (.reg 2) 64,
    .lis ⟨true, 16⟩ 2 2,
    .lis ⟨true, 0⟩ 32 2,
    .lis ⟨true, 0⟩ 2 65536,
    .cmpeq ⟨true, 16⟩ 2 (.reg 2) (.reg 2),
    .cmpeq ⟨true, 0⟩ 0 (.reg 2) (.reg 2),
    .cmpeq ⟨true, 0⟩ 16 (.reg 2) (.reg 2),
    .cmpeq ⟨true, 0⟩ 2 (.reg 32) (.reg 2),
    .cmpeq ⟨true, 0⟩ 2 (.latch 8) (.reg 2),
    .cmpeq ⟨true, 0⟩ 2 (.reg 2) (.reg 32)] : List Instr).all (fun i => !i.wf) = true := by decide

/-- Terms that a check of well-formedness refuses. -/
theorem test_illformed_1 : ([.cmpeq ⟨true, 0⟩ 2 (.reg 2) (.latch 8),
    .pand ⟨true, 16⟩ 2 2 2,
    .pand ⟨true, 0⟩ 0 2 2,
    .pand ⟨true, 0⟩ 16 2 2,
    .pand ⟨true, 0⟩ 2 16 2,
    .pand ⟨true, 0⟩ 2 2 16,
    .pnot ⟨true, 16⟩ 2 2,
    .pnot ⟨true, 0⟩ 0 2,
    .pnot ⟨true, 0⟩ 16 2,
    .pnot ⟨true, 0⟩ 2 16,
    .pset ⟨true, 16⟩ 2,
    .pset ⟨true, 0⟩ 0,
    .pset ⟨true, 0⟩ 16,
    .csrr ⟨true, 16⟩ 2 .fpcr,
    .csrr ⟨true, 0⟩ 32 .fpcr,
    .csrr ⟨true, 0⟩ 2 (.ftab 16),
    .csrr ⟨true, 0⟩ 2 (.seed 4),
    .csrr ⟨true, 0⟩ 2 (.zero 4),
    .csrr ⟨true, 0⟩ 2 (.lstate 6),
    .movp ⟨true, 16⟩ (.reg 2) 2,
    .movp ⟨true, 0⟩ (.reg 32) 2,
    .movp ⟨true, 0⟩ (.reg 2) 16,
    .movtp ⟨true, 16⟩ 2 (.reg 2),
    .movtp ⟨true, 0⟩ 0 (.reg 2),
    .movtp ⟨true, 0⟩ 16 (.reg 2),
    .movtp ⟨true, 0⟩ 2 (.reg 32),
    .movtp ⟨true, 0⟩ 2 (.latch 8),
    .br ⟨true, 16⟩ 3,
    .br ⟨true, 0⟩ 1048576,
    .br ⟨true, 0⟩ (-1048577)] : List Instr).all (fun i => !i.wf) = true := by decide

/-- Terms that a check of well-formedness refuses. -/
theorem test_illformed_2 : ([.jmpr ⟨true, 16⟩ (.reg 2),
    .jmpr ⟨true, 0⟩ (.reg 32),
    .jmpr ⟨true, 0⟩ (.latch 8),
    .loopr ⟨true, 16⟩ 2 (.reg 2) (.reg 2),
    .loopr ⟨true, 0⟩ 6 (.reg 2) (.reg 2),
    .loopr ⟨true, 0⟩ 2 (.reg 32) (.reg 2),
    .loopr ⟨true, 0⟩ 2 (.latch 8) (.reg 2),
    .loopr ⟨true, 0⟩ 2 (.reg 2) (.reg 32),
    .loopr ⟨true, 0⟩ 2 (.reg 2) (.latch 8),
    .tret ⟨true, 16⟩,
    .loop ⟨true, 16⟩ 2 (.reg 2) 2,
    .loop ⟨true, 0⟩ 6 (.reg 2) 2,
    .loop ⟨true, 0⟩ 2 (.reg 32) 2,
    .loop ⟨true, 0⟩ 2 (.latch 8) 2,
    .loop ⟨true, 0⟩ 2 (.reg 2) 0,
    .loop ⟨true, 0⟩ 2 (.reg 2) 512,
    .sld ⟨true, 16⟩ (.reg 2) (.reg 2) .b4 true 3,
    .sld ⟨true, 0⟩ (.reg 32) (.reg 2) .b4 true 3,
    .sld ⟨true, 0⟩ (.reg 2) (.reg 32) .b4 true 3,
    .sld ⟨true, 0⟩ (.reg 2) (.latch 8) .b4 true 3,
    .sld ⟨true, 0⟩ (.reg 2) (.reg 2) .b4 true 32,
    .sld ⟨true, 0⟩ (.reg 2) (.reg 2) .b4 true (-33),
    .sld ⟨true, 0⟩ (.reg 2) (.reg 2) .b8 true 3,
    .sst ⟨true, 16⟩ 2 (.reg 2) .b4 3,
    .sst ⟨true, 0⟩ 32 (.reg 2) .b4 3,
    .sst ⟨true, 0⟩ 2 (.reg 32) .b4 3,
    .sst ⟨true, 0⟩ 2 (.latch 8) .b4 3,
    .sst ⟨true, 0⟩ 2 (.reg 2) .b4 32,
    .sst ⟨true, 0⟩ 2 (.reg 2) .b4 (-33),
    .vfma ⟨true, 16⟩ 2 (.reg 2) (.reg 2)] : List Instr).all (fun i => !i.wf) = true := by decide

/-- Terms that a check of well-formedness refuses. -/
theorem test_illformed_3 : ([.vfma ⟨true, 0⟩ 32 (.reg 2) (.reg 2),
    .vfma ⟨true, 0⟩ 2 (.reg 32) (.reg 2),
    .vfma ⟨true, 0⟩ 2 (.latch 8) (.reg 2),
    .vfma ⟨true, 0⟩ 2 (.reg 2) (.reg 32),
    .vfma ⟨true, 0⟩ 2 (.reg 2) (.latch 8),
    .vsqrt ⟨true, 16⟩ 2 (.reg 2),
    .vsqrt ⟨true, 0⟩ 32 (.reg 2),
    .vsqrt ⟨true, 0⟩ 2 (.reg 32),
    .vsqrt ⟨true, 0⟩ 2 (.latch 8),
    .vcmprs ⟨true, 16⟩ (.reg 2) (.reg 2) 2,
    .vcmprs ⟨true, 0⟩ (.reg 32) (.reg 2) 2,
    .vcmprs ⟨true, 0⟩ (.reg 2) (.reg 32) 2,
    .vcmprs ⟨true, 0⟩ (.reg 2) (.latch 8) 2,
    .vcmprs ⟨true, 0⟩ (.reg 2) (.reg 2) 16,
    .viota ⟨true, 16⟩ (.reg 2),
    .viota ⟨true, 0⟩ (.reg 32),
    .cld ⟨true, 16⟩ .va 2 (.reg 2) 3,
    .cld ⟨true, 0⟩ .va 32 (.reg 2) 3,
    .cld ⟨true, 0⟩ .va 2 (.reg 16) 3,
    .cld ⟨true, 0⟩ .va 2 (.latch 8) 3,
    .cld ⟨true, 0⟩ .va 2 (.reg 2) 256,
    .cld ⟨true, 0⟩ .va 2 (.reg 2) (-257),
    .cgath ⟨true, 16⟩ .va 2 (.reg 2) true 2,
    .cgath ⟨true, 0⟩ .va 32 (.reg 2) true 2,
    .cgath ⟨true, 0⟩ .va 2 (.reg 16) true 2,
    .cgath ⟨true, 0⟩ .va 2 (.latch 8) true 2,
    .cgath ⟨true, 0⟩ .va 2 (.reg 2) true 32,
    .xcpsx ⟨true, 16⟩ (.reg 2) (.reg 2),
    .xcpsx ⟨true, 0⟩ (.reg 16) (.reg 2),
    .xcpsx ⟨true, 0⟩ (.reg 2) (.reg 32)] : List Instr).all (fun i => !i.wf) = true := by decide

/-- Terms that a check of well-formedness refuses. -/
theorem test_illformed_4 : ([.xcpsx ⟨true, 0⟩ (.reg 2) (.latch 8),
    .xcpxs ⟨true, 16⟩ (.reg 2) (.reg 2),
    .xcpxs ⟨true, 0⟩ (.reg 32) (.reg 2),
    .xcpxs ⟨true, 0⟩ (.reg 2) (.reg 16),
    .xcpxs ⟨true, 0⟩ (.reg 2) (.latch 8),
    .xcpmx ⟨true, 16⟩ (.reg 2) 2,
    .xcpmx ⟨true, 0⟩ (.reg 16) 2,
    .xcpmx ⟨true, 0⟩ (.reg 2) 16,
    .xcpxm ⟨true, 16⟩ (.reg 2) (.reg 2),
    .xcpxm ⟨true, 0⟩ (.reg 16) (.reg 2),
    .xcpxm ⟨true, 0⟩ (.reg 2) (.reg 16),
    .xcpxm ⟨true, 0⟩ (.reg 2) (.latch 8),
    .xcpvax ⟨true, 16⟩ (.reg 2) 2 2,
    .xcpvax ⟨true, 0⟩ (.reg 16) 2 2,
    .xcpvax ⟨true, 0⟩ (.reg 2) 32 2,
    .xcpvax ⟨true, 0⟩ (.reg 2) 2 32,
    .xcpxva ⟨true, 16⟩ (.reg 2) (.reg 2) 2,
    .xcpxva ⟨true, 0⟩ (.reg 32) (.reg 2) 2,
    .xcpxva ⟨true, 0⟩ (.reg 2) (.reg 16) 2,
    .xcpxva ⟨true, 0⟩ (.reg 2) (.latch 8) 2,
    .xcpxva ⟨true, 0⟩ (.reg 2) (.reg 2) 32,
    .fld ⟨true, 16⟩ 2 (.reg 2) 2,
    .fld ⟨true, 0⟩ 16 (.reg 2) 2,
    .fld ⟨true, 0⟩ 2 (.reg 16) 2,
    .fld ⟨true, 0⟩ 2 (.latch 8) 2,
    .fld ⟨true, 0⟩ 2 (.reg 2) 0,
    .fld ⟨true, 0⟩ 2 (.reg 2) 512,
    .fldv ⟨true, 16⟩ .va 2 (.reg 2) 2,
    .fldv ⟨true, 0⟩ .va 32 (.reg 2) 2,
    .fldv ⟨true, 0⟩ .va 2 (.reg 16) 2] : List Instr).all (fun i => !i.wf) = true := by decide

/-- Terms that a check of well-formedness refuses. -/
theorem test_illformed_5 : ([.fldv ⟨true, 0⟩ .va 2 (.latch 8) 2,
    .fldv ⟨true, 0⟩ .va 2 (.reg 2) 0,
    .fldv ⟨true, 0⟩ .va 2 (.reg 2) 512,
    .fst ⟨true, 16⟩ 2 (.reg 2),
    .fst ⟨true, 0⟩ 16 (.reg 2),
    .fst ⟨true, 0⟩ 2 (.reg 16),
    .fst ⟨true, 0⟩ 2 (.latch 8),
    .fstv ⟨true, 16⟩ .va 2 (.reg 2),
    .fstv ⟨true, 0⟩ .va 32 (.reg 2),
    .fstv ⟨true, 0⟩ .va 2 (.reg 16),
    .fstv ⟨true, 0⟩ .va 2 (.latch 8),
    .send ⟨true, 16⟩ .va 2 2,
    .send ⟨true, 0⟩ .va 32 2,
    .send ⟨true, 0⟩ .va 2 16,
    .recv ⟨true, 16⟩ .va 2 2 2,
    .recv ⟨true, 0⟩ .va 32 2 2,
    .recv ⟨true, 0⟩ .va 2 16 2,
    .recv ⟨true, 0⟩ .va 2 2 0,
    .recv ⟨true, 0⟩ .va 2 2 2048,
    .push ⟨true, 16⟩ 2 true 2,
    .push ⟨true, 0⟩ 32 true 2,
    .push ⟨true, 0⟩ 2 true 0,
    .push ⟨true, 0⟩ 2 true 16,
    .pop ⟨true, 16⟩ 2 2 2,
    .pop ⟨true, 0⟩ 32 2 2,
    .pop ⟨true, 0⟩ 2 16 2,
    .pop ⟨true, 0⟩ 2 2 0,
    .pop ⟨true, 0⟩ 2 2 16,
    .popStall ⟨true, 16⟩ 2 2 2,
    .popStall ⟨true, 0⟩ 32 2 2] : List Instr).all (fun i => !i.wf) = true := by decide

/-- Terms that a check of well-formedness refuses. -/
theorem test_illformed_6 : ([.popStall ⟨true, 0⟩ 2 16 2,
    .popStall ⟨true, 0⟩ 2 2 0,
    .popStall ⟨true, 0⟩ 2 2 128,
    .rcap ⟨true, 16⟩ true (.reg 2),
    .rcap ⟨true, 0⟩ true (.reg 16),
    .rcap ⟨true, 0⟩ true (.latch 8),
    .radd ⟨true, 16⟩ (.reg 2) (.reg 2) (.reg 2),
    .radd ⟨true, 0⟩ (.reg 16) (.reg 2) (.reg 2),
    .radd ⟨true, 0⟩ (.reg 2) (.reg 16) (.reg 2),
    .radd ⟨true, 0⟩ (.reg 2) (.latch 8) (.reg 2),
    .radd ⟨true, 0⟩ (.reg 2) (.reg 2) (.reg 16),
    .radd ⟨true, 0⟩ (.reg 2) (.reg 2) (.latch 8),
    .rcas ⟨true, 16⟩ (.reg 2) (.reg 2) 2,
    .rcas ⟨true, 0⟩ (.reg 16) (.reg 2) 2,
    .rcas ⟨true, 0⟩ (.reg 2) (.reg 16) 2,
    .rcas ⟨true, 0⟩ (.reg 2) (.latch 8) 2,
    .rcas ⟨true, 0⟩ (.reg 2) (.reg 2) 16,
    .rcas ⟨true, 0⟩ (.reg 2) (.reg 2) 3,
    .afaab ⟨true, 16⟩ 2 (.reg 2) 2,
    .afaab ⟨true, 0⟩ 0 (.reg 2) 2,
    .afaab ⟨true, 0⟩ 16 (.reg 2) 2,
    .afaab ⟨true, 0⟩ 2 (.reg 16) 2,
    .afaab ⟨true, 0⟩ 2 (.latch 8) 2,
    .afaab ⟨true, 0⟩ 2 (.reg 2) 16,
    .afaab ⟨true, 0⟩ 2 (.reg 2) 3,
    .acq ⟨true, 16⟩ 2 (.reg 2) 2,
    .acq ⟨true, 0⟩ 32 (.reg 2) 2,
    .acq ⟨true, 0⟩ 2 (.reg 16) 2,
    .acq ⟨true, 0⟩ 2 (.latch 8) 2,
    .acq ⟨true, 0⟩ 2 (.reg 2) 64] : List Instr).all (fun i => !i.wf) = true := by decide

/-- Terms that a check of well-formedness refuses. -/
theorem test_illformed_7 : ([.rel ⟨true, 16⟩ 2,
    .rel ⟨true, 0⟩ 64,
    .bar ⟨true, 16⟩ 2 (.reg 2) (.reg 2),
    .bar ⟨true, 0⟩ 32 (.reg 2) (.reg 2),
    .bar ⟨true, 0⟩ 2 (.reg 16) (.reg 2),
    .bar ⟨true, 0⟩ 2 (.latch 8) (.reg 2),
    .bar ⟨true, 0⟩ 2 (.reg 2) (.reg 16),
    .bar ⟨true, 0⟩ 2 (.reg 2) (.latch 8),
    .fence ⟨true, 16⟩ 2 .die,
    .fence ⟨true, 0⟩ 32 .die,
    .ltime ⟨true, 16⟩ (.reg 2),
    .ltime ⟨true, 0⟩ (.reg 16),
    .seedr ⟨true, 16⟩ (.reg 2) 2,
    .seedr ⟨true, 0⟩ (.reg 16) 2,
    .seedr ⟨true, 0⟩ (.reg 2) 4,
    .gang ⟨true, 16⟩ (.reg 2) (.reg 2),
    .gang ⟨true, 0⟩ (.reg 16) (.reg 2),
    .gang ⟨true, 0⟩ (.latch 8) (.reg 2),
    .gang ⟨true, 0⟩ (.reg 2) (.reg 16),
    .gang ⟨true, 0⟩ (.reg 2) (.latch 8),
    .mcfg ⟨true, 16⟩ (.reg 2) (.reg 2) (.ring 0),
    .mcfg ⟨true, 0⟩ (.reg 16) (.reg 2) (.ring 0),
    .mcfg ⟨true, 0⟩ (.latch 8) (.reg 2) (.ring 0),
    .mcfg ⟨true, 0⟩ (.reg 2) (.reg 16) (.ring 0),
    .mcfg ⟨true, 0⟩ (.reg 2) (.latch 8) (.ring 0),
    .mcfg ⟨true, 0⟩ (.reg 2) (.reg 2) (.level 6),
    .mcfg ⟨true, 0⟩ (.reg 2) (.reg 2) (.ring 4),
    .mcfg ⟨true, 0⟩ (.reg 2) (.reg 2) (.rctl 4),
    .mdrn ⟨true, 16⟩ 2,
    .mdrn ⟨true, 0⟩ 4] : List Instr).all (fun i => !i.wf) = true := by decide

/-- Terms that a check of well-formedness refuses. -/
theorem test_illformed_8 : ([.mclr ⟨true, 16⟩ 2,
    .mclr ⟨true, 0⟩ 0,
    .mclr ⟨true, 0⟩ 16,
    .mstat ⟨true, 16⟩ 2 2,
    .mstat ⟨true, 0⟩ 16 2,
    .mstat ⟨true, 0⟩ 2 10,
    .mstat ⟨true, 0⟩ 2 15,
    .mstat ⟨true, 0⟩ 2 22,
    .mstat ⟨true, 0⟩ 2 23,
    .mstat ⟨true, 0⟩ 2 30,
    .mldw ⟨true, 16⟩ (.reg 2) 2 2,
    .mldw ⟨true, 0⟩ (.reg 16) 2 2,
    .mldw ⟨true, 0⟩ (.latch 8) 2 2,
    .mldw ⟨true, 0⟩ (.reg 2) 8 2,
    .mldw ⟨true, 0⟩ (.reg 2) 2 4,
    .spup ⟨true, 16⟩ (.reg 2),
    .spup ⟨true, 0⟩ (.reg 16),
    .spup ⟨true, 0⟩ (.latch 8),
    .spld ⟨true, 16⟩ (.reg 2) (.reg 2),
    .spld ⟨true, 0⟩ (.reg 16) (.reg 2),
    .spld ⟨true, 0⟩ (.latch 8) (.reg 2),
    .spld ⟨true, 0⟩ (.reg 2) (.reg 16),
    .spld ⟨true, 0⟩ (.reg 2) (.latch 8),
    .spscl ⟨true, 16⟩ (.reg 2) 3,
    .spscl ⟨true, 0⟩ (.reg 16) 3,
    .spscl ⟨true, 0⟩ (.latch 8) 3,
    .spscl ⟨true, 0⟩ (.reg 2) 128,
    .spscl ⟨true, 0⟩ (.reg 2) (-129),
    .spmode ⟨true, 16⟩ 2 .ps32,
    .spmode ⟨true, 0⟩ 32 .ps32] : List Instr).all (fun i => !i.wf) = true := by decide

/-- Terms that a check of well-formedness refuses. -/
theorem test_illformed_9 : ([.spstat ⟨true, 16⟩ 2 2,
    .spstat ⟨true, 0⟩ 16 2,
    .spstat ⟨true, 0⟩ 2 3,
    .mli ⟨true, 16⟩ 2 2,
    .mli ⟨true, 0⟩ 16 2,
    .mli ⟨true, 0⟩ 2 65536,
    .landingArrival ⟨1048576, 0⟩ 2 true,
    .landingArrival ⟨0, 1280⟩ 2 true,
    .rillPass ⟨1048576, 0⟩,
    .translationWalk 1048576 2 .read .frontEnd] : List Instr).all (fun i => !i.wf) = true := by decide

/-! Decode: words of every syllable, from the match bits and fields of spec/opcode_table.json. -/

/-- Words 0 to 39, each written out from the table's match and fields. -/
theorem test_words_1 :
    ([
      (0x80000000, .snop true),
      (0x82028630, .add ⟨true, 0⟩ (.reg 5) (.reg 3) (.reg 6)),
      (0x02704430, .add ⟨false, 3⟩ .suppressed (.latch 2) (.reg 6)),
      (0x82028631, .sub ⟨true, 0⟩ (.reg 5) (.reg 3) (.reg 6)),
      (0x02704431, .sub ⟨false, 3⟩ .suppressed (.latch 2) (.reg 6)),
      (0x82028632, .and ⟨true, 0⟩ (.reg 5) (.reg 3) (.reg 6)),
      (0x02704432, .and ⟨false, 3⟩ .suppressed (.latch 2) (.reg 6)),
      (0x82028633, .or ⟨true, 0⟩ (.reg 5) (.reg 3) (.reg 6)),
      (0x02704433, .or ⟨false, 3⟩ .suppressed (.latch 2) (.reg 6)),
      (0x82028634, .xor ⟨true, 0⟩ (.reg 5) (.reg 3) (.reg 6)),
      (0x02704434, .xor ⟨false, 3⟩ .suppressed (.latch 2) (.reg 6)),
      (0x82028635, .shl ⟨true, 0⟩ (.reg 5) (.reg 3) (.reg 6)),
      (0x02704435, .shl ⟨false, 3⟩ .suppressed (.latch 2) (.reg 6)),
      (0x82028636, .shr ⟨true, 0⟩ (.reg 5) (.reg 3) (.reg 6)),
      (0x02704436, .shr ⟨false, 3⟩ .suppressed (.latch 2) (.reg 6)),
      (0x82028637, .sra ⟨true, 0⟩ (.reg 5) (.reg 3) (.reg 6)),
      (0x02704437, .sra ⟨false, 3⟩ .suppressed (.latch 2) (.reg 6)),
      (0x84028630, .mul ⟨true, 0⟩ (.reg 5) (.reg 3) (.reg 6)),
      (0x04704430, .mul ⟨false, 3⟩ .suppressed (.latch 2) (.reg 6)),
      (0x84028631, .mulh ⟨true, 0⟩ (.reg 5) (.reg 3) (.reg 6)),
      (0x04704431, .mulh ⟨false, 3⟩ .suppressed (.latch 2) (.reg 6)),
      (0x84028632, .mulhu ⟨true, 0⟩ (.reg 5) (.reg 3) (.reg 6)),
      (0x04704432, .mulhu ⟨false, 3⟩ .suppressed (.latch 2) (.reg 6)),
      (0x84028633, .div ⟨true, 0⟩ (.reg 5) (.reg 3) (.reg 6)),
      (0x04704433, .div ⟨false, 3⟩ .suppressed (.latch 2) (.reg 6)),
      (0x84028634, .divu ⟨true, 0⟩ (.reg 5) (.reg 3) (.reg 6)),
      (0x04704434, .divu ⟨false, 3⟩ .suppressed (.latch 2) (.reg 6)),
      (0x84028635, .rem ⟨true, 0⟩ (.reg 5) (.reg 3) (.reg 6)),
      (0x04704435, .rem ⟨false, 3⟩ .suppressed (.latch 2) (.reg 6)),
      (0x84028636, .remu ⟨true, 0⟩ (.reg 5) (.reg 3) (.reg 6)),
      (0x04704436, .remu ⟨false, 3⟩ .suppressed (.latch 2) (.reg 6)),
      (0x84028607, .clz ⟨true, 0⟩ (.reg 5) (.reg 3)),
      (0x04704407, .clz ⟨false, 3⟩ .suppressed (.latch 2)),
      (0x86028630, .min ⟨true, 0⟩ (.reg 5) (.reg 3) (.reg 6)),
      (0x06704430, .min ⟨false, 3⟩ .suppressed (.latch 2) (.reg 6)),
      (0x86028631, .max ⟨true, 0⟩ (.reg 5) (.reg 3) (.reg 6)),
      (0x06704431, .max ⟨false, 3⟩ .suppressed (.latch 2) (.reg 6)),
      (0x86028632, .minu ⟨true, 0⟩ (.reg 5) (.reg 3) (.reg 6)),
      (0x06704432, .minu ⟨false, 3⟩ .suppressed (.latch 2) (.reg 6)),
      (0x86028633, .maxu ⟨true, 0⟩ (.reg 5) (.reg 3) (.reg 6))
      ] : List (Nat × Instr)).all (fun x => decide (decodeWord x.1 = .ok x.2)) = true := by decide

/-- Words 40 to 79, each written out from the table's match and fields. -/
theorem test_words_2 :
    ([
      (0x06704433, .maxu ⟨false, 3⟩ .suppressed (.latch 2) (.reg 6)),
      (0x86028634, .rotl ⟨true, 0⟩ (.reg 5) (.reg 3) (.reg 6)),
      (0x06704434, .rotl ⟨false, 3⟩ .suppressed (.latch 2) (.reg 6)),
      (0x86028605, .popc ⟨true, 0⟩ (.reg 5) (.reg 3)),
      (0x06704405, .popc ⟨false, 3⟩ .suppressed (.latch 2)),
      (0x86028606, .ctz ⟨true, 0⟩ (.reg 5) (.reg 3)),
      (0x06704406, .ctz ⟨false, 3⟩ .suppressed (.latch 2)),
      (0x86028607, .bswap ⟨true, 0⟩ (.reg 5) (.reg 3)),
      (0x06704407, .bswap ⟨false, 3⟩ .suppressed (.latch 2)),
      (0x880287FD, .addi ⟨true, 0⟩ (.reg 5) (.reg 3) (-3)),
      (0x08704407, .addi ⟨false, 3⟩ .suppressed (.latch 2) 7),
      (0x8A0287FD, .andi ⟨true, 0⟩ (.reg 5) (.reg 3) (-3)),
      (0x0A704407, .andi ⟨false, 3⟩ .suppressed (.latch 2) 7),
      (0x8C0287FD, .ori ⟨true, 0⟩ (.reg 5) (.reg 3) (-3)),
      (0x0C704407, .ori ⟨false, 3⟩ .suppressed (.latch 2) 7),
      (0x8E0287FD, .xori ⟨true, 0⟩ (.reg 5) (.reg 3) (-3)),
      (0x0E704407, .xori ⟨false, 3⟩ .suppressed (.latch 2) 7),
      (0x9002860B, .shli ⟨true, 0⟩ (.reg 5) (.reg 3) 11),
      (0x1070440B, .shli ⟨false, 3⟩ .suppressed (.latch 2) 11),
      (0x9002868B, .shri ⟨true, 0⟩ (.reg 5) (.reg 3) 11),
      (0x1070448B, .shri ⟨false, 3⟩ .suppressed (.latch 2) 11),
      (0x9002870B, .srai ⟨true, 0⟩ (.reg 5) (.reg 3) 11),
      (0x1070450B, .srai ⟨false, 3⟩ .suppressed (.latch 2) 11),
      (0x9002878B, .rotli ⟨true, 0⟩ (.reg 5) (.reg 3) 11),
      (0x1070458B, .rotli ⟨false, 3⟩ .suppressed (.latch 2) 11),
      (0x9205BEEF, .lis ⟨true, 0⟩ 5 48879),
      (0x1265BEEF, .lis ⟨false, 3⟩ 5 48879),
      (0x9405BEEF, .ins1 ⟨true, 0⟩ 5 48879),
      (0x1465BEEF, .ins1 ⟨false, 3⟩ 5 48879),
      (0x9605BEEF, .ins2 ⟨true, 0⟩ 5 48879),
      (0x1665BEEF, .ins2 ⟨false, 3⟩ 5 48879),
      (0x9805BEEF, .ins3 ⟨true, 0⟩ 5 48879),
      (0x1865BEEF, .ins3 ⟨false, 3⟩ 5 48879),
      (0x9A028630, .cmpeq ⟨true, 0⟩ 5 (.reg 3) (.reg 6)),
      (0x1A62C430, .cmpeq ⟨false, 3⟩ 5 (.latch 2) (.reg 6)),
      (0x9A028631, .cmpne ⟨true, 0⟩ 5 (.reg 3) (.reg 6)),
      (0x1A62C431, .cmpne ⟨false, 3⟩ 5 (.latch 2) (.reg 6)),
      (0x9A028632, .cmplt ⟨true, 0⟩ 5 (.reg 3) (.reg 6)),
      (0x1A62C432, .cmplt ⟨false, 3⟩ 5 (.latch 2) (.reg 6)),
      (0x9A028633, .cmpltu ⟨true, 0⟩ 5 (.reg 3) (.reg 6))
      ] : List (Nat × Instr)).all (fun x => decide (decodeWord x.1 = .ok x.2)) = true := by decide

/-- Words 80 to 119, each written out from the table's match and fields. -/
theorem test_words_3 :
    ([
      (0x1A62C433, .cmpltu ⟨false, 3⟩ 5 (.latch 2) (.reg 6)),
      (0x9A028634, .cmple ⟨true, 0⟩ 5 (.reg 3) (.reg 6)),
      (0x1A62C434, .cmple ⟨false, 3⟩ 5 (.latch 2) (.reg 6)),
      (0x9A028635, .cmpleu ⟨true, 0⟩ 5 (.reg 3) (.reg 6)),
      (0x1A62C435, .cmpleu ⟨false, 3⟩ 5 (.latch 2) (.reg 6)),
      (0x9A028636, .cmptst ⟨true, 0⟩ 5 (.reg 3) (.reg 6)),
      (0x1A62C436, .cmptst ⟨false, 3⟩ 5 (.latch 2) (.reg 6)),
      (0x9C028630, .pand ⟨true, 0⟩ 5 3 6),
      (0x1C628630, .pand ⟨false, 3⟩ 5 3 6),
      (0x9C028631, .por ⟨true, 0⟩ 5 3 6),
      (0x1C628631, .por ⟨false, 3⟩ 5 3 6),
      (0x9C028632, .pxor ⟨true, 0⟩ 5 3 6),
      (0x1C628632, .pxor ⟨false, 3⟩ 5 3 6),
      (0x9C028633, .pandn ⟨true, 0⟩ 5 3 6),
      (0x1C628633, .pandn ⟨false, 3⟩ 5 3 6),
      (0x9C028604, .pnot ⟨true, 0⟩ 5 3),
      (0x1C628604, .pnot ⟨false, 3⟩ 5 3),
      (0x9C028605, .pmov ⟨true, 0⟩ 5 3),
      (0x1C628605, .pmov ⟨false, 3⟩ 5 3),
      (0x9C028006, .pset ⟨true, 0⟩ 5),
      (0x1C628006, .pset ⟨false, 3⟩ 5),
      (0x9C028007, .pclr ⟨true, 0⟩ 5),
      (0x1C628007, .pclr ⟨false, 3⟩ 5),
      (0x9E050005, .csrr ⟨true, 0⟩ 5 .tvec),
      (0x1E650005, .csrr ⟨false, 3⟩ 5 .tvec),
      (0x9E051005, .csrw ⟨true, 0⟩ 5 .tvec),
      (0x1E651005, .csrw ⟨false, 3⟩ 5 .tvec),
      (0x9E052005, .csrs ⟨true, 0⟩ 5 .tvec),
      (0x1E652005, .csrs ⟨false, 3⟩ 5 .tvec),
      (0x9E053005, .csrc ⟨true, 0⟩ 5 .tvec),
      (0x1E653005, .csrc ⟨false, 3⟩ 5 .tvec),
      (0xA0028630, .sel ⟨true, 0⟩ (.reg 5) (.reg 3) (.reg 6)),
      (0x20704430, .sel ⟨false, 3⟩ .suppressed (.latch 2) (.reg 6)),
      (0xA0028601, .movp ⟨true, 0⟩ (.reg 5) 3),
      (0x20700601, .movp ⟨false, 3⟩ .suppressed 3),
      (0xA0028602, .movtp ⟨true, 0⟩ 5 (.reg 3)),
      (0x2062C402, .movtp ⟨false, 3⟩ 5 (.latch 2)),
      (0xA21FFFFD, .br ⟨true, 0⟩ (-3)),
      (0xA41FFFFD, .call ⟨true, 0⟩ (-3)),
      (0xA6000600, .jmpr ⟨true, 0⟩ (.reg 3))
      ] : List (Nat × Instr)).all (fun x => decide (decodeWord x.1 = .ok x.2)) = true := by decide

/-- Words 120 to 159, each written out from the table's match and fields. -/
theorem test_words_4 :
    ([
      (0x26604400, .jmpr ⟨false, 3⟩ (.latch 2)),
      (0xA6000601, .callr ⟨true, 0⟩ (.reg 3)),
      (0x26604401, .callr ⟨false, 3⟩ (.latch 2)),
      (0xA6010632, .loopr ⟨true, 0⟩ 2 (.reg 3) (.reg 6)),
      (0x26614432, .loopr ⟨false, 3⟩ 2 (.latch 2) (.reg 6)),
      (0xA6000603, .trap ⟨true, 0⟩ (.reg 3)),
      (0x26604403, .trap ⟨false, 3⟩ (.latch 2)),
      (0xA6008003, .tret ⟨true, 0⟩),
      (0xA6000004, .tfence ⟨true, 0⟩),
      (0xA6000005, .exit ⟨true, 0⟩),
      (0xA6000606, .waitt ⟨true, 0⟩ (.reg 3)),
      (0x26604406, .waitt ⟨false, 3⟩ (.latch 2)),
      (0xA801072C, .loop ⟨true, 0⟩ 2 (.reg 3) 300),
      (0x2861452C, .loop ⟨false, 3⟩ 2 (.latch 2) 300),
      (0xAA0286FD, .sld ⟨true, 0⟩ (.reg 5) (.reg 3) .b2 true (-3)),
      (0x2A7044C7, .sld ⟨false, 3⟩ .suppressed (.latch 2) .b2 true 7),
      (0xAC0286BD, .sst ⟨true, 0⟩ 5 (.reg 3) .b2 (-3)),
      (0x2C62C487, .sst ⟨false, 3⟩ 5 (.latch 2) .b2 7),
      (0xAE028630, .vadd ⟨true, 0⟩ (.reg 5) (.reg 3) (.reg 6)),
      (0x2E704430, .vadd ⟨false, 3⟩ .suppressed (.latch 2) (.reg 6)),
      (0xAE028631, .vsub ⟨true, 0⟩ (.reg 5) (.reg 3) (.reg 6)),
      (0x2E704431, .vsub ⟨false, 3⟩ .suppressed (.latch 2) (.reg 6)),
      (0xAE028632, .vmul ⟨true, 0⟩ (.reg 5) (.reg 3) (.reg 6)),
      (0x2E704432, .vmul ⟨false, 3⟩ .suppressed (.latch 2) (.reg 6)),
      (0xAE028633, .vmin ⟨true, 0⟩ (.reg 5) (.reg 3) (.reg 6)),
      (0x2E704433, .vmin ⟨false, 3⟩ .suppressed (.latch 2) (.reg 6)),
      (0xAE028634, .vmax ⟨true, 0⟩ (.reg 5) (.reg 3) (.reg 6)),
      (0x2E704434, .vmax ⟨false, 3⟩ .suppressed (.latch 2) (.reg 6)),
      (0xAE028605, .vabs ⟨true, 0⟩ (.reg 5) (.reg 3)),
      (0x2E704405, .vabs ⟨false, 3⟩ .suppressed (.latch 2)),
      (0xAE028606, .vneg ⟨true, 0⟩ (.reg 5) (.reg 3)),
      (0x2E704406, .vneg ⟨false, 3⟩ .suppressed (.latch 2)),
      (0xAE028637, .vcps ⟨true, 0⟩ (.reg 5) (.reg 3) (.reg 6)),
      (0x2E704437, .vcps ⟨false, 3⟩ .suppressed (.latch 2) (.reg 6)),
      (0xB0028630, .vfma ⟨true, 0⟩ 5 (.reg 3) (.reg 6)),
      (0x3062C430, .vfma ⟨false, 3⟩ 5 (.latch 2) (.reg 6)),
      (0xB0028631, .vfms ⟨true, 0⟩ 5 (.reg 3) (.reg 6)),
      (0x3062C431, .vfms ⟨false, 3⟩ 5 (.latch 2) (.reg 6)),
      (0xB0028632, .vfnma ⟨true, 0⟩ 5 (.reg 3) (.reg 6)),
      (0x3062C432, .vfnma ⟨false, 3⟩ 5 (.latch 2) (.reg 6))
      ] : List (Nat × Instr)).all (fun x => decide (decodeWord x.1 = .ok x.2)) = true := by decide

/-- Words 160 to 199, each written out from the table's match and fields. -/
theorem test_words_5 :
    ([
      (0xB0028633, .vfnms ⟨true, 0⟩ 5 (.reg 3) (.reg 6)),
      (0x3062C433, .vfnms ⟨false, 3⟩ 5 (.latch 2) (.reg 6)),
      (0xB0028634, .vdiv ⟨true, 0⟩ 5 (.reg 3) (.reg 6)),
      (0x3062C434, .vdiv ⟨false, 3⟩ 5 (.latch 2) (.reg 6)),
      (0xB0028605, .vsqrt ⟨true, 0⟩ 5 (.reg 3)),
      (0x3062C405, .vsqrt ⟨false, 3⟩ 5 (.latch 2)),
      (0xB0028606, .vrcp ⟨true, 0⟩ 5 (.reg 3)),
      (0x3062C406, .vrcp ⟨false, 3⟩ 5 (.latch 2)),
      (0xB0028607, .vrsq ⟨true, 0⟩ 5 (.reg 3)),
      (0x3062C407, .vrsq ⟨false, 3⟩ 5 (.latch 2)),
      (0xB2028600, .vexp2 ⟨true, 0⟩ (.reg 5) (.reg 3)),
      (0x32704400, .vexp2 ⟨false, 3⟩ .suppressed (.latch 2)),
      (0xB2028601, .vlog2 ⟨true, 0⟩ (.reg 5) (.reg 3)),
      (0x32704401, .vlog2 ⟨false, 3⟩ .suppressed (.latch 2)),
      (0xB2028602, .vrint ⟨true, 0⟩ (.reg 5) (.reg 3)),
      (0x32704402, .vrint ⟨false, 3⟩ .suppressed (.latch 2)),
      (0xB2028603, .vrintz ⟨true, 0⟩ (.reg 5) (.reg 3)),
      (0x32704403, .vrintz ⟨false, 3⟩ .suppressed (.latch 2)),
      (0xB2028604, .vclass ⟨true, 0⟩ (.reg 5) (.reg 3)),
      (0x32704404, .vclass ⟨false, 3⟩ .suppressed (.latch 2)),
      (0xB2028635, .vscale ⟨true, 0⟩ (.reg 5) (.reg 3) (.reg 6)),
      (0x32704435, .vscale ⟨false, 3⟩ .suppressed (.latch 2) (.reg 6)),
      (0xB2028606, .vgetexp ⟨true, 0⟩ (.reg 5) (.reg 3)),
      (0x32704406, .vgetexp ⟨false, 3⟩ .suppressed (.latch 2)),
      (0xB2028637, .vminnum ⟨true, 0⟩ (.reg 5) (.reg 3) (.reg 6)),
      (0x32704437, .vminnum ⟨false, 3⟩ .suppressed (.latch 2) (.reg 6)),
      (0xB4028630, .vfceq ⟨true, 0⟩ 5 (.reg 3) (.reg 6)),
      (0x3462C430, .vfceq ⟨false, 3⟩ 5 (.latch 2) (.reg 6)),
      (0xB4028631, .vfcne ⟨true, 0⟩ 5 (.reg 3) (.reg 6)),
      (0x3462C431, .vfcne ⟨false, 3⟩ 5 (.latch 2) (.reg 6)),
      (0xB4028632, .vfclt ⟨true, 0⟩ 5 (.reg 3) (.reg 6)),
      (0x3462C432, .vfclt ⟨false, 3⟩ 5 (.latch 2) (.reg 6)),
      (0xB4028633, .vfcle ⟨true, 0⟩ 5 (.reg 3) (.reg 6)),
      (0x3462C433, .vfcle ⟨false, 3⟩ 5 (.latch 2) (.reg 6)),
      (0xB4028634, .vfcgt ⟨true, 0⟩ 5 (.reg 3) (.reg 6)),
      (0x3462C434, .vfcgt ⟨false, 3⟩ 5 (.latch 2) (.reg 6)),
      (0xB4028635, .vfcge ⟨true, 0⟩ 5 (.reg 3) (.reg 6)),
      (0x3462C435, .vfcge ⟨false, 3⟩ 5 (.latch 2) (.reg 6)),
      (0xB4028636, .vfcunord ⟨true, 0⟩ 5 (.reg 3) (.reg 6)),
      (0x3462C436, .vfcunord ⟨false, 3⟩ 5 (.latch 2) (.reg 6))
      ] : List (Nat × Instr)).all (fun x => decide (decodeWord x.1 = .ok x.2)) = true := by decide

/-- Words 200 to 239, each written out from the table's match and fields. -/
theorem test_words_6 :
    ([
      (0xB4028637, .vfcord ⟨true, 0⟩ 5 (.reg 3) (.reg 6)),
      (0x3462C437, .vfcord ⟨false, 3⟩ 5 (.latch 2) (.reg 6)),
      (0xB6028630, .viadd ⟨true, 0⟩ (.reg 5) (.reg 3) (.reg 6)),
      (0x36704430, .viadd ⟨false, 3⟩ .suppressed (.latch 2) (.reg 6)),
      (0xB6028631, .visub ⟨true, 0⟩ (.reg 5) (.reg 3) (.reg 6)),
      (0x36704431, .visub ⟨false, 3⟩ .suppressed (.latch 2) (.reg 6)),
      (0xB6028632, .vimul ⟨true, 0⟩ (.reg 5) (.reg 3) (.reg 6)),
      (0x36704432, .vimul ⟨false, 3⟩ .suppressed (.latch 2) (.reg 6)),
      (0xB6028633, .vimulh ⟨true, 0⟩ (.reg 5) (.reg 3) (.reg 6)),
      (0x36704433, .vimulh ⟨false, 3⟩ .suppressed (.latch 2) (.reg 6)),
      (0xB6028634, .vimin ⟨true, 0⟩ (.reg 5) (.reg 3) (.reg 6)),
      (0x36704434, .vimin ⟨false, 3⟩ .suppressed (.latch 2) (.reg 6)),
      (0xB6028635, .vimax ⟨true, 0⟩ (.reg 5) (.reg 3) (.reg 6)),
      (0x36704435, .vimax ⟨false, 3⟩ .suppressed (.latch 2) (.reg 6)),
      (0xB6028636, .viminu ⟨true, 0⟩ (.reg 5) (.reg 3) (.reg 6)),
      (0x36704436, .viminu ⟨false, 3⟩ .suppressed (.latch 2) (.reg 6)),
      (0xB6028637, .vimaxu ⟨true, 0⟩ (.reg 5) (.reg 3) (.reg 6)),
      (0x36704437, .vimaxu ⟨false, 3⟩ .suppressed (.latch 2) (.reg 6)),
      (0xB8028630, .viadds ⟨true, 0⟩ (.reg 5) (.reg 3) (.reg 6)),
      (0x38704430, .viadds ⟨false, 3⟩ .suppressed (.latch 2) (.reg 6)),
      (0xB8028631, .viaddsu ⟨true, 0⟩ (.reg 5) (.reg 3) (.reg 6)),
      (0x38704431, .viaddsu ⟨false, 3⟩ .suppressed (.latch 2) (.reg 6)),
      (0xB8028632, .visubs ⟨true, 0⟩ (.reg 5) (.reg 3) (.reg 6)),
      (0x38704432, .visubs ⟨false, 3⟩ .suppressed (.latch 2) (.reg 6)),
      (0xB8028633, .visubsu ⟨true, 0⟩ (.reg 5) (.reg 3) (.reg 6)),
      (0x38704433, .visubsu ⟨false, 3⟩ .suppressed (.latch 2) (.reg 6)),
      (0xB8028604, .viabs ⟨true, 0⟩ (.reg 5) (.reg 3)),
      (0x38704404, .viabs ⟨false, 3⟩ .suppressed (.latch 2)),
      (0xB8028605, .vineg ⟨true, 0⟩ (.reg 5) (.reg 3)),
      (0x38704405, .vineg ⟨false, 3⟩ .suppressed (.latch 2)),
      (0xB8028636, .viavg ⟨true, 0⟩ (.reg 5) (.reg 3) (.reg 6)),
      (0x38704436, .viavg ⟨false, 3⟩ .suppressed (.latch 2) (.reg 6)),
      (0xB8028637, .viavgu ⟨true, 0⟩ (.reg 5) (.reg 3) (.reg 6)),
      (0x38704437, .viavgu ⟨false, 3⟩ .suppressed (.latch 2) (.reg 6)),
      (0xBA028630, .vand ⟨true, 0⟩ (.reg 5) (.reg 3) (.reg 6)),
      (0x3A704430, .vand ⟨false, 3⟩ .suppressed (.latch 2) (.reg 6)),
      (0xBA028631, .vor ⟨true, 0⟩ (.reg 5) (.reg 3) (.reg 6)),
      (0x3A704431, .vor ⟨false, 3⟩ .suppressed (.latch 2) (.reg 6)),
      (0xBA028632, .vxor ⟨true, 0⟩ (.reg 5) (.reg 3) (.reg 6)),
      (0x3A704432, .vxor ⟨false, 3⟩ .suppressed (.latch 2) (.reg 6))
      ] : List (Nat × Instr)).all (fun x => decide (decodeWord x.1 = .ok x.2)) = true := by decide

/-- Words 240 to 279, each written out from the table's match and fields. -/
theorem test_words_7 :
    ([
      (0xBA028633, .vandn ⟨true, 0⟩ (.reg 5) (.reg 3) (.reg 6)),
      (0x3A704433, .vandn ⟨false, 3⟩ .suppressed (.latch 2) (.reg 6)),
      (0xBA028634, .vshl ⟨true, 0⟩ (.reg 5) (.reg 3) (.reg 6)),
      (0x3A704434, .vshl ⟨false, 3⟩ .suppressed (.latch 2) (.reg 6)),
      (0xBA028635, .vshr ⟨true, 0⟩ (.reg 5) (.reg 3) (.reg 6)),
      (0x3A704435, .vshr ⟨false, 3⟩ .suppressed (.latch 2) (.reg 6)),
      (0xBA028636, .vsra ⟨true, 0⟩ (.reg 5) (.reg 3) (.reg 6)),
      (0x3A704436, .vsra ⟨false, 3⟩ .suppressed (.latch 2) (.reg 6)),
      (0xBA028607, .vnot ⟨true, 0⟩ (.reg 5) (.reg 3)),
      (0x3A704407, .vnot ⟨false, 3⟩ .suppressed (.latch 2)),
      (0xBC028630, .viceq ⟨true, 0⟩ 5 (.reg 3) (.reg 6)),
      (0x3C62C430, .viceq ⟨false, 3⟩ 5 (.latch 2) (.reg 6)),
      (0xBC028631, .vicne ⟨true, 0⟩ 5 (.reg 3) (.reg 6)),
      (0x3C62C431, .vicne ⟨false, 3⟩ 5 (.latch 2) (.reg 6)),
      (0xBC028632, .viclt ⟨true, 0⟩ 5 (.reg 3) (.reg 6)),
      (0x3C62C432, .viclt ⟨false, 3⟩ 5 (.latch 2) (.reg 6)),
      (0xBC028633, .vicltu ⟨true, 0⟩ 5 (.reg 3) (.reg 6)),
      (0x3C62C433, .vicltu ⟨false, 3⟩ 5 (.latch 2) (.reg 6)),
      (0xBC028634, .vicle ⟨true, 0⟩ 5 (.reg 3) (.reg 6)),
      (0x3C62C434, .vicle ⟨false, 3⟩ 5 (.latch 2) (.reg 6)),
      (0xBC028635, .vicleu ⟨true, 0⟩ 5 (.reg 3) (.reg 6)),
      (0x3C62C435, .vicleu ⟨false, 3⟩ 5 (.latch 2) (.reg 6)),
      (0xBC028636, .victst ⟨true, 0⟩ 5 (.reg 3) (.reg 6)),
      (0x3C62C436, .victst ⟨false, 3⟩ 5 (.latch 2) (.reg 6)),
      (0xBE028625, .vcvt ⟨true, 0⟩ (.reg 5) (.reg 3) .fp16 (.mode .rtz) true),
      (0x3E704424, .vcvt ⟨false, 3⟩ .suppressed (.latch 2) .fp16 (.mode .rtz) false),
      (0xC0028630, .vperm ⟨true, 0⟩ (.reg 5) (.reg 3) (.reg 6)),
      (0x40704430, .vperm ⟨false, 3⟩ .suppressed (.latch 2) (.reg 6)),
      (0xC0028631, .vzip ⟨true, 0⟩ (.reg 5) (.reg 3) (.reg 6)),
      (0x40704431, .vzip ⟨false, 3⟩ .suppressed (.latch 2) (.reg 6)),
      (0xC0028632, .vunzip ⟨true, 0⟩ (.reg 5) (.reg 3) (.reg 6)),
      (0x40704432, .vunzip ⟨false, 3⟩ .suppressed (.latch 2) (.reg 6)),
      (0xC0028603, .vrev ⟨true, 0⟩ (.reg 5) (.reg 3)),
      (0x40704403, .vrev ⟨false, 3⟩ .suppressed (.latch 2)),
      (0xC0028634, .vrot ⟨true, 0⟩ (.reg 5) (.reg 3) (.reg 6)),
      (0x40704434, .vrot ⟨false, 3⟩ .suppressed (.latch 2) (.reg 6)),
      (0xC0028635, .vsel ⟨true, 0⟩ (.reg 5) (.reg 3) (.reg 6)),
      (0x40704435, .vsel ⟨false, 3⟩ .suppressed (.latch 2) (.reg 6)),
      (0xC0028636, .vcmprs ⟨true, 0⟩ (.reg 5) (.reg 3) 6),
      (0x40704436, .vcmprs ⟨false, 3⟩ .suppressed (.latch 2) 6)
      ] : List (Nat × Instr)).all (fun x => decide (decodeWord x.1 = .ok x.2)) = true := by decide

/-- Words 280 to 319, each written out from the table's match and fields. -/
theorem test_words_8 :
    ([
      (0xC0028637, .vexpnd ⟨true, 0⟩ (.reg 5) (.reg 3) 6),
      (0x40704437, .vexpnd ⟨false, 3⟩ .suppressed (.latch 2) 6),
      (0xC2028630, .vrsum ⟨true, 0⟩ (.reg 5) (.reg 3) 6),
      (0x42704430, .vrsum ⟨false, 3⟩ .suppressed (.latch 2) 6),
      (0xC2028631, .vrmax ⟨true, 0⟩ (.reg 5) (.reg 3) 6),
      (0x42704431, .vrmax ⟨false, 3⟩ .suppressed (.latch 2) 6),
      (0xC2028632, .vrmin ⟨true, 0⟩ (.reg 5) (.reg 3) 6),
      (0x42704432, .vrmin ⟨false, 3⟩ .suppressed (.latch 2) 6),
      (0xC2028633, .vrisum ⟨true, 0⟩ (.reg 5) (.reg 3) 6),
      (0x42704433, .vrisum ⟨false, 3⟩ .suppressed (.latch 2) 6),
      (0xC2028634, .vscan ⟨true, 0⟩ (.reg 5) (.reg 3) 6),
      (0x42704434, .vscan ⟨false, 3⟩ .suppressed (.latch 2) 6),
      (0xC2028635, .vrand ⟨true, 0⟩ (.reg 5) (.reg 3) 6),
      (0x42704435, .vrand ⟨false, 3⟩ .suppressed (.latch 2) 6),
      (0xC2028636, .vror ⟨true, 0⟩ (.reg 5) (.reg 3) 6),
      (0x42704436, .vror ⟨false, 3⟩ .suppressed (.latch 2) 6),
      (0xC2028637, .vrxor ⟨true, 0⟩ (.reg 5) (.reg 3) 6),
      (0x42704437, .vrxor ⟨false, 3⟩ .suppressed (.latch 2) 6),
      (0xC405BEEF, .vspli ⟨true, 0⟩ 5 48879),
      (0x4465BEEF, .vspli ⟨false, 3⟩ 5 48879),
      (0xC6028000, .viota ⟨true, 0⟩ (.reg 5)),
      (0x46700000, .viota ⟨false, 3⟩ .suppressed),
      (0xC6028631, .vsplat ⟨true, 0⟩ (.reg 5) (.reg 3) (.reg 6)),
      (0x46704431, .vsplat ⟨false, 3⟩ .suppressed (.latch 2) (.reg 6)),
      (0xC6028602, .vmovp ⟨true, 0⟩ (.reg 5) 3),
      (0x46700602, .vmovp ⟨false, 3⟩ .suppressed 3),
      (0xC6028603, .vpopc ⟨true, 0⟩ (.reg 5) 3),
      (0x46700603, .vpopc ⟨false, 3⟩ .suppressed 3),
      (0xC6028604, .vrng ⟨true, 0⟩ (.reg 5) (.reg 3)),
      (0x46704404, .vrng ⟨false, 3⟩ .suppressed (.latch 2)),
      (0xC6000605, .vfmts ⟨true, 0⟩ (.reg 3)),
      (0x46604405, .vfmts ⟨false, 3⟩ (.latch 2)),
      (0xC8000022, .vfmt ⟨true, 0⟩ true .fp16),
      (0x48600002, .vfmt ⟨false, 3⟩ false .fp16),
      (0xCA000000, .vnop true),
      (0xCC028630, .vdot4s ⟨true, 0⟩ 5 (.reg 3) (.reg 6)),
      (0x4C62C430, .vdot4s ⟨false, 3⟩ 5 (.latch 2) (.reg 6)),
      (0xCC028631, .vdot4u ⟨true, 0⟩ 5 (.reg 3) (.reg 6)),
      (0x4C62C431, .vdot4u ⟨false, 3⟩ 5 (.latch 2) (.reg 6)),
      (0xCC028632, .vdot2bf ⟨true, 0⟩ 5 (.reg 3) (.reg 6))
      ] : List (Nat × Instr)).all (fun x => decide (decodeWord x.1 = .ok x.2)) = true := by decide

/-- Words 320 to 359, each written out from the table's match and fields. -/
theorem test_words_9 :
    ([
      (0x4C62C432, .vdot2bf ⟨false, 3⟩ 5 (.latch 2) (.reg 6)),
      (0xCC028633, .vdot2h ⟨true, 0⟩ 5 (.reg 3) (.reg 6)),
      (0x4C62C433, .vdot2h ⟨false, 3⟩ 5 (.latch 2) (.reg 6)),
      (0xCE0287FD, .cld ⟨true, 0⟩ .va 5 (.reg 3) (-3)),
      (0x4E72C407, .cld ⟨false, 3⟩ .vb 5 (.latch 2) 7),
      (0xD00287FD, .cst ⟨true, 0⟩ .va 5 (.reg 3) (-3)),
      (0x5072C407, .cst ⟨false, 3⟩ .vb 5 (.latch 2) 7),
      (0xD202870C, .cgath ⟨true, 0⟩ .va 5 (.reg 3) true 12),
      (0x5272C40C, .cgath ⟨false, 3⟩ .vb 5 (.latch 2) false 12),
      (0xD402870C, .cscat ⟨true, 0⟩ .va 5 (.reg 3) true 12),
      (0x5472C40C, .cscat ⟨false, 3⟩ .vb 5 (.latch 2) false 12),
      (0xD6028600, .xcpsx ⟨true, 0⟩ (.reg 5) (.reg 3)),
      (0x56704400, .xcpsx ⟨false, 3⟩ .suppressed (.latch 2)),
      (0xD6028601, .xcpxs ⟨true, 0⟩ (.reg 5) (.reg 3)),
      (0x56704401, .xcpxs ⟨false, 3⟩ .suppressed (.latch 2)),
      (0xD6028602, .xcpmx ⟨true, 0⟩ (.reg 5) 3),
      (0x56700602, .xcpmx ⟨false, 3⟩ .suppressed 3),
      (0xD6028603, .xcpxm ⟨true, 0⟩ (.reg 5) (.reg 3)),
      (0x56704403, .xcpxm ⟨false, 3⟩ .suppressed (.latch 2)),
      (0xD6028614, .xcpvax ⟨true, 0⟩ (.reg 5) 3 2),
      (0x56700614, .xcpvax ⟨false, 3⟩ .suppressed 3 2),
      (0xD6028615, .xcpvbx ⟨true, 0⟩ (.reg 5) 3 2),
      (0x56700615, .xcpvbx ⟨false, 3⟩ .suppressed 3 2),
      (0xD6028616, .xcpxva ⟨true, 0⟩ (.reg 5) (.reg 3) 2),
      (0x56704416, .xcpxva ⟨false, 3⟩ .suppressed (.latch 2) 2),
      (0xD6028617, .xcpxvb ⟨true, 0⟩ (.reg 5) (.reg 3) 2),
      (0x56704417, .xcpxvb ⟨false, 3⟩ .suppressed (.latch 2) 2),
      (0xD802860B, .fld ⟨true, 0⟩ 5 (.reg 3) 11),
      (0x5862C40B, .fld ⟨false, 3⟩ 5 (.latch 2) 11),
      (0xDA02860B, .fldv ⟨true, 0⟩ .va 5 (.reg 3) 11),
      (0x5A72C40B, .fldv ⟨false, 3⟩ .vb 5 (.latch 2) 11),
      (0xDC028600, .fst ⟨true, 0⟩ 5 (.reg 3)),
      (0x5C62C400, .fst ⟨false, 3⟩ 5 (.latch 2)),
      (0xDE028600, .fstv ⟨true, 0⟩ .va 5 (.reg 3)),
      (0x5E72C400, .fstv ⟨false, 3⟩ .vb 5 (.latch 2)),
      (0xE004E000, .send ⟨true, 0⟩ .va 9 12),
      (0xE204E00B, .recv ⟨true, 0⟩ .va 9 12 11),
      (0xE403C200, .push ⟨true, 0⟩ 7 true 4),
      (0xE603AA00, .pop ⟨true, 0⟩ 7 5 4),
      (0x6663AA00, .pop ⟨false, 3⟩ 7 5 4)
      ] : List (Nat × Instr)).all (fun x => decide (decodeWord x.1 = .ok x.2)) = true := by decide

/-- Words 360 to 399, each written out from the table's match and fields. -/
theorem test_words_10 :
    ([
      (0xE613A80B, .popStall ⟨true, 0⟩ 7 5 11),
      (0x6673A80B, .popStall ⟨false, 3⟩ 7 5 11),
      (0xE8040600, .rcap ⟨true, 0⟩ true (.reg 3)),
      (0x68604400, .rcap ⟨false, 3⟩ false (.latch 2)),
      (0xE8000641, .rput ⟨true, 0⟩ (.reg 3) true),
      (0x68604401, .rput ⟨false, 3⟩ (.latch 2) false),
      (0xE8028632, .radd ⟨true, 0⟩ (.reg 5) (.reg 3) (.reg 6)),
      (0x68704432, .radd ⟨false, 3⟩ .suppressed (.latch 2) (.reg 6)),
      (0xE8028633, .rcas ⟨true, 0⟩ (.reg 5) (.reg 3) 6),
      (0x68704433, .rcas ⟨false, 3⟩ .suppressed (.latch 2) 6),
      (0xE8028634, .rmaxu ⟨true, 0⟩ (.reg 5) (.reg 3) (.reg 6)),
      (0x68704434, .rmaxu ⟨false, 3⟩ .suppressed (.latch 2) (.reg 6)),
      (0xE8028635, .ror ⟨true, 0⟩ (.reg 5) (.reg 3) (.reg 6)),
      (0x68704435, .ror ⟨false, 3⟩ .suppressed (.latch 2) (.reg 6)),
      (0xE8000006, .board ⟨true, 0⟩),
      (0xE8000007, .alight ⟨true, 0⟩),
      (0xE8008007, .alightFree ⟨true, 0⟩),
      (0xEA028630, .aadd ⟨true, 0⟩ (.reg 5) (.reg 3) (.reg 6)),
      (0x6A704430, .aadd ⟨false, 3⟩ .suppressed (.latch 2) (.reg 6)),
      (0xEA028631, .aincw ⟨true, 0⟩ (.reg 5) (.reg 3) (.reg 6)),
      (0x6A704431, .aincw ⟨false, 3⟩ .suppressed (.latch 2) (.reg 6)),
      (0xEA028632, .afaab ⟨true, 0⟩ 5 (.reg 3) 6),
      (0x6A62C432, .afaab ⟨false, 3⟩ 5 (.latch 2) 6),
      (0xEA028633, .acas ⟨true, 0⟩ (.reg 5) (.reg 3) 6),
      (0x6A704433, .acas ⟨false, 3⟩ .suppressed (.latch 2) 6),
      (0xEA028634, .axchg ⟨true, 0⟩ (.reg 5) (.reg 3) (.reg 6)),
      (0x6A704434, .axchg ⟨false, 3⟩ .suppressed (.latch 2) (.reg 6)),
      (0xEA028635, .amins ⟨true, 0⟩ (.reg 5) (.reg 3) (.reg 6)),
      (0x6A704435, .amins ⟨false, 3⟩ .suppressed (.latch 2) (.reg 6)),
      (0xEA028636, .amaxu ⟨true, 0⟩ (.reg 5) (.reg 3) (.reg 6)),
      (0x6A704436, .amaxu ⟨false, 3⟩ .suppressed (.latch 2) (.reg 6)),
      (0xEA028637, .aorb ⟨true, 0⟩ (.reg 5) (.reg 3) (.reg 6)),
      (0x6A704437, .aorb ⟨false, 3⟩ .suppressed (.latch 2) (.reg 6)),
      (0xEC018630, .acq ⟨true, 0⟩ 3 (.reg 3) 6),
      (0x6C61C430, .acq ⟨false, 3⟩ 3 (.latch 2) 6),
      (0xEC000031, .rel ⟨true, 0⟩ 6),
      (0x6C600031, .rel ⟨false, 3⟩ 6),
      (0xEC018632, .bar ⟨true, 0⟩ 3 (.reg 3) (.reg 6)),
      (0x6C61C432, .bar ⟨false, 3⟩ 3 (.latch 2) (.reg 6)),
      (0xEC018013, .fence ⟨true, 0⟩ 3 .quad)
      ] : List (Nat × Instr)).all (fun x => decide (decodeWord x.1 = .ok x.2)) = true := by decide

/-- Words 400 to 439, each written out from the table's match and fields. -/
theorem test_words_11 :
    ([
      (0xEC000004, .trig ⟨true, 0⟩),
      (0xEC018005, .step ⟨true, 0⟩ 3),
      (0xEC000606, .crgo ⟨true, 0⟩ (.reg 3)),
      (0x6C604406, .crgo ⟨false, 3⟩ (.latch 2)),
      (0xEC000007, .crgc ⟨true, 0⟩),
      (0xEE000000, .cnop true),
      (0xEE028001, .ltime ⟨true, 0⟩ (.reg 5)),
      (0x6E700001, .ltime ⟨false, 3⟩ .suppressed),
      (0xEE02801A, .seedr ⟨true, 0⟩ (.reg 5) 3),
      (0x6E70001A, .seedr ⟨false, 3⟩ .suppressed 3),
      (0xEE000633, .gang ⟨true, 0⟩ (.reg 3) (.reg 6)),
      (0x6E604433, .gang ⟨false, 3⟩ (.latch 2) (.reg 6)),
      (0xF0033003, .mcfg ⟨true, 0⟩ (.reg 3) (.reg 6) (.level 2)),
      (0x70723003, .mcfg ⟨false, 3⟩ (.latch 2) (.reg 6) (.level 2)),
      (0xF2000000, .mgo ⟨true, 0⟩),
      (0xF2000100, .mgog ⟨true, 0⟩),
      (0xF2000201, .mdrn ⟨true, 0⟩ 1),
      (0xF2000306, .mclr ⟨true, 0⟩ 6),
      (0xF2030409, .mstat ⟨true, 0⟩ 3 9),
      (0x72630409, .mstat ⟨false, 3⟩ 3 9),
      (0xF2030509, .mldw ⟨true, 0⟩ (.reg 3) 2 1),
      (0x72720509, .mldw ⟨false, 3⟩ (.latch 2) 2 1),
      (0xF2000601, .mmirr ⟨true, 0⟩ true),
      (0xF2000700, .mstop ⟨true, 0⟩),
      (0xF4000442, .mfmt ⟨true, 0⟩ true .fp16 .fp16),
      (0x74600042, .mfmt ⟨false, 3⟩ false .fp16 .fp16),
      (0xF6030000, .spup ⟨true, 0⟩ (.reg 3)),
      (0x76720000, .spup ⟨false, 3⟩ (.latch 2)),
      (0xF6030100, .spdn ⟨true, 0⟩ (.reg 3)),
      (0x76720100, .spdn ⟨false, 3⟩ (.latch 2)),
      (0xF6033200, .spld ⟨true, 0⟩ (.reg 3) (.reg 6)),
      (0x76723200, .spld ⟨false, 3⟩ (.latch 2) (.reg 6)),
      (0xF6033300, .spst ⟨true, 0⟩ (.reg 3) (.reg 6)),
      (0x76723300, .spst ⟨false, 3⟩ (.latch 2) (.reg 6)),
      (0xF60304FD, .spscl ⟨true, 0⟩ (.reg 3) (-3)),
      (0x76720407, .spscl ⟨false, 3⟩ (.latch 2) 7),
      (0xF6000545, .spmode ⟨true, 0⟩ 17 .bf16),
      (0x76600545, .spmode ⟨false, 3⟩ 17 .bf16),
      (0xF6030600, .spclr ⟨true, 0⟩ (.reg 3)),
      (0x76720600, .spclr ⟨false, 3⟩ (.latch 2))
      ] : List (Nat × Instr)).all (fun x => decide (decodeWord x.1 = .ok x.2)) = true := by decide

/-- Words 440 to 444, each written out from the table's match and fields. -/
theorem test_words_12 :
    ([
      (0xF6030702, .spstat ⟨true, 0⟩ 3 2),
      (0x76630702, .spstat ⟨false, 3⟩ 3 2),
      (0xF805BEEF, .mli ⟨true, 0⟩ 5 48879),
      (0x7865BEEF, .mli ⟨false, 3⟩ 5 48879),
      (0xFA000000, .mnop true)
      ] : List (Nat × Instr)).all (fun x => decide (decodeWord x.1 = .ok x.2)) = true := by decide

/-! Witnesses: for each statement with hypotheses, states and operands that meet them together. -/

/-- A header with its guard on (p0) and one with its guard off at reset (p1). -/
def hdOn : Hdr := ⟨true, 0⟩
def hdOff : Hdr := ⟨true, 1⟩

/-- The state after reset with its tile changed. -/
def withTile (f : Tile → Tile) : State := { State.reset with tile := f State.reset.tile }

/-- The state after reset with scalar register n holding v. -/
def withS (n : Nat) (v : Word) : State := withTile fun t => { t with regs := { t.regs with s := t.regs.s.setIfInBounds n v } }

/-- The same for XA, which the copy slot of an idle issue record reads. -/
def withX (vs : List (Nat × Word)) : State :=
  withTile fun t => { t with regs := { t.regs with xa := vs.foldl (fun r v => r.setIfInBounds v.1 v.2) t.regs.xa }, iss := { t.iss with slot := .ca } }

theorem witness_EncodeThenDecode : ∃ (i : Instr) (w : Nat), i.wf = true ∧ encode i = some w :=
  ⟨.addi hdOn (.reg 31) (.latch 7) (-256), _, by decide, rfl⟩

theorem witness_DecodeThenEncode : ∃ (i : Instr) (w : Nat), w < 2 ^ 32 ∧ decodeWord w = .ok i :=
  ⟨_, 0x80000000, by decide, rfl⟩

theorem witness_IllegalEncodings :
    (0xFFFFFFFF < 2 ^ 32 ∧ 62 ≤ fld 0xFFFFFFFF 25 6) ∧ (0x7C000000 < 2 ^ 32 ∧ 62 ≤ fld 0x7C000000 25 6) ∧
    (fld 0x82005000 25 6 = 1 ∧ 40 ≤ fld 0x82005000 9 6) ∧ (fld 0x82000140 25 6 = 1 ∧ 40 ≤ fld 0x82000140 3 6) ∧
    (fld 0x9A000000 25 6 = 13 ∧ fld 0x9A000000 15 5 = 0) ∧
    (fld 0x82118000 25 6 = 1 ∧ fld 0x82118000 20 1 = 1 ∧ fld 0x82118000 15 5 ≠ 0) := by decide

/-- The state after reset with an ADDI of s2 as the next bundle. -/
def fetchState : State := State.reset.withFetchWord 32 0x88010405

theorem witness_StepRunsDecoded : ∃ (s u v : State) (ds : List Domain) (w : Nat) (sl : Slot) (i : Instr),
    s.inputs = [] ∧ s.turn = ⟨[s.tile.key], none⟩ :: ds ∧
    ({ s with turn := ds }).swallows ⟨[s.tile.key], none⟩ = false ∧
    ({ s with turn := ds }).shardFreeze [s.tile.key] = false ∧
    s.tile.phase = .running ∧
    ({ s with turn := ds }).fallDue [s.tile.key] = .inl u ∧
    u.tile.key = s.tile.key ∧ u.tile.phase = .running ∧ u.tile.waits = [] ∧ u.tile.gang.size ≤ 1 ∧
    u.tile.gang.resumeAt ≤ u.tile.tick ∧
    u.tile.wordsAt u.tile.pc = [w] ∧ fld w 31 1 = 1 ∧ placeWords 0 0 [w] = [some sl] ∧ decodeWord w = .ok i ∧
    u.tile.imemStruck u.tile.pc 1 = false ∧ u.tile.consumes sl i = false ∧
    exec i (u.issuing sl) = .next v ∧ v.untrapped ∧ v.tile.iss.held = none :=
  ⟨fetchState, _, _, [], 0x88010405, .s, .addi ⟨true, 0⟩ (.reg 2) (.reg 2) 5, by decide, by decide, by decide, by decide, by decide,
    rfl, rfl, rfl, rfl, by decide, by decide, rfl, rfl, rfl, rfl, rfl, rfl, rfl, rfl, rfl⟩

theorem witness_StepKeepsInvariant : fetchState.Inv ∧ ∃ u, step fetchState = .next u := ⟨⟨by decide, by decide⟩, _, rfl⟩

theorem witness_ClockRule : (∃ u, step fetchState = .next u ∧ u.cycle = fetchState.cycle) ∧
    (∃ u, step State.reset = .next u ∧ u.cycle = State.reset.cycle + 1) ∧
    (∃ u, step { State.reset with inputs := [.op .thermalTrip], counter := 5 } = .next u ∧ u.counter = 0) :=
  ⟨⟨_, rfl, rfl⟩, ⟨_, rfl, rfl⟩, ⟨_, rfl, rfl⟩⟩

theorem witness_ScalarFrame : ∃ u, isScalar (.add hdOn (.reg 3) (.reg 1) (.reg 2)) = true ∧
    exec (.add hdOn (.reg 3) (.reg 1) (.reg 2)) (withS 1 7) = .next u ∧ u.untrapped := ⟨_, rfl, rfl, rfl⟩

theorem witness_VectorFrame : ∃ u, isVector (.vadd hdOn (.reg 3) (.reg 1) (.reg 2)) = true ∧
    exec (.vadd hdOn (.reg 3) (.reg 1) (.reg 2)) State.reset = .next u ∧ u.untrapped := ⟨_, rfl, rfl, rfl⟩

theorem witness_LocalFrame : ∃ u, isLocal (.sst hdOn 3 (.reg 1) .b8 0) = true ∧
    exec (.sst hdOn 3 (.reg 1) .b8 0) State.reset = .next u ∧ u.untrapped := ⟨_, rfl, rfl, rfl⟩

theorem witness_TransferFrame : ∃ u, isTransfer (.br hdOn 0) = true ∧
    exec (.br hdOn 0) fetchState = .next u ∧ u.untrapped := ⟨_, rfl, rfl, rfl⟩

theorem witness_TransferFrame_traps :
    (∃ u, exec (.trap hdOn (.reg 1)) fetchState = .next u ∧ u.untrapped) ∧ (∃ u, exec (.tret hdOn) fetchState = .next u ∧ u.untrapped) ∧
    ∃ u, exec (.exit hdOn) fetchState = .next u ∧ u.untrapped := ⟨⟨_, rfl, rfl⟩, ⟨_, rfl, rfl⟩, _, rfl, rfl⟩

theorem witness_TrafficFrame : ∃ u, isTraffic (.fst hdOn 3 (.reg 1)) = true ∧
    exec (.fst hdOn 3 (.reg 1)) (withX [(1, 0x10000)]) = .next u ∧ u.untrapped := ⟨_, rfl, rfl, rfl⟩

theorem witness_TrafficFrame_sync : (∃ u, isSync (.step hdOn 0) = true ∧ exec (.step hdOn 0) State.reset = .next u ∧ u.untrapped) ∧
    (∃ u, isSync (.send hdOn .va 3 1) = true ∧ exec (.send hdOn .va 3 1) State.reset = .next u ∧ u.untrapped) ∧
    ∃ u, exec (.board hdOn) (withTile fun t => { t with berth := .boarded }) = .next u ∧ u.untrapped :=
  ⟨⟨_, rfl, rfl, rfl⟩, ⟨_, rfl, rfl, rfl⟩, _, rfl, rfl⟩

theorem witness_MatrixSlotFrame : ∃ u, isMatrixSlot (.mclr hdOn 15) = true ∧
    exec (.mclr hdOn 15) State.reset = .next u ∧ u.untrapped := ⟨_, rfl, rfl, rfl⟩

/-- A program of n bundles of one SNOP each, running at its first. -/
def prog (n : Nat) (f : Tile → Tile) : State := withTile fun t => f { t with
  phase := .running, imem := Mem.write [] 0 ((List.replicate n (0x80000000 : Nat)).flatMap (bytesOfNat 4)), progLen := 4 * n,
  iss := { t.iss with next := 4 } }

/-- A tile whose VFMTA selects a format. -/
def withFmt (c : Nat) : State := withTile fun t => { t with gov := { t.gov with vfmta := word c } }

theorem witness_GuardAndLatches :
    (plainGuard (.add hdOff (.reg 3) (.reg 1) (.reg 2)) = some 1 ∧ bit (State.reset.tile.pred 1) 0 = false) ∧
    (plainGuard (.cld ⟨true, 15⟩ .va 1 (.reg 1) 0) = some 15 ∧ bit (State.reset.tile.pred 15) 0 = false) ∧
    (controlGuard (.br hdOff 4) = some 1 ∧ bit ((prog 2 id).tile.pred 1) 0 = false ∧ (prog 2 id).tile.iss.follow = none) ∧
    (State.reset.tile.guarded hdOn = true ∧ State.reset.tile.readS (.latch 7) = none ∧ State.reset.tile.readV (.latch 0) = none ∧
      okLane (State.reset.tile.vctx hdOn).fmt = true ∧ State.reset.tile.readX (.latch 3) = none) := by decide

/-- One syllable of each slot that reads an invalid latch, and a format for each group of lanes. -/
theorem witness_GuardAndLatches_lost :
    (∀ i ∈ [Instr.add hdOn (.reg 3) (.reg 1) (.latch 7), .fld hdOn 3 (.latch 0) 8, .mldw hdOn (.latch 0) 0 0, .mcfg hdOn (.reg 1) (.latch 7) (.ring 0)],
      plainGuard i = some 0 ∧ State.reset.tile.readsLost i = true) ∧
    bit (State.reset.tile.pred 0) 0 = true ∧
    (controlGuard (.jmpr hdOn (.latch 0)) = some 0 ∧ State.reset.tile.iss.follow = none ∧ State.reset.tile.readsLost (.jmpr hdOn (.latch 0)) = true) ∧
    (State.reset.tile.readV (.latch 7) = none ∧ okFloatPs (State.reset.tile.vctx hdOn).fmt = true ∧
      okFloat (State.reset.tile.vctx hdOn).fmt = true ∧ okInt ((withFmt 12).tile.vctx hdOn).fmt = true ∧
      (withFmt 12).tile.readV (.latch 7) = none ∧ okRandom (State.reset.tile.vctx hdOn).fmt = true) := by decide

theorem witness_ScalarArithmetic : State.reset.tile.guarded hdOn = true ∧ (withS 31 5).tile.readS (.reg 31) = some 5 ∧
    (withS 31 5).tile.readS (.reg 0) = some 0 := by decide

theorem witness_DivisionAndBits : (withS 1 0x8000000000000000).tile.guarded hdOn = true ∧
    (∃ x, (withS 1 0x8000000000000000).tile.readS (.reg 1) = some x ∧ x.toInt = -(2 ^ 63)) ∧
    (withS 1 (-1)).tile.readS (.reg 1) = some (-1) ∧ (withS 1 (-1)).tile.readS (.reg 0) = some 0 :=
  ⟨by decide, ⟨_, rfl, by decide⟩, by decide, by decide⟩

theorem witness_Immediates : (withS 1 9).tile.guarded hdOn = true ∧ (withS 1 9).tile.readS (.reg 1) = some 9 ∧
    63 < 64 ∧ 65535 < 65536 := by decide

theorem witness_Immediates_fields :
    (decodeWord 0x8A04_10FF = .ok (.andi ⟨true, 0⟩ (.reg 8) (.reg 8) 255) ∧ fld 0x8A0410FF 25 6 = 5) ∧
    (decodeWord 0x9002_868B = .ok (.shri ⟨true, 0⟩ (.reg 5) (.reg 3) 11) ∧ fld 0x9002868B 25 6 = 8 ∧ fld 0x9002868B 7 2 = 1) ∧
    (decodeWord 0x9804_1234 = .ok (.ins3 ⟨true, 0⟩ 4 0x1234) ∧ fld 0x98041234 25 6 = 12) ∧
    (fld 0x90000040 25 6 = 8 ∧ fld 0x90000040 6 1 = 1) := by decide

theorem witness_ComparesAndPredicates : (withS 1 9).tile.guarded hdOn = true ∧ (withS 1 9).tile.readS (.reg 1) = some 9 ∧
    (withS 1 9).tile.readS (.reg 0) = some 0 := by decide

theorem witness_CsrAccess : (withS 1 15).tile.guarded hdOn = true ∧
    (csrAccess .vfmta = .rw ∧ csrLegal .vfmta ((withS 1 15).tile.sreg 1) = true ∧
      csrLegal .vfmta ((withS 1 15).tile.csr .vfmta ||| (withS 1 15).tile.sreg 1) = true ∧
      csrLegal .vfmta ((withS 1 15).tile.csr .vfmta &&& ~~~((withS 1 15).tile.sreg 1)) = true ∧
      csrLegal .vfmta ((withS 1 16).tile.sreg 1) = false) ∧
    csrAccess .tileid = .ro ∧ csrAccess .maxk = .pr := by decide

theorem witness_ControlTransfers :
    ((prog 3 id).tile.guarded hdOn = true ∧ (prog 3 id).tile.iss.follow = none ∧ (prog 3 id).tile.isStart 8 = true ∧
      (((prog 3 id).tile.iss.addr : Int) + 4 * 2 = (8 : Nat))) ∧
    (let s := prog 3 fun t => { t with regs := { t.regs with s := t.regs.s.setIfInBounds 1 8 } }
     s.tile.guarded hdOn = true ∧ s.tile.iss.follow = none ∧ s.tile.isStart 8 = true ∧ s.tile.readS (.reg 1) = some 8 ∧
       (8 : Word).toNat = 8) ∧
    (let s := prog 4 fun t => { t with regs := { t.regs with s := (t.regs.s.setIfInBounds 1 0x1_0000_0001).setIfInBounds 2 2 } }
     s.tile.readS (.reg 1) = some 0x1_0000_0001 ∧ s.tile.readS (.reg 2) = some 2 ∧ (2 : Word).toNat = 2 ∧ 0 < 2 ∧
       2 ≤ s.tile.csrs.prebound.toNat ∧ s.tile.nthStart s.tile.iss.addr 2 = some 8 ∧ (0x1_0000_0001 : Word).toNat % 2 ^ 32 = 1 ∧
       (0x1_0000_0000 : Word).toNat % 2 ^ 32 = 0 ∧ s.tile.startAfter 8 32768 = some 12) ∧
    (let t : Tile := { State.reset.tile with loops := ⟨some ⟨0, 4, 8, 1, 0⟩ :: List.replicate 5 none, [0]⟩ }
     let u : Tile := { State.reset.tile with loops := ⟨some ⟨0, 4, 0, 2, 0⟩ :: List.replicate 5 none, [0]⟩ }
     t.loops.order = [0] ∧ t.loops.level 0 = some ⟨0, 4, 8, 1, 0⟩ ∧ t.iss.addr ≠ 8 ∧
       u.loops.level 0 = some ⟨0, 4, 0, 2, 0⟩ ∧ u.iss.addr = 0 ∧ 1 < 2) := by decide

theorem witness_TrapsAndWaits :
    (let s := prog 2 fun t => { t with tick := 7, regs := { t.regs with s := (t.regs.s.setIfInBounds 1 8).setIfInBounds 2 7 } }
     s.tile.guarded hdOn = true ∧ s.tile.iss.follow = none ∧ s.tile.gang.size = 1 ∧ s.tile.readS (.reg 1) = some 8 ∧
       s.tile.pos = 0 ∧ s.tile.isStart (bits s.tile.csrs.trappc 0 17) = true ∧ s.tile.storesOpen = false ∧
       s.tile.iss.record = none ∧ s.tile.faults = [] ∧ enabledFlags s.tile.gov.fpcr s.tile.csrs.fpsr = 0 ∧
       s.tile.ltime < (8 : Word).toNat ∧ s.tile.readS (.reg 2) = some 7 ∧ (7 : Word).toNat ≤ s.tile.ltime) ∧
    enabledFlags 0x10 1 ≠ 0 := by decide

theorem witness_VectorFloat : State.reset.tile.readV (.reg 31) = some 0 ∧ okFloat (State.reset.tile.vctx hdOn).fmt = true ∧
    okFloatPs ((withFmt 13).tile.vctx hdOn).fmt = true ∧ okSign ((withFmt 4).tile.vctx hdOn).fmt = true := by decide

theorem witness_VectorInteger : State.reset.tile.readV (.reg 31) = some 0 ∧ okInt ((withFmt 12).tile.vctx hdOn).fmt = true ∧
    okLane (State.reset.tile.vctx hdOn).fmt = true := by decide

theorem witness_VectorCompares : State.reset.tile.readV (.reg 31) = some 0 ∧ okInt ((withFmt 10).tile.vctx hdOn).fmt = true ∧
    okFloatPs (State.reset.tile.vctx hdOn).fmt = true := by decide

theorem witness_VectorMoves : State.reset.tile.readV (.reg 0) = some 0 ∧ okLane (State.reset.tile.vctx hdOff).fmt = true ∧
    okSum (State.reset.tile.vctx hdOn).fmt = true ∧ okWide ((withFmt 15).tile.vctx hdOn).fmt = true := by decide

theorem witness_VectorConversions : State.reset.tile.readV (.reg 0) = some 0 ∧
    (isMx (State.reset.tile.vctx hdOn).fmt = false ∧ isMx Fmt.i64 = false) ∧
    isMx ((withFmt 6).tile.vctx hdOn).fmt = true ∧ (isMx Fmt.mxfp8 = true ∧ (State.reset.tile.vctx hdOn).fmt = .fp32 ∧ hdOn.g = 0) ∧
    okRandom (State.reset.tile.vctx hdOn).fmt = true ∧ State.reset.tile.guarded hdOn = true ∧ bit (0x0F : Word) 4 = false ∧
    bit (0x10 : Word) 4 = true := by decide

theorem witness_LaneValues :
    (let c := (withFmt 11).tile.vctx hdOn
     c.fmt = .i16 ∧ c.w = laneWidth c.fmt ∧ 0xFFFF < 2 ^ c.w ∧ 0x8000 < 2 ^ c.w) ∧
    (let c := (withFmt 4).tile.vctx hdOn
     0 < c.w ∧ 0xFF < 2 ^ c.w ∧ 6 < c.w - 1) := by decide

/-- An image, a launch, a context, a queue and a packet with nothing in them. -/
def image0 : Image := ⟨[], 1, 0, [], [], [⟨0x10000, 0, 0, 0, 0⟩, ⟨5, 2, 0, 0, 0⟩], [], [], []⟩
def launch0 : Launch :=
  ⟨⟨0, 0⟩, 0, 0, 0, 0, image0, .started, false, none, 0, 0, 0, 0, [], [], [], [], false, false, none, [], [], []⟩
def ctx0 : Context :=
  ⟨0, 0, 0, 0, false, 64, 4096, 0, 0, [], true, 0, 0, [], [], [], 0, 0, [], [], [], 0, 0, [],
    ⟨0, 0, false, 0, 0, [], [], [], none, none, none, 0, none, false, none⟩, none, none, none, false⟩
def packet0 (ty : Nat) : Packet := ⟨0, [word ty], false, false, false, 0, 0, none⟩
def queue0 (k : Packet) : Queue := ⟨0, 0, 0, [k], true, 0, false, none, none, none, none⟩

/-- A copy command of given words. -/
def cmd0 (ws : List Word) : CopyCmd :=
  ⟨0, ws, 0, 0, 0, none, 0, (0, 1), false, false, none, 0, [], none, [], [], .running, none, none⟩

/-- The tile in focus with the launch and the context it belongs to. -/
def onLaunch (f : Tile → Tile) : State := { withTile f with launches := [launch0], contexts := [ctx0] }

theorem witness_ScalarMemory :
    (let s := withS 1 0x1FFFF8
     s.tile.guarded hdOn = true ∧ s.tile.readS (.reg 1) = some 0x1FFFF8 ∧
       ((0x1FFFF8 : Word) + BitVec.ofInt 64 (0 * 8)).toNat % 8 = 0 ∧
       ((0x1FFFF8 : Word) + BitVec.ofInt 64 (0 * 8)).toNat + 8 ≤ 0x200000 ∧ s.tile.spad.poisoned 0x1FFFF8 8 = false ∧
       ({ s.tile.spad with poison := [0x3FFFF] } : Spad).poisoned 0x1FFFF8 8 = true) ∧
    ((0x1FFFF9 : Word) + BitVec.ofInt 64 (0 * 8)).toNat % 8 ≠ 0 ∧
    (((0x1FFFF8 : Word) + BitVec.ofInt 64 (1 * 8)).toNat % 8 = 0 ∧
      0x200000 < ((0x1FFFF8 : Word) + BitVec.ofInt 64 (1 * 8)).toNat + 8) := by decide

theorem witness_VectorMemory :
    let s := withX [(1, 0x1FFF00)]
    s.tile.guarded hdOn = true ∧ s.tile.readX (.reg 1) = some 0x1FFF00 ∧
      (((0x1FFF00 : Word) + BitVec.ofInt 64 (256 * 0)).toNat % 256 = 0 ∧
        ((0x1FFF00 : Word) + BitVec.ofInt 64 (256 * 0)).toNat + 256 ≤ 0x200000 ∧ s.tile.spad.poisoned 0x1FFF00 256 = false) ∧
      (∀ p ∈ (lanesOf 64 32 (s.tile.vreg .va 3).toNat).map fun i => ((0x1FFF00 : Word) + BitVec.ofNat 64 (8 * i)).toNat,
        p % 8 = 0 ∧ p + 8 ≤ 0x200000 ∧ s.tile.spad.poisoned p 8 = false) := by decide

theorem witness_VectorMemory_traps :
    (let addr (x : Word) (imm : Int) := (x + BitVec.ofInt 64 (256 * imm)).toNat
     addr 0x1FFF01 0 % 256 ≠ 0 ∧ (addr 0x1FFF00 1 % 256 = 0 ∧ 0x200000 < addr 0x1FFF00 1 + 256) ∧
       ({ State.reset.tile.spad with poison := [0x3FFFF] } : Spad).poisoned (addr 0x1FFF00 0) 256 = true) ∧
    (let ps (x : Word) := (lanesOf 64 32 (State.reset.tile.vreg .va 3).toNat).map fun i => (x + BitVec.ofNat 64 (8 * i)).toNat
     (ps 0x1FFFF9 = [] ++ 0x1FFFF9 :: List.replicate 31 0x1FFFF9 ∧ 0x1FFFF9 % 8 ≠ 0) ∧
       (ps 0x200000 = [] ++ 0x200000 :: List.replicate 31 0x200000 ∧ 0x200000 % 8 = 0 ∧ 0x200000 < 0x200000 + 8) ∧
       (ps 0x1FFFF8 = [] ++ 0x1FFFF8 :: List.replicate 31 0x1FFFF8 ∧ (∀ p ∈ ps 0x1FFFF8, p % 8 = 0 ∧ p + 8 ≤ 0x200000) ∧
         ({ State.reset.tile.spad with poison := [0x3FFFF] } : Spad).poisoned 0x1FFFF8 8 = true)) := by decide

theorem witness_CopyMoves : let s := withX [(1, 9)]
    s.tile.guarded hdOn = true ∧ s.tile.readX (.reg 1) = some 9 ∧
      ({ s.tile with latches := { s.tile.latches with ca := some 3 :: List.replicate 7 none } } : Tile).readX (.latch 0) = some 3 := by
  decide

theorem witness_FarAccesses :
    (let s := withX [(1, 0x10000), (2, 0xFF000000000100)]
     s.tile.guarded hdOn = true ∧ s.tile.readX (.reg 1) = some 0x10000 ∧ farTarget s.tile.grid (0x10000 : Word).toNat = .virt 0x10000 ∧
       (0x10000 : Word).toNat % 256 = 0 ∧ s.tile.basinUsed < Config.basinEntries ∧
       s.tile.readX (.reg 2) = some 0xFF000000000100 ∧ farTarget s.tile.grid (0xFF000000000100 : Word).toNat = .window 0 0x100 ∧
       (0xFF000000000100 : Word).toNat % 8 = 0) ∧
    Config.basinEntries ≤ (withTile fun t => { t with basin := List.replicate 64 ⟨0, 0, 0, 0, 0, 0, false⟩ }).tile.basinUsed ∧
    (0x10001 : Word).toNat % 8 ≠ 0 ∧
    ((0x200000000000000 : Word).toNat % 8 = 0 ∧ farTarget 1 (0x200000000000000 : Word).toNat = .bad) ∧
    ((0xFF000000200000 : Word).toNat % 8 = 0 ∧ farTarget 1 (0xFF000000200000 : Word).toNat = .bad) := by decide

theorem witness_MessagesAndGangs :
    let s := withX [(1, 0), (3, 1 * 2 ^ 11), (4, 1)]
    s.tile.guarded hdOn = true ∧ bits (s.tile.xreg s.tile.cfile 1) 0 11 < s.tile.grid ∧
      s.skidFull ⟨s.tile.key.pasid, bits (s.tile.xreg s.tile.cfile 1) 0 11⟩ = false ∧ (∀ c ∈ s.tile.claims, c.1 ≠ 0) ∧
      s.tile.readX (.reg 3) = some (1 * 2 ^ 11) ∧ s.tile.readX (.reg 4) = some 1 ∧
      gangCheck s.tile.grid s.tile.key.id (bits (1 * 2 ^ 11 : Word) 0 11) (bits (1 * 2 ^ 11 : Word) 11 5) = none ∧
      s.tile.ltime < (1 : Word).toNat ∧
      gangCheck 16 7 (bits (8 * 2 ^ 11 : Word) 0 11) (bits (8 * 2 ^ 11 : Word) 11 5) = none := by decide

theorem witness_Atomics :
    (let s := withX [(1, 0x1FFFF8), (2, 0xFF000000000008), (3, 5)]
     s.tile.guarded hdOn = true ∧ s.tile.readX (.reg 1) = some 0x1FFFF8 ∧ s.tile.readX (.reg 3) = some 5 ∧
       (0x1FFFF8 : Word).toNat % 8 = 0 ∧ (0x1FFFF8 : Word).toNat < 0x200000 ∧ s.tile.readX (.reg 2) = some 0xFF000000000008 ∧
       (0xFF000000000008 : Word).toNat % 8 = 0 ∧ 0x200000 ≤ (0xFF000000000008 : Word).toNat ∧
       farTarget s.tile.grid (0xFF000000000008 : Word).toNat = .window 0 8 ∧ s.tile.basinUsed < Config.basinEntries) ∧
    (0x1FFFFC : Word).toNat % 8 ≠ 0 := by decide

theorem witness_Atomics_far :
    (let x : Word := 0x200000
     x.toNat % 8 = 0 ∧ 0x200000 ≤ x.toNat ∧ farTarget State.reset.tile.grid x.toNat = .virt 0x200000 ∧
       bit State.reset.tile.csrs.detmode 0 = false ∧
       bit ({ State.reset.tile.csrs with detmode := 1 } : Csrs).detmode 0 = true) ∧
    ((0x200000000000000 : Word).toNat % 8 = 0 ∧ farTarget 1 (0x200000000000000 : Word).toNat = .bad) ∧
    ((0xFE000003000008 : Word).toNat % 8 = 0 ∧ farTarget 1 (0xFE000003000008 : Word).toNat = .aperture 3 8) := by decide

theorem witness_AtomicResults :
    (let old : Word := 5
     old.toNat + (3 : Word).toNat ≤ (8 : Word).toNat ∧ (7 : Word).toNat < old.toNat + (3 : Word).toNat ∧ old = 5 ∧ old ≠ 6) ∧
    (bits (2 : Word) 0 32 + 1 < 4 ∧ 4 ≤ bits (3 : Word) 0 32 + 1 ∧ 0 < 4 ∧ 4 < 2 ^ 32) := by decide

theorem witness_PassTick : (0 < 162 ∧ 161 < 162) ∧ (0 < 1296 ∧ 1295 < 1296) ∧ (1279 < 1280 ∧ 0 < 1280) := by decide

theorem witness_RillSyllables :
    (let s := withTile fun t => { t with berth := .boarded, iss := { t.iss with slot := .ca },
                                         regs := { t.regs with xa := t.regs.xa.setIfInBounds 1 161 } }
     s.tile.guarded hdOn = true ∧ s.tile.readX (.reg 1) = some 161 ∧ s.tile.berth = .boarded ∧
       bits (161 : Word) 0 11 < ringLength s.tile.grid ∧ s.tile.station.length < 16 ∧ s.tile.basinUsed < Config.basinEntries ∧
       s.tile.iss.follow = none) ∧
    (State.reset.tile.berth ≠ .boarded ∧ State.reset.tile.berth = .free) ∧
    (let s := onLaunch fun t => { t with berth := .berthed }
     s.tile.berth = .berthed ∧ s.launch? s.tile.launchKey = some launch0 ∧ s.tile.tick ≤ launch0.rt ∧ launch0.stopped = false ∧
       s.tile.readX (.reg 1) = some 0) ∧
    (let s := onLaunch fun t => { t with berth := .berthed, tick := 5 }
     s.tile.berth = .berthed ∧ s.launch? s.tile.launchKey = some launch0 ∧ launch0.rt < s.tile.tick ∧
       ({ launch0 with stopped := true } : Launch).stopped = true) := by decide

theorem witness_CopyQueues :
    (let s := withX [(0, 0x190), (2, 64)]
     s.tile.guarded hdOn = true ∧ pushCheck s.tile (s.tile.octet false) = none ∧ (s.tile.queue 31).occ < 64) ∧
    (let s := withTile fun t => { t with queues := [{ CopyQueue.reset with occ := 64 }, { CopyQueue.reset with occ := 1 }] }
     s.tile.guarded hdOn = true ∧ 64 ≤ (s.tile.queue 0).occ ∧ (s.tile.queue 0).next = none ∧ (s.tile.queue 1).occ < 64 ∧
       0 < (s.tile.queue 1).occ ∧ s.tile.basinUsed < Config.basinEntries ∧ (s.tile.queue 2).occ = 0) ∧
    (let k := { cmd0 [] with record := some 0 }
     let c : CopyQueue := ⟨1, 1, 0, 0, [k]⟩
     c.next = some k ∧ bit State.reset.tile.csrs.detmode 0 = false ∧ k.record = some 0 ∧ recordCause 0 = none) := by decide

theorem witness_SyncSyllables :
    (let s := onLaunch fun t => { t with berth := .boarded, iss := { t.iss with slot := .ca }, imem := [], progLen := 8,
                                         regs := { t.regs with xa := t.regs.xa.setIfInBounds 1 1 } }
     s.tile.guarded hdOn = true ∧ s.tile.readX (.reg 0) = some 0 ∧ s.tile.readX (.reg 1) = some 1 ∧
       (s.bindingsOf s.tile)[0]? = some ⟨0x10000, 0, 0, 0, 0⟩ ∧ (s.bindingsOf s.tile)[1]? = some ⟨5, 2, 0, 0, 0⟩ ∧
       s.tile.berth = .boarded ∧ s.tile.storesOpen = false ∧ s.tile.iss.record = none ∧ s.tile.faults = [] ∧
       (0 < (1 : Word).toNat ∧ (1 : Word).toNat < 2 ^ 32) ∧ ((0 : Word).toNat % 8 = 0 ∧ (0 : Word).toNat < 0x200000) ∧
       ((0 : Word).toNat < 0x20000 ∧ s.startsBundle s.tile (0 : Word).toNat = true ∧ s.tile.regions.length < 4) ∧ s.tile.regions = []) ∧
    (withTile fun t => { t with regions := [⟨0, 0, 0⟩] }).tile.regions = ⟨0, 0, 0⟩ :: [] := by decide

/-! One step each: the expected results are the spec's worked examples and tables, or computed by hand. -/

/-- What one syllable leaves in flight: due ticks and effects. -/
def outs (i : Instr) (s : State) : List (Nat × Eff) :=
  match exec i s with
  | .next u => u.tile.inflight.map fun p => (p.due, p.eff)
  | _ => []

/-- Two scalar registers set. -/
def withS2 (a b : Word) : State :=
  withTile fun t => { t with regs := { t.regs with s := (t.regs.s.setIfInBounds 1 a).setIfInBounds 2 b } }

/-- R84: a = −7, b = 2. -/
theorem test_division :
    outs (.div hdOn (.reg 3) (.reg 1) (.reg 2)) (withS2 (-7) 2) = [(18, .sreg 3 (-3))] ∧
    outs (.rem hdOn (.reg 3) (.reg 1) (.reg 2)) (withS2 (-7) 2) = [(18, .sreg 3 (-1))] ∧
    outs (.divu hdOn (.reg 3) (.reg 1) (.reg 2)) (withS2 (-7) 2) = [(18, .sreg 3 0x7FFFFFFFFFFFFFFC)] ∧
    outs (.remu hdOn (.reg 3) (.reg 1) (.reg 2)) (withS2 (-7) 2) = [(18, .sreg 3 1)] := by decide

/-- R84's table: b = 0, and −2^63 / −1. -/
theorem test_division_corners :
    outs (.div hdOn (.reg 3) (.reg 1) (.reg 2)) (withS2 9 0) = [(18, .sreg 3 (-1))] ∧
    outs (.rem hdOn (.reg 3) (.reg 1) (.reg 2)) (withS2 9 0) = [(18, .sreg 3 9)] ∧
    outs (.div hdOn (.reg 3) (.reg 1) (.reg 2)) (withS2 0x8000000000000000 (-1)) = [(18, .sreg 3 0x8000000000000000)] ∧
    outs (.rem hdOn (.reg 3) (.reg 1) (.reg 2)) (withS2 0x8000000000000000 (-1)) = [(18, .sreg 3 0)] := by decide

/-- R83: wrapping, the high halves of −1 × −1, shifts by the low six bits. -/
theorem test_arithmetic :
    outs (.add hdOn (.reg 3) (.reg 1) (.reg 2)) (withS2 (-1) 1) = [(1, .sreg 3 0)] ∧
    outs (.mulh hdOn (.reg 3) (.reg 1) (.reg 2)) (withS2 (-1) (-1)) = [(3, .sreg 3 0)] ∧
    outs (.mulhu hdOn (.reg 3) (.reg 1) (.reg 2)) (withS2 (-1) (-1)) = [(3, .sreg 3 0xFFFFFFFFFFFFFFFE)] ∧
    outs (.sra hdOn (.reg 3) (.reg 1) (.reg 2)) (withS2 0x8000000000000000 65) = [(1, .sreg 3 0xC000000000000000)] ∧
    outs (.rotl hdOn (.reg 3) (.reg 1) (.reg 2)) (withS2 0x8000000000000001 1) = [(1, .sreg 3 3)] := by decide

/-- R83: the bit operations, at 0 and on distinct bytes. -/
theorem test_bits :
    outs (.clz hdOn (.reg 3) (.reg 1)) (withS2 0 0) = [(1, .sreg 3 64)] ∧
    outs (.ctz hdOn (.reg 3) (.reg 1)) (withS2 0x8000000000000000 0) = [(1, .sreg 3 63)] ∧
    outs (.popc hdOn (.reg 3) (.reg 1)) (withS2 (-1) 0) = [(1, .sreg 3 64)] ∧
    outs (.bswap hdOn (.reg 3) (.reg 1)) (withS2 0x0102030405060708 0) = [(1, .sreg 3 0x0807060504030201)] := by decide

/-- R85, R87: ANDI with −64, and the value of the example of R87 built step by step. -/
theorem test_immediates :
    outs (.andi hdOn (.reg 2) (.reg 2) (-64)) (withS2 0 0x1FF) = [(1, .sreg 2 0x1C0)] ∧
    outs (.lis hdOn 4 0xDEF0) (withS 4 0) = [(1, .sreg 4 0xFFFFFFFFFFFFDEF0)] ∧
    outs (.ins1 hdOn 4 0x9ABC) (withS 4 0xFFFFFFFFFFFFDEF0) = [(1, .sreg 4 0xFFFFFFFF9ABCDEF0)] ∧
    outs (.ins2 hdOn 4 0x5678) (withS 4 0xFFFFFFFF9ABCDEF0) = [(1, .sreg 4 0xFFFF56789ABCDEF0)] ∧
    outs (.ins3 hdOn 4 0x1234) (withS 4 0xFFFF56789ABCDEF0) = [(1, .sreg 4 0x123456789ABCDEF0)] := by decide

/-- R88 to R90: signed against unsigned, a select whose guard is off, a move from a predicate. -/
theorem test_compares :
    outs (.cmplt hdOn 3 (.reg 1) (.reg 2)) (withS2 (-1) 1) = [(1, .pred 3 (-1))] ∧
    outs (.cmpltu hdOn 3 (.reg 1) (.reg 2)) (withS2 (-1) 1) = [(1, .pred 3 0)] ∧
    outs (.sel hdOff (.reg 3) (.reg 1) (.reg 2)) (withS2 5 6) = [(1, .sreg 3 6)] ∧
    outs (.movp hdOn (.reg 3) 0) (withS2 5 6) = [(1, .sreg 3 (-1))] ∧
    outs (.cmplt hdOff 3 (.reg 1) (.reg 2)) (withS2 (-1) 1) = [] := by decide

/-- R92: CSRR of LTIME gives the issue tick; a write of VFMTA reaches the CSR at issue + 1 and the slot at issue + 2. -/
theorem test_csr :
    outs (.csrr hdOn 7 .ltime) (withTile fun t => { t with tick := 50 }) = [(51, .sreg 7 50)] ∧
    outs (.csrw hdOn 1 .vfmta) (withS 1 3) = [(1, .csr .vfmta 3), (2, .gov .vfmta false 3)] := by decide

/-- R138: a signed and an unsigned byte, and the store of two bytes. -/
theorem test_local :
    (let s := withTile fun t => { t with spad := { t.spad with mem := [⟨0x100, 0x80⟩] }, regs := { t.regs with s := t.regs.s.setIfInBounds 1 0x100 } }
     outs (.sld hdOn (.reg 2) (.reg 1) .b1 true 0) s = [(3, .sreg 2 (-128))] ∧
       outs (.sld hdOn (.reg 2) (.reg 1) .b1 false 0) s = [(3, .sreg 2 128)] ∧
       outs (.sst hdOn 1 (.reg 1) .b2 1) s = [(1, .store 0 [(0x102, [0, 1])])]) := by decide +kernel

/-- R95: a taken branch of −8 words from 0x120; R99, R100: the back edge of a loop. -/
theorem test_control :
    (let s := prog 80 fun t => { t with pc := 0x120, iss := { t.iss with addr := 0x120, next := 0x124 } }
     ∃ u, exec (.br hdOn (-8)) s = .next u ∧ u.tile.pc = 0x100) ∧
    ({ State.reset.tile with iss := { State.reset.tile.iss with addr := 8, next := 12 },
                             loops := ⟨some ⟨0, 4, 8, 3, 0⟩ :: List.replicate 5 none, [0]⟩ } : Tile).advance.pc = 4 := by
  refine ⟨⟨_, rfl, by decide +kernel⟩, by decide⟩

/-- R75, R99: a body that ends outside the program is ILLEGAL, reason 10, whatever the guard, and a body length of 0, reason 8, before a count
from a lost latch. -/
theorem test_loop_checks :
    (∃ u, exec (.loop ⟨true, 5⟩ 0 (.reg 1) 9) (prog 3 id) = .next u ∧ u.tile.iss.trap.map (·.info) = some 0xA0) ∧
    (∃ u, exec (.loopr hdOn 0 (.latch 0) (.reg 1)) (prog 3 id) = .next u ∧ u.tile.iss.trap.map (·.info) = some 0x80) := by
  refine ⟨⟨_, rfl, by decide +kernel⟩, ⟨_, rfl, by decide +kernel⟩⟩

/-- The first result of a vector syllable of slot VA: its low bits. -/
def vbits (n : Nat) (i : Instr) (x : VReg) (fmt : Nat) : Option (Nat × Nat) :=
  let s := withTile fun t => { t with
    regs := { t.regs with va := t.regs.va.setIfInBounds 3 x, p := t.regs.p.setIfInBounds 4 0xF },
    gov := { t.gov with vfmta := word fmt }, iss := { t.iss with slot := .va } }
  match (outs i s).head? with
  | some (d, .vreg .va _ v) => some (d, fld v.toNat 0 n)
  | _ => none

/-- The table of R38: FP32 0x3F808000 and 0xBF808000 to BF16 under the five modes. -/
theorem test_rounding :
    (([.rne, .rtz, .rup, .rdn, .rna] : List Rnd).map fun r =>
      vbits 32 (.vcvt hdOn (.reg 5) (.reg 3) .bf16 (.mode r) false) 0xBF808000_3F808000 1) =
    [some (3, 0xBF803F80), some (3, 0xBF803F80), some (3, 0xBF803F81), some (3, 0xBF813F80), some (3, 0xBF813F81)] := by decide +kernel

/-- R45: 500.0 to E4M3, to infinity or saturated; R49: 3.2 to G8; R55: 1.0 to PS32. -/
theorem test_conversions :
    vbits 8 (.vcvt hdOn (.reg 5) (.reg 3) .e4m3 (.mode .rne) false) 0x43FA0000 1 = some (3, 0x7F) ∧
    vbits 8 (.vcvt hdOn (.reg 5) (.reg 3) .e4m3 (.mode .rne) true) 0x43FA0000 1 = some (3, 0x7E) ∧
    vbits 8 (.vcvt hdOn (.reg 5) (.reg 3) .e4m3 (.mode .rtz) false) 0x43FA0000 1 = some (3, 0x7E) ∧
    vbits 8 (.vcvt hdOn (.reg 5) (.reg 3) .g8 .slot false) 0x404CCCCD 1 = some (3, 0x5A) ∧
    vbits 32 (.vcvt hdOn (.reg 5) (.reg 3) .ps32 .slot false) 0x3F800000 1 = some (3, 0x04080000) := by decide +kernel

/-- R46 to R48: the block of 10.0, −3.0, 0.3, 1.0 and zeros as MXFP4: its first two element bytes and its scale byte. -/
theorem test_microscaled :
    (let e := encodeMx .mxfp4 .rne ((([0x41200000, 0xC0400000, 0x3E99999A, 0x3F800000] : List Nat) ++ List.replicate 60 0).map fun x =>
       ((withFmt 1).tile.vctx hdOn).val x)
     e.1 % 2 ^ 128 = 0x10B6 ∧ fld e.1 256 8 = 0x80 ∧ e.2 = flagNX) := by decide +kernel

/-- R54, R55: exact products of scaled probabilities. -/
theorem test_probabilities :
    (mulLane ((withFmt 13).tile.vctx hdOn) 0x041C0000 0x0A480000) = (0x0A5C0000, 0) ∧
    (mulLane ((withFmt 13).tile.vctx hdOn) 0xFE080000 0x04080000) = (0xFE080000, 0) ∧
    (mulLane ((withFmt 13).tile.vctx hdOn) 0xFE080000 0x0A480000).1 = 0xFFF00000 := by decide +kernel

/-- R126: 1.0 and three times 2^−24 in the lanes of p4, summed as a tree; R130: 1.5 in every lane. -/
theorem test_reduction :
    vbits 64 (.vrsum hdOn (.reg 2) (.reg 3) 4) 0x33800000_33800000_33800000_3F800000 1 = some (6, 0x3F800001) ∧
    vbits 64 (.vspli hdOn 1 0x3FC0) 0 1 = some (2, 0x3FC000003FC00000) := by decide +kernel

/-- The table of R159: AINCW and AFAAB at their edges. -/
theorem test_atomics :
    (([(7, 0), (0, 0), (0xFFFFFFFFFFFFFFFE, 0xFFFFFFFFFFFFFFFF), (0xFFFFFFFFFFFFFFFF, 0xFFFFFFFFFFFFFFFF), (9, 4)] :
        List (Word × Word)).map fun x => (atomResult .incw x.1 x.2 0).1) = [0, 0, 0xFFFFFFFFFFFFFFFF, 0, 0] ∧
    (([(0, 0, 0), (0, 1, 0), (9, 0, 4), (10, 6, 16), (0xFFFFFFFFFFFFFFF0, 0x20, 0xFFFFFFFFFFFFFFFF)] :
        List (Word × Word × Word)).map fun x => atomResult .faab x.1 x.2.1 x.2.2) =
      [(0, false), (0, true), (9, true), (16, false), (0xFFFFFFFFFFFFFFF0, true)] := by decide

/-- R225, R236: the stations of tiles 16, 17, 160 and 144, and the pass tick of tile 16's RADD at tick 27 on slot 5. -/
theorem test_rill : [16, 17, 160, 144].map stationOf = [32, 31, 163, 160] ∧ passTick 32 5 27 1296 = 1323 := by decide

/-- R225, R227, R395: the ring of a grid of 2, the stations of its tiles, the ticks at which slot 0 passes them, and tile 1's window. -/
theorem test_ring_of_two :
    ringLength 2 = 162 ∧ [0, 1].map stationOf = [1, 2] ∧ [100, 163].map (fun t => passTick 1 0 t 162) = [163, 325] ∧
      [100, 164].map (fun t => passTick 2 0 t 162) = [164, 326] ∧ farTarget 2 0x00FF_0000_0020_1000 = .window 1 0x1000 := by decide

/-- R331: the walk of the example, in stack 5 on die 2. -/
theorem test_walk :
    (let m := Mem.write (Mem.write (Mem.write (Mem.write [] 0x200000 (bytesOfNat 8 0x400001)) 0x400800 (bytesOfNat 8 0x401001))
       0x401048 (bytesOfNat 8 0x402001)) 0x402018 (bytesOfNat 8 0x500003001D)
     let c := { ctx0 with root := 0x200000 }
     let s := { State.reset with contexts := [c], hbm := m }
     let e : TlbEntry := ⟨0x4001230000, 16, 0x5000030000, true, true, false⟩
     s.walk c 0x4001234560 = .page e ∧ s.through c e 0x4001234560 .write = .home 0x5000034560 ∧
       s.through c e 0x4001234560 .atomic = .fault .perm) := by decide +kernel

/-- R305, R311: a write of a read-only CSR enters the handler with ILLEGAL, or faults the context without one. -/
theorem test_traps :
    (∃ u, exec (.csrw hdOn 1 .tileid) (prog 3 fun t => { t with csrs := { t.csrs with tvec := 8 } }) = .next u ∧ u.tile.pc = 8 ∧
      bits u.tile.csrs.trapcause 0 8 = Cause.illegal.code ∧ bit u.tile.csrs.trapcause 13 = true) ∧
    (∃ u, exec (.csrw hdOn 1 .tileid) (prog 3 id) = .next u ∧ u.tile.phase = .faulted) :=
  ⟨⟨_, rfl, by decide +kernel⟩, _, rfl, by decide +kernel⟩

/-- FIPS 202: SHAKE256 of no bytes. -/
theorem test_shake : shake256 [] 32 = bytesOfNat 32 0x2f76d56e64270cb5821bb862ea52cd3f24eb3e74eb3f3b23138da80b2bddb946 := by
  decide +kernel

/-- The measurement of the image of no bytes in the model's slot 0 at reset (R391). -/
theorem test_measure : emptyMeasure = shake256 [] 64 := by decide +kernel

/-- A timetable image of the form of R321: a grid of one tile, one level, a program of one EXIT, a start tick of 10. Its digest is
SHAKE256 as a library computed it outside Lean. -/
def imageBytes : List Byte :=
  bytesOfNat 20 0x100000001000000010000000145595831 ++ List.replicate 0x69C 0 ++ bytesOfNat 32 0x4000000000000076000000000000000200000000000000740 ++ List.replicate 0x30 0 ++
    bytesOfNat 64 0xF0F045CCA1FFF56607DA543EE8AB42E5F30516243AC006D6952EB49A52FC5966F827312E6F1935EA4FF94925687614821DF095E7B3BB86B32CA26B7F97D3E34 ++
    bytesOfNat 36 0xA60000050000000000000000000000000000000A00000000000000000000000400000000

theorem test_image_length : imageBytes.length = 0x764 := by decide +kernel

/-- The bytes over which the digest is taken: the image with its digest as zeros, padded. -/
def imagePadded : List Byte := keccakPad 0x1F (imageBytes.take 0x700 ++ List.replicate 64 0 ++ imageBytes.drop 0x740)

/-! The digest in parts: the state after 3, 6, 9 and 12 of the 14 blocks. -/

def absorbed3 : List Word :=
  [0xed67c92239caf2b5, 0x11e7a68f7c768b42, 0xc584c96257e38d15, 0xe69ff9e29262e41f, 0xbdc45d9e954799a1,
   0x22222a9264d274f1, 0xe9865d98114149f2, 0xb30c51942c5e22e8, 0x29c1c36db5e19605, 0xf7aa8be5200a9833,
   0xf5e8e066e29a62eb, 0xae6bf7d0c6036e58, 0x2d9c6eef3676d25b, 0xaf77295cae7fc2fc, 0x92ac0b88423474b8,
   0xe39c2e3b59005046, 0x1ee0ac5e44817ae5, 0xba7c149c5ad473d6, 0xf559bb3f991cce6a, 0x873a13aa7e102f04,
   0xa8e0a5f6451e42, 0x167ae6ec40f1cf0b, 0xfb6b2d2b6933d32d, 0x4b926eeba65f0f84, 0x21f6aa1fcbb28715]

def absorbed6 : List Word :=
  [0x3233934600c80754, 0xaab1dcf232f938db, 0x5653b6e1f03666e3, 0x2af01be752a153ce, 0x97a432e9a0dee79d,
   0xe9d9ab382c7743af, 0x8002b441023459ec, 0x2aa8a9b46248d55c, 0x47ec4cfef741414f, 0x809ba2282c6c6d0,
   0x39c6770baa3d53f, 0x48f1bfa66635371c, 0x7b9af260574e7fcc, 0x4e468d5a8372fd7f, 0xcf79ae7113f023c6,
   0xa497b33f859e8870, 0xa9f1213bbf002ac8, 0x7e127638ef280845, 0xa95b7e825190a7a, 0x22271c0c91ff2b0d,
   0x6f781a5ad59d603d, 0x2968e35e5f3f84a3, 0xd22cb6fccd6862ae, 0xc780349eceb8b610, 0x268cf925a9332af6]

def absorbed9 : List Word :=
  [0xb5d32adff722bcdf, 0x68f89c1216b75f87, 0x20705ebb4ecabcd5, 0xb0ba2b726220f0f9, 0xfce44ddcbea05fd2,
   0x6ccce9def764a607, 0xc1e36469abd77773, 0x9d72b75bc3ab30c3, 0xc44523c7a7c46e35, 0x244ed2178cc3b713,
   0x3294eeb8a2be3079, 0x119fe839e6cbf5af, 0xf923bff3018b1a90, 0x28011ae5e5e1f250, 0xdd768506f3ef0b7d,
   0x79881b66c9b888bf, 0x55eb4e99d9b68f38, 0x6b651abf9958d457, 0x21f6128efb338943, 0xb4585b95438ef73d,
   0xfa38e225600db881, 0x73589607ec59b1fd, 0x1971aa5b34f78f64, 0xde4172c37373ba76, 0x434f7bbe545de364]

def absorbed12 : List Word :=
  [0x7a242e9dccd9da30, 0x21fdee8a8964e0e3, 0x54f3b760bed84d20, 0xdb7b0ad6e389dd4b, 0x4f11abb9f1bdf478,
   0xe64905bb2f0a8751, 0x3478a6414474bc, 0xdd80641074afd782, 0x1b20277f6af60178, 0xda376069206dcb9b,
   0x10f251118440abc4, 0x2082c890237e7282, 0xd2376213173762a0, 0xa39eeff5c92f1c87, 0x92a8dd7ac820d35c,
   0x71c167e3115a4eb, 0xf8cdbac8f414154e, 0xb0cf0be3f6058e8a, 0x6d1a97f6292905fa, 0x951ce0874be34243,
   0x4e47dbcf52cef1fa, 0xcb2be8a18484c056, 0xbe0eb656ead1668d, 0x1b632f3d71be4718, 0x90924298992e79cb]

theorem test_image_absorb3 : absorb 3 (List.replicate 25 0) (imagePadded.drop 0) = absorbed3 := by decide +kernel

theorem test_image_absorb6 : absorb 3 absorbed3 (imagePadded.drop 408) = absorbed6 := by decide +kernel

theorem test_image_absorb9 : absorb 3 absorbed6 (imagePadded.drop 816) = absorbed9 := by decide +kernel

theorem test_image_absorb12 : absorb 3 absorbed9 (imagePadded.drop 1224) = absorbed12 := by decide +kernel

theorem test_image_squeeze : (squeeze 1 (absorb 2 absorbed12 (imagePadded.drop 1632))).take 64 = (parseImage imageBytes).digest := by
  decide +kernel

theorem absorb_three (n : Nat) (a : List Word) (k : Nat) (bs : List Byte) :
    absorb (3 + n) a (bs.drop k) = absorb n (absorb 3 a (bs.drop k)) (bs.drop (k + 408)) := by
  rw [Nat.add_comm 3 n]
  simp only [absorb, List.drop_drop]

theorem test_image_padded : imagePadded.length / 136 = 14 := by decide +kernel

/-- The digest of the image holds (R321, R324). -/
theorem test_image_digest : (parseImage imageBytes).digestOk = true := by
  have h : absorb 14 (List.replicate 25 0) (imagePadded.drop 0) = absorb 2 absorbed12 (imagePadded.drop 1632) := by
    rw [show 14 = 3 + 11 from rfl, absorb_three, test_image_absorb3, show 11 = 3 + 8 from rfl, absorb_three, test_image_absorb6,
      show 8 = 3 + 5 from rfl, absorb_three, test_image_absorb9, show 5 = 3 + 2 from rfl, absorb_three, test_image_absorb12]
  have e : shake256 ((parseImage imageBytes).bytes.take 0x700 ++ List.replicate 64 0 ++ (parseImage imageBytes).bytes.drop 0x740) 64 =
      (squeeze 1 (absorb (imagePadded.length / 136) (List.replicate 25 0) (imagePadded.drop 0))).take 64 := rfl
  rw [Image.digestOk, e, test_image_padded, h, test_image_squeeze]
  exact beq_self_eq_true _

/-- The arm engine takes the image (R324). -/
theorem test_image_legal : (parseImage imageBytes).refusal ctx0 1280 = none ∧ (parseImage imageBytes).objectZeros = [] ∧
    (parseImage imageBytes).farPreloads = [] ∧
    imageBytes ≠ [] := by
  rw [Image.refusal, test_image_digest]
  decide +kernel


/-- A legal configuration of the matrix engine (R169, R172): one level of one iteration over 1 × 4 tiles of rings 0 and 1. -/
def mxCfg0 : MxCfg :=
  let ring : Word128 := (1 <<< 32) ||| (256 <<< 48) ||| (16 <<< 72) ||| (3 <<< 96)
  { MxCfg.reset with ophdr := 0x44, levels := 1 :: List.replicate 5 0, drain := 1 <<< 88, rings := [ring, ring ||| 256, 0, 0] }

/-- A tile with that configuration and an operation of each kind. -/
def mxTile : Tile := { State.reset.tile with mx := { Matrix.reset with cfg := mxCfg0 } }
def mxGoOp : MxOp := mxTile.mxOp (.go none)

theorem witness_MatrixConfiguration :
    let s := withTile fun t => { t with regs := { t.regs with m := t.regs.m.setIfInBounds 15 0x10000 } }
    s.tile.guarded hdOn = true ∧ s.tile.readM (.reg 15) = some 0x10000 ∧ s.tile.readM (.reg 0) = some 0 ∧ 65535 < 65536 ∧ 3 < 4 ∧
      (∀ k, k < 4 → MField.ophdr ≠ .rctl k) ∧
      bit (BitVec.ofNat 128 ((0x10000 : Word).toNat + (0 : Word).toNat * 2 ^ 64) : Word128) 16 = true ∧
      bit (BitVec.ofNat 128 ((0 : Word).toNat + (0 : Word).toNat * 2 ^ 64) : Word128) 16 = false ∧
      s.tile.mx.readsRing 3 = false ∧ ({ mxTile.mx with active := some mxGoOp } : Matrix).readsRing 1 = true := by decide

theorem witness_MatrixOperations :
    (mxTile.guarded hdOn = true ∧ mxTile.readM (.reg 0) = some 0 ∧ mxTile.mx.active = none ∧ goCombo mxGoOp = none ∧
      goFails mxGoOp = [] ∧
      (let o := mxTile.mxOp (.go (if 1 < mxTile.gang.size then some (mxTile.gang.first, mxTile.gang.size) else none))
       goCombo o = none ∧ goFails o = [])) ∧
    (({ mxTile.mx with active := some mxGoOp } : Matrix).active = some mxGoOp ∧ mxTile.mx.pending = none ∧
      ({ mxTile.mx with pending := some mxGoOp } : Matrix).pending ≠ none) ∧
    (let o := mxTile.mxOp (.drn 3)
     ¬(accFmt o.fa = .fp64 ∧ 3 % 2 = 1) ∧ drainOk (accFmt o.fa) (bits mxTile.mx.cfg.drain 88 5) = true ∧
       mbzDrain mxTile.mx.cfg.drain = false ∧ entryFails o 3 = [] ∧ drainBad mxTile.mx.cfg.drain = false) ∧
    ¬(accFmt (mxTile.mxOp (.clr 15)).fa = .fp64 ∧ splitPair 15 = true) ∧
    (let o := mxTile.mxOp (.ldw 3 0 64 512)
     ¬(accFmt o.fa = .fp64 ∧ 3 % 2 = 1) ∧ 64 % 64 = 0 ∧ 512 % 64 = 0 ∧ 128 * accSize (accFmt o.fa) ≤ 512 ∧
       64 + 127 * 512 + 128 * accSize (accFmt o.fa) ≤ 0x200000 ∧ entryFails o 3 = [] ∧
       bits ((64 + 512 * 2 ^ 32) : Word) 0 21 = 64 ∧ bits ((64 + 512 * 2 ^ 32) : Word) 32 16 = 512) := by decide

theorem witness_CascadeSyllables :
    (let s := withTile fun t => { t with spad := { t.spad with mem := Mem.write [] 0x1FFEE0 [16] },
                                         regs := { t.regs with m := (t.regs.m.setIfInBounds 1 0x1FFEE0).setIfInBounds 2 (511 + 2 ^ 16) } }
     s.tile.guarded hdOn = true ∧ s.tile.readM (.reg 1) = some 0x1FFEE0 ∧ bits (0x1FFEE0 : Word) 0 21 % 32 = 0 ∧
       s.tile.spad.poisoned 0x1FFEE0 32 = false ∧ 0 < recNleaf (natOfBytes (s.tile.spad.readBytes 0x1FFEE0 32)) ∧
       recNleaf (natOfBytes (s.tile.spad.readBytes 0x1FFEE0 32)) ≤ 16 ∧
       fld (natOfBytes (s.tile.spad.readBytes 0x1FFEE0 32)) 15 1 = 0 ∧ s.tile.casc.later < 8 ∧ 0x1FFEE0 + 288 ≤ 0x200000 ∧
       s.tile.readM (.reg 2) = some (511 + 2 ^ 16) ∧ 0 < bits (511 + 2 ^ 16 : Word) 16 10 ∧
       bits (511 + 2 ^ 16 : Word) 0 9 + bits (511 + 2 ^ 16 : Word) 16 10 ≤ 512 ∧
       (s.tile.casc.active s.tile.tick && s.tile.casc.pending s.tile.tick) = false ∧
       0x1FFF80 % 128 = 0 ∧ 0x1FFF80 + 128 * bits (511 + 2 ^ 16 : Word) 16 10 ≤ 0x200000) := by decide

theorem onlyResults_witness (ps : List Pending) : OnlyResults { State.reset.tile with inflight := ps } :=
  ⟨rfl, rfl, rfl, rfl, by intro q hq; exact (List.mem_replicate.mp hq).2 ▸ rfl⟩

theorem witness_WritesOfATick :
    (let p : Pending := ⟨4, .s, 3, 0, .sreg 31 7⟩
     OnlyResults { State.reset.tile with inflight := [p] } ∧ p.slot = .s ∧ p.eff = .sreg 31 7 ∧ 31 < 32 ∧ 3 < p.due ∧ p.due ≤ 4) ∧
    (let p : Pending := ⟨4, .s, 1, 0, .sreg 1 7⟩
     let q : Pending := ⟨4, .ca, 2, 1, .sreg 1 8⟩
     OnlyResults { State.reset.tile with inflight := [p, q] } ∧ p.due ≤ 4 ∧ q.due ≤ 4 ∧ 0 < 1 ∧ 1 < 32 ∧ p.seq < q.seq ∧
       p.slot.rank ≤ q.slot.rank ∧ Slot.rank .s < Slot.rank .ca) ∧
    (let p : Pending := ⟨4, .s, 3, 0, .csr .fpsr 0⟩
     let q : Pending := ⟨4, .va, 0, 1, .flags .va 1⟩
     OnlyResults { State.reset.tile with inflight := [p, q] } ∧ p.due ≤ 4 ∧ q.due ≤ 4 ∧ p.eff = .csr .fpsr 0 ∧
       q.eff = .flags .va 1) := by
  refine ⟨⟨onlyResults_witness _, ?_⟩, ⟨onlyResults_witness _, ?_⟩, onlyResults_witness _, ?_⟩ <;> decide

theorem witness_StoreWritten :
    (let sp : Spad := { Spad.reset with marks := [1] }
     Mem.wf sp.mem = true ∧ 7 < (List.replicate 8 (0 : Byte)).length ∧ sp.marked 0xFF = false ∧ sp.marked 0x100 = true) ∧
    (7 < 8 ∨ 8 + 8 ≤ 7) := by decide

theorem witness_TrapsEntered :
    (2 ^ 17 - 1 < 2 ^ 17 ∧ 15 < 16) ∧
    (let s := prog 3 fun t => { t with csrs := { t.csrs with tvec := 8 } }
     s.tile.gang.size = 1 ∧ s.tile.gang.first = s.tile.key.id ∧ (∀ u ∈ ({ s with others := [Tile.blank ⟨0, 1⟩] } : State).others, u.key ≠ s.tile.key) ∧
       Cause.illegal ≠ .eccue ∧
       bit s.tile.csrs.trapcause 13 = false ∧ bits s.tile.csrs.tvec 0 17 ≠ 0 ∧
       s.tile.isStart (bits s.tile.csrs.tvec 0 17) = true) ∧
    bit (0x2000 : Word) 13 = true ∧ bits State.reset.tile.csrs.tvec 0 17 = 0 := by decide

/-- Waits and format writes in flight at a trap entry, and a region that is open. -/
theorem witness_TrapsEntered_flight :
    (let w : Wait := ⟨0, 4, 5, .tick, 0, 0, none⟩
     ([w] : List Wait) ≠ [] ∧ ∀ x ∈ [w], x.fault = none) ∧
    (let p : Pending := ⟨6, .s, 3, 0, .gov .fpcr false 1⟩
     let q : Pending := ⟨8, .s, 4, 1, .gov .fpcr false 2⟩
     let r : Pending := ⟨7, .m, 4, 2, .mfr 3⟩
     let x : Pending := ⟨7, .s, 4, 3, .sreg 1 3⟩
     [x].filter Pending.isFormat = [] ∧ [p, x].filter Pending.isFormat = [p] ∧ p.eff = .gov .fpcr false 1 ∧
       [r].filter Pending.isFormat = [r] ∧ r.eff = .mfr 3 ∧ [p, x, q].filter Pending.isFormat = [p, q] ∧ p.due < q.due ∧
       q.eff = .gov .fpcr false 2) ∧
    (let t : Tile := { State.reset.tile with regions := [⟨8, 3, 0⟩] }
     t.regions = ⟨8, 3, 0⟩ :: [] ∧ t.gang.size = 1 ∧ t.gang.first = t.key.id ∧ Cause.eccue = .eccue ∧ State.reset.tile.regions = [] ∧
       (lostTrap t).recorded = false) := by decide

theorem witness_Unwind :
    let t : Tile := { State.reset.tile with
      regions := List.replicate 4 ⟨8, 3, 0⟩, inflight := [⟨9, .s, 3, 0, .sreg 1 0⟩, ⟨9, .s, 2, 0, .sreg 1 0⟩] }
    t.regions = ⟨8, 3, 0⟩ :: List.replicate 3 ⟨8, 3, 0⟩ ∧ t.regions.length ≤ 4 ∧ 15 < 16 ∧ 0x1FFFC < 2 ^ 17 := by decide

def k0 : TileKey := ⟨0, 0⟩

/-- A context whose pages at 0x10000 may be read and written, with atomics, and whose page at 0x20000 may only be read. -/
def ctxT : Context :=
  let es : List (Nat × TlbEntry) := [(0, ⟨0x10000, 16, 0x20000, true, true, true⟩), (0, ⟨0x20000, 16, 0x30000, false, false, false⟩)]
  { ctx0 with tileTlb := es, dieTlb := es }

/-- What the hub's cache holds of it. -/
def hubT : List (Nat × TlbEntry) := [(0, ⟨0x10000, 16, 0x20000, true, true, true⟩)]

/-- The tile in focus at tick 5 under that context and a launch. -/
def onCtx (f : Tile → Tile) : State :=
  { withTile fun t => f { t with phase := .running, tick := 5 } with launches := [launch0], contexts := [ctxT] }

def far0 (a : Nat) (kd : FarKind) : FarOp := ⟨0, a, kd, 4, 0, 0, none, none, .open, [0], [], none, false⟩

theorem witness_LandingsAndWaits :
    (let f := { far0 0x10000 .load8 with landing := some 0 }
     let s := onCtx fun t => { t with far := [f], buffer := [(0x10000, [])] }
     s.tile? k0 = some s.tile ∧ s.tile.farOp 0 = some f ∧ OneUnit s s.tile f ∧ f.landing.isSome = true ∧ f.kind = .load8 ∧
       farTarget s.tile.grid f.addr = .virt 0x10000 ∧ s.tile.line 0x10000 = some [] ∧
       s.tickFresh.reach k0.pasid (.farPath k0.id) 0x10000 .read = (s.tickFresh, .home 0x20000) ∧
       s.tickFresh.reach k0.pasid (.farPath k0.id) 0x20000 .read = (s.tickFresh, .fault .perm) ∧ s.tile.bufferBad = [] ∧
       0x10000 / 8 ∈ ({ s.tile with bufferBad := [0x2000] } : Tile).bufferBad ∧ 0x10000 % 8 = 0 ∧
       ({ s.tile with far := [{ f with stage := .done }] } : Tile).farOp 0 = some { f with stage := .done }) ∧
    (let l : Landing := ⟨0, 1, 5, 0, 0, .far .xa 15, some (.word 7 none)⟩
     let s := onCtx fun t => { t with landings := [l] }
     s.tile.landings = [l] ∧ l.due ≤ s.tile.tick ∧ l.dest = .far .xa 15 ∧ l.got = some (.word 7 none) ∧
       ({ l with got := none } : Landing).got = none) ∧
    (let m : Message := ⟨3, 0, 15, 0, 0, 0, false⟩
     let s := { onCtx fun t => { t with skid := [] } with launches := [{ launch0 with links := [m] }] }
     ({ s.tile with skid := [m] } : Tile).skid = m :: [] ∧ s.tile.basinFull = false ∧ s.tile.skid = [] ∧
       (∃ l, s.launch? s.tile.launchKey = some l ∧ l.links = m :: []) ∧ m.dst = k0.id ∧ s.tile.cancelled m = false) ∧
    (let w : Wait := ⟨0, 4, 5, .tick, 0, 0, none⟩
     let s := onCtx fun t => { t with waits := [w], far := [far0 0x10000 (.store [])] }
     s.tile.waits = [w] ∧ w.due ≤ s.tile.tick ∧ w.kind = .tick) ∧
    (let w : Wait := ⟨0, 4, 5, .fence .sys (0, 1) 1, 0, 0, none⟩
     let s := onCtx fun t => { t with waits := [w], far := [far0 0x10000 (.store [])] }
     s.tile.waits = [w] ∧ w.due ≤ s.tile.tick ∧ w.kind = .fence .sys (0, 1) 1 ∧
       (s.setTile s.tile).openBefore s.tile (0, 1) .sys 1 true = true) := by
  refine ⟨⟨rfl, rfl, ⟨rfl, rfl, rfl, by decide, rfl⟩, rfl, rfl, rfl, rfl, rfl, rfl, rfl, by decide, by decide, rfl⟩, by decide, ⟨by decide, by decide, by decide, ⟨_, rfl, rfl⟩,
    by decide, by decide⟩, by decide, by decide⟩

/-- A load that finds its line in the far-read buffer and may not read its page; one that finds a struck word there. -/
theorem witness_LandingsAndWaits_buffer :
    (let f := { far0 0x20000 .load8 with landing := some 0 }
     let s := onCtx fun t => { t with far := [f], buffer := [(0x20000, [])] }
     s.tile.farOp 0 = some f ∧ OneUnit s s.tile f ∧ farTarget s.tile.grid f.addr = .virt 0x20000 ∧ s.tile.line 0x20000 = some [] ∧
       s.tickFresh.reach k0.pasid (.farPath k0.id) 0x20000 .read = (s.tickFresh, .fault .perm)) ∧
    (let f := { far0 0x10000 .load8 with landing := some 0 }
     let s := onCtx fun t => { t with far := [f], buffer := [(0x10000, [])], bufferBad := [0x2000] }
     s.tile.farOp 0 = some f ∧ OneUnit s s.tile f ∧ s.tile.line 0x10000 = some [] ∧ 0x10000 / 8 ∈ s.tile.bufferBad ∧
       s.tickFresh.reach k0.pasid (.farPath k0.id) 0x10000 .read = (s.tickFresh, .home 0x20000)) :=
  ⟨⟨rfl, ⟨rfl, rfl, rfl, by decide, rfl⟩, rfl, rfl, rfl⟩, rfl, ⟨rfl, rfl, rfl, by decide, rfl⟩, rfl, by decide, rfl⟩

theorem witness_LandingsAndWaits_acq :
    (let f := { far0 0x10008 .acq with wait := some 7 }
     let w : Wait := ⟨7, 4, 12, .acq 0 1 false, 0, 0, none⟩
     let s := onCtx fun t => { t with waits := [w], far := [f] }
     s.tile.waits = [w] ∧ w.fault = none ∧ s.tile.far = [f] ∧ f.wait = some w.num ∧ OneUnit s s.tile f ∧ f.kind = .acq ∧
       farTarget s.tile.grid f.addr = .virt 0x10008 ∧
       s.tickFresh.tickFresh.reach k0.pasid (.farPath k0.id) 0x10008 .read = (s.tickFresh.tickFresh, .home 0x20008) ∧
       s.tickFresh.tickFresh.hbmPoisoned 0x20008 8 = false) ∧
    (let w : Wait := ⟨7, 4, 12, .acq 0 1 true, 0, 0, none⟩
     let s := onCtx fun t => { t with waits := [w], freeze := some ⟨.wait, 0, false, 0⟩ }
     s.tile.waits = [w] ∧ w.fault = none ∧ w.kind = .acq 0 1 true ∧ s.tile.freeze.isSome = true) ∧
    (let w : Wait := ⟨7, 4, 12, .acqRill 1 1 none 65536, 0, 0, none⟩
     w ∈ (onCtx fun t => { t with waits := [w] }).tile.waits ∧ 65536 ≤ 65536) ∧
    (let f : Freeze := ⟨.landing, 0, true, 0⟩
     let s := { onCtx fun t => { t with freeze := some f } with cycle := 49000001 }
     s.overdue (s.domainOf k0) = some f) := by
  refine ⟨⟨rfl, rfl, rfl, rfl, ⟨rfl, rfl, rfl, by decide, rfl⟩, rfl, rfl, rfl, rfl⟩, by decide, ⟨by decide, by decide⟩, rfl⟩

theorem witness_FarPerformed :
    (let f := far0 0x10000 (.store (List.replicate 8 1))
     let s := onCtx fun t => { t with far := [f] }
     s.tile? k0 = some s.tile ∧ s.tile.farOp 0 = some f ∧ f.landing = none ∧ OneUnit s s.tile f ∧
       f.kind = .store (List.replicate 8 1) ∧ (List.replicate 8 (1 : Byte)).length = 8 ∧ farTarget s.tile.grid f.addr = .virt 0x10000 ∧
       s.tickFresh.reach k0.pasid (.farPath k0.id) 0x10000 .write = (s.tickFresh, .home 0x20000) ∧
       s.tickFresh.reach k0.pasid (.farPath k0.id) 0x20000 .write = (s.tickFresh, .fault .perm)) ∧
    (let f := far0 (0xFF000000000000 + 0x200000 + 0x1FFFF8) (.store (List.replicate 8 1))
     let s := { onCtx fun t => { t with far := [f], grid := 2 } with others := [Tile.blank ⟨0, 1⟩] }
     s.tile.farOp 0 = some f ∧ OneUnit s s.tile f ∧ farTarget s.tile.grid f.addr = .window 1 0x1FFFF8 ∧
       s.tile? ⟨k0.pasid, 1⟩ = some (Tile.blank ⟨0, 1⟩) ∧ 1 ≠ k0.id) ∧
    (let f := { far0 0x10000 (.rel 0 (0, 1)) with since := some 0 }
     let s := { onCtx fun t => { t with far := [f] } with cycle := 9800000 }
     s.tile.farOp 0 = some f ∧ OneUnit s s.tile f ∧ f.kind = .rel 0 (0, 1) ∧ s.coversOpen s.tile (s.bindingsOf s.tile) 0 (0, 1) f.num = false ∧
       s.tickFresh.reach k0.pasid (.farPath k0.id) 0x10000 .atomic = (s.tickFresh, .home 0x20000) ∧
       s.tickFresh.hbmPoisoned 0x20000 8 = false ∧ f.since = some 0 ∧ 0 + Config.tenMsCycles ≤ s.cycle) ∧
    (let s := onCtx fun t => { t with station := [⟨0, 0, 0, 5, 0, .add 1, none, 0⟩] }
     s.launch? ⟨0, 0⟩ = some launch0 ∧ s.passing launch0 ≠ [] ∧ s.relHold launch0 = none) := by
  refine ⟨⟨rfl, rfl, rfl, ⟨rfl, rfl, rfl, by decide, rfl⟩, rfl, rfl, rfl, rfl, rfl⟩, ⟨rfl, ⟨rfl, rfl, rfl, by decide, rfl⟩, rfl, rfl, by decide⟩,
    ⟨rfl, ⟨rfl, rfl, rfl, by decide, rfl⟩, rfl, rfl, rfl, rfl, rfl, by decide⟩, rfl, by decide⟩

/-- A FILL of two 8-byte elements at the start of the own scratchpad, and a COPY of one from page 0x20000 to it. -/
def fillWords : List Word := [0x191, 0xAB, 0x8000000000000000, 0x0000000100001001, 0, 0, 0, 0]
def loadWords : List Word := [0x190, 0x20000, 0x8000000000000000, 0, 0, 0, 0, 0]

/-- A tile with one command in its queue 31. -/
def onCopy (c : CopyCmd) : State :=
  onCtx fun t => { t with queues := List.replicate 31 CopyQueue.reset ++ [⟨1, 1, 0, 0, [c]⟩] }

theorem witness_CopyEngineEvents :
    (let c := { cmd0 fillWords with stage := .ended 0 }
     let s := onCopy c
     s.tile? k0 = some s.tile ∧ (s.tile.queue 31).cmds = [c] ∧ s.tile.phase = .running ∧ c.record = none ∧ 31 < 32 ∧
       s.tile.queues.length = 32 ∧ c.stage = .ended 0 ∧ c.due = none) ∧
    (let c := cmd0 fillWords
     let s := onCopy c
     let t := s.tile
     s.mayRun t (t.queue 31) c = true ∧ cmdOp c.words = 1 ∧ (cmdDst t.grid c.words c.prog).2 = .spad 0 ∧ c.left = [] ∧
       c.prog + 1 < cmdElems c.words ∧ cmdSize c.words = 8) ∧
    (let c := cmd0 loadWords
     let s := onCopy c
     s.mayRun s.tile (s.tile.queue 31) c = true ∧ cmdOp c.words = 0 ∧ c.prog < cmdElems c.words ∧ cmdSize c.words = 8 ∧ c.data = none ∧
       c.read = [] ∧ c.left = [] ∧ (cmdSrc s.tile.grid c.words c.prog).2 = .virt 0x20000 ∧
       s.tickFresh.tickFresh.reach s.tile.key.pasid (.copyEngine s.tile.key.id) 0x20000 .read = (s.tickFresh.tickFresh, .fault .perm)) ∧
    (let t := (onCopy { cmd0 fillWords with stage := .ended 0, due := some 5 }).tile
     t.copiesDue ≠ [] ∧ t.copyLate = false ∧ t.faultsCopy = []) ∧
    (let t := (onCopy { cmd0 fillWords with due := some 5 }).tile
     t.copyLate = true ∧ t.copiesDue ≠ []) := by
  refine ⟨⟨rfl, rfl, rfl, rfl, by decide, rfl, rfl, rfl⟩, ⟨rfl, rfl, rfl, rfl, by decide, rfl⟩, ⟨rfl, rfl, by decide, rfl, rfl, rfl, rfl, rfl, rfl⟩,
    ⟨by decide, rfl, rfl⟩, rfl, by decide⟩

/-- A tile at tick 5 with a matrix operation of a kind in the active place. -/
def onEngine (k : MxKind) (f : MxOp → MxOp) : State :=
  onCtx fun t =>
    let m : Tile := { t with mx := { mxTile.mx with rings := [⟨0, 1, 0⟩, ⟨0, 1, 0⟩, ⟨0, 0, 0⟩, ⟨0, 0, 0⟩] } }
    { m with mx := { m.mx with active := some (f { m.mxOp k with start := 5 }) } }

/-- The operation once it has begun at this tick, its rings as given. -/
def begunOp (rings : List Ring) (o : MxOp) : MxOp :=
  { o with begun := true, nextStart := 5, aheadRings := rings, ahead := nestStart o.cfg rings, done := nestStart o.cfg rings }

def step0 : MxStep := ⟨0, 0, 5, none, [], 0, 0, 0, [], false, false, false, none, [], [], false⟩

theorem witness_EngineEvents :
    (let s := onEngine (.go none) id
     ∃ o, s.tile? k0 = some s.tile ∧ s.tile.mx.active = some o ∧ o.over = false ∧ o.begun = false ∧ o.start = s.tile.tick) ∧
    (let rs : List Ring := [⟨0, 1, 0⟩, ⟨0, 1, 0⟩, ⟨0, 0, 0⟩, ⟨0, 0, 0⟩]
     let s := onEngine (.go none) (begunOp rs)
     ∃ o, s.tile.mx.active = some o ∧ o.over = false ∧ o.kind = .go none ∧ o.begun = true ∧ o.ahead.ended = false ∧
       o.nextStart = s.tile.tick ∧ (s.tile.mxStart o).isSome = true) ∧
    (let rs : List Ring := [⟨0, 0, 0⟩, ⟨0, 1, 0⟩, ⟨0, 0, 0⟩, ⟨0, 0, 0⟩]
     present (listGet rs 0 ⟨0, 0, 0⟩) (listGet rs 0 ⟨0, 0, 0⟩) = false) ∧
    (let s := onEngine (.go none) fun o => { begunOp [] o with steps := [step0] }
     let t : Tile := { s.tile with tick := 21 }
     ∃ o, t.mx.active = some o ∧ o.over = false ∧ o.steps = [step0] ∧ step0.stop + 16 = t.tick ∧ step0.compl = none) ∧
    (let x := { step0 with late := true }
     let s := onEngine (.go none) fun o => { begunOp [] o with steps := [x] }
     ∃ o, s.tile.mx.active = some o ∧ o.over = false ∧ o.steps = [x] ∧ x.late = true ∧ x.stop ≤ s.tile.tick ∧
       s.tile.phase = .running ∧ s.tile.freeze = none ∧
       x.hit = false ∧ x.failed = false ∧ ({ x with hit := true } : MxStep).hit = true) ∧
    (let z : Freeze := ⟨.landing, 0, false, 0⟩
     let t : Tile := { State.reset.tile with tick := 21, freeze := some z }
     t.freeze = some z ∧ z.cause = .landing ∧ step0.stop + 16 ≤ t.tick ∧
       ({ t with freeze := some ⟨.wait, 0, false, 0⟩ } : Tile).freeze = some ⟨.wait, 0, false, 0⟩ ∧
       (⟨.wait, 0, false, 0⟩ : Freeze).cause ≠ .landing) ∧
    (let x := { step0 with compl := some 5 }
     let s := onEngine (.go none) fun o => { begunOp [] o with steps := [x] }
     ∃ o, s.tile.mx.active = some o ∧ o.over = false ∧ o.steps = [x] ∧ x.compl = some s.tile.tick) := by
  refine ⟨⟨_, rfl, rfl, rfl, rfl, rfl⟩, ⟨_, rfl, rfl, rfl, rfl, rfl, rfl, by decide +kernel⟩, by decide,
    ⟨_, rfl, rfl, rfl, rfl, rfl⟩, ⟨_, rfl, rfl, rfl, rfl, by decide, rfl, rfl, rfl, rfl, rfl⟩, by decide, _, rfl, rfl, rfl, rfl⟩

/-- Operations that complete at this tick. -/
theorem witness_EngineEvents_complete :
    (let s := onEngine (.drn 0) fun o => { o with begun := true, compl := some 5 }
     ∃ o, s.tile.mx.active = some o ∧ o.over = false ∧ o.compl = some s.tile.tick ∧ o.kind = .drn 0) ∧
    (let s := onEngine (.ldw 3 0 64 512) fun o => { o with begun := true, compl := some 5 }
     ∃ o, s.tile.mx.active = some o ∧ o.over = false ∧ o.compl = some s.tile.tick ∧ o.kind = .ldw 3 0 64 512) ∧
    (let s := onEngine (.clr 9) fun o => { o with begun := true, compl := some 5 }
     ∃ o, s.tile.mx.active = some o ∧ o.over = false ∧ o.compl = some s.tile.tick ∧ o.kind = .clr 9 ∧
       s.tile.mx.poison = List.replicate 4 false ∧ s.tile.spad.poison = [] ∧ fld 9 3 1 = 1 ∧ fld 9 1 1 ≠ 1 ∧
       listGet [false, false, false, true] 3 false = true) :=
  ⟨⟨_, rfl, rfl, rfl, rfl⟩, ⟨_, rfl, rfl, rfl, rfl⟩, _, rfl, rfl, rfl, rfl, rfl, rfl, rfl, by decide, rfl⟩

/-- Cascade work at tick 5: a subtree in its read stage, one due, a row transfer that moves and one with a row to write. -/
def sub0 : Subtree := ⟨1, 0, 0, 1, false, .fp32, 0, .rne, false, 0, none, [], none, [], [], [], none⟩
def xfer0 : Xfer := ⟨.clear, 0, 1, 4, 1, 5, .fp32, .rne, false, none, none, false, false⟩

theorem witness_EngineEvents_cascade :
    (let s := onCtx fun t => { t with casc := { t.casc with subs := [sub0] } }
     s.tile.casc.reading.isSome = true) ∧
    (let x := { sub0 with ended := some 3 }
     let t := (onCtx fun t => { t with tick := 11, casc := { t.casc with subs := [x] } }).tile
     x ∈ t.casc.subs ∧ x.due = some t.tick) ∧
    (let s := onCtx fun t => { t with casc := { t.casc with xfers := [xfer0] } }
     xfer0 ∈ s.tile.casc.xfers ∧ xfer0.gone = false ∧ xfer0.struck = false ∧ xfer0.start ≤ s.tile.tick ∧ s.tile.tick < xfer0.start + xfer0.count ∧
       ({ xfer0 with row := some (0, []) } : Xfer).row.isSome = true) := by
  refine ⟨rfl, by decide, by decide⟩

/-- A manager with a connection, and its header. -/
def managed0 (s : State) : State := { s with board := { s.board with conns := 1 } }
def mh : MgmtHdr := ⟨0, 9, 0, 0, 0⟩

/-- A page table that maps the first gigabyte of an address space: its root at 0x100000, its leaf at 0x40000000, all access. -/
def tables : Mem := Mem.write (Mem.write [] 0x100000 (bytesOfNat 8 (0x200000 + 1))) 0x200000 (bytesOfNat 8 (0x40000000 + 0x3D))

def req0 : PageReq := ⟨4, .farPath 0, 5, .read, some 0, none⟩

theorem witness_TranslationEvents :
    (let c := { ctx0 with root := 0x100000 }
     let s := { onCtx fun t => { t with far := [far0 0x50000 .load8] } with contexts := [c], hbm := tables }
     s.ctx? 0 = some c ∧ s.agentWaits 0 0x50000 .read (.farPath 0) = true ∧ s.cachedFor c (.farPath 0) 0x50000 = none ∧
       c.requested (0x50000 / 65536) .read = false ∧
       (let e : TlbEntry := ⟨0, 30, 0x40000000, true, true, true⟩
        s.walk c 0x50000 = .page e ∧ s.through c e 0x50000 .read = .home 0x40050000)) ∧
    (let s := { onCtx fun t => { t with far := [far0 0x50000 .load8] } with contexts := [ctx0] }
     s.walk ctx0 0x50000 = .absent ∧ { s with hbmPoison := [0] }.walk ctx0 0x50000 = .bad .eccue) ∧
    (let c := { ctx0 with requests := [req0], invals := [(none, mh)] }
     let s := { managed0 State.reset with contexts := [c], cycle := 9800000 }
     c.requests = [req0] ∧ req0.written = some 0 ∧ req0.answer = none ∧ c.resident = true ∧ 0 + Config.tenMsCycles ≤ s.cycle ∧
       c.invals = (none, mh) :: [] ∧ s.board.power = .ready ∧ mh.conn < s.board.conns ∧ req0.written.isSome = true ∧
       ({ c with resident := false } : Context).resident = false) := by
  refine ⟨⟨rfl, by decide +kernel, by decide +kernel, by decide +kernel⟩, by decide +kernel, by decide⟩

/-- A configuration block within its limits (R337): PASID 5, partition 0, its event queue and save areas in reserved ranges. -/
def block0 : List Word :=
  [5, 0x200000, 0x400040, 60000002048, 6, 0, 0, 0] ++ (List.range 8).map fun d => word (d * 2 ^ 37 + 60000002048)

def away0 : Context := { ctx0 with resident := false }

/-- A saved context of one tile, whose launch has left; every block that is read back holds zeros, its SEQ among them. -/
def saved0 : SavedContext := ⟨0, 0, [Tile.blank ⟨0, 0⟩], []⟩
def awayS : Context := { away0 with saved := some saved0 }

/-- The tags of an area of zeros, and HBM with those of every tile's area of a partition of one die and of the collective tables' (R343,
R344, R356). -/
def zeroTags (id : Nat) : List Byte := (List.range 649).flatMap fun i => saveTag awayS 0 id i (List.replicate 4096 0)
def areaName (j : Nat) : Nat := if j = 160 then tableArea else j
def tagStep (m : Mem) (j : Nat) : Mem := Mem.write m (0x28F000 * j + 0x289000) (zeroTags (areaName j))
def savedMem (n : Nat) : Mem := (List.range n).foldl tagStep []
@[irreducible] def savedHbm (n : Nat) : Mem := savedMem n

/-- A manager's state with that context saved, partitions of one die, and some granules of HBM struck. -/
def onSaved (bad : List Nat) : State :=
  { managed0 State.reset with contexts := [awayS], hbm := savedHbm 161, hbmPoison := bad,
                              board := { (managed0 State.reset).board with layout := [(0, 0)] } }

theorem chunk_flatMap {α : Type} (f : α → List Byte) (w : Nat) (l : List α) (i : Nat) (x : α) (hf : ∀ y ∈ l, (f y).length = w)
    (hi : l[i]? = some x) : ((l.flatMap f).drop (w * i)).take w = f x := by
  induction l generalizing i with
  | nil => simp at hi
  | cons y t ih =>
    have hy := hf y (by simp)
    cases i with
    | zero =>
      obtain rfl : y = x := by simpa using hi
      rw [List.flatMap_cons, Nat.mul_zero, List.drop_zero, ← hy, List.take_left]
    | succ i =>
      rw [List.flatMap_cons, Nat.mul_succ, Nat.add_comm, ← List.drop_drop]
      conv => lhs; rw [show List.drop w (f y ++ t.flatMap f) = t.flatMap f by rw [← hy, List.drop_left]]
      exact ih i (fun z hz => hf z (by simp [hz])) (by simpa using hi)

theorem zeroTags_length (id : Nat) : (zeroTags id).length = 20768 := by
  have : ∀ (n : Nat) (f : Nat → List Byte), (∀ i, (f i).length = 32) → ((List.range n).flatMap f).length = 32 * n := by
    intro n f hf
    induction n with
    | zero => rfl
    | succ n ih => rw [List.range_succ, List.flatMap_append, List.length_append, ih]; simp [hf]; omega
  exact this 649 _ fun i => kmac256_length _ _ _

theorem zeroTags_at (id i : Nat) (h : i < 649) :
    ((zeroTags id).drop (32 * i)).take 32 = saveTag awayS 0 id i (List.replicate 4096 0) :=
  chunk_flatMap _ 32 _ i i (fun _ _ => kmac256_length _ _ _) (by simp [h])

theorem read_nil (a n : Nat) : Mem.read [] a n = List.replicate n 0 := by
  induction n generalizing a with
  | zero => rfl
  | succ n ih => rw [Mem.read, ih, List.replicate_succ]; rfl

theorem foldl_range_succ {α : Type} (f : α → Nat → α) (a : α) (n : Nat) :
    (List.range (n + 1)).foldl f a = f ((List.range n).foldl f a) n := by
  rw [List.range_succ, List.foldl_append]
  rfl

theorem savedMem_succ (n : Nat) : savedMem (n + 1) = tagStep (savedMem n) n := by
  exact foldl_range_succ tagStep [] n

theorem savedMem_wf (n : Nat) : Mem.wf (savedMem n) = true := by
  induction n with
  | zero => rfl
  | succ n ih => rw [savedMem_succ, tagStep]; exact Mem.wf_write _ _ ih

/-- Every block of the areas holds zeros. -/
theorem savedMem_block (n j i : Nat) (hi : i < 649) : Mem.read (savedMem n) (0x28F000 * j + 4096 * i) 4096 = List.replicate 4096 0 := by
  induction n with
  | zero => exact read_nil _ _
  | succ n ih =>
    have l := zeroTags_length (areaName n)
    rw [savedMem_succ, tagStep, Mem.read_write_off _ _ _ _ (savedMem_wf n) (by omega), ih]

/-- Every block of the areas written has its tag. -/
theorem savedMem_tag (n j i : Nat) (hj : j < n) (hi : i < 649) :
    Mem.read (savedMem n) (0x28F000 * j + 0x289000 + 32 * i) 32 = saveTag awayS 0 (areaName j) i (List.replicate 4096 0) := by
  induction n with
  | zero => omega
  | succ n ih =>
    have l := zeroTags_length (areaName n)
    rw [savedMem_succ, tagStep]
    by_cases h : j = n
    · subst h
      rw [Mem.read_write_at _ _ _ _ (savedMem_wf j) (by omega), zeroTags_at _ i hi]
    · rw [Mem.read_write_off _ _ _ _ (savedMem_wf n) (by omega), ih (by omega)]

theorem zeros_seq : natOfBytes (((List.replicate 4096 (0 : Byte)).drop 16).take 8) = 0 := by
  rw [List.drop_replicate, List.take_replicate, show min 8 (4096 - 16) = 8 by norm_num]
  rfl

/-- A block that holds its tag and the SEQ of the save, with no error in it, is good. -/
theorem blockFault_none {s : State} {c : Context} {id i a : Nat} {b : List Byte} (ha : localPa (c.saveArea id) = a)
    (hp : s.hbmPoison = []) (hb : Mem.read s.hbm (a + 4096 * i) 4096 = b)
    (ht : Mem.read s.hbm (a + 0x289000 + 32 * i) 32 = saveTag c c.seq id i b) (hs : natOfBytes ((b.drop 16).take 8) = c.seq) :
    s.blockFault c id i = none := by
  simp only [State.blockFault, ha, hb, ht, hs, State.hbmPoisoned, hp, List.any_nil, Bool.or_self, Bool.false_eq_true, if_false,
    bne_self_eq_false, Bool.and_false]

theorem savedHbm_eq (n : Nat) : savedHbm n = savedMem n := by rw [savedHbm]

theorem onSaved_hbm (bad : List Nat) : (onSaved bad).hbm = savedMem 161 := savedHbm_eq 161

theorem areaName_pa (j : Nat) (h : j < 161) : localPa (awayS.saveArea (areaName j)) = 0x28F000 * j := by
  unfold areaName Context.saveArea
  by_cases hj : j = 160
  · subst hj; rfl
  · have e : j ≠ tableArea := by unfold tableArea; omega
    rw [if_neg hj, if_neg e, show listGet awayS.save (j / 160) 0 = 0 by rw [show awayS.save = [] from rfl]; rfl, Nat.zero_add,
      Nat.mod_eq_of_lt (by omega)]
    unfold localPa fld
    omega

theorem saved_block (j : Nat) (h : j < 161) (i : Nat) (hi : i < 649) : (onSaved []).blockFault awayS (areaName j) i = none :=
  blockFault_none (s := onSaved []) (c := awayS) (areaName_pa j h) rfl (by rw [onSaved_hbm]; exact savedMem_block _ _ _ hi)
    (by rw [onSaved_hbm]; exact savedMem_tag _ _ _ h hi) zeros_seq

/-- The saved context reads back. -/
theorem saved_good : (onSaved []).badBlock awayS saved0 = none := by
  have key (j : Nat) (h : j < 161) (l : List Nat) (hl : ∀ i ∈ l, i < 649) : (l.findSome? fun i =>
      ((onSaved []).blockFault awayS (areaName j) i).map fun e => (areaName j, awayS.saveArea (areaName j) + 4096 * i, e)) = none :=
    List.findSome?_eq_none_iff.2 fun i hi => by rw [saved_block j h i (hl i hi)]; rfl
  unfold State.badBlock
  rw [List.findSome?_eq_none_iff]
  intro x hx
  rw [State.areasOf, show (onSaved []).partTiles awayS = 160 from rfl] at hx
  obtain hx | hx := List.mem_append.1 hx
  · obtain ⟨id, hid, rfl⟩ := List.mem_map.1 hx
    have hid := List.mem_range.1 hid
    have e : areaName id = id := if_neg (by omega)
    exact e ▸ key id (by omega) _ fun i hi => List.mem_range.1 (List.mem_filter.1 hi).1
  · obtain rfl := List.mem_singleton.1 hx
    exact key 160 (by omega) _ fun i hi => by have := List.mem_range.1 hi; unfold tableBlocks at this; omega

/-- HBM with those tables and, at the page of 0x50000, the state block of a queue of 16 packets of context 0. -/
def queueMem : Mem := Mem.write tables 0x40050000 (bytesOfNat 64 (0x400 + 0x104 * 2 ^ 256))

theorem witness_ContextOperations :
    (let s := managed0 State.reset
     s.managed mh ∧ s.blockOk block0 = true ∧ s.contexts.length < 64) ∧
    (let s := managed0 (onCtx id)
     s.managed mh ∧ s.ctx? 0 = some ctxT ∧ ctxT.tearing = none ∧ ctxT.resident = true ∧ ctxT.preempt = none) ∧
    (let s := { managed0 State.reset with contexts := [away0] }
     s.managed mh ∧ s.ctx? 0 = some away0 ∧ away0.resident = false ∧ away0.tearing = none ∧ s.hasPart 0 = true ∧
       (s.partition 0).2 = (s.partition away0.part).2 ∧ s.partBusy 0 = false ∧ away0.saved = none) ∧
    ((onSaved []).managed mh ∧ (onSaved []).ctx? 0 = some awayS ∧ awayS.resident = false ∧ awayS.tearing = none ∧
       (onSaved []).hasPart 0 = true ∧ (onSaved []).partBusy 0 = false ∧ awayS.saved = some saved0 ∧
       (onSaved []).badBlock awayS saved0 = none ∧ (∀ r ∈ awayS.requests, r.answer = none) ∧
       (saved0.tiles.map fun t => t.key).Nodup) ∧
    ((onSaved [0]).ctx? 0 = some awayS ∧ (onSaved [0]).badBlock awayS saved0 = some (0, 0, true)) ∧
    (let c := { ctx0 with root := 0x100000 }
     let e : TlbEntry := ⟨0, 30, 0x40000000, true, true, true⟩
     let s := { managed0 State.reset with contexts := [c], hbm := queueMem }
     c.resident = true ∧ (s.queues.filter fun q => q.pasid == 0).length < 4096 ∧ 0x50000 % 128 = 0 ∧ 0x50000 < 2 ^ 57 ∧
       s.walk c 0x50000 = .page e ∧ s.through c e 0x50000 .write = .home 0x40050000 ∧
       blockForm ((List.range 16).map fun i => Mem.readNat s.hbm (0x40050000 + 8 * i) 8) 0 = true) ∧
    (let q := { queue0 (packet0 0) with packets := [] }
     { State.reset with queues := [q] }.queue? 0 = some q ∧ q.packets = []) := by
  refine ⟨⟨⟨rfl, by decide⟩, by decide +kernel, by decide⟩, ⟨⟨rfl, by decide⟩, rfl, rfl, rfl, rfl⟩,
    ⟨⟨rfl, by decide⟩, rfl, by decide⟩,
    ⟨⟨rfl, by decide⟩, rfl, rfl, rfl, rfl, rfl, rfl, saved_good, by decide, by decide⟩, ⟨rfl, rfl⟩, by decide +kernel, rfl, rfl⟩

theorem witness_ContextOperations_complete :
    (let c := { ctx0 with tearing := some mh }
     { State.reset with contexts := [c] }.ctx? 0 = some c ∧ c.tearing = some mh ∧ { State.reset with contexts := [c] }.up = true) ∧
    (let c := { ctx0 with preempt := some (0, mh) }
     let s := { State.reset with contexts := [c], launches := [{ launch0 with stage := .waiting }] }
     s.ctx? 0 = some c ∧ c.preempt = some (0, mh) ∧ (∀ t ∈ s.tiles, t.key.pasid = 0 → s.saveReady t = true) ∧
       (∀ l ∈ s.launches, l.key.pasid = 0 → l.saveReady = true)) := by
  refine ⟨⟨rfl, rfl, rfl⟩, rfl, rfl, by decide, by decide⟩

/-- A state with one queue, one packet of given words in it, its context, and the state block of an ACTIVE queue at 0. -/
def onQueue0 (ws : List Nat) (f : Packet → Packet) (c : Context) : State :=
  { State.reset with contexts := [c], hubTlb := hubT, queues := [queue0 (f { packet0 0 with words := ws.map word })],
                     hbm := Mem.write [] 0 (bytesOfNat 64 (0x10000 + 0x10104 * 2 ^ 256 + 0x10000 * 2 ^ 384)) }

/-- What the packet statements ask of a state. -/
def Starts (s : State) (k : Packet) (c : Context) : Prop :=
  ∃ q, s.queue? 0 = some q ∧ q.packet? 0 = some k ∧ s.mayStart q k = true ∧ s.ctx? q.pasid = some c

def pk (ws : List Nat) : Packet := { packet0 0 with words := ws.map word }

theorem starts (ws : List Nat) (c : Context) (h : (onQueue0 ws id c).mayStart (queue0 (pk ws)) (pk ws) = true) (hc : c.pasid = 0) :
    Starts (onQueue0 ws id c) (pk ws) c :=
  ⟨_, rfl, rfl, h, by simp [State.ctx?, onQueue0, hc]; rfl⟩

/-- Whether a read of the front end got given bytes and left a given state. -/
def gotIs (r : State × Hub (List Byte)) (s : State) (bs : List Byte) : Bool :=
  match r with
  | (s1, .got b) => decide (s1 = s) && decide (b = bs)
  | _ => false

theorem gotIs_eq {r : State × Hub (List Byte)} {s : State} {bs : List Byte} (h : gotIs r s bs = true) : r = (s, .got bs) := by
  obtain ⟨s1, x⟩ := r
  cases x <;> simp_all [gotIs]

theorem witness_Packets :
    (∀ ty ∈ [0x01, 0x02, 0x03, 0x04, 0x05, 0x06, 0x07, 0x08, 0x09, 0x0A, 0x0B],
      (pk [ty]).type = ty ∧ (pk [ty]).started = false ∧ fld ((pk [ty]).word 1) 3 1 = 0 ∧
      (onQueue0 [ty] id ctxT).mayStart (queue0 (pk [ty])) (pk [ty]) = true) ∧
    (let s := onQueue0 [2, 0, 0, 0, 0x10000] id ctxT
     s.hubRead1 0 .frontEnd ((pk [2, 0, 0, 0, 0x10000]).word 4) 4 = (s, .got (List.replicate 4 0)) ∧
       natOfBytes (List.replicate 4 0) = 0 ∧ natOfBytes [1, 0, 0, 0] ≠ 0) ∧
    (let k := pk [3, 0, 7, 1, 0, 0, 0]
     let s := onQueue0 [3, 0, 7, 1, 0, 0, 0] id ctxT
     s.qstate (queue0 k) = 1 ∧
       (s.onQueue 0 fun r => r.setPacket { k with started := true }).readSignal (queue0 k) (k.word 1) =
         (s.onQueue 0 fun r => r.setPacket { k with started := true }, .got (List.replicate 8 0)) ∧
       waitHolds (fld (k.word 3) 0 2) (k.word 2) (natOfBytes (List.replicate 8 0)) = true) ∧
    (let k := pk [0x0A, 1, 0, 0, 0, 0]
     k.word 1 ≠ 0 ∧ k.word 2 = 0 ∧ k.word 3 = 0 ∧ k.word 4 = 0 ∧ k.word 5 = 0) ∧
    (let k := pk [4, 0, 2, 1]
     let s := onQueue0 [4, 0, 2, 1] id ctxT
     s.reach 0 .frontEnd (s.signalAddr (queue0 k) (k.word 1)) .atomic = (s, .home 0x20000) ∧ s.hbmPoisoned 0x20000 8 = false ∧
       k.word 2 = 2) := by
  refine ⟨by decide +kernel, ⟨gotIs_eq (by decide +kernel), by decide, by decide⟩,
    ⟨by decide, gotIs_eq (by decide +kernel), by decide⟩, by decide, ⟨by decide +kernel, by decide +kernel, by decide⟩⟩

/-- A packet with LOAD = 1 whose image is a header of zeros. -/
theorem witness_Packets_load :
    let k := pk [1, 8, 0x10000, 0]
    let s := onQueue0 [1, 8, 0x10000, 0] id ctxT
    let hdr : List Byte := List.replicate 0x740 0
    k.type = 0x01 ∧ fld (k.word 1) 3 1 = 1 ∧ s.hubRead 0 .frontEnd (k.word 2) 0x740 2 = (s, .got hdr) ∧
      k.word 2 + imgLength hdr ≤ 2 ^ 57 ∧
      s.hubRead 0 .frontEnd (k.word 2) (imgLength hdr) (granules (imgLength hdr)) = (s, .got hdr) ∧ s.ctx? 0 = some ctxT := by
  refine ⟨by decide, by decide, gotIs_eq (by decide +kernel), by decide +kernel, gotIs_eq (by decide +kernel), rfl⟩

theorem witness_Packets_seeds :
    (let c := { ctx0 with seeds := List.replicate 15 1 }
     c.seeds.length < 16 ∧ 16 ≤ ({ ctx0 with seeds := List.replicate 16 1 } : Context).seeds.length ∧
       c.seeds = 1 :: List.replicate 14 1 ∧ ctx0.seeds = [] ∧ ({ ctx0.ckpt with store := 1 } : Checkpoints).store ≠ 0) ∧
    (let ws := [5, 0x10000]
     let s := { onQueue0 ws id ctxT with hbm := Mem.write (onQueue0 ws id ctxT).hbm 0x20000 (bytesOfNat 64 (0x190 + 0x40 * 2 ^ 128)) }
     let cmd : List Word := [0x190, 0, 0x40, 0, 0, 0, 0, 0]
     s.hubRead1 0 .frontEnd ((pk ws).word 1) 64 = (s, .got (bytesOfNat 64 (0x190 + 0x40 * 2 ^ 128))) ∧ (pk ws).copy = none ∧
       ((chunks 8 8 (bytesOfNat 64 (0x190 + 0x40 * 2 ^ 128))).map fun b => BitVec.ofNat 64 (natOfBytes b)) = cmd ∧
       hubCommandError (s.partTiles ctxT) cmd = none ∧ hubCommandError (s.partTiles ctxT) [0x193] = some .qcmd ∧
       cmdElems cmd ≤ ({ cmd0 cmd with prog := 1 } : CopyCmd).prog ∧
       (let k := { pk ws with copy := some { cmd0 cmd with prog := 1 } }
        (queue0 k).copyTurn k = true)) ∧
    (let k := { pk [3, 0, 7, 1, 0, 0, 0] with started := true }
     k.type = 3 ∧ k.started = true) := by
  refine ⟨by decide, ⟨gotIs_eq (by decide +kernel), rfl, by decide +kernel, by decide +kernel, by decide +kernel, by decide +kernel,
    by decide +kernel⟩, by decide⟩

/-- A queue whose state block holds given words at 0: ring at 0x10000, write index, read index, control, state and size, signals. -/
def onBlock (wr ctrl state : Nat) (ring : List Byte) (q : Queue → Queue) : State :=
  let s := onQueue0 [0] id ctxT
  let block := 0x10000 + wr * 2 ^ 64 + ctrl * 2 ^ 192 + (0x104 + state * 65536) * 2 ^ 256 + 0x10000 * 2 ^ 384
  { s with hbm := Mem.write (Mem.write [] 0 (bytesOfNat 64 block)) 0x20000 ring,
           queues := [q { queue0 (packet0 0) with packets := [] }] }

theorem witness_QueueStates :
    (let s := onBlock 0 0 1 [] id
     let q := { queue0 (packet0 0) with packets := [] }
     s.queue? 0 = some q ∧ s.up = true ∧ s.coreUp 0 = true ∧ q.num = 0 ∧ q.resident = true ∧ (∀ k ∈ q.packets, k.complete = false) ∧
       s.qstate q = 1 ∧ s.ctx? q.pasid = some ctxT ∧ ctxT.resident = true ∧ ctxT.tearing = none ∧ q.packets = [] ∧ s.qword q 1 = s.qword q 2) ∧
    (let s := onBlock 16 0 1 [0x0B, 1] id
     let q := { queue0 (packet0 0) with packets := [] }
     let bs := [0x0B, 1] ++ List.replicate 6 0
     let p := s.onQueue q.num fun x => { x with served := true }
     let va := fld (s.qword q 0) 0 57 + 64 * (s.qword q 2 % 2 ^ s.logn q)
     let r : RingRead := ⟨0, (List.replicate 7 (some 0x10B)) ++ [none]⟩
     q.resident = true ∧ s.takes q = true ∧ s.behind q ≠ 0 ∧ s.behind q ≤ 2 ^ s.logn q ∧ q.packets.length < 64 ∧
       q.reading = none ∧ p.hubRead1 q.pasid .frontEnd va 8 = (p, .got bs) ∧
       fld (BitVec.ofNat 64 (natOfBytes bs)).toNat 8 1 = 1 - s.qword q 2 / 2 ^ s.logn q % 2 ∧
       fld (BitVec.ofNat 64 (natOfBytes (List.replicate 8 0))).toNat 8 1 ≠ 1 - s.qword q 2 / 2 ^ s.logn q % 2 ∧
       ({ q with reading := some r } : Queue).reading = some r ∧ r.index = s.qword q 2 ∧ r.left = [7] ∧ r.left ≠ [] ∧
       (let p1 := { p with fresh := p.fresh + 1 }
        p1.hubRead1 q.pasid .frontEnd (va + 8 * 7) 8 = (p1, .got (List.replicate 8 0)))) ∧
    (let s := onBlock 17 0 1 [] id
     let q := { queue0 (packet0 0) with packets := List.replicate 64 (packet0 0) }
     q.resident = true ∧ s.takes q = true ∧ s.behind q ≠ 0 ∧ 2 ^ s.logn q < s.behind q ∧ 64 ≤ q.packets.length ∧
       (onBlock 16 0 1 [] id).behind q ≤ 2 ^ (onBlock 16 0 1 [] id).logn q) ∧
    (let q := { queue0 (packet0 0) with packets := [] }
     ((onBlock 0 1 3 [] id).qword q 3 = 1 ∧ (onBlock 0 1 3 [] id).qstate q = 3) ∧
       ((onBlock 0 2 3 [] id).qword q 3 = 2 ∧ (onBlock 0 2 3 [] id).qstate q < 4) ∧ (onBlock 0 2 4 [] id).qstate q = 4) ∧
    (let q := { queue0 (packet0 0) with parkedAt := some 0 }
     let s := { onBlock 0 0 2 [] fun _ => q with cycle := 9800000 }
     s.queue? 0 = some q ∧ s.qstate q = 2 ∧ q.parkedAt = some 0 ∧ 0 + Config.tenMsCycles ≤ s.cycle ∧ q.parkedBy = none ∧
       ({ q with parkedBy := some 3 } : Queue).parkedBy = some 3 ∧
       (∀ l ∈ s.launches, l.queue = q.num → l.packet = 3 → l.begun = false ∨ l.stage ≠ .waiting) ∧
       (let l := { launch0 with stage := .waiting, begun := true, packet := 3 }
        { s with launches := [l] }.launches = [l] ∧ l.queue = q.num ∧ l.begun = true ∧ l.stage = .waiting)) := by
  refine ⟨⟨rfl, by decide +kernel⟩, ⟨rfl, by decide +kernel, by decide +kernel, by decide +kernel, by decide, rfl, gotIs_eq (by decide +kernel),
    by decide +kernel, by decide +kernel, rfl, by decide +kernel, by decide, by decide, gotIs_eq (by decide +kernel)⟩,
    ⟨rfl, by decide +kernel, by decide +kernel, by decide +kernel, by decide, by decide +kernel⟩, by decide +kernel, rfl, by decide +kernel⟩

/-- A state with the queue of that block and one launch. -/
def onLaunch0 (l : Launch) (f : Tile → Tile) : State :=
  { onBlock 0 0 1 [] (fun _ => queue0 (packet0 1)) with launches := [l], tile := f State.reset.tile }

theorem witness_Launches :
    (let l := { launch0 with stage := .waiting, image := parseImage imageBytes }
     let s := { onLaunch0 l id with contexts := [ctx0] }
     s.launch? ⟨0, 0⟩ = some l ∧ s.ctx? 0 = some ctx0 ∧ s.mayArm l = true ∧ l.abs = none ∧
       (∃ a, ({ l with abs := some 1 } : Launch).abs = some a ∧ s.counter < a)) ∧
    (let l := { launch0 with stage := .waiting, image := parseImage [0] }
     let s := { onLaunch0 l id with contexts := [ctx0] }
     s.mayArm l = true ∧ s.slipped l = false ∧ l.image.bytes ≠ [] ∧ l.image.refusal ctx0 (s.partTiles ctx0) = some 16) ∧
    (let l := { launch0 with stage := .armed, s := 64 }
     let s := { onLaunch0 l id with counter := 64 }
     s.launch? ⟨0, 0⟩ = some l ∧ l.stage = .armed ∧ l.s ≤ s.counter ∧ l.abs = none) ∧
    (let l := { launch0 with s := 64, g := 10 }
     let s := { onLaunch0 l fun t => { t with phase := .armed, startTick := 10 } with counter := 64 }
     s.tile? k0 = some s.tile ∧ s.tile.launchKey = ⟨0, 0⟩ ∧ s.tile.phase = .armed ∧ l.stage = .started ∧
       l.s + s.tile.startTick - l.g ≤ s.counter ∧ s.tile.berth ≠ .boarded ∧
       (let t : Tile := { s.tile with berth := .boarded }
        let m := { l with rt := 10 }
        t.berth = .boarded ∧ m.rt = t.startTick ∧ m.stopped = false)) ∧
    (let s := onLaunch0 launch0 fun t => { t with phase := .running, triggered := some 3 }
     launch0.fired = false ∧ launch0.stage = .started ∧ 
       (∀ t ∈ s.tilesOf ⟨0, 0⟩, t.triggered = some 3 ∧ s.releaseOpen t 3 = false) ∧
       s.lastLaunch launch0 = true) ∧
    (let s := onLaunch0 launch0 fun t => { t with phase := .retired }
     launch0.shard = none ∧ (∀ t ∈ s.tilesOf ⟨0, 0⟩, t.phase = .retired ∧ t.settled = true) ∧ s.lastLaunch launch0 = true) := by
  refine ⟨⟨rfl, rfl, by decide +kernel, rfl, _, rfl, by decide⟩, by decide +kernel, ⟨rfl, by decide⟩, ⟨rfl, by decide⟩, by decide +kernel,
    by decide +kernel⟩

/-- An entry of the collective table with one peer: tile 0 of this module. -/
def entry0 : CollEntry := ⟨3, [(0, 2 ^ 63 + 2 ^ 32)], true, false, [], [], none, [], [], [], none, [], 0⟩

def apertureFar (off v : Nat) : FarOp := far0 (0xFE000003000000 + off) (.store (bytesOfNat 8 v))

theorem witness_Collectives :
    (let f := apertureFar 0xF8 7
     let l := { launch0 with coll := [entry0] }
     let s := { onCtx fun t => { t with far := [f] } with launches := [l] }
     s.tile? k0 = some s.tile ∧ s.tile.farOp 0 = some f ∧ f.stage = .open ∧ s.inOrder s.tile f 0 = true ∧
       f.apertureFst s.tile.grid = some (3, 0xF8, 7) ∧ s.launch? s.tile.launchKey = some l ∧ l.entry? 3 = some entry0 ∧
       apertureOf 3 0xF8 = .table 0xF8 ∧ entry0.holdsTable 0xF8 = false ∧ entry0.busy = false ∧ 8 ≤ 0xF8) ∧
    ((apertureFar 0 7).apertureFst 1 = some (3, 0, 7) ∧ apertureOf 3 0 = .table 0) ∧
    ((apertureFar 0x1000 7).apertureFst 1 = some (3, 0x1000, 7) ∧ apertureOf 3 0x1000 = .ready 0 ∧ apertureOf 3 0x10F8 = .ready 31 ∧
      entry0.isPeer 0 k0.id State.reset.board.position = true ∧ entry0.holdsReady 0 = false ∧
      entry0.isPeer 31 k0.id State.reset.board.position = false) ∧
    (let e := { entry0 with ready := [(0, 5)] }
     let l := { launch0 with coll := [e] }
     let s := { onCtx id with launches := [l] }
     s.launch? ⟨0, 0⟩ = some l ∧ s.ctx? 0 = some ctxT ∧ l.entry? 3 = some e ∧ e.valid = true ∧ e.fired = false ∧ e.allReady = true ∧
       e.bad = false ∧ (∃ r ∈ e.ready, r.2 ≠ e.desc) ∧ ({ e with bad := true } : CollEntry).bad = true) ∧
    (let e := { entry0 with since := some 0 }
     let l := { launch0 with coll := [e] }
     let s := { onCtx id with launches := [l], cycle := 9800000 }
     l.entry? 3 = some e ∧ e.running = none ∧ e.since = some 0 ∧ 0 + Config.tenMsCycles ≤ s.cycle) ∧
    (let y : PeerLeft := ⟨0, [], false⟩
     let e := { entry0 with running := some ([1], 0), left := [y] }
     let s := onCtx id
     e.running = some ([1], 0) ∧ e.left ≠ [] ∧ (∀ y ∈ e.left, (s.tile? ⟨0, e.peerId y.peer⟩).isSome = true) ∧
       (y.units = [] ∧ y.status = false ∧ e.left = [y] ∧ (State.reset.tile.spad.note 0 5 e.baddr 8).marked e.baddr = false) ∧
       (⟨0, [], true⟩ : PeerLeft).status = true ∧ (⟨0, [1], true⟩ : PeerLeft).units ≠ []) ∧
    (State.reset.board.power = .ready ∧ State.reset.ownPa 0x20000 8 = true ∧ State.reset.hbmPoisoned (localPa 0x20000) 8 = false) := by
  refine ⟨⟨rfl, rfl, rfl, by decide +kernel, by decide +kernel, rfl, rfl, by decide, by decide, by decide, by decide⟩, by decide +kernel,
    by decide +kernel, ⟨rfl, rfl, rfl, rfl, by decide, by decide, by decide, ⟨(0, 5), by simp, by decide⟩, rfl⟩, ⟨rfl, rfl, rfl, by decide⟩,
    ⟨rfl, by decide, by decide, by decide, rfl, by decide⟩, by decide⟩

/-- An entry whose round sums one FP32 element of tile 0, in page 0x10000; one whose contribution lies in page 0x20000, which can not be
read; one that waits for module 1. -/
def entry1 (cbase peer : Nat) : CollEntry :=
  { entry0 with words := [(0, 2 ^ 63 + 2 ^ 32 + 2 ^ 18 + 1), (1, cbase), (3, 1), (4, peer)], ready := [(0, 2 ^ 18 + 1)] }

theorem witness_Collectives_read :
    (let e := entry1 0x10000 0
     e.bad = false ∧ (∀ r ∈ e.ready, r.2 = e.desc) ∧ e.readUnits (e.peersOf State.reset.board.position) ≠ []) ∧
    (let e := { entry1 0x10000 0 with since := some 0, toRead := [(0, 0)] }
     let s := { onCtx id with launches := [{ launch0 with coll := [e] }], contexts := [{ ctxT with root := 0x100000 }], hbm := tables }
     s.cycle < 0 + Config.tenMsCycles ∧ e.running = none ∧ e.since = some 0 ∧ e.toRead = [(0, 0)] ∧
       (s.tickFresh.switchRead { ctxT with root := 0x100000 } (e.readAt (0, 0)).1 (e.readAt (0, 0)).2).2 = some (List.replicate 4 0) ∧
       (s.tickFresh.switchRead ctxT (e.readAt (0, 0)).1 (e.readAt (0, 0)).2).2 = none) ∧
    (let e := { entry1 0x10000 (1 * 2 ^ 11) with since := some 0 }
     (onCtx id).awaitsModule ctxT e = true) := by
  refine ⟨by decide, ⟨by decide, rfl, rfl, rfl, by decide +kernel, by decide +kernel⟩, by decide +kernel⟩

/-- A shard of zeros, of a launch of one tile, whose manifest can not be read. -/
def shard0 : Shard := ⟨1, List.replicate 8192 0, [0], launch0, []⟩

theorem witness_CheckpointEvents :
    (let c := { ctx0 with ckpt := { ctx0.ckpt with period := 1, timerFrom := some 0 } }
     let s := { managed0 State.reset with contexts := [c], cycle := 980 }
     s.ctx? 0 = some c ∧ c.resident = true ∧ c.ckpt.period ≠ 0 ∧ c.ckpt.timerFrom = some 0 ∧
       0 + c.ckpt.period * Config.usCycles ≤ s.cycle ∧ s.takingShard 0 = false ∧ (∀ l ∈ s.launches, l.key.pasid ≠ 0) ∧
       s.board.power = .ready ∧ mh.conn < s.board.conns ∧ (List.replicate 32 (0 : Byte)).length = 32) ∧
    (let c := { ctx0 with ckpt := { ctx0.ckpt with slotB := some shard0, latest := some true } }
     let s := { managed0 State.reset with contexts := [c], board := { (managed0 State.reset).board with layout := [(0, 0)] } }
     c.ckpt.latest = some true ∧ c.ckpt.slot true = some shard0 ∧ shard0.seq < 2 ^ 64 ∧ c.resident = true ∧ c.preempt = none ∧
       c.tearing = none ∧ (∀ l ∈ s.launches, l.key.pasid ≠ 0) ∧ numAt shard0.bytes 13 1 = (s.partition c.part).2 ∧
       s.shardChecks c shard0 [] = some (0xFFFF, 0, true)) ∧
    (let w : Wait := ⟨0, 1, 9, .step 4, 0, 0, none⟩
     let l := { launch0 with pendingCount := [4], image := { image0 with bindings := [] } }
     let c := { ctx0 with ckpt := { ctx0.ckpt with store := 16 } }
     let s := { onLaunch0 l fun t => { t with phase := .running, waits := [w] } with contexts := [c] }
     s.launch? ⟨0, 0⟩ = some l ∧ s.ctx? 0 = some c ∧ s.shardCount l = some 4 ∧ l.shard = none ∧ c.preempt = none ∧
       shardSize l.image.grid l.shardRegions ≤ c.ckpt.slotBytes ∧
       ctx0.ckpt.slotBytes < shardSize l.image.grid l.shardRegions ∧ s.shardReady { l with shard := some 4 } = true ∧
       (∀ t ∈ s.tilesOf ⟨0, 0⟩, t.hasPoison = false) ∧ l.slotPoison = [] ∧ l.shardRegions = [] ∧
       ({ s.tile with spad := { s.tile.spad with poison := [0] } } : Tile).hasPoison = true) := by
  refine ⟨⟨rfl, by decide⟩, by decide +kernel, rfl, rfl, by decide +kernel⟩

/-! A shard whose checks hold (R374, R375, R378), of a launch of no tile: signed by the device, its one block tagged. -/

@[irreducible] def zeros (n : Nat) : List Byte := List.replicate n 0

theorem zeros_length (n : Nat) : (zeros n).length = n := by simp [zeros]

/-- The part of a string that stands between two others. -/
theorem slice_between (a b c : List Byte) (off n : Nat) (ha : a.length = off) (hb : b.length = n) : slice (a ++ b ++ c) off n = b := by
  subst ha hb
  rw [slice, List.append_assoc, List.drop_left, List.take_left]

/-- A part of the zeros with which a string begins. -/
theorem slice_zeros (k off n : Nat) (c : List Byte) (h : off + n ≤ k) : slice (zeros k ++ c) off n = zeros n := by
  have e : zeros k = zeros off ++ zeros n ++ zeros (k - off - n) := by
    simp only [zeros, List.replicate_append_replicate]
    congr 1
    omega
  rw [e, List.append_assoc (zeros off ++ zeros n)]
  exact slice_between _ _ _ _ _ (zeros_length _) (zeros_length _)

/-- The bytes of that shard: digest of the tags, digest of the key, signature, tag. -/
@[irreducible] def goodBytes (digest key sig tag : List Byte) : List Byte :=
  zeros 176 ++ digest ++ key ++ zeros 8 ++ sig ++ zeros 475 ++ zeros 4096 ++ tag

theorem shake256_length (m : List Byte) : (shake256 m 64).length = 64 := by
  simp only [shake256, sponge, List.length_take]
  rw [show ceilDiv 64 136 = 1 from rfl, squeeze_length _ (absorb_length _ _ _ (by simp))]
  rfl

@[irreducible] def goodTag : List Byte := kmac256 [] (bytesOfNat 4 0 ++ bytesOfNat 8 0 ++ bytesOfNat 1 0 ++ (bytesOfNat 1 2 ++ bytesOfNat 4 0) ++ zeros 4096) ckptString
@[irreducible] def goodBody : List Byte := zeros 176 ++ shake256 goodTag 64 ++ shake256 identityKeyBytes 64 ++ zeros 8
def goodShard : Shard :=
  ⟨0, goodBytes (shake256 goodTag 64) (shake256 identityKeyBytes 64) (signatureBytes goodBody ckptString 0) goodTag, [], launch0, []⟩

/-- A context that trusts the device's key and holds an image with a digest of zeros. -/
def ctxG : Context :=
  { ctx0 with images := [some []], ckpt := { ctx0.ckpt with slotB := some goodShard, trusted := [identityKeyBytes] } }
def onGood : State :=
  { managed0 State.reset with contexts := [ctxG], draws := 1, board := { (managed0 State.reset).board with layout := [(0, 0)] } }

theorem goodShard_zeros (off n : Nat) (h : off + n ≤ 176) : slice goodShard.bytes off n = zeros n := by
  simp only [goodShard, goodBytes, List.append_assoc]
  exact slice_zeros _ _ _ _ h

theorem goodShard_num (off n : Nat) (h : off + n ≤ 176) (hn : n ≤ 8) : numAt goodShard.bytes off n = 0 := by
  rw [numAt, goodShard_zeros off n h]
  interval_cases n <;> rw [zeros] <;> rfl

theorem goodTag_length : goodTag.length = 32 := by rw [goodTag]; exact kmac256_length _ _ _

theorem goodBody_length : goodBody.length = 312 := by simp [goodBody, zeros_length, shake256_length]

theorem goodSig_length (d : Nat) : (signatureBytes goodBody ckptString d).length = 3309 := by simp [signatureBytes]

/-- The parts of such a shard. -/
theorem goodBytes_parts (d k g t : List Byte) (h1 : d.length = 64) (h2 : k.length = 64) (h3 : g.length = 3309) (h4 : t.length = 32) :
    slice (goodBytes d k g t) 0 312 = zeros 176 ++ d ++ k ++ zeros 8 ∧ slice (goodBytes d k g t) 176 64 = d ∧
    slice (goodBytes d k g t) 240 64 = k ∧ slice (goodBytes d k g t) 312 3309 = g ∧
    slice (goodBytes d k g t) 4096 4096 = zeros 4096 ∧ slice (goodBytes d k g t) 8192 32 = t := by
  have key (a b c : List Byte) (off n : Nat) (e : goodBytes d k g t = a ++ b ++ c) (ha : a.length = off) (hb : b.length = n) :
      slice (goodBytes d k g t) off n = b := e ▸ slice_between a b c off n ha hb
  refine ⟨key [] _ (g ++ zeros 475 ++ zeros 4096 ++ t) _ _ ?_ ?_ ?_, key (zeros 176) _ (k ++ zeros 8 ++ g ++ zeros 475 ++ zeros 4096 ++ t) _ _ ?_ ?_ h1,
    key (zeros 176 ++ d) _ (zeros 8 ++ g ++ zeros 475 ++ zeros 4096 ++ t) _ _ ?_ ?_ h2,
    key (zeros 176 ++ d ++ k ++ zeros 8) _ (zeros 475 ++ zeros 4096 ++ t) _ _ ?_ ?_ h3,
    key (zeros 176 ++ d ++ k ++ zeros 8 ++ g ++ zeros 475) _ t _ _ ?_ ?_ (zeros_length _),
    key (zeros 176 ++ d ++ k ++ zeros 8 ++ g ++ zeros 475 ++ zeros 4096) _ [] _ _ ?_ ?_ h4⟩ <;>
    simp only [goodBytes, List.append_assoc, List.nil_append, List.append_nil, List.length_append, List.length_nil, zeros_length, h1, h2, h3]

theorem goodShard_parts :
    slice goodShard.bytes 0 312 = goodBody ∧ slice goodShard.bytes 176 64 = shake256 goodTag 64 ∧
    slice goodShard.bytes 240 64 = shake256 identityKeyBytes 64 ∧
    slice goodShard.bytes 312 3309 = signatureBytes goodBody ckptString 0 ∧
    slice goodShard.bytes 4096 4096 = zeros 4096 ∧ slice goodShard.bytes 8192 32 = goodTag := by
  obtain ⟨p, q⟩ := goodBytes_parts _ _ _ _ (shake256_length goodTag) (shake256_length identityKeyBytes) (goodSig_length 0) goodTag_length
  rw [← goodBody] at p
  exact ⟨p, q⟩

theorem goodShard_plan : goodShard.plan = [⟨0xFFFF, 1, bytesOfNat 1 2 ++ bytesOfNat 4 0, 8192⟩] := by
  simp only [Shard.plan, goodShard_num 40 4 (by norm_num) (by norm_num), goodShard_num 44 4 (by norm_num) (by norm_num)]
  rfl

theorem goodShard_tag (y : TaggedBlock) (hy : y = ⟨0xFFFF, 1, bytesOfNat 1 2 ++ bytesOfNat 4 0, 8192⟩) :
    y.mac [] (numAt goodShard.bytes 8 4) (numAt goodShard.bytes 16 8) (numAt goodShard.bytes 12 1) goodShard.bytes = goodTag := by
  rw [hy, TaggedBlock.mac, goodShard_num 8 4 (by norm_num) (by norm_num), goodShard_num 16 8 (by norm_num) (by norm_num),
    goodShard_num 12 1 (by norm_num) (by norm_num), goodTag, Nat.mul_one, goodShard_parts.2.2.2.2.1]

/-- A shard of one tagged block, which carries its tag. -/
theorem badBlock_one {x : Shard} {key : List Byte} {y : TaggedBlock} (hp : x.plan = [y]) (hb : x.bad = [])
    (ht : y.mac key (numAt x.bytes 8 4) (numAt x.bytes 16 8) (numAt x.bytes 12 1) x.bytes = slice x.bytes y.tag 32) :
    x.badBlock key = none := by
  simp only [Shard.badBlock, hp, hb, ht, List.findSome?_cons, bne_self_eq_false, List.contains_nil, Bool.or_self, Bool.false_eq_true,
    if_false, List.findSome?_nil]

theorem tagDigest_one (bs : List Byte) (y : TaggedBlock) : tagDigest bs [y] = shake256 (slice bs y.tag 32) 64 := by
  simp only [tagDigest, List.flatMap_cons, List.flatMap_nil, List.append_nil]

theorem goodShard_bad : goodShard.badBlock [] = none :=
  badBlock_one goodShard_plan rfl ((goodShard_tag _ rfl).trans goodShard_parts.2.2.2.2.2.symm)

theorem goodShard_digest : tagDigest goodShard.bytes goodShard.plan = shake256 goodTag 64 := by
  rw [goodShard_plan, tagDigest_one]
  exact congrArg (shake256 · 64) goodShard_parts.2.2.2.2.2

theorem onGood_verifies : onGood.verifies identityKeyBytes goodBody ckptString (signatureBytes goodBody ckptString 0) = true := by
  rw [State.verifies, show onGood.draws = 1 from rfl]
  simp

theorem ctxG_images : ctxG.images.any (fun i =>
    (i.map fun y => padTo 64 (parseImage y).digest == slice goodShard.bytes 48 64).getD false) = true := by
  rw [goodShard_zeros 48 64 (by norm_num), zeros]; rfl

theorem ctxG_trusts : ctxG.ckpt.trusted.contains identityKeyBytes = true := by
  rw [show ctxG.ckpt.trusted = [identityKeyBytes] from rfl]
  simp

theorem onGood_checks : onGood.shardChecks ctxG goodShard identityKeyBytes = none := by
  obtain ⟨p1, p2, p3, p4, -, -⟩ := goodShard_parts
  have p1 : goodShard.bytes.take 312 = goodBody := p1
  rw [State.shardChecks]
  simp only [show goodShard.bad = [] from rfl, List.contains_nil, Bool.false_eq_true, if_false, ctxG_trusts, p1, p2, p3, p4,
    beq_self_eq_true, onGood_verifies, Bool.and_self, Bool.not_true, show ctxG.ckpt.key = [] from rfl, goodShard_bad, Option.orElse_none,
    goodShard_digest, ctxG_images, goodShard_num 6 2 (by norm_num) (by norm_num)]
  rfl

theorem goodShard_regions : goodShard.regions = [] := by
  simp only [Shard.regions, goodShard_num 40 4 (by norm_num) (by norm_num), goodShard_num 44 4 (by norm_num) (by norm_num)]
  rfl

theorem witness_CheckpointEvents_restore :
    onGood.managed mh ∧ onGood.ctx? 0 = some ctxG ∧ ctxG.resident = true ∧ ctxG.preempt = none ∧ ctxG.tearing = none ∧
      (∀ l ∈ onGood.launches, l.key.pasid ≠ 0) ∧ ctxG.ckpt.slot true = some goodShard ∧
      numAt goodShard.bytes 13 1 = (onGood.partition ctxG.part).2 ∧ onGood.shardChecks ctxG goodShard identityKeyBytes = none ∧
      goodShard.regions = [] :=
  ⟨⟨rfl, by decide⟩, rfl, rfl, rfl, rfl, by simp [onGood, managed0, State.reset], rfl,
    (goodShard_num 13 1 (by norm_num) (by norm_num)).trans rfl, onGood_checks, goodShard_regions⟩

theorem witness_DeviceEvents :
    (State.reset.up = true ∧ (∀ x ∈ State.reset.board.coreDown, x.1 ≠ 15) ∧
      (∀ x ∈ State.reset.board.coreUp, x.1 = 15 → x.2 + Config.oneMsCycles ≤ State.reset.cycle) ∧
      State.reset.hasPlace (.hbm 0) = true ∧ State.reset.hasPlace (.spad k0 0x3FFFF) = true ∧
      State.reset.hasPlace (.idle ⟨7, 9, 16⟩) = true ∧ State.reset.board.power ≠ .off) ∧
    (let b := { State.reset.board with coreUp := [(3, 0)], coreDown := [(4, 0)] }
     (∀ x ∈ b.coreUp, x.1 = 3 → 979999 < x.2 + Config.oneMsCycles) ∧ (4, 0) ∈ b.coreDown) ∧
    (let b := { State.reset.board with power := .off }
     b.power = .off ∧ b.bootSlot = some 0 ∧ ({ b with fw := [] } : Board).bootSlot = none) ∧
    (let s := { State.reset with board := { State.reset.board with power := .boot, bootAt := 1 } }
     s.board.power = .boot ∧ s.inputs = [] ∧ s.turn = [] ∧ s.waiting = [] ∧ s.board.bootAt ≤ s.cycle + 1 ∧ s.board.bootSlot = some 0) := by
  decide

theorem witness_ManagementOperations :
    (let s := managed0 State.reset
     (s.board.power = .ready ∧ mh.conn < s.board.conns) ∧ physExists ⟨7, 9, 16⟩ = true ∧ 7 < 8 ∧ s.board.cistern = none ∧
       0xFFFFFFFF + 1 ≤ 2 ^ 32 ∧ 4000 ≤ 9200 ∧ 3999 < 4000 ∧ 9200 < 9201 ∧ 63 < 64 ∧ layoutOk [(0, 2), (4, 2)] = true) ∧
    (let c := { ctx0 with records := [(7, [1])] }
     c.records.find? (fun x => x.1 == 7) = some (7, [1]) ∧ c.records.find? (fun x => x.1 == 8) = none) ∧
    (let b := { State.reset.board with provisioned := [[1]] }
     b.provisioned.contains [1] = true ∧ (State.reset.challengeBytes ≠ [] ∧ ([] : List Byte) ≠ State.reset.challengeBytes)) ∧
    (State.reset.board.power = .ready ∧ State.reset.board.provisioned.contains [] = false ∧ State.reset.board.conns ≤ mh.conn ∧
      Instr.setPowerCap mh 5000 ∈ [Instr.readTelemetry mh, .setPowerCap mh 5000]) := by
  refine ⟨by decide, by decide, ⟨by decide, ?_, ?_⟩, by decide⟩ <;> simp [State.challengeBytes]

end Sys2Proof.Tests
end

section
/-! PROOFS. What a module reset leaves: the reads of a blank tile, register by register, latch by latch and CSR by CSR, and the
module around it. -/

namespace Sys2Proof.Machine

/-! Files of one value throughout. -/

/-- A register file filled with the default that its accessor reads past the end reads that value at every number. -/
theorem getD_getElem?_vectorReplicate {α : Type} (n i : Nat) (x : α) : ((Vector.replicate n x)[i]?).getD x = x := by
  rw [Vector.getElem?_replicate]
  split <;> rfl

/-- A chain of invalid latches reads invalid at every position, past its end too (R68). -/
theorem join_getElem?_replicate_none {α : Type} (n i : Nat) : ((List.replicate n (none : Option α))[i]?).join = none := by
  rw [List.getElem?_replicate]
  split <;> rfl

theorem listGet_replicate {α : Type} {n i : Nat} (x d : α) (h : i < n) : listGet (List.replicate n x) i d = x := by
  rw [listGet, List.getElem?_replicate, if_pos h, Option.getD_some]

/-! The registers of a blank tile (R70). -/

@[simp] theorem Tile.blank_sreg (k : TileKey) (n : Nat) : (Tile.blank k).sreg n = 0 :=
  ite_eq_left_iff.mpr fun _ => getD_getElem?_vectorReplicate 32 n 0

@[simp] theorem Tile.blank_vreg (k : TileKey) (f : VFile) (n : Nat) : (Tile.blank k).vreg f n = 0 := by
  cases f with
  | va => exact getD_getElem?_vectorReplicate 32 n 0
  | vb => exact getD_getElem?_vectorReplicate 32 n 0

@[simp] theorem Tile.blank_xreg (k : TileKey) (f : CFile) (n : Nat) : (Tile.blank k).xreg f n = 0 := by
  cases f with
  | xa => exact getD_getElem?_vectorReplicate 16 n 0
  | xb => exact getD_getElem?_vectorReplicate 16 n 0

@[simp] theorem Tile.blank_mreg (k : TileKey) (n : Nat) : (Tile.blank k).mreg n = 0 :=
  getD_getElem?_vectorReplicate 16 n 0

@[simp] theorem Tile.pred_zero (t : Tile) : t.pred 0 = -1 := rfl

/-- The store of all ones at arming touches p0 alone. -/
theorem Tile.blank_pred_of_pos (k : TileKey) {n : Nat} (h : 0 < n) : (Tile.blank k).pred n = 0 := by
  rw [Tile.pred, if_neg h.ne']
  change (((Vector.replicate 16 (0 : Word)).setIfInBounds 0 (-1))[n]?).getD 0 = 0
  rw [Vector.getElem?_setIfInBounds_ne h.ne]
  exact getD_getElem?_vectorReplicate 16 n 0

/-! Its latches (R68, R70). -/

@[simp] theorem Tile.blank_readS_latch (k : TileKey) (i : Nat) : (Tile.blank k).readS (.latch i) = none :=
  join_getElem?_replicate_none 8 i

@[simp] theorem Tile.blank_readV_latch (k : TileKey) (i : Nat) : (Tile.blank k).readV (.latch i) = none :=
  join_getElem?_replicate_none 8 i

@[simp] theorem Tile.blank_readX_latch (k : TileKey) (i : Nat) : (Tile.blank k).readX (.latch i) = none :=
  join_getElem?_replicate_none 8 i

@[simp] theorem Tile.blank_readM_latch (k : TileKey) (i : Nat) : (Tile.blank k).readM (.latch i) = none :=
  join_getElem?_replicate_none 8 i

/-! Its CSRs that are no field of their own: table rows and loop levels (R94, R98). -/

@[simp] theorem LoopUnit.reset_level (n : Nat) : LoopUnit.reset.level n = none :=
  join_getElem?_replicate_none 6 n

@[simp] theorem LoopUnit.reset_stateWord (n : Nat) : LoopUnit.reset.stateWord n = 0 := by
  rw [LoopUnit.stateWord, LoopUnit.reset_level]

@[simp] theorem LoopUnit.reset_activeWord : LoopUnit.reset.activeWord = 0 := by decide

theorem Tile.blank_csr_ftab (k : TileKey) {n : Nat} (h : n < 16) : (Tile.blank k).csr (.ftab n) = 0x01010101 :=
  listGet_replicate _ _ h

@[simp] theorem Tile.blank_csr_lstate (k : TileKey) (n : Nat) : (Tile.blank k).csr (.lstate n) = 0 :=
  LoopUnit.reset_stateWord n

@[simp] theorem Tile.blank_csr_lactive (k : TileKey) : (Tile.blank k).csr .lactive = 0 := LoopUnit.reset_activeWord

/-! The module. -/

@[simp] theorem Mem.read1_nil (a : Nat) : Mem.read1 [] a = 0 := rfl

/-- Settles O6: the module's parts and the plain CSRs are fields of the reset state, and every other clause is a read of the blank
tile in focus. -/
theorem whatResetLeaves : Obligations.WhatResetLeaves := by
  unfold Obligations.WhatResetLeaves
  refine ⟨rfl, rfl, rfl, rfl, rfl, Mem.read1_nil, Mem.read1_nil, rfl, rfl,
    Tile.blank_sreg _, Tile.blank_vreg _, Tile.blank_xreg _, Tile.blank_mreg _, Tile.pred_zero _, fun _ => Tile.blank_pred_of_pos _,
    Tile.blank_readS_latch _, Tile.blank_readV_latch _, Tile.blank_readX_latch _, Tile.blank_readM_latch _, ?csrs⟩
  case csrs =>
    exact ⟨rfl, rfl, rfl, rfl, rfl, rfl, rfl, rfl, fun _ => Tile.blank_csr_ftab _, rfl, rfl, Tile.blank_csr_lstate _,
      Tile.blank_csr_lactive _, rfl, rfl, rfl⟩

end Sys2Proof.Machine
end

section
/-! PROOFS. The clocks: what a step of the machine does to the wall clock and the global counter, by who makes it (the outside world, a
domain in its turn, an untimed event, the start of a cycle). -/

namespace Sys2Proof.Machine

/-! One step of the table. -/

/-- An input that resets the module or takes its power: the wall clock goes on, the counter is cleared. -/
structure State.ClearedBy (s u : State) (x : Input) : Prop where
  resets : ∃ i : Instr, resetsModule i = true ∧ x = .op i
  cycle : u.cycle = s.cycle
  counter : u.counter = 0

/-- Every step of the table keeps both clocks, or it is one of the four that reset the module. -/
theorem exec_clocks {i : Instr} {s u : State} (e : exec i s = .next u) : s.Kept u ∨ s.ClearedBy u (.op i) := by
  cases h : resetsModule i with
  | false => exact .inl (exec_kept h e)
  | true =>
    cases i with
    | thermalTrip | powerGood | powerOff =>
      simp only [exec, execThermalTrip, execPowerGood, execPowerOff] at e
      split at e <;> cases e
      exact .inr ⟨⟨_, h, rfl⟩, rfl, rfl⟩
    | resetModule m =>
      simp only [exec, execResetModule, State.manage] at e
      split at e
      · cases e
      · cases e
      · split at e
        · cases e
          exact .inl (State.reply_kept _ _ _ _ (.refl s))
        · split at e <;> cases e
          · exact .inr ⟨⟨_, h, rfl⟩, rfl, rfl⟩
          · exact .inl (State.reply_kept _ _ _ _ (.refl s))
    | _ => cases h

theorem State.attempt_exec_clocks (s : State) (i : Instr) :
    s.Kept (s.attempt (exec i)) ∨ s.ClearedBy (s.attempt (exec i)) (.op i) := by
  unfold State.attempt
  split
  · exact exec_clocks (by assumption)
  · exact .inl (.refl s)

/-! The outside world. -/

theorem State.unknownOp_kept {o : State} (s : State) (h : MgmtHdr) (w : o.Kept s) : o.Kept (s.unknownOp h) := by
  unfold State.unknownOp
  split
  · exact w
  · exact w
  · exact State.reply_kept _ _ _ _ w

theorem State.perform_clocks (s : State) (x : Input) : s.Kept (s.perform x) ∨ s.ClearedBy (s.perform x) x := by
  unfold State.perform
  split
  · exact .inl (.refl s)
  · split
    · exact .inl (State.unknownOp_kept s _ (.refl s))
    · split
      · split
        · exact State.attempt_exec_clocks s _
        · exact .inl (.refl s)
      · exact .inl (.refl s)

theorem State.request_clocks (s : State) (x : Input) (h : MgmtHdr) : s.Kept (s.request x h) ∨ s.ClearedBy (s.request x h) x := by
  unfold State.request
  split
  · exact .inl (.refl s)
  · exact .inl (.refl s)
  · split
    · exact .inl ⟨rfl, rfl, id⟩
    · exact State.perform_clocks s x

theorem State.hostRead_kept (s : State) (p va n : Nat) : s.Kept (s.hostRead p va n) := by
  have k := State.hubRead_kept s p .frontEnd va n (granules n) (.refl s)
  unfold State.hostRead
  split
  · rename_i e
    rw [e] at k
    exact k.of_eq rfl rfl rfl
  · rename_i e
    rwa [e] at k

theorem State.arrayError_kept (s : State) (k : TileKey) (u : MxUpset) : s.Kept (s.arrayError k u) := by
  unfold State.arrayError
  split
  · exact State.setTile_kept _ _ (.refl s)
  · exact .refl s

theorem State.replay_kept (s : State) (k : TileKey) (n : Nat) (on : Bool) : s.Kept (s.replay k n on) := by
  have h := State.onKey_kept s k (fun t => t.replay n on) (.refl s)
  unfold State.replay
  dsimp only
  split
  · exact State.countSoft_kept _ _ _ h
  · exact h

theorem State.strike_kept (s : State) (k : TileKey) (n : Nat) : s.Kept (s.strike k n) :=
  State.countSoft_kept _ _ _ (State.onKey_kept _ _ _ ⟨rfl, rfl, id⟩)

/-- What is guarded keeps both clocks when it does so where the guard holds. -/
theorem State.Kept.ite {s u : State} {c : Prop} [Decidable c] (h : s.Kept u) : s.Kept (if c then u else s) := by
  split
  · exact h
  · exact .refl s

/-- An input that is no management request: steps of the table aside, none touches a clock. -/
theorem State.receiveData_clocks (s : State) (x : Input) : s.Kept (s.receiveData x) ∨ s.ClearedBy (s.receiveData x) x := by
  have r := State.Kept.refl s
  cases x with
  | op i =>
    unfold State.receiveData
    dsimp only
    split
    · exact State.attempt_exec_clocks s i
    · exact .inl r
  | unknownOp h => exact .inl r
  | portMode full => exact .inl ⟨rfl, rfl, id⟩
  | provision key => exact .inl ⟨rfl, rfl, id⟩
  | hostWrite n p va bs => exact .inl (State.hubWrite_kept s p .frontEnd va bs _ r).ite
  | hostWritePa n pa bs => exact .inl (State.hbmWrite_kept s _ bs r).ite
  | hostRead n p va len => exact .inl (State.hostRead_kept s p va len).ite
  | hostReadPa n pa len => exact .inl (State.Kept.ite ⟨rfl, rfl, id⟩)
  | poison p => exact .inl (State.uncorrectable_kept s p r).ite
  | poisonAcc k a => exact .inl (State.countSoft_kept _ k _ (State.onKey_kept s k _ r)).ite
  | corrected k c => exact .inl (State.corrected_kept s k c r).ite
  | upset k u => exact .inl (State.arrayError_kept s k u).ite
  | strike k n => exact .inl (State.strike_kept s k n).ite
  | replay k n on => exact .inl (State.replay_kept s k n on).ite
  | store p slot x =>
    unfold State.receiveData
    dsimp only
    split
    · exact .inl (State.setCtx_kept s _ r)
    · exact .inl r
  | poisonStore p slot b =>
    unfold State.receiveData
    dsimp only
    split
    · exact .inl (State.setCtx_kept s _ r)
    · exact .inl r

theorem State.receive_clocks (s : State) (x : Input) : s.Kept (s.receive x) ∨ s.ClearedBy (s.receive x) x := by
  unfold State.receive
  split
  · exact State.request_clocks s x _
  · exact State.receiveData_clocks s x

/-! Untimed events. -/

/-- An event that keeps both clocks, whatever the state it happens in. -/
def Move.Quiet (m : Move) : Prop := ∀ s u : State, m s = .next u → s.Kept u

/-- Every event that is the meaning of a step of the table is quiet but for the module resets. -/
theorem quiet_of_instr (i : Instr) (h : resetsModule i = false) : Move.Quiet (exec i) := fun _ _ e => exec_kept h e

theorem Tile.events_quiet (t : Tile) : ∀ m ∈ t.events, Move.Quiet m := by
  intro m hm
  simp only [Tile.events, List.mem_append, List.mem_flatMap, List.mem_map, List.mem_cons, List.not_mem_nil, or_false,
    List.mem_ite_nil_right] at hm
  rcases hm with (((⟨f, -, hf⟩ | ⟨-, rfl⟩) | ⟨x, -, rfl⟩) | ⟨q, -, hq⟩) | ⟨-, rfl⟩
  · rcases hf with rfl | rfl | rfl | rfl | rfl | rfl | rfl | rfl
    · exact quiet_of_instr (.landingArrival t.key f.num false) rfl
    · exact quiet_of_instr (.landingArrival t.key f.num true) rfl
    · exact quiet_of_instr (.farStorePerform t.key f.num) rfl
    · exact quiet_of_instr (.remoteAccessApply t.key f.num) rfl
    · exact quiet_of_instr (.relIncrement t.key f.num) rfl
    · exact quiet_of_instr (.collectiveTableWrite t.key f.num) rfl
    · exact quiet_of_instr (.collectiveReadyWrite t.key f.num) rfl
    · exact quiet_of_instr (.translationWalk t.key.pasid f.addr f.kind.access (.farPath t.key.id)) rfl
  · exact quiet_of_instr (.waitConditionMet t.key) rfl
  · exact quiet_of_instr (.messageArrival t.key x.src x.chan) rfl
  · rcases hq with rfl | rfl
    · exact quiet_of_instr (.copyCommandComplete t.key q) rfl
    · exact quiet_of_instr (.copyCommandStop t.key q) rfl
  · exact quiet_of_instr (.matrixStepReplay t.key) rfl

theorem Launch.events_quiet (l : Launch) : ∀ m ∈ l.events, Move.Quiet m := by
  intro m hm
  simp only [Launch.events, List.mem_append, List.mem_flatMap, List.mem_map, List.mem_cons, List.not_mem_nil, or_false] at hm
  rcases hm with ((rfl | rfl | rfl | rfl) | ⟨x, -, rfl⟩) | ⟨e, -, rfl | rfl⟩
  · exact quiet_of_instr (.launchArm l.key) rfl
  · exact quiet_of_instr (.launchTrigger l.key) rfl
  · exact quiet_of_instr (.launchRetire l.key) rfl
  · exact quiet_of_instr (.checkpointShardTaken l.key) rfl
  · exact quiet_of_instr (.messageArrival ⟨l.key.pasid, x.dst⟩ x.src x.chan) rfl
  · exact quiet_of_instr (.collectiveRoundFire l.key e.num) rfl
  · exact quiet_of_instr (.collectiveRoundComplete l.key e.num) rfl

theorem Packet.event_quiet (q : Queue) (p : Packet) : ∀ m ∈ Packet.event q p, Move.Quiet m := by
  unfold Packet.event
  dsimp only
  split <;> simp only [List.forall_mem_cons, List.not_mem_nil, false_implies, implies_true, and_true]
  · exact quiet_of_instr (.timetable q.num p.index) rfl
  · exact quiet_of_instr (.timetableIndirect q.num p.index) rfl
  · exact ⟨quiet_of_instr (.wait q.num p.index) rfl, quiet_of_instr (.signalConditionMet q.num p.index) rfl⟩
  · exact quiet_of_instr (.signal q.num p.index) rfl
  · exact quiet_of_instr (.copy q.num p.index) rfl
  · exact quiet_of_instr (.seedPush q.num p.index) rfl
  · exact quiet_of_instr (.seedPop q.num p.index) rfl
  · exact quiet_of_instr (.seedFork q.num p.index) rfl
  · exact quiet_of_instr (.checkpointPolicy q.num p.index) rfl
  · exact ⟨quiet_of_instr (.barrierAnd q.num p.index) rfl, quiet_of_instr (.signalConditionMet q.num p.index) rfl⟩
  · exact quiet_of_instr (.nop q.num p.index) rfl

theorem State.workEvents_quiet (s : State) : ∀ m ∈ s.workEvents, Move.Quiet m := by
  intro m hm
  simp only [State.workEvents, List.mem_append, List.mem_flatMap, List.mem_cons, List.not_mem_nil, or_false] at hm
  rcases hm with ((⟨t, -, ht⟩ | ⟨l, -, hl⟩) | ⟨q, -, (rfl | rfl | rfl | rfl) | ⟨p, -, hp⟩⟩) | ⟨c, -, rfl | rfl | rfl⟩
  · exact t.events_quiet m ht
  · exact l.events_quiet m hl
  · exact quiet_of_instr (.queuePoll q.num) rfl
  · exact quiet_of_instr (.queueRestart q.num) rfl
  · exact quiet_of_instr (.queueDestroy q.num) rfl
  · exact quiet_of_instr (.queueDestroyed q.num) rfl
  · exact Packet.event_quiet q p m hp
  · exact quiet_of_instr (.invalidationComplete c.pasid) rfl
  · exact quiet_of_instr (.teardownComplete c.pasid) rfl
  · exact quiet_of_instr (.contextSaveComplete c.pasid) rfl

/-- An event between two turns keeps both clocks, or it is a request that has waited and resets the module. -/
theorem State.events_clocks {s v u : State} {m : Move} (hm : m ∈ s.events) (e : m v = .next u) :
    v.Kept u ∨ ∃ x ∈ s.waiting, v.ClearedBy u x := by
  rcases List.mem_append.mp hm with hn | hw
  · obtain ⟨x, hx, rfl⟩ := List.mem_map.mp hn
    cases e
    rcases State.perform_clocks { v with waiting := v.waiting.erase x } x with k | c
    · exact .inl ⟨k.cycle, k.counter, k.mem⟩
    · exact .inr ⟨x, (List.mem_filter.mp hx).1, ⟨c.resets, c.cycle, c.counter⟩⟩
  · split at hw
    · exact .inl (s.workEvents_quiet m hw v u e)
    · cases hw

/-! The start of a cycle. -/

theorem State.haltDue_kept {o : State} (s : State) (w : o.Kept s) : o.Kept s.haltDue := State.mapTiles_kept _ _ w

theorem State.Kept.withTurn {o s : State} (w : o.Kept s) (ds : List Domain) : o.Kept { s with turn := ds } := w.of_eq rfl rfl rfl

/-- What a cycle's start does beside counting. -/
theorem State.cycleWork_kept (s : State) : s.Kept s.wallClock.starts.shardCheck.haltDue :=
  State.haltDue_kept _ (State.shardCheck_kept _ (State.starts_kept _ (State.wallClock_kept _ (.refl s))))

/-- While the front end runs, both clocks count and the rest of a cycle's start keeps them. -/
theorem State.startCycle_ready {s : State} (h : s.board.power = .ready) :
    State.Kept { s with cycle := s.cycle + 1, counter := (s.counter + 1) % 2 ^ 64 } s.startCycle := by
  unfold State.startCycle
  rw [h]
  exact (State.cycleWork_kept _).withTurn _

theorem State.startCycle_fatal {s : State} (h : s.board.power = .fatal) :
    s.startCycle = { s with cycle := s.cycle + 1, counter := (s.counter + 1) % 2 ^ 64 } := by
  unfold State.startCycle
  rw [h]

/-- In the other power states the wall clock counts alone, or bring-up ends. -/
theorem State.startCycle_down {s : State} (hr : s.board.power ≠ .ready) (hf : s.board.power ≠ .fatal) :
    s.startCycle = { s with cycle := s.cycle + 1 } ∨
    (s.board.power = .boot ∧ s.board.bootAt ≤ s.cycle + 1 ∧ s.startCycle = State.booted { s with cycle := s.cycle + 1 }) := by
  unfold State.startCycle
  split
  · exact absurd ‹_› hr
  · exact absurd ‹_› hf
  · rename_i hb
    dsimp only
    split
    · exact .inr ⟨hb, ‹_›, rfl⟩
    · exact .inl rfl
  · exact .inl rfl

/-- A cycle adds 1 to the wall clock, and to the counter as the power state says. -/
theorem State.startCycle_clocks (s : State) :
    s.startCycle.cycle = s.cycle + 1 ∧
    (s.board.power = .ready ∨ s.board.power = .fatal → s.startCycle.counter = (s.counter + 1) % 2 ^ 64) ∧
    (s.board.power ≠ .ready → s.board.power ≠ .fatal →
      s.startCycle.counter = s.counter ∨
        (s.board.power = .boot ∧ s.board.bootAt ≤ s.startCycle.cycle ∧ s.startCycle.counter = 0)) := by
  by_cases hr : s.board.power = .ready
  · have k := State.startCycle_ready hr
    exact ⟨k.cycle, fun _ => k.counter, fun h => absurd hr h⟩
  by_cases hf : s.board.power = .fatal
  · rw [State.startCycle_fatal hf]
    exact ⟨rfl, fun _ => rfl, fun _ h => absurd hf h⟩
  rcases State.startCycle_down hr hf with e | ⟨hp, hb, e⟩
  · rw [e]
    exact ⟨rfl, fun h => (h.elim hr hf).elim, fun _ _ => .inl rfl⟩
  · rw [e]
    exact ⟨rfl, fun h => (h.elim hr hf).elim, fun _ _ => .inr ⟨hp, hb, rfl⟩⟩

/-- Settles O9, by who makes the step: an input, a domain in its turn, an event between two cycles, or the start of a cycle. -/
theorem clockRule : Obligations.ClockRule := by
  unfold Obligations.ClockRule
  intro s u e
  unfold step at e
  split at e
  · rename_i x rest hi
    cases e
    rcases State.receive_clocks { s with inputs := rest } x with k | c
    · exact .inl ⟨k.cycle, k.counter⟩
    · obtain ⟨i, hr, rfl⟩ := c.resets
      exact .inr (.inr ⟨c.cycle, c.counter, i, hr, .inl ⟨rest, hi⟩⟩)
  · rename_i hi
    split at e
    · rename_i d ds _
      cases e
      have k := State.domainTurn_kept { s with turn := ds } d (.refl _)
      exact .inl ⟨k.cycle, k.counter⟩
    · cases e
      unfold State.between
      split
      · rename_i m hm
        unfold State.attempt
        split
        · rename_i v hv
          rcases State.events_clocks (List.mem_of_getElem? hm) hv with k | ⟨x, hx, c⟩
          · exact .inl ⟨k.cycle, k.counter⟩
          · obtain ⟨i, hr, rfl⟩ := c.resets
            exact .inr (.inr ⟨c.cycle, c.counter, i, hr, .inr ⟨hi, hx⟩⟩)
        · exact .inl ⟨rfl, rfl⟩
      · exact .inr (.inl s.tickFresh.startCycle_clocks)

end Sys2Proof.Machine
end

section
/-! PROOFS. Results at their write tick: a tick at which nothing but plain results is due, and what each result writes. -/

namespace Sys2Proof.Machine

/-! Units that have nothing due. -/

theorem Tile.queue_cmds_nil {t : Tile} (h : ∀ q ∈ t.queues, q.cmds = []) (n : Nat) : (t.queue n).cmds = [] := by
  unfold Tile.queue listGet
  cases e : t.queues[n]? with
  | none => rfl
  | some q => exact h q (List.mem_of_getElem? e)

theorem Tile.copiesDue_nil {t : Tile} (h : ∀ q ∈ t.queues, q.cmds = []) : t.copiesDue = [] := by
  refine List.flatMap_eq_nil_iff.mpr fun n _ => ?_
  rw [CopyQueue.dueAt, Tile.queue_cmds_nil h]
  rfl

theorem Tile.completeCopies_idle {t : Tile} (h : ∀ q ∈ t.queues, q.cmds = []) : t.completeCopies = t := by
  rw [Tile.completeCopies, Tile.copiesDue_nil h]
  rfl

theorem Tile.mxComplete_idle {t : Tile} (h : t.mx.active = none) : t.mxComplete = (t, []) := by
  rw [Tile.mxComplete, h]

/-- The writes of an idle Cascade touch its own counts alone. -/
theorem Tile.cascadeWrites_idle {t : Tile} (hs : t.casc.subs = []) (hx : t.casc.xfers = []) :
    ∃ c, t.cascadeWrites.1 = { t with casc := c } := by
  have hd : t.subsDue = [] := by rw [Tile.subsDue, hs]; rfl
  have hf : t.subFaults = [] := by rw [Tile.subFaults, hd]; rfl
  have hw : t.writeSubs.1 = { t with casc := { t.casc with subs := [], written := t.casc.written % 2 ^ 32 } } := by
    simp only [Tile.writeSubs, hd, hf, List.filter_nil, List.length_nil, Nat.add_zero, Tile.subWrites, List.flatMap_nil, sortBy,
      List.foldl_nil, hs]
  have hr : t.cascadeWrites.1 = t.writeSubs.1.writeRow.1 := rfl
  rw [hr, hw]
  simp only [Tile.writeRow, Tile.faultRow, Cascade.sweep, hx, List.map_nil, List.filter_nil, List.find?_nil]
  exact ⟨_, rfl⟩

/-! Plain results. -/

/-- A result of a scalar register, a CSR or the flags: no store, no atomic, no configuration of an engine. -/
def Eff.isPlain : Eff → Bool
  | .sreg _ _ | .csr _ _ | .flags _ _ => true
  | _ => false

/-- The CSRs after the control effect of a plain result. -/
def Eff.control (k : Csrs) : Eff → Csrs
  | .csr c v => k.write c v
  | _ => k

theorem Tile.writeControl_plain {e : Eff} (h : e.isPlain = true) (t : Tile) :
    t.writeControl e = { t with csrs := e.control t.csrs } := by
  cases e <;> first | rfl | cases h

theorem Tile.writeMatrix_plain {e : Eff} (h : e.isPlain = true) (t : Tile) : t.writeMatrix e = t := by
  cases e <;> first | rfl | cases h

theorem Eff.not_memory_of_plain {e : Eff} (h : e.isPlain = true) : e.isMemory = false := by
  cases e <;> first | rfl | cases h

theorem Eff.not_store_of_plain {e : Eff} (h : e.isPlain = true) : e.isStore = false := by
  cases e <;> first | rfl | cases h

theorem Tile.writeControls_plain : ∀ (ps : List Pending) (t : Tile), (∀ p ∈ ps, p.eff.isPlain = true) →
    ps.foldl (fun u p => u.writeControl p.eff) t = { t with csrs := ps.foldl (fun k p => p.eff.control k) t.csrs }
  | [], _, _ => rfl
  | p :: ps, t, h => by
    rw [List.foldl_cons, Tile.writeControl_plain (h p List.mem_cons_self),
      Tile.writeControls_plain ps _ fun q hq => h q (List.mem_cons_of_mem _ hq)]
    rfl

theorem Tile.writeMatrices_plain : ∀ (ps : List Pending) (t : Tile), (∀ p ∈ ps, p.eff.isPlain = true) →
    ps.foldl (fun u p => u.writeMatrix p.eff) t = t
  | [], _, _ => rfl
  | p :: ps, t, h => by
    rw [List.foldl_cons, Tile.writeMatrix_plain (h p List.mem_cons_self),
      Tile.writeMatrices_plain ps _ fun q hq => h q (List.mem_cons_of_mem _ hq)]

/-- Writing results leaves the landings. -/
@[simp] theorem Tile.writeResult_landings (t : Tile) (sl : Slot) (e : Eff) : (t.writeResult sl e).landings = t.landings := by
  cases e <;> rfl

theorem Tile.writeResults_landings : ∀ (ps : List Pending) (t : Tile),
    (ps.foldl (fun u p => u.writeResult p.slot p.eff) t).landings = t.landings
  | [], _ => rfl
  | p :: ps, t => (Tile.writeResults_landings ps _).trans (Tile.writeResult_landings t p.slot p.eff)

theorem Tile.writeLandings_nil {t : Tile} (h : t.landings = []) : t.landingsDue.foldl (fun u l => u.writeLanding l) t = t := by
  rw [Tile.landingsDue, h]
  rfl

theorem Tile.doAtoms_nil (key : Pending → Nat) (t : Tile) : Tile.doAtoms (sortBy key []) t = (t, []) := rfl

theorem Tile.doStores_nil (t : Tile) : Tile.doStores [] t = t := rfl

/-- The results of a tick in the order of their writes (R72): by slot, within a slot by issue. -/
def inWriteOrder (ps : List Pending) : List Pending := sortBy (fun p => p.slot.rank) (sortBy (fun p => p.seq) ps)

/-- A tick at which plain results alone are due: control first, then every result in the order of R72. -/
theorem Tile.applyDue_plain {t : Tile} {due rest : List Pending} (h : OnlyResults t)
    (hd : t.inflight.filter (fun p => decide (p.due ≤ t.tick)) = due)
    (hr : t.inflight.filter (fun p => !decide (p.due ≤ t.tick)) = rest) (hp : ∀ p ∈ due, p.eff.isPlain = true) :
    ∃ c, t.applyDue = (inWriteOrder due).foldl (fun u p => u.writeResult p.slot p.eff)
      { t with inflight := rest, csrs := due.foldl (fun k p => p.eff.control k) t.csrs, casc := c } := by
  obtain ⟨hl, hm, hs, hx, hq⟩ := h
  have hmem : due.filter (fun p => p.eff.isMemory) = [] :=
    List.filter_eq_nil_iff.mpr fun p hpd => by simp [Eff.not_memory_of_plain (hp p hpd)]
  have hsto : due.filter (fun p => p.eff.isStore) = [] :=
    List.filter_eq_nil_iff.mpr fun p hpd => by simp [Eff.not_store_of_plain (hp p hpd)]
  let t1 : Tile := { t with inflight := rest, csrs := due.foldl (fun k p => p.eff.control k) t.csrs }
  obtain ⟨c, hc⟩ := Tile.cascadeWrites_idle (t := t1) hs hx
  have hcopies : ({ t with inflight := rest } : Tile).completeCopies = { t with inflight := rest } :=
    Tile.completeCopies_idle hq
  have hcontrol : due.foldl (fun (u : Tile) p => u.writeControl p.eff) { t with inflight := rest } = t1 :=
    Tile.writeControls_plain due _ hp
  have hmx : t1.mxComplete = (t1, []) := Tile.mxComplete_idle hm
  refine ⟨c, ?_⟩
  simp only [Tile.applyDue, hd, hr, hcopies, hcontrol, hmx, Tile.writeMatrices_plain due _ hp, hc, hmem, hsto, Tile.doAtoms_nil,
    Tile.doStores_nil, List.append_nil]
  exact Tile.writeLandings_nil ((Tile.writeResults_landings _ _).trans hl)

/-! The order of two results. -/

theorem sortBy_pair {α : Type} (key : α → Nat) (a b : α) : sortBy key [a, b] = if key b < key a then [b, a] else [a, b] := rfl

theorem sortBy_pair_cases {α : Type} (key : α → Nat) (a b : α) : sortBy key [a, b] = [a, b] ∨ sortBy key [a, b] = [b, a] := by
  rw [sortBy_pair]
  split
  · exact .inr rfl
  · exact .inl rfl

theorem inWriteOrder_pair_cases (p q : Pending) : inWriteOrder [p, q] = [p, q] ∨ inWriteOrder [p, q] = [q, p] := by
  rcases sortBy_pair_cases (fun p : Pending => p.seq) p q with e | e <;> rw [inWriteOrder, e]
  · exact sortBy_pair_cases _ p q
  · exact (sortBy_pair_cases _ q p).symm

theorem inWriteOrder_pair {p q : Pending} (h : p.seq < q.seq) :
    inWriteOrder [p, q] = if q.slot.rank < p.slot.rank then [q, p] else [p, q] := by
  rw [inWriteOrder, sortBy_pair, if_neg (Nat.lt_asymm h), sortBy_pair]

/-! What a scalar result writes (R67, R70). -/

theorem Tile.writeResult_sreg (t : Tile) (sl : Slot) (n : Nat) (v : Word) :
    t.writeResult sl (.sreg n v) = { t with regs := t.regs.setS n v, latches := t.latches.pushWord sl v } := rfl

/-- What s0 is given is discarded; any other register holds its new value. -/
theorem Tile.sreg_writeResult_same (t : Tile) (sl : Slot) {n : Nat} (v : Word) (h : n < 32) :
    (t.writeResult sl (.sreg n v)).sreg n = if n = 0 then 0 else v := by
  rw [Tile.writeResult_sreg, Tile.sreg]
  by_cases hn : n = 0
  · rw [if_pos hn, if_pos hn]
  · rw [if_neg hn, if_neg hn, Regs.setS, if_neg hn]
    simp only [Vector.getElem?_setIfInBounds_self_of_lt h, Option.getD_some]

theorem Tile.sreg_writeResult_other (t : Tile) (sl : Slot) {n k : Nat} (v : Word) (h : k ≠ n) :
    (t.writeResult sl (.sreg n v)).sreg k = t.sreg k := by
  rw [Tile.writeResult_sreg, Tile.sreg, Tile.sreg, Regs.setS]
  by_cases hn : n = 0
  · rw [if_pos hn]
  · rw [if_neg hn]
    simp only [Vector.getElem?_setIfInBounds_ne h.symm]

/-- The other files are as they were. -/
theorem Tile.files_writeResult_sreg (t : Tile) (sl : Slot) (n : Nat) (v : Word) :
    (∀ f k, (t.writeResult sl (.sreg n v)).vreg f k = t.vreg f k) ∧ (∀ f k, (t.writeResult sl (.sreg n v)).xreg f k = t.xreg f k) ∧
    (∀ k, (t.writeResult sl (.sreg n v)).mreg k = t.mreg k) ∧ (∀ k, (t.writeResult sl (.sreg n v)).pred k = t.pred k) := by
  by_cases hn : n = 0
  · rw [Tile.writeResult_sreg, Regs.setS, if_pos hn]
    exact ⟨fun _ _ => rfl, fun _ _ => rfl, fun _ => rfl, fun _ => rfl⟩
  · rw [Tile.writeResult_sreg, Regs.setS, if_neg hn]
    exact ⟨fun _ _ => rfl, fun _ _ => rfl, fun _ => rfl, fun _ => rfl⟩

theorem Tile.readS_latch_writeResult_zero (t : Tile) (n : Nat) (v : Word) :
    (t.writeResult .s (.sreg n v)).readS (.latch 0) = some v := rfl

theorem Tile.readS_latch_writeResult_succ (t : Tile) (n : Nat) (v : Word) {k : Nat} (h : k < 7) :
    (t.writeResult .s (.sreg n v)).readS (.latch (k + 1)) = t.readS (.latch k) := by
  change (((some v :: t.latches.s).take 8)[k + 1]?).join = _
  rw [List.getElem?_take_of_lt (by omega), List.getElem?_cons_succ]
  rfl

/-! The three clauses. -/

/-- Before its tick a result changes no register. -/
theorem Tile.applyDue_early {t : Tile} {p : Pending} (h : OnlyResults t) (hi : t.inflight = [p]) (hd : t.tick < p.due) :
    t.applyDue.inflight = [p] ∧ ∀ k, t.applyDue.sreg k = t.sreg k := by
  obtain ⟨c, e⟩ := Tile.applyDue_plain (due := []) (rest := [p]) h (by simp [hi, hd]) (by simp [hi, hd]) (by simp)
  rw [e]
  exact ⟨rfl, fun _ => rfl⟩

/-- A scalar result that is due alone is the one write of its tick. -/
theorem Tile.applyDue_sreg {t : Tile} {p : Pending} {n : Nat} {v : Word} (h : OnlyResults t) (hi : t.inflight = [p])
    (he : p.eff = .sreg n v) (hd : p.due ≤ t.tick) :
    ∃ c, t.applyDue = ({ t with inflight := [], casc := c } : Tile).writeResult p.slot (.sreg n v) := by
  obtain ⟨c, e⟩ := Tile.applyDue_plain (due := [p]) (rest := []) h (by simp [hi, hd]) (by simp [hi, hd]) (by simp [he, Eff.isPlain])
  refine ⟨c, e.trans ?_⟩
  change Tile.writeResult { t with inflight := [], csrs := p.eff.control t.csrs, casc := c } p.slot p.eff = _
  rw [he]
  rfl

/-- Two results that are due together are written in the order of R72. -/
theorem Tile.applyDue_pair {t : Tile} {p q : Pending} (h : OnlyResults t) (hi : t.inflight = [p, q]) (hp : p.due ≤ t.tick)
    (hq : q.due ≤ t.tick) (ep : p.eff.isPlain = true) (eq : q.eff.isPlain = true) :
    ∃ c, t.applyDue = (inWriteOrder [p, q]).foldl (fun u p => u.writeResult p.slot p.eff)
      { t with inflight := [], csrs := q.eff.control (p.eff.control t.csrs), casc := c } :=
  Tile.applyDue_plain (due := [p, q]) (rest := []) h (by simp [hi, hp, hq]) (by simp [hi, hp, hq])
    (by simp [ep, eq])

/-- The value that remains is the one written last. -/
theorem Tile.applyDue_sreg_pair {t : Tile} {p q : Pending} {n : Nat} {v w : Word} (h : OnlyResults t) (hi : t.inflight = [p, q])
    (hp : p.due ≤ t.tick) (hq : q.due ≤ t.tick) (hn : 0 < n) (hb : n < 32) (ep : p.eff = .sreg n v) (eq : q.eff = .sreg n w)
    (hs : p.seq < q.seq) : t.applyDue.sreg n = if q.slot.rank < p.slot.rank then v else w := by
  obtain ⟨c, e⟩ := Tile.applyDue_pair h hi hp hq (ep ▸ rfl) (eq ▸ rfl)
  rw [e, inWriteOrder_pair hs]
  split
  · rw [List.foldl_cons, List.foldl_cons, List.foldl_nil, ep, Tile.sreg_writeResult_same _ _ _ hb, if_neg hn.ne']
  · rw [List.foldl_cons, List.foldl_cons, List.foldl_nil, eq, Tile.sreg_writeResult_same _ _ _ hb, if_neg hn.ne']

/-- A write of FPSR comes before the flags of its tick are merged in, whatever their slots. -/
theorem Tile.applyDue_fpsr {t : Tile} {p q : Pending} {v : Word} {sl : Slot} {f : Flags} (h : OnlyResults t)
    (hi : t.inflight = [p, q]) (hp : p.due ≤ t.tick) (hq : q.due ≤ t.tick) (ep : p.eff = .csr .fpsr v) (eq : q.eff = .flags sl f) :
    ∃ c, t.applyDue = { t with inflight := [], csrs := { t.csrs with fpsr := raiseFlags v sl f }, casc := c } := by
  obtain ⟨c, e⟩ := Tile.applyDue_pair h hi hp hq (ep ▸ rfl) (eq ▸ rfl)
  refine ⟨c, e.trans ?_⟩
  rcases inWriteOrder_pair_cases p q with ho | ho
  all_goals
    rw [ho, List.foldl_cons, List.foldl_cons, List.foldl_nil, ep, eq]
    rfl

/-- Settles O44: the tick is one write, two writes in the order of R72, or a control write before the flags. -/
theorem writesOfATick : Obligations.WritesOfATick := by
  unfold Obligations.WritesOfATick
  refine ⟨?one, ?two, ?flags⟩
  case one =>
    intro t p n v h hi hs he hn
    refine ⟨Tile.applyDue_early h hi, fun hd => ?_⟩
    obtain ⟨c, e⟩ := Tile.applyDue_sreg h hi he hd
    obtain ⟨hv, hx, hm, hp⟩ := Tile.files_writeResult_sreg { t with inflight := [], casc := c } .s n v
    rw [e, hs]
    exact ⟨rfl, Tile.sreg_writeResult_same _ _ _ hn, fun k hk => Tile.sreg_writeResult_other _ _ _ hk,
      Tile.readS_latch_writeResult_zero _ n v, fun k hk => Tile.readS_latch_writeResult_succ _ n v hk, hv, hx, hm, hp, rfl, rfl⟩
  case two =>
    intro t p q n v w h hi hp hq hn hb ep eq hs
    rw [Tile.applyDue_sreg_pair h hi hp hq hn hb ep eq hs]
    exact ⟨fun hr => if_neg (Nat.not_lt.mpr hr), fun hr => if_pos hr⟩
  case flags =>
    intro t p q v sl f h hi hp hq ep eq
    obtain ⟨c, e⟩ := Tile.applyDue_fpsr h hi hp hq ep eq
    rw [e]
    exact ⟨rfl, rfl, rfl⟩

end Sys2Proof.Machine
end

section
/-! PROOFS. Far loads and stores at their issue: what the checks of R142 let pass, and what the two shared operations answer. -/

namespace Sys2Proof.Machine

/-! The checks of an address (R142). -/

/-- A target to which a far access is sent whatever it is: virtual memory or a window. -/
def Target.sendable (k : Target) (off : Nat) : Prop := k = .virt off ∨ ∃ id, k = .window id off

theorem farLoadCheck_pass {t : Tile} {a n off : Nat} (ha : a % n = 0) (ht : (farTarget t.grid a).sendable off) :
    farLoadCheck t a n = none := by
  unfold farLoadCheck
  rw [if_neg (not_not.mpr ha)]
  rcases ht with e | ⟨id, e⟩ <;> rw [e]

theorem farStoreCheck_pass {t : Tile} {a n off : Nat} (ha : a % n = 0) (ht : (farTarget t.grid a).sendable off) :
    farStoreCheck t a n = none := by
  unfold farStoreCheck
  rw [if_neg (not_not.mpr ha)]
  rcases ht with e | ⟨id, e⟩ <;> rw [e]

theorem farLoadCheck_align {t : Tile} {a n : Nat} (ha : a % n ≠ 0) : farLoadCheck t a n = some (addrTrap .align t.iss.pos a) :=
  if_pos ha

theorem farStoreCheck_align {t : Tile} {a n : Nat} (ha : a % n ≠ 0) : farStoreCheck t a n = some (addrTrap .align t.iss.pos a) :=
  if_pos ha

theorem farLoadCheck_bad {t : Tile} {a n : Nat} (ha : a % n = 0) (ht : farTarget t.grid a = .bad) :
    farLoadCheck t a n = some (addrTrap .perm t.iss.pos a) := by
  unfold farLoadCheck
  rw [if_neg (not_not.mpr ha), ht]

theorem farStoreCheck_bad {t : Tile} {a n : Nat} (ha : a % n = 0) (ht : farTarget t.grid a = .bad) :
    farStoreCheck t a n = some (addrTrap .perm t.iss.pos a) := by
  unfold farStoreCheck
  rw [if_neg (not_not.mpr ha), ht]

/-! The reservation (R26). -/

theorem Tile.reserve_free {t : Tile} (hb : t.basinUsed < Config.basinEntries) (n : Nat) (d : LandDest) :
    t.reserve n d = .ok (t.land n d) :=
  if_neg (by simpa [Tile.basinFull] using hb)

theorem Tile.reserve_full {t : Tile} (hb : Config.basinEntries ≤ t.basinUsed) (n : Nat) (d : LandDest) :
    t.reserve n d = .hold .basin t.key.id :=
  if_pos (by simpa [Tile.basinFull] using hb)

/-! The two operations (R143, R144), with the guard on and the address readable. -/

section
variable {t : Tile} {h : Hdr} {a : Src} {x : Word} (hg : t.guarded h = true) (hx : t.readX a = some x) {align : Nat}
include hg hx

theorem Tile.farLoad_sent (hc : farLoadCheck t x.toNat align = none) (hb : t.basinUsed < Config.basinEntries) (n : Nat)
    (k : FarKind) (d : LandDest) : t.farLoad h a align n k d = .ok ((t.land n d).sendFar x.toNat k (some t.seq) none) := by
  simp only [Tile.farLoad, hg, hx, hc, Tile.reserve_free hb, if_true]

theorem Tile.farLoad_held (hc : farLoadCheck t x.toNat align = none) (hb : Config.basinEntries ≤ t.basinUsed) (n : Nat)
    (k : FarKind) (d : LandDest) : t.farLoad h a align n k d = .hold .basin t.key.id := by
  simp only [Tile.farLoad, hg, hx, hc, Tile.reserve_full hb, if_true]

theorem Tile.farLoad_trap {tr : Trap} (hc : farLoadCheck t x.toNat align = some tr) (n : Nat) (k : FarKind) (d : LandDest) :
    t.farLoad h a align n k d = .trap tr := by
  simp only [Tile.farLoad, hg, hx, hc, if_true]

theorem Tile.farStore_sent (hc : farStoreCheck t x.toNat align = none) (bs : List Byte) :
    t.farStore h a align bs = .ok (t.sendFar x.toNat (.store bs) none none) := by
  simp only [Tile.farStore, hg, hx, hc, if_true]

theorem Tile.farStore_trap {tr : Trap} (hc : farStoreCheck t x.toNat align = some tr) (bs : List Byte) :
    t.farStore h a align bs = .trap tr := by
  simp only [Tile.farStore, hg, hx, hc, if_true]

end

/-- Settles O33: each clause is one of the two operations behind its check. -/
theorem farAccesses : Obligations.FarAccesses := by
  unfold Obligations.FarAccesses
  intro s h f d n a x hg hx
  refine ⟨fun off ht => ⟨?fst, ?fstv, ?fld, ?fldv, ?held⟩, ?align, ?bad⟩
  case fst => exact fun ha => onTile_ok (Tile.farStore_sent hg hx (farStoreCheck_pass ha ht) _)
  case fstv => exact fun ha => onTile_ok (Tile.farStore_sent hg hx (farStoreCheck_pass ha ht) _)
  case fld => exact fun ha hb => onTile_ok (Tile.farLoad_sent hg hx (farLoadCheck_pass ha ht) hb _ _ _)
  case fldv => exact fun ha hb => onTile_ok (Tile.farLoad_sent hg hx (farLoadCheck_pass ha ht) hb _ _ _)
  case held => exact fun ha hb => onTile_hold (Tile.farLoad_held hg hx (farLoadCheck_pass ha ht) hb _ _ _)
  case align =>
    exact fun ha => ⟨onTile_trap (Tile.farLoad_trap hg hx (farLoadCheck_align ha) _ _ _),
      onTile_trap (Tile.farStore_trap hg hx (farStoreCheck_align ha) _)⟩
  case bad =>
    exact fun ha ht => ⟨onTile_trap (Tile.farLoad_trap hg hx (farLoadCheck_bad ha ht) _ _ _),
      onTile_trap (Tile.farStore_trap hg hx (farStoreCheck_bad ha ht) _)⟩

end Sys2Proof.Machine
end

section
/-! PROOFS. Landings, messages and waits: the events that bring a datum to its tile, write it at its due tick, or end a wait. -/

namespace Sys2Proof.Machine

/-! Far accesses of one unit of 8 bytes in virtual space. -/

theorem farTarget_virt {grid a va : Nat} (h : farTarget grid a = .virt va) : va = a := by
  unfold farTarget at h
  split at h
  · cases h
  · split at h
    · split at h <;> cases h
    · split at h
      · cases h
      · injection h with h
        exact h.symm

/-- The one unit of an access of 8 bytes in virtual space is the whole of it. -/
theorem FarOp.unitAt_zero {f : FarOp} {grid va : Nat} (hk : f.kind.size = 8) (ht : farTarget grid f.addr = .virt va) :
    f.unitAt grid 0 = (va, 8) := by
  rw [farTarget_virt ht, FarOp.unitAt, unitSize, ht, hk]
  simp [Target.unit]

theorem farTarget_unitAt {f : FarOp} {grid va : Nat} (hk : f.kind.size = 8) (ht : farTarget grid f.addr = .virt va) :
    farTarget grid (f.unitAt grid 0).1 = .virt va := by
  rw [FarOp.unitAt_zero hk ht, ← ht, farTarget_virt ht]

theorem FarOp.not_isWindow {f : FarOp} {grid va : Nat} (ht : farTarget grid f.addr = .virt va) : f.isWindow grid = false := by
  rw [FarOp.isWindow, ht]

@[simp] theorem State.inOrder_tickFresh (s : State) (t : Tile) (f : FarOp) (u : Nat) : s.tickFresh.inOrder t f u = s.inOrder t f u := rfl

theorem Tile.sent?_of_oneUnit {s : State} {t : Tile} {f : FarOp} (h : OneUnit s t f) : t.sent? f = true := by
  obtain ⟨hopen, -, -, hissue, -⟩ := h
  simp [Tile.sent?, hopen, hissue]

/-! Loads that the far-read buffer serves (R143, R145, R280). -/

section
variable {s : State} {t : Tile} {f : FarOp} {va : Nat} {bs : List Byte} (h : OneUnit s t f) (hk : f.kind = .load8)
  (ht : farTarget t.grid f.addr = .virt va) (hl : t.line va = some bs)
include h hk ht hl

theorem State.served_line : s.served t f 0 = some ((bs.drop (va % 256)).take 8) := by
  have hs : f.kind.size = 8 := by rw [hk]; rfl
  have hload : f.kind.isLoad = true := by rw [hk]; rfl
  obtain ⟨-, -, hord, -, -⟩ := h
  rw [State.served, hload, farTarget_unitAt hs ht]
  simp only [hord, hl, if_true, Option.map_some, FarOp.unitAt_zero hs ht]

/-- The one event of such a load is its service on the tile. -/
theorem State.farEvent_buffered :
    s.farEvent t f true = some (s.tickFresh.serveUnit t f 0 ((bs.drop (va % 256)).take 8)) := by
  have hserved := State.served_line h hk ht hl
  have hsent := Tile.sent?_of_oneUnit h
  obtain ⟨-, hleft, -, -, -⟩ := h
  simp [State.farEvent, hsent, hleft, hserved, State.pick_one]

/-- It goes to no home. -/
theorem State.farEvent_unbuffered : s.farEvent t f false = none := by
  have hs : f.kind.size = 8 := by rw [hk]; rfl
  have hload : f.kind.isLoad = true := by rw [hk]; rfl
  have hsent := Tile.sent?_of_oneUnit h
  obtain ⟨-, hleft, hord, -, -⟩ := h
  have hhits : s.hits t f 0 = true := by
    rw [State.hits, hload, hord, farTarget_unitAt hs ht]
    simp [hl]
  simp [State.farEvent, hsent, hleft, hhits]

end

/-- A unit served on the tile is translated as an access at the home is (R332). -/
theorem State.serveUnit_home {s s1 : State} {t : Tile} {f : FarOp} {va pa : Nat} {bs : List Byte} (hs : f.kind.size = 8)
    (ht : farTarget t.grid f.addr = .virt va) (hr : s.reach t.key.pasid (.farPath t.key.id) va .read = (s1, .home pa)) :
    s.serveUnit t f 0 bs =
      s1.onKey t.key fun v => if s.serverStruck t f 0 then v.failFar f .eccue else v.readUnit f 0 bs false := by
  rw [State.serveUnit, FarOp.unitAt_zero hs ht, hr]

theorem State.serveUnit_fault {s s1 : State} {t : Tile} {f : FarOp} {va : Nat} {c : Cause} {bs : List Byte} (hs : f.kind.size = 8)
    (ht : farTarget t.grid f.addr = .virt va) (hr : s.reach t.key.pasid (.farPath t.key.id) va .read = (s1, .fault c)) :
    s.serveUnit t f 0 bs = s1.onKey t.key fun v => v.failFar f c := by
  rw [State.serveUnit, FarOp.unitAt_zero hs ht, hr]

/-- Where the order lets the access be performed, the word that serves it is one of the buffer. -/
theorem State.serverStruck_inOrder {s : State} {t : Tile} {f : FarOp} {va : Nat} (hs : f.kind.size = 8)
    (ht : farTarget t.grid f.addr = .virt va) (ho : s.inOrder t f 0 = true) :
    s.serverStruck t f 0 = t.bufferBad.any fun g => overlaps (g * 8) 8 va 8 := by
  rw [State.serverStruck, if_pos ho, FarOp.unitAt_zero hs ht]

/-- An aligned word lies in its own granule. -/
theorem overlaps_granule {va : Nat} (h : va % 8 = 0) : overlaps (va / 8 * 8) 8 va 8 = true := by
  simp only [overlaps, Bool.and_eq_true, decide_eq_true_eq]
  omega

/-! LANDING_ARRIVAL. -/

theorem execLandingArrival_reply {s : State} {k : TileKey} {t : Tile} {n : Nat} {f : FarOp} (hk : s.tile? k = some t)
    (hf : t.farOp n = some f) (hd : f.stage = .done) (b : Bool) :
    execLandingArrival k n b s = .next (s.onKey k fun u => u.finishFar f (some f.reply)) :=
  State.onFar_some hk hf (by simp [hd]) (if_pos hd)

/-- A load that is still open has the event that its place brings. -/
theorem execLandingArrival_open {s u : State} {k : TileKey} {t : Tile} {n : Nat} {f : FarOp} {b : Bool} (hk : s.tile? k = some t)
    (hf : t.farOp n = some f) (ho : f.stage = .open) (hl : f.landing.isSome = true) (hw : f.isWindow t.grid = false)
    (he : s.farEvent t f b = some u) : execLandingArrival k n b s = .next u :=
  State.onFar_some hk hf (by simp [hl, hw]) (by simp [ho, he])

theorem execLandingArrival_none {s : State} {k : TileKey} {t : Tile} {n : Nat} {f : FarOp} {b : Bool} (hk : s.tile? k = some t)
    (hf : t.farOp n = some f) (ho : f.stage = .open) (he : s.farEvent t f b = none) :
    execLandingArrival k n b s = .refused .notEnabled := by
  simp [execLandingArrival, State.onFar, hk, hf, ho, he]

/-- What the far-read buffer does for a load of a word whose line it holds. -/
theorem execLandingArrival_buffer {s : State} {k : TileKey} {t : Tile} {n va : Nat} {f : FarOp} {bs : List Byte}
    (hk : s.tile? k = some t) (hf : t.farOp n = some f) (h : OneUnit s t f) (hl : f.landing.isSome = true) (h8 : f.kind = .load8)
    (ht : farTarget t.grid f.addr = .virt va) (hb : t.line va = some bs) :
    (∀ s1 pa, s.tickFresh.reach k.pasid (.farPath k.id) va .read = (s1, .home pa) →
      (t.bufferBad = [] → execLandingArrival k n true s =
        .next (s1.onKey k fun u => u.readUnit f 0 ((bs.drop (va % 256)).take 8) false)) ∧
      (va / 8 ∈ t.bufferBad → va % 8 = 0 → execLandingArrival k n true s = .next (s1.onKey k fun u => u.failFar f .eccue))) ∧
    (∀ s1 c, s.tickFresh.reach k.pasid (.farPath k.id) va .read = (s1, .fault c) →
      execLandingArrival k n true s = .next (s1.onKey k fun u => u.failFar f c)) ∧
    execLandingArrival k n false s = .refused .notEnabled := by
  have hs : f.kind.size = 8 := by rw [h8]; rfl
  have hstruck := State.serverStruck_inOrder (s := s.tickFresh) hs ht h.2.2.1
  have harrive := execLandingArrival_open hk hf h.1 hl (FarOp.not_isWindow ht) (State.farEvent_buffered h h8 ht hb)
  obtain rfl := State.tile?_key hk
  refine ⟨fun s1 pa hr => ⟨fun hbad => ?_, fun hbad ha => ?_⟩, fun s1 c hr => ?_, ?_⟩
  · rw [harrive, State.serveUnit_home hs ht hr, hstruck, hbad]
    rfl
  · have hany : (t.bufferBad.any fun g => overlaps (g * 8) 8 va 8) = true :=
      List.any_eq_true.mpr ⟨_, hbad, overlaps_granule ha⟩
    rw [harrive, State.serveUnit_home hs ht hr, hstruck, hany]
    rfl
  · rw [harrive, State.serveUnit_fault hs ht hr]
  · exact execLandingArrival_none hk hf h.1 (State.farEvent_unbuffered h h8 ht hb)

/-! LANDING_DUE (R22). -/

section
variable {s : State} {k : TileKey} {t : Tile} {l : Landing} {f : CFile} {d : Nat} (hk : s.tile? k = some t) (hl : t.landings = [l])
  (hd : l.due ≤ t.tick) (hf : l.dest = .far f d)
include hk hl hd hf

omit hk hf in
theorem Tile.landingsDue_one : t.landingsDue = [l] := by simp [Tile.landingsDue, hl, hd]

theorem execLandingDue_written {v : Word} (hg : l.got = some (.word v none)) :
    execLandingDue k s = .next (s.setTile { t with landings := [], regs := t.regs.setX f d v }) := by
  have hdue := Tile.landingsDue_one hl hd
  have hhold : t.landingHold = none := by simp [Tile.landingHold, hdue, Tile.arrived, hf, hg]
  have hfault : t.faultsLanding = (t, []) := by simp [Tile.faultsLanding, hdue, Tile.landingFault, hf, hg]
  have hwrite : t.writeLanding l = { t with landings := [], regs := t.regs.setX f d v } := by
    simp [Tile.writeLanding, hf, hg, hl, Arrival.value]
  refine State.onNamed_some hk ?_
  simp only [hdue, hhold, hfault, List.isEmpty_cons, List.foldl_cons, List.foldl_nil, List.take_nil, List.map_nil, hwrite]
  rfl

theorem execLandingDue_held (hg : l.got = none) : execLandingDue k s = .next (s.holdAt k .landing false) := by
  have hdue := Tile.landingsDue_one hl hd
  have hhold : t.landingHold = some false := by simp [Tile.landingHold, hdue, Tile.arrived, hf, hg, LandDest.isRecv]
  refine State.onNamed_some hk ?_
  simp [hdue, hhold]

end

/-! MESSAGE_ARRIVAL (R27). -/

theorem execMessageArrival_skid {s : State} {k : TileKey} {t : Tile} {m : Message} {rest : List Message} (hk : s.tile? k = some t)
    (hs : t.skid = m :: rest) (hb : t.basinFull = false) :
    execMessageArrival k m.src m.chan s = .next (s.onKey k fun u => { u with skid := rest, basin := u.basin ++ [m] }) := by
  simp [execMessageArrival, hk, hs, hb]

theorem execMessageArrival_link {s : State} {k : TileKey} {t : Tile} {l : Launch} {m : Message} {more : List Message}
    (hk : s.tile? k = some t) (hs : t.skid = []) (hb : t.basinFull = false) (hl : s.launch? t.launchKey = some l)
    (hm : l.links = m :: more) (hd : m.dst = k.id) (hc : t.cancelled m = false) :
    execMessageArrival k m.src m.chan s =
      .next ((s.setLaunch { l with links := more }).onKey k fun u => { u with basin := u.basin ++ [m] }) := by
  have hkey := State.tile?_key hk
  simp [execMessageArrival, hk, hs, State.linkArrival, hl, hm, hkey, hd, hc, hb, Launch.unlink]

/-! Waits (R292). -/

/-- A wait that is no BAR on a local word does not look at one as a tick begins. -/
theorem Tile.lookWaits_one {t : Tile} {w : Wait} (hw : t.waits = [w]) (hk : ∀ a g r m, w.kind ≠ .bar true a g r m) :
    t.lookWaits = t := by
  rw [Tile.lookWaits, hw, List.map_singleton]
  split
  · exact absurd ‹_› (hk _ _ _ _)
  · rw [← hw]

/-- A tile that waits in no GANG forms none. -/
theorem State.formGang_none {s : State} {k : TileKey} {t : Tile} (hk : s.tile? k = some t) (hg : t.gangWait = none) :
    s.formGang k = s := by
  rw [State.formGang, hk]
  simp only [hg]

@[simp] theorem Tile.endWait_key (t : Tile) (bs : List Binding) (w : Wait) : (t.endWait bs w).key = t.key := by
  unfold Tile.endWait
  split <;> rfl

/-- The ends of some waits leave the tile its name. -/
theorem Tile.endWaits_key (t : Tile) (bs : List Binding) (ws : List Wait) : (ws.foldl (fun u w => u.endWait bs w) t).key = t.key :=
  foldl_keep (P := fun u : Tile => u.key = t.key) ws rfl fun u w _ h => (u.endWait_key bs w).trans h

section
variable {s : State} {k : TileKey} {t : Tile} {w : Wait} (hk : s.tile? k = some t) (hw : t.waits = [w]) (hd : w.due ≤ t.tick)
include hk hw hd

/-- The event on a tile of one due wait that is of its own tick or a FENCE. -/
theorem execWaitDueTick_one (hb : ∀ a g r m, w.kind ≠ .bar true a g r m) (hg : ∀ f n b, w.kind ≠ .gang f n b) :
    execWaitDueTick k s =
      if (s.setTile t).waitHeld t then .next ((s.setTile t).holdAt k .wait false)
      else if (s.setTile t).waitsOver t then .next ((s.setTile t).endWaits k) else .refused .notEnabled := by
  have hgang : t.gangWait = none := by
    rw [Tile.gangWait, hw, List.findSome?_singleton]
    split
    · exact absurd ‹_› (hg _ _ _)
    · rfl
  have hset := State.tile?_setTile t (State.tile?_key hk) hk
  rw [execWaitDueTick, State.onNamed, hk]
  simp only [Tile.lookWaits_one hw hb, State.formGang_none hset hgang, hset]
  simp only [hw, List.any_cons, List.any_nil, hd, decide_true, Bool.true_or, Bool.not_true, List.isEmpty_cons]
  by_cases h1 : (s.setTile t).waitHeld t
  · simp [h1]
  · by_cases h2 : (s.setTile t).waitsOver t <;> simp [h1, h2]

/-- The end of a WAITT, which has no condition but its tick (R302). -/
theorem execWaitDueTick_tick (hkind : w.kind = .tick) : execWaitDueTick k s = .next ((s.setTile t).endWaits k) := by
  have hmet : (s.setTile t).waitMet t w = true := by rw [State.waitMet, hkind]
  rw [execWaitDueTick_one hk hw hd (by simp [hkind]) (by simp [hkind]), if_neg (by simp [State.waitHeld, hw, hmet]),
    if_pos (by simp [State.waitsOver, hw, hd, hmet])]

/-- A FENCE whose scope still holds an open access freezes the domain (R298). -/
theorem execWaitDueTick_fence {sc : Scope} {g : Nat × Nat} {n : Nat} (hkind : w.kind = .fence sc g n)
    (ho : (s.setTile t).openBefore t g sc n true = true) :
    execWaitDueTick k s = .next ((s.setTile t).holdAt k .wait false) := by
  have hmet : (s.setTile t).waitMet t w = false := by simp [State.waitMet, hkind, ho]
  rw [execWaitDueTick_one hk hw hd (by simp [hkind]) (by simp [hkind]),
    if_pos (by simp [State.waitHeld, hw, hd, Wait.patient, hkind, hmet])]

omit hd in
/-- Waits that end leave a tile without waits, and one of its own tick touches nothing else. -/
theorem State.tile?_endWaits_tick (hkind : w.kind = .tick) :
    ((s.setTile t).endWaits k).tile? k = some { t with waits := [] } := by
  have hset := State.tile?_setTile t (State.tile?_key hk) hk
  rw [State.endWaits, State.tile?_onKey_same _ (fun u => ?key) hset]
  case key => exact u.endWaits_key _ _
  simp only [hw, List.foldl_cons, List.foldl_nil, Tile.endWait, hkind]

end

/-! WAIT_CONDITION_MET (R24, R297). -/

/-- The read of an ACQ at the home of its word, which no line of the buffer serves. -/
theorem execWaitConditionMet_acq {s s1 : State} {k : TileKey} {t : Tile} {w : Wait} {f : FarOp} {b n va pa : Nat}
    (hk : s.tile? k = some t) (hw : t.waits = [w]) (hn : w.fault = none) (hkind : w.kind = .acq b n false) (hf : t.far = [f])
    (hfw : f.wait = some w.num) (h : OneUnit s t f) (hacq : f.kind = .acq) (ht : farTarget t.grid f.addr = .virt va)
    (hr : s.tickFresh.tickFresh.reach k.pasid (.farPath k.id) va .read = (s1, .home pa)) (hp : s1.hbmPoisoned pa 8 = false) :
    execWaitConditionMet k s = .next (s1.onKey k fun u => (u.dropLine va).acqRead f (Mem.readNat s1.hbm pa 8)) := by
  have hs : f.kind.size = 8 := by rw [hacq]; rfl
  have hreading : t.waits.filter Wait.reading = [w] := by simp [hw, Wait.reading, hn, hkind]
  have hsent := Tile.sent?_of_oneUnit h
  obtain ⟨-, hleft, hord, -, hbad⟩ := h
  have hhits : s.tickFresh.hits t f 0 = false := by simp [State.hits, hacq, FarKind.isLoad]
  have hunit : s.tickFresh.tickFresh.farUnit t f 0 =
      some (s1.onKey k fun u => (u.dropLine va).acqRead f (Mem.readNat s1.hbm pa 8)) := by
    obtain rfl := State.tile?_key hk
    simp only [State.farUnit, hbad, Bool.false_eq_true, if_false, farTarget_unitAt hs ht, hacq, FarKind.access, hr, State.homeUnit, hp]
  have hevent : s.tickFresh.farEvent t f false =
      some (s1.onKey k fun u => (u.dropLine va).acqRead f (Mem.readNat s1.hbm pa 8)) := by
    simp [State.farEvent, hsent, hleft, hord, hhits, State.pick_one, hunit]
  refine State.onNamed_some hk ?_
  simp [hreading, State.pick_one, hkind, hf, hfw, hevent]

/-- With nothing left to read, the freeze of a domain whose ACQ is met ends. -/
theorem execWaitConditionMet_thaw {s : State} {k : TileKey} {t : Tile} {w : Wait} {b n : Nat} (hk : s.tile? k = some t)
    (hw : t.waits = [w]) (hkind : w.kind = .acq b n true) (hf : t.freeze.isSome = true) :
    execWaitConditionMet k s = .next (s.onKeys (s.domainOf k) fun u => { u with freeze := none }) := by
  have hreading : t.waits.filter Wait.reading = [] := by simp [hw, Wait.reading, hkind]
  have hlook := Tile.lookWaits_one hw (by simp [hkind])
  have hheld : s.waitHeld t = false := by simp [State.waitHeld, hw, State.waitMet, hkind]
  refine State.onNamed_some hk ?_
  dsimp only
  rw [hreading, hlook, hheld, hf, hw]
  rfl

/-! ACQ_PASS_LIMIT (R297). -/

theorem execAcqPassLimit_reached {s : State} {k : TileKey} {t : Tile} {w : Wait} {b n p : Nat} (hk : s.tile? k = some t)
    (hw : w ∈ t.waits) (hkind : w.kind = .acqRill b n none p) (hp : 65536 ≤ p) :
    execAcqPassLimit k s = .next (State.raise .every 1 [(k, deadlockTrap .wait k.id, none)] s) := by
  have hlimit : t.passLimit = true := List.any_eq_true.mpr ⟨w, hw, by simp [hkind, hp]⟩
  exact State.onNamed_some hk (if_pos hlimit)

/-- Settles O48: each clause is one event of the table under its trigger. -/
theorem landingsAndWaits : Obligations.LandingsAndWaits := by
  unfold Obligations.LandingsAndWaits
  intro s k t hk
  refine ⟨?reply, ?buffer, ?due, ?skid, ?link, ?tick, ?fence, ?acq, ?thaw, ?limit, ?deadlock⟩
  case reply => exact fun n f b hf hd => execLandingArrival_reply hk hf hd b
  case buffer => exact fun n f va bs hf h hl h8 ht hb => execLandingArrival_buffer hk hf h hl h8 ht hb
  case due =>
    exact fun l f d v hl hd hf => ⟨execLandingDue_written hk hl hd hf, execLandingDue_held hk hl hd hf⟩
  case skid => exact fun m rest hs hb => execMessageArrival_skid hk hs hb
  case link => exact fun l m more hs hb hl hm hd hc => execMessageArrival_link hk hs hb hl hm hd hc
  case tick =>
    exact fun w hw hd hkind => ⟨_, execWaitDueTick_tick hk hw hd hkind, State.tile?_endWaits_tick hk hw hkind, rfl, rfl⟩
  case fence => exact fun w sc g n hw hd hkind ho => execWaitDueTick_fence hk hw hd hkind ho
  case acq =>
    exact fun w f b n va s1 pa hw hn hkind hf hfw h hacq ht hr hp =>
      execWaitConditionMet_acq hk hw hn hkind hf hfw h hacq ht hr hp
  case thaw => exact fun w b n hw _ hkind hf => execWaitConditionMet_thaw hk hw hkind hf
  case limit => exact fun w b n p hw hkind hp => execAcqPassLimit_reached hk hw hkind hp
  case deadlock => exact fun f hf => State.onNamed_some hk (by simp [hf])

end Sys2Proof.Machine
end

section
/-! PROOFS. What a syllable leaves of its tile's phase: a tile at work stays at work, and an EXIT retires it. -/

namespace Sys2Proof.Machine

theorem judge_encodes {rs : List (Option Illegal)} {i j : Instr} (q : (encode i).isSome = true) (h : judge rs i = .ok j) :
    (encode j).isSome = true := (judge_ok h).1 ▸ q

/-- What a word decodes to is a syllable, which has a word. -/
theorem decodeWord_encodes {w : Nat} {i : Instr} (h : decodeWord w = .ok i) : (encode i).isSome = true := by
  simp only [decodeWord, decodeMaj0, decodeMaj1, decodeMaj2, decodeMaj3, decodeMaj4, decodeMaj5, decodeMaj6, decodeMaj7,
    decodeMaj8, decodeMaj9, decodeMaj10, decodeMaj11, decodeMaj12, decodeMaj13, decodeMaj14, decodeMaj15, decodeMaj16,
    decodeMaj17, decodeMaj18, decodeMaj19, decodeMaj20, decodeMaj21, decodeMaj22, decodeMaj23, decodeMaj24, decodeMaj25,
    decodeMaj26, decodeMaj27, decodeMaj28, decodeMaj29, decodeMaj30, decodeMaj31, decodeMaj32, decodeMaj33, decodeMaj34,
    decodeMaj35, decodeMaj36, decodeMaj37, decodeMaj38, decodeMaj39, decodeMaj40, decodeMaj41, decodeMaj42, decodeMaj43,
    decodeMaj44, decodeMaj45, decodeMaj46, decodeMaj47, decodeMaj48, decodeMaj49, decodeMaj50, decodeMaj51, decodeMaj52,
    decodeMaj53, decodeMaj54, decodeMaj55, decodeMaj56, decodeMaj57, decodeMaj58, decodeMaj59, decodeMaj60, decodeMaj61] at h
  repeat' split at h
  all_goals first | exact judge_encodes rfl h | cases h

/-! A trap is entered: the tile in focus keeps its name, and its issue record holds the trap. -/

@[simp] theorem State.setQword_tile (s : State) (q : Queue) (i v : Nat) : (s.setQword q i v).tile = s.tile := rfl

theorem State.queueErrorNow_tile (s : State) (q : Queue) (a b c d e : Nat) : (s.queueErrorNow q a b c d e).tile = s.tile := by
  simp only [State.queueErrorNow, State.setQstate, State.setQword_tile]

theorem State.errorQueues_tile (s : State) (p : Nat) (m : Option Nat) (a b c d e : Nat) :
    (s.errorQueues p m a b c d e).tile = s.tile := by
  simp only [State.errorQueues]
  refine foldl_keep (P := fun x : State => x.tile = s.tile) _ rfl fun x q _ hx => ?_
  split <;> exact (State.queueErrorNow_tile _ _ _ _ _ _ _).trans hx

theorem State.endLaunch_tile (s : State) (l : Launch) (a b c : Nat) : (s.endLaunch l a b c).tile = s.tile := by
  unfold State.endLaunch
  split <;> rfl

theorem State.armed_endLaunch_tile (s : State) (l : Launch) (a b c : Nat) :
    (s.armed l fun x _ m => x.endLaunch m a b c).tile = s.tile := by
  unfold State.armed
  split
  · exact State.endLaunch_tile _ _ _ _ _
  · rfl

theorem State.discardLaunches_tile (s : State) (p : Nat) (n : Option Nat) (c : Nat) : (s.discardLaunches p n c).tile = s.tile := by
  simp only [State.discardLaunches]
  refine foldl_keep (P := fun x : State => x.tile = s.tile) _ rfl fun x l _ hx => ?_
  split
  · split <;> exact (State.endLaunch_tile _ _ _ _ _).trans hx
  · split
    · exact (State.armed_endLaunch_tile _ _ _ _ _).trans hx
    · exact hx

theorem State.abandonPreempt_tile (s : State) (p : Nat) : (s.abandonPreempt p).tile = s.tile := by
  unfold State.abandonPreempt
  repeat' split
  all_goals rfl

theorem State.contextFault_key (s : State) (k : TileKey) (c : Nat) (pc info : Word) :
    (s.contextFault k c pc info).tile.key = s.tile.key := by
  simp only [State.contextFault, State.abandonPreempt_tile, State.discardLaunches_tile, State.errorQueues_tile, State.mapTiles]
  split <;> rfl

theorem Tile.dropFault_key (t : Tile) (r : Report) : (t.dropFault r).key = t.key := by
  unfold Tile.dropFault
  repeat' split
  all_goals rfl

theorem Tile.saveStream_key (t : Tile) (a b c d e f : Nat) : (t.saveStream a b c d e f).key = t.key := by
  unfold Tile.saveStream
  repeat' split
  all_goals rfl

theorem Tile.unwind_key (t : Tile) (l h : Nat) (r : Report) : (t.unwind l h r).key = t.key := by
  simp only [Tile.unwind, Tile.dropLandings, Tile.switchTo, Tile.endWaits, Tile.flushFormats, Tile.dropFault_key]

theorem Tile.enter_key (t : Tile) (h : Nat) (r : Report) : (t.enter h r).key = t.key := by
  simp only [Tile.enter, Tile.switchTo, Tile.endWaits, Tile.flushFormats, Tile.dropFault_key]

theorem State.enterTraps_key (s : State) (k : TileKey) (rs : List (Nat × Trap × Option Nat)) :
    (s.enterTraps k rs).tile.key = s.tile.key := by
  unfold State.enterTraps
  split
  · dsimp only
    split
    · simp only [State.mapTiles]
      split
      · rw [Tile.saveStream_key, Tile.unwind_key]
      · rfl
    · split
      · exact State.contextFault_key _ _ _ _ _
      · simp only [State.mapTiles]
        split
        · rw [Tile.saveStream_key, Tile.enter_key]
        · rfl
  · rfl

theorem State.takeTrap_trapped (s : State) (tr : Trap) : ¬ (s.takeTrap tr).untrapped := by
  simp [State.untrapped, State.takeTrap, State.onKey, State.mapTiles, State.enterTraps_key]

/-! The phase of a tile under the shared forms. -/

@[simp] theorem Tile.putS_phase (t : Tile) (n : Nat) (d : Dest) (v : Word) : (t.putS n d v).phase = t.phase := by cases d <;> rfl
@[simp] theorem Tile.putX_phase (t : Tile) (n : Nat) (d : Dest) (v : Word) : (t.putX n d v).phase = t.phase := by cases d <;> rfl
@[simp] theorem Tile.putV_phase (t : Tile) (n : Nat) (d : Dest) (v : VReg) : (t.putV n d v).phase = t.phase := by cases d <;> rfl
@[simp] theorem Tile.putFormat_phase (t : Tile) (v : Word) : (t.putFormat v).phase = t.phase := rfl
@[simp] theorem Tile.link_phase (t : Tile) : t.link.phase = t.phase := rfl
@[simp] theorem Tile.clearInh_phase (t : Tile) : t.clearInh.phase = t.phase := rfl
@[simp] theorem Tile.endOp_phase (t : Tile) (o : MxOp) : (t.endOp o).phase = t.phase := rfl
@[simp] theorem Tile.enqueue_phase (t : Tile) (q : Nat) (ws : List Word) : (t.enqueue q ws).phase = t.phase := rfl

@[simp] theorem Tile.putFlags_phase (t : Tile) (n : Nat) (sl : Slot) (f : Flags) : (t.putFlags n sl f).phase = t.phase := by
  unfold Tile.putFlags
  split <;> rfl

@[simp] theorem Tile.putLanes_phase (t : Tile) (c : VCtx) (n : Nat) (d : Dest) (l : List (Nat × Flags)) :
    (t.putLanes c n d l).phase = t.phase := by
  simp only [Tile.putLanes, Tile.putFlags_phase, Tile.putV_phase]

@[simp] theorem Tile.putCsr_phase (t : Tile) (c : Csr) (v : Word) : (t.putCsr c v).phase = t.phase := by cases c <;> rfl

@[simp] theorem Tile.fallThrough_phase (t : Tile) : t.fallThrough.phase = t.phase := by
  unfold Tile.fallThrough
  split <;> rfl

@[simp] theorem Tile.jumpTo_phase (t : Tile) (a : Int) (j : Bool) : (t.jumpTo a j).phase = t.phase := by
  unfold Tile.jumpTo
  split <;> rfl

@[simp] theorem Tile.callTo_phase (t : Tile) (a : Int) : (t.callTo a).phase = t.phase := by
  unfold Tile.callTo
  split <;> rfl

@[simp] theorem Tile.enterLoop_phase (t : Tile) (l n a : Nat) : (t.enterLoop l n a).phase = t.phase := by
  unfold Tile.enterLoop
  dsimp only
  repeat' split
  all_goals rfl

@[simp] theorem Tile.restream_phase (t : Tile) (pc : Nat) : (t.restream pc).phase = t.phase := by
  unfold Tile.restream
  split
  · rfl
  · split <;> rfl

@[simp] theorem Tile.ret_phase (t : Tile) : t.ret.phase = t.phase := by
  unfold Tile.ret
  dsimp only
  split
  · exact t.clearInh.restream_phase _
  · rfl

@[simp] theorem Tile.claim_phase (t : Tile) (k : Nat) : (t.claim k).1.phase = t.phase := by
  unfold Tile.claim
  dsimp only
  split <;> rfl

/-- An effect of a syllable keeps the phase of its tile. -/
def Res.Steady (t : Tile) : Res → Prop
  | .ok u => u.phase = t.phase
  | _ => True

@[simp] theorem Res.steady_ok (t u : Tile) : (Res.ok u).Steady t ↔ u.phase = t.phase := Iff.rfl
@[simp] theorem Res.steady_trap (t : Tile) (tr : Trap) : (Res.trap tr).Steady t := trivial
@[simp] theorem Res.steady_hold (t : Tile) (c : FreezeCause) (n : Nat) : (Res.hold c n).Steady t := trivial

section
variable (t : Tile) (h : Hdr)

theorem Tile.scalar2_steady (d : Dest) (a b : Src) (n : Nat) (f : Word → Word → Word) : (t.scalar2 h d a b n f).Steady t := by
  unfold Tile.scalar2
  repeat' split
  all_goals simp

theorem Tile.scalar1_steady (d : Dest) (a : Src) (n : Nat) (f : Word → Word) : (t.scalar1 h d a n f).Steady t := by
  unfold Tile.scalar1
  repeat' split
  all_goals simp

theorem Tile.compare_steady (d : Nat) (a b : Src) (f : Word → Word → Bool) : (t.compare h d a b f).Steady t := by
  unfold Tile.compare
  repeat' split
  all_goals simp

theorem Tile.predOp_steady (d : Nat) (v : Word) : (t.predOp h d v).Steady t := by
  unfold Tile.predOp
  split <;> simp

theorem Tile.csrWrite_steady (c : Csr) (v : Word) : (t.csrWrite h c v).Steady t := by
  unfold Tile.csrWrite
  repeat' split
  all_goals simp

@[simp] theorem Tile.loopOver_steady (l n : Nat) (a : Src) (on : Bool) : (t.loopOver l n a on).Steady t := by
  unfold Tile.loopOver
  repeat' split
  all_goals simp

theorem Tile.copyIn_steady (d : Dest) (v : Option Word) : (t.copyIn h d v).Steady t := by
  unfold Tile.copyIn
  repeat' split
  all_goals simp

theorem Tile.copyOut_steady (d : Dest) (a : Src) (e : Nat → Word → Eff) : (t.copyOut h d a e).Steady t := by
  unfold Tile.copyOut
  repeat' split
  all_goals simp

theorem Tile.copyLane_steady (d : Dest) (a : Src) (f : VFile) (n : Nat) : (t.copyLane h d a f n).Steady t := by
  unfold Tile.copyLane
  split
  · split
    · simp
    · cases d <;> simp
  · simp

theorem Tile.vec0_steady (d : Dest) (n : Nat) (ok : Fmt → Bool) (f : VCtx → List (Nat × Flags)) : (t.vec0 h d n ok f).Steady t := by
  unfold Tile.vec0
  dsimp only
  split <;> simp

theorem Tile.vec1_steady (d : Dest) (a : Src) (n : Nat) (ok : Fmt → Bool) (f : VCtx → List Nat → List (Nat × Flags)) :
    (t.vec1 h d a n ok f).Steady t := by
  unfold Tile.vec1
  dsimp only
  repeat' split
  all_goals simp

theorem Tile.vec2_steady (d : Dest) (a b : Src) (n : Nat) (ok : Fmt → Bool) (f : VCtx → List Nat → List Nat → List (Nat × Flags)) :
    (t.vec2 h d a b n ok f).Steady t := by
  unfold Tile.vec2
  dsimp only
  repeat' split
  all_goals simp

theorem Tile.vec3_steady (d : Nat) (a b : Src) (n : Nat) (f : VCtx → Nat → Nat → Nat → Nat × Flags) :
    (t.vec3 h d a b n f).Steady t := by
  unfold Tile.vec3
  dsimp only
  repeat' split
  all_goals simp

theorem Tile.vecCompare_steady (d : Nat) (a b : Src) (ok : Fmt → Bool) (f : VCtx → Nat → Nat → Bool × Flags) :
    (t.vecCompare h d a b ok f).Steady t := by
  unfold Tile.vecCompare
  dsimp only
  repeat' split
  all_goals simp

theorem Tile.vecDot_steady (d : Nat) (a b : Src) (f : VCtx → Nat → Nat → Nat → Nat × Flags) : (t.vecDot h d a b f).Steady t := by
  unfold Tile.vecDot
  dsimp only
  repeat' split
  all_goals simp

theorem Tile.convert_steady (d : Dest) (a : Src) (f : Fmt) (r : RndOvr) (sat : Bool) : (t.convert h d a f r sat).Steady t := by
  unfold Tile.convert
  dsimp only
  repeat' split
  all_goals simp

/-! What adds a landing, a far access or an operation of an engine. -/

@[simp] theorem Tile.reserve_steady (n : Nat) (d : LandDest) : (t.reserve n d).Steady t := by
  unfold Tile.reserve
  split <;> simp

theorem Tile.reserve_ok_phase {t u : Tile} {n : Nat} {d : LandDest} (e : t.reserve n d = .ok u) : u.phase = t.phase := by
  simpa [e] using t.reserve_steady n d

theorem Tile.farLoad_steady (a : Src) (al n : Nat) (k : FarKind) (d : LandDest) : (t.farLoad h a al n k d).Steady t := by
  unfold Tile.farLoad
  split
  · split
    · simp
    · split
      · simp
      · split
        · simp [Tile.reserve_ok_phase ‹_›]
        · exact t.reserve_steady n d
  · simp

theorem Tile.farStore_steady (a : Src) (al : Nat) (bs : List Byte) : (t.farStore h a al bs).Steady t := by
  unfold Tile.farStore
  repeat' split
  all_goals simp

theorem Tile.atomic_steady (a : Nat) (op : AtomOp) (v v2 : Word) (d p : Option Nat) (o : Bool) : (t.atomic a op v v2 d p o).Steady t := by
  unfold Tile.atomic
  dsimp only
  split
  · simp
  · split
    · simp
    · split
      · split
        · simp [Tile.reserve_ok_phase ‹_›]
        · exact t.reserve_steady _ _
      · simp

theorem Tile.atom1_steady (d : Dest) (a b : Src) (op : AtomOp) (o : Bool) : (t.atom1 h d a b op o).Steady t := by
  unfold Tile.atom1
  split
  · split
    · exact t.atomic_steady _ _ _ _ _ _ _
    · simp
  · simp

theorem Tile.atom2_steady (d p : Option Nat) (a : Src) (b : Nat) (op : AtomOp) : (t.atom2 h d p a b op).Steady t := by
  unfold Tile.atom2
  split
  · split
    · exact t.atomic_steady _ _ _ _ _ _ _
    · simp
  · simp

@[simp] theorem Tile.ringAccess_steady (fn : Nat) (a : Word) (k : RillKind) (d : Option LandDest) : (t.ringAccess fn a k d).Steady t := by
  unfold Tile.ringAccess
  dsimp only
  split
  · simp
  · split
    · simp
    · split
      · simp [Tile.reserve_ok_phase ‹_›]
      · exact t.reserve_steady _ _

theorem Tile.ringUpdate_steady (fn : Nat) (d : Dest) (a b : Src) (k : Word → RillKind) : (t.ringUpdate h fn d a b k).Steady t := by
  unfold Tile.ringUpdate
  split
  · split
    · exact t.ringAccess_steady _ _ _ _
    · simp
  · simp

@[simp] theorem Tile.acquire_steady (bs : List Binding) (k : Nat) (a : Src) (b : Nat) : (t.acquire bs k a b).Steady t := by
  unfold Tile.acquire
  repeat' split
  all_goals simp

@[simp] theorem Tile.release_steady (bs : List Binding) (b : Nat) : (t.release bs b).Steady t := by
  unfold Tile.release
  repeat' split
  all_goals simp

theorem Tile.settle_steady {r : Res} (e : t.settle = some r) : r.Steady t := by
  unfold Tile.settle at e
  repeat' split at e
  all_goals cases e <;> simp

@[simp] theorem Tile.mxQueue_steady (o : MxOp) : (t.mxQueue o).Steady t := by
  unfold Tile.mxQueue
  repeat' split
  all_goals simp

theorem Tile.mxGo_steady (g : Bool) : (t.mxGo h g).Steady t := by
  unfold Tile.mxGo
  dsimp only
  split
  · split
    · simp
    · split
      · simp
      · exact t.mxQueue_steady _
  · simp

theorem Tile.subtree_steady (down : Bool) (a : MSrc) : (t.subtree h down a).Steady t := by
  unfold Tile.subtree
  dsimp only
  repeat' split
  all_goals simp

@[simp] theorem Tile.transferRows_steady (a : Option Nat) (r : Word) (k : XferKind) : (t.transferRows a r k).Steady t := by
  unfold Tile.transferRows
  dsimp only
  repeat' split
  all_goals simp

end

/-! The phase of the tile in focus after a syllable, and the other tiles. -/

/-- A tile at work, or one that has just retired. -/
def Tile.AtWork (t : Tile) : Prop := t.phase = .running ∨ t.phase = .retired

theorem Tile.AtWork.of_phase {t u : Tile} (w : t.AtWork) (e : u.phase = t.phase) : u.AtWork := by
  rwa [Tile.AtWork, e]

/-- The tile in focus is at work, and so is every other tile of a key. -/
def State.AtWork (s : State) (k : TileKey) : Prop := s.tile.AtWork ∧ ∀ t ∈ s.others, t.key = k → t.AtWork

theorem onTile_ok_of_untrapped {f : Tile → Res} {s v : State} (e : onTile f s = .next v) (ht : v.untrapped)
    (hh : v.tile.iss.held = none) : ∃ t, f s.tile = .ok t ∧ v = { s with tile := t } := by
  obtain ⟨t, hf, hv⟩ | ⟨tr, -, rfl⟩ | ⟨c, n, -, rfl⟩ := onTile_cases e
  · exact ⟨t, hf, hv⟩
  · exact absurd ht (s.takeTrap_trapped tr)
  · cases hh

theorem onTile_atWork {f : Tile → Res} {s v : State} {k : TileKey} (e : onTile f s = .next v) (ht : v.untrapped)
    (hh : v.tile.iss.held = none) (w : s.AtWork k) (hf : ∀ t, (f t).Steady t) : v.AtWork k := by
  obtain ⟨t, ho, rfl⟩ := onTile_ok_of_untrapped e ht hh
  exact ⟨w.1.of_phase (by simpa [ho] using hf s.tile), w.2⟩

end Sys2Proof.Machine
end

section
/-! PROOFS. Every syllable leaves a tile at work: the table of the instructions, by their shared forms. -/

namespace Sys2Proof.Machine

theorem Tile.retire_atWork (t : Tile) : t.retire.AtWork := .inr rfl

/-- An EXIT retires the tile, or leaves its phase. -/
theorem execExit_atWork {h : Hdr} {s v : State} {k : TileKey} (e : execExit h s = .next v) (ht : v.untrapped)
    (hh : v.tile.iss.held = none) (w : s.AtWork k) : v.AtWork k := by
  obtain ⟨t, ho, rfl⟩ := onTile_ok_of_untrapped e ht hh
  refine ⟨?_, w.2⟩
  split at ho
  · split at ho
    · next hs =>
      have hr := s.tile.settle_steady hs
      rw [ho] at hr
      exact w.1.of_phase hr
    · cases ho
      exact s.tile.retire_atWork
  · cases ho
    exact w.1.of_phase s.tile.fallThrough_phase

theorem State.AtWork.of_tile {s v : State} {k : TileKey} (w : s.AtWork k) (hp : v.tile.phase = s.tile.phase) (ho : v.others = s.others) :
    v.AtWork k := ⟨w.1.of_phase hp, ho ▸ w.2⟩

theorem execSend_atWork {h : Hdr} {f : VFile} {a b : Nat} {s v : State} {k : TileKey} (e : execSend h f a b s = .next v)
    (ht : v.untrapped) (w : s.AtWork k) : v.AtWork k := by
  unfold execSend at e
  dsimp only at e
  split at e
  · split at e
    · cases e
      exact absurd ht (s.takeTrap_trapped _)
    · split at e <;> cases e <;> exact w.of_tile rfl rfl
  · cases e
    exact w

theorem State.setBerth_atWork {s : State} {k : TileKey} (w : s.AtWork k) (b : Berth) : (s.setBerth b).AtWork k := by
  have same : ∀ u : Tile, (if sameGang s.tile u then { u with berth := b } else u).phase = u.phase ∧
      (if sameGang s.tile u then { u with berth := b } else u).key = u.key := by
    intro u
    split <;> exact ⟨rfl, rfl⟩
  refine ⟨w.1.of_phase (same _).1, fun u hu hk => ?_⟩
  obtain ⟨x, hx, rfl⟩ := List.mem_map.mp hu
  exact (w.2 x hx ((same x).2.symm.trans hk)).of_phase (same x).1

theorem execBoard_atWork {h : Hdr} {s v : State} {k : TileKey} (e : execBoard h s = .next v) (ht : v.untrapped) (w : s.AtWork k) :
    v.AtWork k := by
  unfold execBoard at e
  dsimp only at e
  split at e
  · split at e
    · cases e
      exact absurd ht (s.takeTrap_trapped _)
    · cases e
      exact w
    · split at e <;> cases e
      · exact w.of_tile rfl rfl
      · exact s.setBerth_atWork w _
  · cases e
    exact w

theorem State.alight_atWork {h : Hdr} {b : Berth} {s v : State} {k : TileKey} (e : s.alight h b = .next v) (ht : v.untrapped)
    (w : s.AtWork k) : v.AtWork k := by
  unfold State.alight at e
  dsimp only at e
  split at e
  · split at e <;> cases e
    · exact s.setBerth_atWork w _
    · exact absurd ht (s.takeTrap_trapped _)
  · cases e
    exact w

theorem exec_atWork {i : Instr} {s v : State} {k : TileKey} (hi : (encode i).isSome = true) (e : exec i s = .next v)
    (ht : v.untrapped) (hh : v.tile.iss.held = none) (w : s.AtWork k) : v.AtWork k := by
  cases i with
  | add | sub | and | or | xor | shl | shr | sra | mul | mulh | mulhu | div | divu | rem | remu | min | max | minu | maxu | rotl =>
    exact onTile_atWork e ht hh w fun t => t.scalar2_steady _ _ _ _ _ _
  | clz | popc | ctz | bswap | addi | andi | ori | xori | shli | shri | srai | rotli =>
    exact onTile_atWork e ht hh w fun t => t.scalar1_steady _ _ _ _ _
  | cmpeq | cmpne | cmplt | cmpltu | cmple | cmpleu | cmptst => exact onTile_atWork e ht hh w fun t => t.compare_steady _ _ _ _ _
  | pand | por | pxor | pandn | pnot | pmov | pset | pclr =>
    unfold exec at e
    simp only [execPand, execPor, execPxor, execPandn, execPnot, execPmov, execPset, execPclr] at e
    exact onTile_atWork e ht hh w fun t => t.predOp_steady _ _ _
  | csrw | csrs | csrc =>
    unfold exec at e
    simp only [execCsrw, execCsrs, execCsrc] at e
    exact onTile_atWork e ht hh w fun t => t.csrWrite_steady _ _ _
  | vadd | vsub | vmul | vmin | vmax | vcps | vdiv | vscale | vminnum | viadd | visub | vimul | vimulh | vimin | vimax | viminu
  | vimaxu | viadds | viaddsu | visubs | visubsu | viavg | viavgu | vand | vor | vxor | vandn | vshl | vshr | vsra | vperm | vzip
  | vunzip | vrot | vsplat => exact onTile_atWork e ht hh w fun t => t.vec2_steady _ _ _ _ _ _ _
  | vabs | vneg | vsqrt | vrcp | vrsq | vexp2 | vlog2 | vrint | vrintz | vclass | vgetexp | viabs | vineg | vnot | vrev =>
    exact onTile_atWork e ht hh w fun t => t.vec1_steady _ _ _ _ _ _
  | vcmprs | vexpnd | vrsum | vrmax | vrmin | vrisum | vscan | vrand | vror | vrxor =>
    unfold exec at e
    simp only [execVcmprs, execVexpnd, execVrsum, execVrmax, execVrmin, execVrisum, execVscan, execVrand, execVror, execVrxor] at e
    exact onTile_atWork e ht hh w fun t => t.vec1_steady _ _ _ _ _ _
  | vfma | vfms | vfnma | vfnms => exact onTile_atWork e ht hh w fun t => t.vec3_steady _ _ _ _ _ _
  | vfceq | vfcne | vfclt | vfcle | vfcgt | vfcge | vfcunord | vfcord | viceq | vicne | viclt | vicltu | vicle | vicleu | victst =>
    exact onTile_atWork e ht hh w fun t => t.vecCompare_steady _ _ _ _ _ _
  | vcvt => exact onTile_atWork e ht hh w fun t => t.convert_steady _ _ _ _ _ _
  | vspli | viota | vmovp | vpopc =>
    unfold exec at e
    simp only [execVspli, execViota, execVmovp, execVpopc] at e
    exact onTile_atWork e ht hh w fun t => t.vec0_steady _ _ _ _ _
  | vdot4s | vdot4u | vdot2bf | vdot2h => exact onTile_atWork e ht hh w fun t => t.vecDot_steady _ _ _ _ _
  | xcpsx | xcpmx | xcpvax | xcpvbx =>
    unfold exec at e
    simp only [execXcpsx, execXcpmx, execXcpvax, execXcpvbx] at e
    exact onTile_atWork e ht hh w fun t => t.copyIn_steady _ _ _
  | xcpxs | xcpxm => exact onTile_atWork e ht hh w fun t => t.copyOut_steady _ _ _ _
  | xcpxva | xcpxvb => exact onTile_atWork e ht hh w fun t => t.copyLane_steady _ _ _ _ _
  | fld | fldv =>
    unfold exec at e
    simp only [execFld, execFldv] at e
    exact onTile_atWork e ht hh w fun t => t.farLoad_steady _ _ _ _ _ _
  | fst | fstv =>
    unfold exec at e
    simp only [execFst, execFstv] at e
    exact onTile_atWork e ht hh w fun t => t.farStore_steady _ _ _ _
  | radd | rcas | rmaxu | ror =>
    unfold exec at e
    simp only [execRadd, execRcas, execRmaxu, execRor] at e
    exact onTile_atWork e ht hh w fun t => t.ringUpdate_steady _ _ _ _ _ _
  | aadd | aincw | axchg | amins | amaxu | aorb => exact onTile_atWork e ht hh w fun t => t.atom1_steady _ _ _ _ _ _
  | afaab | acas => exact onTile_atWork e ht hh w fun t => t.atom2_steady _ _ _ _ _ _
  | mgo | mgog => exact onTile_atWork e ht hh w fun t => t.mxGo_steady _ _
  | spup | spdn => exact onTile_atWork e ht hh w fun t => t.subtree_steady _ _ _
  | rel | bar | fence | trig | tfence =>
    unfold exec at e
    simp only [execRel, execBar, execFence, execTrig, execTfence] at e
    refine onTile_atWork e ht hh w fun t => ?_
    split
    · split
      · exact t.settle_steady ‹_›
      · repeat' split
        all_goals simp
    · simp
  | popStall =>
    unfold exec at e
    simp only [execPopStall] at e
    refine onTile_atWork e ht hh w fun t => ?_
    repeat' split
    · simp
    · simp [Tile.reserve_ok_phase ‹_›]
    · exact t.reserve_steady _ _
    · simp
  | snop | lis | ins1 | ins2 | ins3 | csrr | sel | movp | movtp | sld | sst =>
    unfold exec at e
    simp only [execSnop, execLis, execIns1, execIns2, execIns3, execCsrr, execSel, execMovp, execMovtp, execSld, execSst] at e
    refine onTile_atWork e ht hh w fun t => ?_
    repeat' split
    all_goals simp
  | br | call | jmpr | callr | loop | loopr | trap | tret | waitt =>
    unfold exec at e
    simp only [execBr, execCall, execJmpr, execCallr, execLoop, execLoopr, execTrap, execTret, execWaitt] at e
    refine onTile_atWork e ht hh w fun t => ?_
    repeat' split
    all_goals simp
  | vsel | vrng | vfmts | vfmt | vnop =>
    unfold exec at e
    simp only [execVsel, execVrng, execVfmts, execVfmt, execVnop] at e
    refine onTile_atWork e ht hh w fun t => ?_
    repeat' split
    all_goals simp
  | cld | cst | cgath | cscat | cnop | ltime | seedr | recv | gang | push | pop | rcap | rput | acq | step | crgo | crgc =>
    unfold exec at e
    simp only [execCld, execCst, execCgath, execCscat, execCnop, execLtime, execSeedr, execRecv, execGang, execPush, execPop,
      execRcap, execRput, execAcq, execStep, execCrgo, execCrgc] at e
    refine onTile_atWork e ht hh w fun t => ?_
    repeat' split
    all_goals simp
  | mcfg | mdrn | mclr | mstat | mldw | mmirr | mstop | mfmt | mli | spld | spst | spscl | spmode | spclr | spstat =>
    unfold exec at e
    simp only [execMcfg, execMdrn, execMclr, execMstat, execMldw, execMmirr, execMstop, execMfmt, execMli, execSpld, execSpst,
      execSpscl, execSpmode, execSpclr, execSpstat] at e
    refine onTile_atWork e ht hh w fun t => ?_
    repeat' split
    all_goals simp
  | exit => exact execExit_atWork e ht hh w
  | send => exact execSend_atWork e ht w
  | board => exact execBoard_atWork e ht w
  | alight | alightFree => exact State.alight_atWork e ht w
  | mnop => cases e; exact w
  | _ => cases hi

end Sys2Proof.Machine
end

section
/-! PROOFS. What falls due on a domain of one tile leaves every tile of its key running. -/

namespace Sys2Proof.Machine

/-! Every tile of a key that the turn of a domain finds running is running when its bundle issues. -/

/-- What the end of a turn asks of a tile: its name and its phase. -/
def Tile.standing (t : Tile) : TileKey × Phase := (t.key, t.phase)

def State.standings (s : State) : List (TileKey × Phase) := s.tiles.map Tile.standing

theorem State.standings_mapTiles {s : State} {f : Tile → Tile} (hf : ∀ t, (f t).standing = t.standing) :
    (s.mapTiles f).standings = s.standings := by
  simp [State.standings, State.tiles, State.mapTiles, hf]

theorem State.tile_standing {s u : State} (h : u.standings = s.standings) : u.tile.standing = s.tile.standing := by
  injection h

/-- Every tile of a key is running. -/
def State.RunsAt (s : State) (k : TileKey) : Prop := ∀ x ∈ s.standings, x.1 = k → x.2 = .running

theorem State.RunsAt.atWork {s : State} {k : TileKey} (h : s.RunsAt k) (hf : s.tile.phase = .running) : s.AtWork k :=
  ⟨.inl hf, fun t ht hk => .inl (h t.standing (List.mem_map.mpr ⟨t, List.mem_cons_of_mem _ ht, rfl⟩) hk)⟩

theorem State.standings_formGang (s : State) (k : TileKey) : (s.formGang k).standings = s.standings := by
  unfold State.formGang
  repeat' split
  · rfl
  · rfl
  · dsimp only
    split
    · refine State.standings_mapTiles fun t => ?_
      split <;> rfl
    · rfl

theorem State.standings_regroup (s : State) (ks : List TileKey) : (s.regroup ks).standings = s.standings :=
  foldl_keep (P := fun x : State => x.standings = s.standings) ks rfl fun x k _ h => (x.standings_formGang k).trans h

theorem Tile.standing_endWait (t : Tile) (bs : List Binding) (w : Wait) : (t.endWait bs w).standing = t.standing := by
  unfold Tile.endWait
  split <;> rfl

theorem State.standings_endWaits (s : State) (k : TileKey) : (s.endWaits k).standings = s.standings := by
  refine State.standings_mapTiles fun t => ?_
  split
  · exact foldl_keep (P := fun x : Tile => x.standing = t.standing) _ rfl fun x w _ h => (x.standing_endWait _ w).trans h
  · rfl

theorem State.standings_settleWaits {s u : State} {ks : List TileKey} (e : s.settleWaits ks = (u, none)) :
    u.standings = s.standings := by
  unfold State.settleWaits at e
  split at e
  · cases e
  · cases e
    refine foldl_keep (P := fun x : State => x.standings = s.standings) ks rfl fun x k _ h => ?_
    repeat' split
    · exact (x.standings_endWaits k).trans h
    · exact h
    · exact h

theorem Tile.standing_loadShadow (t : Tile) : t.loadShadow.standing = t.standing := by
  unfold Tile.loadShadow
  dsimp only
  repeat' split
  all_goals rfl

theorem Tile.standing_mxBegin (t : Tile) (o : MxOp) : (t.mxBegin o).standing = t.standing := by
  have h := t.standing_loadShadow
  unfold Tile.mxBegin
  dsimp only
  split <;> exact h

theorem Tile.standing_mxStart {t u : Tile} {o : MxOp} (e : t.mxStart o = some u) : u.standing = t.standing := by
  unfold Tile.mxStart at e
  dsimp only at e
  split at e <;> cases e
  rfl

theorem Tile.standing_mxReads {t u : Tile} (e : t.mxReads = some u) : u.standing = t.standing := by
  unfold Tile.mxReads at e
  split at e
  · next o _ =>
    have hb : (if !o.begun && o.start == t.tick then t.mxBegin o else t).standing = t.standing := by
      split
      · exact t.standing_mxBegin o
      · rfl
    dsimp only at e
    generalize (if !o.begun && o.start == t.tick then t.mxBegin o else t) = v at e hb
    split at e
    · cases e
      rfl
    · repeat' split at e
      · exact (Tile.standing_mxStart e).trans hb
      all_goals
        cases e
        exact hb
  · cases e
    rfl

theorem State.tile?_focus {s : State} {k : TileKey} (h : s.tile.key = k) : s.tile? k = some s.tile := by
  simp [State.tile?, State.tiles, h]

theorem State.runsAt_setTile {s : State} {t : Tile} {k : TileKey} (hk : t.key = k) (hp : t.phase = .running) :
    (s.setTile t).RunsAt k := by
  intro x hx hxk
  obtain ⟨u, hu, rfl⟩ := List.mem_map.mp hx
  obtain ⟨v, -, rfl⟩ := List.mem_map.mp (show u ∈ s.tiles.map fun v => if v.key == t.key then t else v from hu)
  split at hxk
  · next h => simp [h, Tile.standing, hp]
  · next h => exact absurd (beq_iff_eq.mpr (hxk.trans hk.symm)) h

/-- The reads of one tile's engine leave every tile of its key running, where the tile in focus bears it and is. -/
theorem State.readAll_one {s u : State} {k : TileKey} (e : s.readAll [k] = .inl u) (hk : u.tile.key = k)
    (hp : u.tile.phase = .running) : u.RunsAt k := by
  simp only [State.readAll] at e
  split at e
  · next t ht =>
    split at e
    · next hrun =>
      split at e
      · next t' hr =>
        cases e
        obtain ⟨hkey, hphase⟩ := Prod.mk.inj (Tile.standing_mxReads hr)
        exact State.runsAt_setTile (hkey.trans (State.tile?_key ht)) (hphase.trans hrun)
      · cases e
    · next hstop =>
      cases e
      rw [State.tile?_focus hk] at ht
      cases ht
      exact absurd hp hstop
  · next hnone =>
    cases e
    rw [State.tile?_focus hk] at hnone
    cases hnone

/-- Every tile of the key of a domain of one tile runs when its bundle issues. -/
theorem State.fallDue_runsAt {s u : State} {k : TileKey} (e : s.fallDue [k] = .inl u) (hk : u.tile.key = k)
    (hp : u.tile.phase = .running) : u.RunsAt k := by
  unfold State.fallDue at e
  dsimp only at e
  split at e
  · cases e
  · split at e
    · cases e
    · next s4 hr =>
      split at e
      · cases e
      · next s5 hs =>
        cases e
        have hst : u.standings = s4.standings := (State.standings_settleWaits hs).trans (s4.standings_regroup [k])
        obtain ⟨hkey, hphase⟩ := Prod.mk.inj (State.tile_standing hst)
        rw [State.RunsAt, hst]
        exact State.readAll_one hr (hkey ▸ hk) (hphase ▸ hp)

end Sys2Proof.Machine
end

section
/-! PROOFS. A turn of one tile, from the step to the instruction that its word decodes to, and the end of its tick. -/

namespace Sys2Proof.Machine

/-! The end of a turn: no tile of the domain is left in a freeze. -/

/-- No tile of a key is in a freeze. -/
def State.Thawed (s : State) (k : TileKey) : Prop := ∀ t ∈ s.tiles, t.key = k → t.freeze = none

theorem State.thaw_of_thawed {s : State} {k : TileKey} (h : s.Thawed k) : s.thaw [k] = s := by
  have same : ∀ t ∈ s.tiles, (if [k].contains t.key then { t with freeze := none } else t) = t := by
    intro t ht
    split
    · next hk => rw [← h t ht (by simpa using hk)]
    · rfl
  have ho := List.map_congr_left fun t ht => same t (List.mem_cons_of_mem _ ht)
  rw [List.map_id'] at ho
  simp only [State.thaw, State.onKeys, State.mapTiles, same s.tile List.mem_cons_self, ho]

theorem Tile.freeze_finish {t : Tile} (w : t.AtWork) : t.finish.freeze = none := by
  unfold Tile.finish
  rcases w with h | h <;> rw [h]

@[simp] theorem Tile.stopAfter_freeze (t : Tile) (p : Bool) (n : Nat) : (t.stopAfter p n).freeze = t.freeze := by
  unfold Tile.stopAfter
  repeat' split
  all_goals rfl

theorem State.stopMember_thawed {s : State} {k : TileKey} (h : s.Thawed k) (n : Nat) : (s.stopMember k n).Thawed k := by
  unfold State.stopMember
  split
  · exact h
  · next t ht =>
    split
    · intro u hu hk
      obtain ⟨v, hv, rfl⟩ := List.mem_map.mp
        (show u ∈ s.tiles.map fun v => if v.key == t.key then { t with phase := .stopped } else v from hu)
      split at hk
      · next hvt =>
        simp only [hvt, if_true]
        exact h t (List.mem_of_find?_eq_some ht) hk
      · next hvt =>
        simp only [hvt]
        exact h v hv hk
    · exact h

theorem State.finish_thawed {s : State} {k : TileKey} (w : s.AtWork k) (ps : List TileKey) (n : Nat) : (s.finish [k] ps n).Thawed k := by
  refine State.stopMember_thawed (fun u hu hk => ?_) n
  obtain ⟨t, ht, rfl⟩ := List.mem_map.mp
    (show u ∈ s.tiles.map fun t => if [k].contains t.key then t.finish.stopAfter (ps.contains t.key) n else t from hu)
  split at hk
  · next hc =>
    have hw : t.AtWork := by
      rcases List.mem_cons.mp ht with rfl | ho
      · exact w.1
      · exact w.2 t ho (by simpa using hc)
    simp only [hc, if_true, Tile.stopAfter_freeze, Tile.freeze_finish hw]
  · next hc => exact absurd (by simpa using hk) hc

theorem State.goOn_atWork {s : State} {k : TileKey} (w : s.AtWork k) (pc : Nat) : (s.goOn pc).AtWork k :=
  ⟨w.1.of_phase (Tile.advance_phase _), w.2⟩

/-! A bundle of one syllable. -/

theorem sylsOf_one {w : Nat} {sl : Slot} {i : Instr} (hp : placeWords 0 0 [w] = [some sl]) (hd : decodeWord w = .ok i) :
    sylsOf [w] = [⟨0, sl, i⟩] := by
  simp [sylsOf, numbered, hp, wordSyl, hd, sortBy, insertBy]

theorem bundleFaults_one {w : Nat} {sl : Slot} {i : Instr} (hp : placeWords 0 0 [w] = [some sl]) (hd : decodeWord w = .ok i)
    (he : fld w 31 1 = 1) : bundleFaults [w] = [] := by
  simp [bundleFaults, numbered, hp, wordFault, hd, he]

theorem State.formatFaults_one {w : Nat} {sl : Slot} {i : Instr} (s : State) (hp : placeWords 0 0 [w] = [some sl])
    (hd : decodeWord w = .ok i) : s.formatFaults [w] = [] := by
  simp [State.formatFaults, numbered, hp, State.formatFault, hd]

section
variable {u v : State} {w : Nat} {sl : Slot} {i : Instr} (hc : u.tile.consumes sl i = false) (e : exec i (u.issuing sl) = .next v)
  (ht : v.untrapped) (hh : v.tile.iss.held = none)
include hc e ht hh

/-- The one syllable of a bundle acts, with nothing trapped or held. -/
theorem Issued.act_one :
    Issued.act ⟨u.issuing .s, [], none, none⟩ u.tile.pc (u.tile.pc + 4) none ⟨0, sl, i⟩ = ⟨v, [], none, none⟩ := by
  have hstruck : Issued.struck ⟨u.issuing .s, [], none, none⟩ ⟨0, sl, i⟩ = ⟨u.issuing .s, [], none, none⟩ :=
    if_neg (by simpa using (show (u.issuing .s).tile.consumes sl i = false from hc))
  have htrap : v.tile.iss.trap = none := ht
  have hexec : exec i { u.issuing .s with tile := { (u.issuing .s).tile with iss := (u.issuing sl).tile.iss } } = .next v := e
  unfold Issued.act
  rw [hstruck]
  dsimp only [State.issuing] at hexec ⊢
  rw [hexec]
  simp [htrap, hh]

variable (hp : placeWords 0 0 [w] = [some sl]) (hd : decodeWord w = .ok i) (he : fld w 31 1 = 1)
include hp hd he

/-- The bundle is done, and goes on unless its syllable decides what is next. -/
theorem State.runBundle_one :
    u.runBundle u.tile.pc [w] none = .done (if isControl i then v else v.goOn u.tile.pc) := by
  have hv : Issued.verdict ⟨v, [], none, none⟩ [] = .done v := rfl
  have hf := (u.issuing .s).formatFaults_one hp hd
  have ha := Issued.act_one hc e ht hh
  unfold State.runBundle
  simp only [sylsOf_one hp hd, bundleFaults_one hp hd he, List.foldl_cons, List.foldl_nil, List.length_singleton, Nat.mul_one,
    List.any_cons, List.any_nil, Bool.or_false, Option.isSome_none, Bool.false_or, List.nil_append]
  unfold State.issuing at hf ha
  rw [hf, ha, hv]
  exact (apply_ite Verdict.done (isControl i = true) v (v.goOn u.tile.pc)).symm

end

/-! One tile issues, in a turn of its own. -/

section
variable {u v : State} {k : TileKey} {w : Nat} {sl : Slot} {i : Instr} (hk : u.tile.key = k) (hr : u.tile.phase = .running)
  (hw : u.tile.waits = []) (hg : u.tile.gang.size ≤ 1) (hat : u.tile.gang.resumeAt ≤ u.tile.tick)
  (hf : u.tile.wordsAt u.tile.pc = [w]) (hi : u.tile.imemStruck u.tile.pc 1 = false)
  (hb : u.runBundle u.tile.pc [w] none = .done v)
include hk hr hw hg hat hf hi hb

theorem Issuing.tile_one :
    Issuing.tile ⟨u, [], none, []⟩ k = ⟨v, [], none, if v.tile.stopsAt ⟨u.tile.pc, [w], none⟩ then [k] else []⟩ := by
  have hdue : u.bundleOf u.tile = some ⟨u.tile.pc, [w], none⟩ := by
    simp [State.bundleOf, hg, hf, Nat.not_lt.mpr hat]
  have hfocus : u.focus k = u := by simp [State.focus, hk]
  have hissue : u.issue ⟨u.tile.pc, [w], none⟩ = .done v := by
    have hcast : u.tile.broadcast ⟨u.tile.pc, [w], none⟩ = u.tile := if_pos hg
    simp [State.issue, hi, hcast, hb, hg]
  simp [Issuing.tile, State.tile?_focus hk, hr, hw, hdue, hfocus, hissue]

theorem State.issueAll_one (n : Nat) :
    State.issueAll (n + 1) [k] u = .go v (if v.tile.stopsAt ⟨u.tile.pc, [w], none⟩ then [k] else []) := by
  simp [State.issueAll, Issuing.tile_one hk hr hw hg hat hf hi hb]

end

theorem step_turn {s : State} {d : Domain} {ds : List Domain} (hin : s.inputs = []) (hturn : s.turn = d :: ds) :
    step s = .next (({ s with turn := ds }).domainTurn d) := by
  unfold step
  split
  · next h => cases hin.symm.trans h
  · split
    · next h =>
      cases hturn.symm.trans h
      rfl
    · next h => cases hturn.symm.trans h

/-- A turn of one running tile in a domain without a Rill is a trial of its tick. -/
theorem State.domainTurn_one {s : State} {k : TileKey} (hk : s.tile.key = k) (hs : s.swallows ⟨[k], none⟩ = false)
    (hsh : s.shardFreeze [k] = false) (hr : s.tile.phase = .running) :
    s.domainTurn ⟨[k], none⟩ = (s.plainTurn [k] none).shardCheck := by
  simp [State.domainTurn, hs, hsh, State.tile?_focus hk, hr]

theorem State.plainTurn_one {s u v : State} {k : TileKey} {ps : List TileKey} (hk : s.tile.key = k)
    (hd : s.fallDue [k] = .inl u) (hi : ∀ n, State.issueAll (n + 1) [k] u = .go v ps) :
    s.plainTurn [k] none = (v.finish [k] ps s.tile.tick).thaw [k] := by
  have htick : s.lowTick [k] = s.tile.tick := by simp [State.lowTick, State.tile?_focus hk]
  have hlow : s.lowest [k] = [k] := by simp [State.lowest, htick, State.tile?_focus hk]
  simp only [State.plainTurn, hlow, htick, State.trial, hd, List.length_singleton, hi]

/-- Settles O5: the turn reaches the bundle with everything due done, the one syllable acts through `exec`, and no tile of the
domain is in a freeze at the end of the tick, so that its thaw changes nothing. -/
theorem stepRunsDecoded : Obligations.StepRunsDecoded := by
  intro s u v ds w sl i hin hturn hs hsh hrun hdue hk hr hw hg hat hf he hp hd himem hc hexec ht hh
  have hb := State.runBundle_one hc hexec ht hh hp hd he
  have hissue := fun n => State.issueAll_one hk hr hw hg hat hf himem hb n
  have wu : u.AtWork s.tile.key := (State.fallDue_runsAt hdue hk hr).atWork hr
  have wv : v.AtWork s.tile.key := exec_atWork (decodeWord_encodes hd) hexec ht hh (wu.of_tile rfl rfl)
  have wz : (if isControl i then v else v.goOn u.tile.pc).AtWork s.tile.key := by
    split
    · exact wv
    · exact State.goOn_atWork wv _
  dsimp only
  rw [step_turn hin hturn, State.domainTurn_one rfl hs hsh hrun, State.plainTurn_one rfl hdue hissue,
    State.thaw_of_thawed (State.finish_thawed wz _ _)]

end Sys2Proof.Machine
end

section
/-! PROOFS. Control syllables at their issue: what a transfer, a loop, a wait, TRAP, TRET and EXIT leave of their tile. -/

namespace Sys2Proof.Machine

/-! A tile that is steered: all of its parts as given but the next bundle, the loop unit and the issue record, with results of a kind added
to those in flight. -/

/-- A tile stands as a base tile but for where it goes next, and the effects that it has put in flight are of a kind. -/
structure Tile.Steered (P : Eff → Prop) (b u : Tile) : Prop where
  rest : u = { b with pc := u.pc, loops := u.loops, iss := u.iss, inflight := u.inflight, seq := u.seq }
  inflight : ∃ new, u.inflight = b.inflight ++ new ∧ ∀ p ∈ new, P p.eff

section
variable {P Q : Eff → Prop} {b t u : Tile}

theorem Tile.steered_of_quiet (h : u = { b with pc := u.pc, loops := u.loops, iss := u.iss, seq := u.seq }) : b.Steered P u :=
  ⟨by rw [h], [], by rw [h, List.append_nil], by simp⟩

theorem Tile.Steered.refl (t : Tile) : t.Steered P t := Tile.steered_of_quiet rfl

theorem Tile.Steered.trans (h : b.Steered P t) (k : t.Steered P u) : b.Steered P u := by
  obtain ⟨hr, new, hi, hn⟩ := h
  obtain ⟨kr, more, ki, km⟩ := k
  refine ⟨?_, new ++ more, by rw [ki, hi, List.append_assoc], fun p hp => (List.mem_append.1 hp).elim (hn p) (km p)⟩
  rw [hr] at kr
  exact kr

theorem Tile.Steered.mono (h : b.Steered P u) (w : ∀ e, P e → Q e) : b.Steered Q u := by
  obtain ⟨hr, new, hi, hn⟩ := h
  exact ⟨hr, new, hi, fun p hp => w _ (hn p hp)⟩

theorem Tile.Steered.inflight_eq (h : b.Steered (fun _ => False) u) : u.inflight = b.inflight := by
  obtain ⟨-, new, hi, hn⟩ := h
  rw [hi, List.eq_nil_iff_forall_not_mem.2 hn, List.append_nil]

theorem Tile.steered_put {e : Eff} (h : P e) (t : Tile) (n : Nat) (sl : Slot) : t.Steered P (t.put n sl e) :=
  ⟨rfl, _, rfl, by simpa using h⟩

end

/-! What a steered tile keeps of a tile from which its base differs in CSRs, gang and waits alone. -/

section
variable {P : Eff → Prop} {t u : Tile} {k : Csrs} {g : Gang} {w : List Wait}
  (h : ({ t with csrs := k, gang := g, waits := w } : Tile).Steered P u)
include h

theorem Tile.Steered.sameRegs : t.SameRegs u := by
  rw [h.rest]
  exact ⟨fun _ => rfl, fun f _ => by cases f <;> rfl, fun f _ => by cases f <;> rfl, fun _ => rfl, fun _ => rfl, rfl⟩

theorem Tile.Steered.sameMemory : t.SameMemory u := by
  rw [h.rest]
  exact ⟨fun _ => rfl, fun _ => rfl, rfl, rfl⟩

theorem Tile.Steered.sameEngines : t.SameEngines u := by
  rw [h.rest]
  exact ⟨rfl, rfl, rfl⟩

theorem Tile.Steered.sameTraffic : t.SameTraffic { u with gang := t.gang } := by
  rw [h.rest]
  exact ⟨rfl, rfl, rfl, rfl, rfl, rfl, rfl, rfl, rfl, rfl, rfl, rfl⟩

theorem Tile.Steered.csrs : u.csrs = k := by rw [h.rest]
theorem Tile.Steered.gang : u.gang = g := by rw [h.rest]
theorem Tile.Steered.waits : u.waits = w := by rw [h.rest]
theorem Tile.Steered.gov : u.gov = t.gov := by rw [h.rest]
theorem Tile.Steered.seed : u.seed = t.seed := by rw [h.rest]
theorem Tile.Steered.regions : u.regions = t.regions := by rw [h.rest]
theorem Tile.Steered.faults : u.faults = t.faults := by rw [h.rest]
theorem Tile.Steered.phase : u.phase = t.phase := by rw [h.rest]
theorem Tile.Steered.tick : u.tick = t.tick := by rw [h.rest]

end

theorem Tile.Steered.sameTraffic_of_gang {P : Eff → Prop} {t u : Tile} {k : Csrs} {w : List Wait}
    (h : ({ t with csrs := k, waits := w } : Tile).Steered P u) : t.SameTraffic u := by
  have hg : u = { u with gang := t.gang } := by rw [← h.gang]
  rw [hg]
  exact h.sameTraffic

/-! The shared operations of the control syllables. -/

/-- A trap that is entered later. -/
def Eff.IsFault (e : Eff) : Prop := ∃ tr, e = .fault tr

/-- A trap that is entered later, or the link of a call (R95). -/
def Eff.IsFaultOrLink (next : Nat) (e : Eff) : Prop := e.IsFault ∨ e = .sreg 31 (word next)

section
variable {P : Eff → Prop} (t : Tile)

theorem Tile.advance_steered : t.Steered P t.advance := Tile.steered_of_quiet rfl

theorem Tile.fallThrough_steered : t.Steered P t.fallThrough := by
  unfold Tile.fallThrough
  split
  · exact .refl t
  · exact t.advance_steered

theorem Tile.transfer_steered (target : Nat) (jump : Bool) : t.Steered P (t.transfer target jump) := Tile.steered_of_quiet rfl

theorem Tile.badTarget_steered (target : Nat) : t.Steered Eff.IsFault (t.badTarget target) :=
  (Tile.steered_put ⟨_, rfl⟩ t _ _).trans (Tile.steered_of_quiet rfl)

theorem Tile.jumpTo_steered (target : Int) (jump : Bool) : t.Steered Eff.IsFault (t.jumpTo target jump) := by
  unfold Tile.jumpTo
  split
  · exact t.transfer_steered _ _
  · exact t.badTarget_steered _

theorem Tile.link_steered : t.Steered (Eff.IsFaultOrLink t.iss.next) t.link := Tile.steered_put (.inr rfl) t _ _

theorem Tile.callTo_steered (target : Int) : t.Steered (Eff.IsFaultOrLink t.iss.next) (t.callTo target) := by
  unfold Tile.callTo
  split
  · exact (t.transfer_steered _ _).trans (t.transfer _ _).link_steered
  · exact (t.badTarget_steered _).mono fun _ => .inl

theorem Tile.enterLoop_steered (l n stop : Nat) : t.Steered Eff.IsFault (t.enterLoop l n stop) := by
  unfold Tile.enterLoop
  extract_lets loops
  split
  · split
    · exact Tile.steered_of_quiet rfl
    · exact t.badTarget_steered _
  · exact Tile.steered_of_quiet rfl

theorem Tile.loopOver_steered {l n : Nat} {a : Src} {on : Bool} {u : Tile} (e : t.loopOver l n a on = .ok u) :
    t.Steered Eff.IsFault u := by
  unfold Tile.loopOver at e
  repeat' split at e
  all_goals cases e
  · exact t.enterLoop_steered _ _ _
  · exact t.fallThrough_steered

theorem Tile.settle_not_ok (u : Tile) : t.settle ≠ some (.ok u) := by
  unfold Tile.settle
  repeat' split
  all_goals simp

end

/-- A syllable that is issued without a trap has its effect, or its bundle is held. -/
theorem onTile_untrapped {f : Tile → Res} {s u : State} (e : onTile f s = .next u) (ht : u.untrapped) (P : Eff → Prop) :
    ∃ t, u = { s with tile := t } ∧ (f s.tile = .ok t ∨ s.tile.Steered P t) := by
  obtain ⟨t, hf, rfl⟩ | ⟨tr, -, rfl⟩ | ⟨c, n, -, rfl⟩ := onTile_cases e
  · exact ⟨t, rfl, .inl hf⟩
  · exact absurd ht (s.takeTrap_trapped tr)
  · exact ⟨_, rfl, .inr (Tile.steered_of_quiet rfl)⟩

theorem State.sameModule_withTile (s : State) (t : Tile) : s.SameModule { s with tile := t } :=
  ⟨rfl, rfl, rfl, rfl, fun _ => rfl, rfl, rfl, rfl, rfl⟩

/-! Transfers, loops, WAITT and TFENCE (R95 to R100, R302, R307). -/

/-- An effect of a transfer: the tile goes elsewhere or waits, with a link or a fault in flight. -/
def Res.Transfers (t : Tile) : Res → Prop
  | .ok u => ∃ w, ({ t with waits := w } : Tile).Steered (Eff.IsFaultOrLink t.iss.next) u
  | _ => True

section
variable {t u : Tile}

theorem Tile.Steered.transfers (h : t.Steered (Eff.IsFaultOrLink t.iss.next) u) : (Res.ok u).Transfers t := ⟨t.waits, h⟩

theorem Tile.Steered.transfers_of_fault (h : t.Steered Eff.IsFault u) : (Res.ok u).Transfers t := (h.mono fun _ => .inl).transfers

theorem Tile.fallThrough_transfers (t : Tile) : (Res.ok t.fallThrough).Transfers t := t.fallThrough_steered.transfers

theorem Tile.advance_transfers (t : Tile) : (Res.ok t.advance).Transfers t := t.advance_steered.transfers

theorem Tile.link_of_transfers (t : Tile) (taken : Bool) : (Res.ok (if taken then t.link else t)).Transfers t := by
  split
  · exact t.link_steered.transfers
  · exact (Tile.Steered.refl t).transfers

theorem Tile.callTo_transfers (t : Tile) (a : Int) : (Res.ok (t.callTo a)).Transfers t := (t.callTo_steered a).transfers

theorem Tile.jumpTo_transfers (t : Tile) (a : Int) (j : Bool) : (Res.ok (t.jumpTo a j)).Transfers t :=
  (t.jumpTo_steered a j).transfers_of_fault

theorem Tile.loopOver_transfers (t : Tile) (l n : Nat) (a : Src) (on : Bool) : (t.loopOver l n a on).Transfers t := by
  cases e : t.loopOver l n a on with
  | ok u => exact (t.loopOver_steered e).transfers_of_fault
  | trap | hold => trivial

theorem Tile.addWait_transfers (t : Tile) (due : Nat) (k : WaitKind) : (Res.ok (t.addWait due k).fallThrough).Transfers t :=
  ⟨(t.addWait due k).waits, (Tile.steered_of_quiet rfl).trans (t.addWait due k).fallThrough_steered⟩

theorem Tile.settle_transfers {r : Res} (e : t.settle = some r) : r.Transfers t := by
  cases r with
  | ok u => exact absurd e (t.settle_not_ok u)
  | trap | hold => trivial

end

/-- The state after a transfer. -/
def State.Transfers (s u : State) : Prop :=
  ∃ t w, u = { s with tile := t } ∧ ({ s.tile with waits := w } : Tile).Steered (Eff.IsFaultOrLink s.tile.iss.next) t

/-- A syllable of the tile in focus that transfers, issued without a trap. -/
theorem onTile_transfers {f : Tile → Res} {s u : State} (e : onTile f s = .next u) (ht : u.untrapped)
    (hf : (f s.tile).Transfers s.tile) : s.Transfers u := by
  obtain ⟨t, rfl, ho | hq⟩ := onTile_untrapped e ht (Eff.IsFaultOrLink s.tile.iss.next)
  · rw [ho] at hf
    obtain ⟨w, h⟩ := hf
    exact ⟨t, w, rfl, h⟩
  · exact ⟨t, s.tile.waits, rfl, hq⟩

section
variable {s u : State} (ht : u.untrapped)
include ht

theorem execBr_transfers {h : Hdr} {o : Int} (e : execBr h o s = .next u) : s.Transfers u := by
  refine onTile_transfers e ht ?_
  split
  · exact s.tile.jumpTo_transfers _ _
  · exact s.tile.fallThrough_transfers

theorem execCall_transfers {h : Hdr} {o : Int} (e : execCall h o s = .next u) : s.Transfers u := by
  refine onTile_transfers e ht ?_
  split
  · exact s.tile.link_of_transfers _
  · split
    · exact s.tile.callTo_transfers _
    · exact s.tile.advance_transfers

theorem execJmpr_transfers {h : Hdr} {a : Src} (e : execJmpr h a s = .next u) : s.Transfers u := by
  refine onTile_transfers e ht ?_
  split
  · split
    · exact s.tile.jumpTo_transfers _ _
    · trivial
  · exact s.tile.fallThrough_transfers

theorem execCallr_transfers {h : Hdr} {a : Src} (e : execCallr h a s = .next u) : s.Transfers u := by
  refine onTile_transfers e ht ?_
  split
  · exact s.tile.link_of_transfers _
  · split
    · split
      · exact s.tile.callTo_transfers _
      · trivial
    · exact s.tile.advance_transfers

theorem execLoopr_transfers {h : Hdr} {l : Nat} {a b : Src} (e : execLoopr h l a b s = .next u) : s.Transfers u := by
  refine onTile_transfers e ht ?_
  split
  · split
    · split
      · trivial
      · exact s.tile.loopOver_transfers _ _ _ _
    · trivial
  · exact s.tile.fallThrough_transfers

theorem execLoop_transfers {h : Hdr} {l : Nat} {a : Src} {len : Nat} (e : execLoop h l a len s = .next u) : s.Transfers u := by
  refine onTile_transfers e ht ?_
  split
  · exact s.tile.loopOver_transfers _ _ _ _
  · exact s.tile.fallThrough_transfers

theorem execWaitt_transfers {h : Hdr} {a : Src} (e : execWaitt h a s = .next u) : s.Transfers u := by
  refine onTile_transfers e ht ?_
  split
  · split
    · split
      · trivial
      · exact s.tile.addWait_transfers _ _
    · trivial
  · exact s.tile.fallThrough_transfers

theorem execTfence_transfers {h : Hdr} (e : execTfence h s = .next u) : s.Transfers u := by
  refine onTile_transfers e ht ?_
  split
  · split
    · exact s.tile.settle_transfers ‹_›
    · dsimp only
      split
      · exact s.tile.fallThrough_transfers
      · trivial
  · exact s.tile.fallThrough_transfers

/-- Every control syllable of R95 to R100, R302 and R307. -/
theorem exec_transfers {i : Instr} (hi : isTransfer i = true) (e : exec i s = .next u) : s.Transfers u := by
  unfold isTransfer at hi
  split at hi
  case h_1 => exact execBr_transfers ht e
  case h_2 => exact execCall_transfers ht e
  case h_3 => exact execJmpr_transfers ht e
  case h_4 => exact execCallr_transfers ht e
  case h_5 => exact execLoopr_transfers ht e
  case h_6 => exact execLoop_transfers ht e
  case h_7 => exact execWaitt_transfers ht e
  case h_8 => exact execTfence_transfers ht e
  case h_9 => cases hi

end

/-! TRAP and TRET (R271, R306). -/

theorem Tile.Steered.withGang {P : Eff → Prop} {b u : Tile} (h : b.Steered P u) (g : Gang) (i : Issue) :
    ({ b with gang := g } : Tile).Steered P { u with gang := g, iss := i } :=
  ⟨by rw [h.rest], h.inflight⟩

theorem execTrap_steered {h : Hdr} {a : Src} {s u : State} (e : execTrap h a s = .next u) (ht : u.untrapped) :
    ∃ t n, u = { s with tile := t } ∧
      ({ s.tile with gang := { s.tile.gang with resumeAt := n } } : Tile).Steered Eff.IsFault t := by
  obtain ⟨t, rfl, ho | hq⟩ := onTile_untrapped e ht Eff.IsFault
  · split at ho
    · split at ho <;> cases ho
      next x _ =>
      have hs := (Tile.steered_put ⟨_, rfl⟩ s.tile (s.tile.gang.size - s.tile.pos) .s).trans
        (Tile.fallThrough_steered (P := Eff.IsFault) (s.tile.put _ _ (.fault (infoTrap .user s.tile.iss.pos x))))
      split
      · exact ⟨_, _, rfl, hs.withGang _ _⟩
      · exact ⟨_, s.tile.gang.resumeAt, rfl, hs.withGang _ _⟩
    · cases ho
      exact ⟨_, s.tile.gang.resumeAt, rfl, s.tile.fallThrough_steered⟩
  · exact ⟨t, s.tile.gang.resumeAt, rfl, hq⟩

/-- A gang as before but for its stream, those put by, and the tick at which it resumes. -/
def Gang.SameButStreams (g k : Gang) : Prop :=
  k = { g with stream := k.stream, count := k.count, saved := k.saved, resumeAt := k.resumeAt }

/-- A return takes up a stream that was put by, or waits for its gang (R271). -/
theorem Tile.restream_gang (t : Tile) (pc : Nat) : t.gang.SameButStreams (t.restream pc).gang := by
  unfold Tile.restream
  repeat' split
  all_goals rfl

theorem Tile.restream_steered {P : Eff → Prop} (t : Tile) (pc : Nat) :
    ({ t with gang := (t.restream pc).gang } : Tile).Steered P (t.restream pc) := by
  unfold Tile.restream
  repeat' split
  all_goals exact Tile.steered_of_quiet rfl

/-- Clearing INH leaves every other bit of TRAPCAUSE (R304). -/
theorem bit_clearInh (v : Word) {i : Nat} (hi : i < 64) (hn : i ≠ 13) : bit (v &&& ~~~(0x2000 : Word)) i = bit v i := by
  have h : (0x2000 : Word).getLsbD i = false := by
    rw [show (0x2000 : Word) = BitVec.twoPow 64 13 from rfl, BitVec.getLsbD_twoPow]
    simp [Ne.symm hn]
  rw [bit, BitVec.getLsbD_and, BitVec.getLsbD_not, h]
  simp [hi, bit]

/-- What a TRET may change but for where its tile goes: INH, and the streams of the gang. -/
def Tile.Returned (t u : Tile) : Prop := ∃ c g, (∀ i, i < 64 → i ≠ 13 → bit c i = bit t.csrs.trapcause i) ∧ t.gang.SameButStreams g ∧
  ({ t with csrs := { t.csrs with trapcause := c }, gang := g } : Tile).Steered Eff.IsFault u

theorem Tile.Steered.returned {t u : Tile} (h : t.Steered Eff.IsFault u) : t.Returned u :=
  ⟨t.csrs.trapcause, t.gang, fun _ _ _ => rfl, rfl, h⟩

theorem Tile.clearInh_returned (t : Tile) : t.Returned t.clearInh := ⟨_, t.gang, fun _ => bit_clearInh _, rfl, .refl _⟩

theorem Tile.ret_returned (t : Tile) : t.Returned t.ret := by
  unfold Tile.ret
  dsimp only
  split
  · exact ⟨_, _, fun _ => bit_clearInh _, t.clearInh.restream_gang _,
      (t.clearInh.restream_steered _).trans (Tile.steered_of_quiet rfl)⟩
  · exact (t.badTarget_steered _).returned

theorem execTret_returned {h : Hdr} {s u : State} (e : execTret h s = .next u) (ht : u.untrapped) :
    ∃ t, u = { s with tile := t } ∧ s.tile.Returned t := by
  obtain ⟨t, rfl, ho | hq⟩ := onTile_untrapped e ht Eff.IsFault
  · refine ⟨t, rfl, ?_⟩
    split at ho
    · split at ho <;> cases ho
      · exact s.tile.clearInh_returned
      · exact s.tile.ret_returned
    · cases ho
      exact s.tile.fallThrough_steered.returned
  · exact ⟨t, rfl, hq.returned⟩

/-! EXIT (R308). -/

theorem execExit_retires {h : Hdr} {s u : State} (e : execExit h s = .next u) (ht : u.untrapped) :
    ∃ t, u = { s with tile := t } ∧ (t = s.tile.retire ∨ s.tile.Steered (fun _ => False) t) := by
  obtain ⟨t, rfl, ho | hq⟩ := onTile_untrapped e ht fun _ => False
  · refine ⟨t, rfl, ?_⟩
    split at ho
    · split at ho
      · exact absurd (ho ▸ ‹_›) (s.tile.settle_not_ok t)
      · cases ho
        exact .inl rfl
    · cases ho
      exact .inr s.tile.fallThrough_steered
  · exact ⟨t, rfl, .inr hq⟩

theorem Tile.retire_sameRegs (t : Tile) : t.SameRegs t.retire :=
  ⟨fun _ => rfl, fun f _ => by cases f <;> rfl, fun f _ => by cases f <;> rfl, fun _ => rfl, fun _ => rfl, rfl⟩

theorem Tile.retire_sameMemory (t : Tile) : t.SameMemory t.retire := ⟨fun _ => rfl, fun _ => rfl, rfl, rfl⟩

/-- What stays in flight at an EXIT was in flight, and keeps its store alone. -/
theorem Tile.mem_retire_inflight {t : Tile} {p : Pending} (h : p ∈ t.retire.inflight) :
    ∃ q ∈ t.inflight, p = { q with eff := q.eff.withoutResult } := by
  obtain ⟨q, hq, rfl⟩ := List.mem_map.1 h
  exact ⟨q, List.mem_of_mem_filter hq, rfl⟩

/-! The four clauses. -/

/-- Settles O13: a syllable that is issued without a trap steers its tile, and what steering changes is read off once. -/
theorem transferFrame : Obligations.TransferFrame := by
  unfold Obligations.TransferFrame
  refine ⟨?transfers, ?trap, ?tret, ?exit⟩
  case transfers =>
    intro i s u hi e ht
    obtain ⟨t, w, rfl, h⟩ := exec_transfers ht hi e
    exact ⟨s.sameModule_withTile t, h.sameRegs, h.csrs, h.gov, h.seed, h.regions, h.faults, h.phase, h.tick, h.sameMemory,
      h.sameEngines, h.sameTraffic_of_gang, h.inflight⟩
  case trap =>
    intro h a s u e ht
    obtain ⟨t, n, rfl, h⟩ := execTrap_steered e ht
    exact ⟨s.sameModule_withTile t, h.sameRegs, h.csrs, h.gov, h.seed, h.regions, h.faults, h.phase, h.tick, h.sameMemory,
      h.sameEngines, h.sameTraffic, by simp [h.gang], h.waits, h.inflight⟩
  case tret =>
    intro h s u e ht
    obtain ⟨t, rfl, c, g, hc, hg, h⟩ := execTret_returned e ht
    exact ⟨s.sameModule_withTile t, h.sameRegs, by simp [h.csrs], by simpa [h.csrs] using hc, h.gov, h.seed, h.regions, h.faults,
      h.phase, h.tick, h.sameMemory, h.sameEngines, h.sameTraffic, h.waits, by rwa [h.gang], h.inflight⟩
  case exit =>
    intro h s u e ht
    obtain ⟨t, rfl, rfl | h⟩ := execExit_retires e ht
    · exact ⟨s.sameModule_withTile _, s.tile.retire_sameRegs, rfl, rfl, rfl, rfl, rfl, s.tile.retire_sameMemory, rfl, rfl, rfl, rfl,
        rfl, fun _ => List.mem_of_mem_filter, fun _ => List.mem_of_mem_filter, rfl, rfl,
        .inl ⟨rfl, fun _ => Tile.mem_retire_inflight⟩⟩
    · have htr := h.sameTraffic_of_gang
      have hen := h.sameEngines
      exact ⟨s.sameModule_withTile t, h.sameRegs, h.csrs, h.gov, h.seed, h.faults, h.tick, h.sameMemory, congrArg Matrix.accs hen.mx,
        congrArg Matrix.cfg hen.mx, congrArg Matrix.rings hen.mx, congrArg Cascade.banks hen.casc, htr.buffer,
        fun _ => (htr.basin ▸ ·), fun _ => (htr.skid ▸ ·), htr.sent, h.gang,
        .inr ⟨h.phase, h.inflight_eq, h.regions, h.waits, hen, htr⟩⟩

end Sys2Proof.Machine
end

section
/-! PROOFS. Bit fields, bytes and bit counts: what each helper of the model says of the bits of a number. -/

namespace Sys2Proof

theorem testBit_fld (x lo n i : Nat) : (fld x lo n).testBit i = (decide (i < n) && x.testBit (lo + i)) := by
  rw [fld, Nat.testBit_mod_two_pow, Nat.testBit_div_two_pow, Nat.add_comm]

theorem two_pow_byte_succ (i : Nat) : 2 ^ (8 * (i + 1)) = 256 * 2 ^ (8 * i) := by ring

/-- The bytes of a little-endian value, one by one (R6). -/
theorem fld_natOfBytes (l : List Byte) (i : Nat) : fld (natOfBytes l) (8 * i) 8 = ((l[i]?).getD 0).toNat := by
  induction l generalizing i with
  | nil => simp [natOfBytes, fld]
  | cons b bs ih =>
    have hb := b.isLt
    cases i with
    | zero => simp only [natOfBytes, fld, List.getElem?_cons_zero, Option.getD_some]; omega
    | succ i =>
      have hd : (b.toNat + 256 * natOfBytes bs) / 2 ^ (8 * (i + 1)) = natOfBytes bs / 2 ^ (8 * i) := by
        rw [two_pow_byte_succ, ← Nat.div_div_eq_div_mul]
        congr 1
        omega
      rw [List.getElem?_cons_succ, ← ih i, natOfBytes, fld, fld, hd]

theorem getElem?_bytesOfNat {n i : Nat} (x : Nat) (h : i < n) : (bytesOfNat n x)[i]? = some (BitVec.ofNat 8 (x / 2 ^ (8 * i))) := by
  induction n generalizing i x with
  | zero => omega
  | succ n ih =>
    cases i with
    | zero => simp [bytesOfNat]
    | succ i => rw [bytesOfNat, List.getElem?_cons_succ, ih _ (by omega), Nat.div_div_eq_div_mul, two_pow_byte_succ]

end Sys2Proof

namespace Sys2Proof.Machine

/-- A field of a word of a number is the number's. -/
theorem bits_word (x : Nat) {lo n : Nat} (h : lo + n ≤ 64) : bits (word x) lo n = fld x lo n := by
  refine Nat.eq_of_testBit_eq fun i => ?_
  rw [bits, testBit_fld, testBit_fld, word, BitVec.toNat_ofNat, Nat.testBit_mod_two_pow]
  by_cases hi : i < n
  · simp [show lo + i < 64 by omega]
  · simp [hi]

theorem bits_byteSwap (w : Word) {i : Nat} (h : i < 8) : bits (byteSwap w) (8 * i) 8 = bits w (56 - 8 * i) 8 := by
  have hl : i < (bytesOfNat 8 w.toNat).length := by rwa [bytesOfNat_length]
  rw [byteSwap, bits_word _ (by omega), fld_natOfBytes, List.getElem?_reverse hl, bytesOfNat_length,
    getElem?_bytesOfNat _ (by omega), Option.getD_some, BitVec.toNat_ofNat, bits, fld, show 8 * (8 - 1 - i) = 56 - 8 * i by omega]

/-! Counts of bits (R83). -/

theorem leadingZeros_spec {n x : Nat} (h : x < 2 ^ n) : leadingZeros n x ≤ n ∧
    (∀ i, i < leadingZeros n x → x.testBit (n - 1 - i) = false) ∧
    (leadingZeros n x < n → x.testBit (n - 1 - leadingZeros n x) = true) := by
  unfold leadingZeros
  split
  next hx => simp [hx]
  next hx =>
    have hl := (Nat.log2_lt hx).2 h
    refine ⟨by omega, fun i hi => Nat.testBit_lt_two_pow ?_, fun _ => ?_⟩
    · exact Nat.lt_log2_self.trans_le (Nat.pow_le_pow_right (by decide) (by omega))
    · rw [show n - 1 - (n - 1 - Nat.log2 x) = Nat.log2 x by omega]
      exact Nat.testBit_log2 hx

theorem trailingZeros_spec (n x : Nat) : trailingZeros n x ≤ n ∧ (∀ i, i < trailingZeros n x → x.testBit i = false) ∧
    (trailingZeros n x < n → x.testBit (trailingZeros n x) = true) := by
  induction n generalizing x with
  | zero => simp [trailingZeros]
  | succ n ih =>
    obtain ⟨hle, hz, ho⟩ := ih (x / 2)
    unfold trailingZeros
    split
    next hx => exact ⟨by omega, by simp, fun _ => by simp [Nat.testBit_zero, hx]⟩
    next hx =>
      refine ⟨by omega, fun i hi => ?_, fun hn => ?_⟩
      · cases i with
        | zero => simp [Nat.testBit_zero, hx]
        | succ i => rw [Nat.testBit_succ]; exact hz i (by omega)
      · rw [Nat.add_comm, Nat.testBit_succ]
        exact ho (by omega)

theorem popCount_eq (n x : Nat) : popCount n x = ((List.range n).filter fun i => x.testBit i).length := by
  induction n generalizing x with
  | zero => rfl
  | succ n ih =>
    have hf : (fun i => x.testBit i) ∘ Nat.succ = fun i => (x / 2).testBit i := funext fun i => Nat.testBit_succ x i
    rw [popCount, ih, List.range_succ_eq_map, List.filter_cons, List.filter_map, hf]
    rcases Nat.mod_two_eq_zero_or_one x with hx | hx
    · simp [Nat.testBit_zero, hx]
    · simp [Nat.testBit_zero, hx, Nat.add_comm]

end Sys2Proof.Machine
end

section
/-! PROOFS. Scalar results (R83, R84): what the shared forms of one and two sources answer, and the value of each operation. -/

namespace Sys2Proof.Machine

/-! The shared forms, with the guard on and the sources readable. -/

section
variable {s : State} {h : Hdr} {a b : Src} {x y : Word} (hg : s.tile.guarded h = true) (ha : s.tile.readS a = some x)
include hg ha

theorem onTile_scalar1 (d : Dest) {lat : Nat} {f : Word → Word} {v : Word} (hv : f x = v) :
    onTile (Tile.scalar1 h d a lat f) s = s.nextTile (s.tile.putS lat d v) :=
  onTile_ok (by simp [Tile.scalar1, hg, ha, hv])

theorem onTile_scalar2 (hb : s.tile.readS b = some y) (d : Dest) {lat : Nat} {f : Word → Word → Word} {v : Word} (hv : f x y = v) :
    onTile (Tile.scalar2 h d a b lat f) s = s.nextTile (s.tile.putS lat d v) :=
  onTile_ok (by simp [Tile.scalar2, hg, ha, hb, hv])

end

/-! Two sources (R83). -/

theorem shiftBy_eq (y : Word) : shiftBy y = y.toNat % 64 := by simp [shiftBy, bits, fld]

theorem minSigned_eq (x y : Word) : minSigned x y = if y.toInt < x.toInt then y else x := by
  simp only [minSigned, ← not_lt, ite_not]

theorem maxSigned_eq (x y : Word) : maxSigned x y = if y.toInt < x.toInt then x else y := by
  simp only [maxSigned, ← not_lt, ite_not]

theorem minUnsigned_eq (x y : Word) : minUnsigned x y = if y.toNat < x.toNat then y else x := by
  simp only [minUnsigned, ← not_lt, ite_not]

theorem maxUnsigned_eq (x y : Word) : maxUnsigned x y = if y.toNat < x.toNat then x else y := by
  simp only [maxUnsigned, ← not_lt, ite_not]

theorem rotateLeft_of_lt (x : Word) {n : Nat} (h : n < 64) : x.rotateLeft n = x <<< n ||| x >>> (64 - n) := by
  rw [BitVec.rotateLeft_def, Nat.mod_eq_of_lt h]

/-- Settles O17: each operation is the form of two sources under its own function of the two words. -/
theorem scalarArithmetic : Obligations.ScalarArithmetic := by
  unfold Obligations.ScalarArithmetic
  intro s h d a b x y hg ha hb put sh
  have hsh : shiftBy y = sh := shiftBy_eq y
  have result {lat : Nat} {f : Word → Word → Word} {v : Word} (hv : f x y = v) := onTile_scalar2 (lat := lat) hg ha hb d hv
  exact ⟨result rfl, result rfl, result rfl, result rfl, result rfl, result (by rw [hsh]), result (by rw [hsh]), result (by rw [hsh]),
    result rfl, result rfl, result rfl, result (minSigned_eq x y), result (maxSigned_eq x y), result (minUnsigned_eq x y),
    result (maxUnsigned_eq x y), result (by rw [hsh]; exact rotateLeft_of_lt x (Nat.mod_lt _ (by decide)))⟩

/-! Division (R84). -/

theorem divUnsigned_toNat (x : Word) {y : Word} (hy : y ≠ 0) : (divUnsigned x y).toNat = x.toNat / y.toNat := by
  rw [divUnsigned, if_neg hy, word, BitVec.toNat_ofNat]
  exact Nat.mod_eq_of_lt ((Nat.div_le_self _ _).trans_lt x.isLt)

theorem remUnsigned_toNat (x : Word) {y : Word} (hy : y ≠ 0) : (remUnsigned x y).toNat = x.toNat % y.toNat := by
  rw [remUnsigned, if_neg hy, word, BitVec.toNat_ofNat]
  exact Nat.mod_eq_of_lt ((Nat.mod_le _ _).trans_lt x.isLt)

theorem divSigned_eq_sdiv (x : Word) {y : Word} (hy : y ≠ 0) : divSigned x y = x.sdiv y := by
  refine BitVec.eq_of_toInt_eq ?_
  rw [divSigned, if_neg hy, wordI, BitVec.toInt_ofInt, BitVec.toInt_sdiv]

theorem remSigned_eq_srem (x : Word) {y : Word} (hy : y ≠ 0) : remSigned x y = x.srem y := by
  rw [remSigned, if_neg hy, wordI, ← BitVec.toInt_srem, BitVec.ofInt_toInt]

theorem toInt_eq_min_iff (x : Word) : x.toInt = -(2 ^ 63) ↔ x = BitVec.intMin 64 := by
  rw [← BitVec.toInt_inj, show (BitVec.intMin 64).toInt = -(2 ^ 63) by decide]

/-- The quotient of two words that is no word is −2^63 / −1, which is −2^63 (R84). -/
theorem divSigned_min (x : Word) (hx : x.toInt = -(2 ^ 63)) : divSigned x (-1) = x ∧ remSigned x (-1) = 0 := by
  rw [(toInt_eq_min_iff x).1 hx]
  decide

theorem divSigned_toInt {x y : Word} (hy : y ≠ 0) (hc : ¬(x.toInt = -(2 ^ 63) ∧ y = -1)) :
    (divSigned x y).toInt = x.toInt.tdiv y.toInt := by
  rw [toInt_eq_min_iff, not_and_or] at hc
  rw [divSigned_eq_sdiv x hy, BitVec.toInt_sdiv_of_ne_or_ne x y hc]

theorem remSigned_toInt (x : Word) {y : Word} (hy : y ≠ 0) :
    (remSigned x y).toInt = x.toInt - y.toInt * x.toInt.tdiv y.toInt := by
  rw [remSigned_eq_srem x hy, BitVec.toInt_srem, Int.tmod_def]

theorem div_zero_word (x : Word) : divSigned x 0 = -1 ∧ remSigned x 0 = x ∧ divUnsigned x 0 = -1 ∧ remUnsigned x 0 = x :=
  ⟨rfl, rfl, rfl, rfl⟩

/-- Settles O18: the four operations of division by the four cases of R84, and each unary operation by the bits that it counts or moves. -/
theorem divisionAndBits : Obligations.DivisionAndBits := by
  unfold Obligations.DivisionAndBits
  refine ⟨?division, ?bits⟩
  case division =>
    intro s h d a b x y hg ha hb
    refine ⟨divSigned x y, remSigned x y, divUnsigned x y, remUnsigned x y, onTile_scalar2 hg ha hb d rfl, onTile_scalar2 hg ha hb d rfl,
      onTile_scalar2 hg ha hb d rfl, onTile_scalar2 hg ha hb d rfl, ?zero, ?unsigned, ?corner, ?signed⟩
    case zero => rintro rfl; exact div_zero_word x
    case unsigned => exact fun hy => ⟨divUnsigned_toNat x hy, remUnsigned_toNat x hy⟩
    case corner => rintro hx rfl; exact divSigned_min x hx
    case signed => exact fun hy hc => ⟨divSigned_toInt hy hc, remSigned_toInt x hy⟩
  case bits =>
    intro s h d a x hg ha
    exact ⟨leadingZeros 64 x.toNat, trailingZeros 64 x.toNat, popCount 64 x.toNat, byteSwap x, onTile_scalar1 hg ha d rfl,
      onTile_scalar1 hg ha d rfl, onTile_scalar1 hg ha d rfl, onTile_scalar1 hg ha d rfl, leadingZeros_spec x.isLt,
      trailingZeros_spec 64 x.toNat, popCount_eq 64 x.toNat, fun _ => bits_byteSwap x⟩

end Sys2Proof.Machine
end

section
/-! PROOFS. Immediates, compares, predicates and CSRs (R85 to R93): the fields of their words, and the value of each operation. -/

namespace Sys2Proof

/-! Words of majors 4 to 12 and 37 (R73). -/

theorem decodeWord_of_major {w : Nat} {i : Instr} (h : decodeWord w = .ok i) :
    (fld w 25 6 = 4 → decodeMaj4 w = .ok i) ∧ (fld w 25 6 = 5 → decodeMaj5 w = .ok i) ∧ (fld w 25 6 = 6 → decodeMaj6 w = .ok i) ∧
    (fld w 25 6 = 7 → decodeMaj7 w = .ok i) ∧ (fld w 25 6 = 8 → decodeMaj8 w = .ok i) ∧ (fld w 25 6 = 9 → decodeMaj9 w = .ok i) ∧
    (fld w 25 6 = 10 → decodeMaj10 w = .ok i) ∧ (fld w 25 6 = 11 → decodeMaj11 w = .ok i) ∧
    (fld w 25 6 = 12 → decodeMaj12 w = .ok i) := by
  unfold decodeWord at h
  refine ⟨?_, ?_, ?_, ?_, ?_, ?_, ?_, ?_, ?_⟩ <;> intro hm <;> simpa only [hm] using h

/-- IMM9 in two's complement (R85). -/
theorem sfld_nine (w : Nat) : sfld w 0 9 = if fld w 0 9 < 256 then (fld w 0 9 : Int) else (fld w 0 9 : Int) - 512 := rfl

/-- The shift that IMM9 [8:7] selects (R86). -/
theorem decodeMaj8_ok {w : Nat} {i : Instr} (h : decodeMaj8 w = .ok i) :
    (fld w 7 2 = 0 → i = .shli (hdrOf w) (destOf w) (srcOf (fld w 9 6)) (fld w 0 6)) ∧
    (fld w 7 2 = 1 → i = .shri (hdrOf w) (destOf w) (srcOf (fld w 9 6)) (fld w 0 6)) ∧
    (fld w 7 2 = 2 → i = .srai (hdrOf w) (destOf w) (srcOf (fld w 9 6)) (fld w 0 6)) ∧
    (fld w 7 2 = 3 → i = .rotli (hdrOf w) (destOf w) (srcOf (fld w 9 6)) (fld w 0 6)) := by
  unfold decodeMaj8 at h
  split at h
  · cases h
  · refine ⟨?_, ?_, ?_, ?_⟩ <;> intro hm <;> simp only [hm] at h <;> exact (judge_ok h).1.symm

theorem decodeMaj8_reserved {w : Nat} (h : fld w 6 1 = 1) : decodeMaj8 w = .illegal .badCode := if_pos h

/-- A VNOP has no bit below its major (R134). -/
theorem decodeMaj37_nonzero {w : Nat} (h : fld w 0 25 ≠ 0) : decodeMaj37 w = .illegal .mustBeZero := by
  simp [decodeMaj37, judge, chkZero, h, Illegal.worse]

end Sys2Proof

namespace Sys2Proof.Machine

/-! A number with one field replaced (R87). -/

theorem putField_eq (x lo n v : Nat) : putField x lo n v = x % 2 ^ lo + 2 ^ lo * (v % 2 ^ n + 2 ^ n * (x / 2 ^ (lo + n))) := by
  have hx : x = x % 2 ^ lo + 2 ^ lo * (2 ^ n * (x / 2 ^ (lo + n))) + fld x lo n * 2 ^ lo := by
    have hq : fld x lo n + 2 ^ n * (x / 2 ^ (lo + n)) = x / 2 ^ lo := by
      rw [fld, pow_add, ← Nat.div_div_eq_div_mul, Nat.mod_add_div]
    calc x = x % 2 ^ lo + 2 ^ lo * (x / 2 ^ lo) := (Nat.mod_add_div x _).symm
      _ = x % 2 ^ lo + 2 ^ lo * (2 ^ n * (x / 2 ^ (lo + n))) + fld x lo n * 2 ^ lo := by rw [← hq]; ring
  rw [putField, Nat.sub_eq_of_eq_add hx]
  ring

theorem putField_div (x lo n v : Nat) : putField x lo n v / 2 ^ lo = v % 2 ^ n + 2 ^ n * (x / 2 ^ (lo + n)) := by
  rw [putField_eq, Nat.add_mul_div_left _ _ (Nat.two_pow_pos lo), Nat.div_eq_of_lt (Nat.mod_lt _ (Nat.two_pow_pos lo)), Nat.zero_add]

theorem fld_putField_same (x lo n v : Nat) : fld (putField x lo n v) lo n = v % 2 ^ n := by
  rw [fld, putField_div, Nat.add_mul_mod_self_left, Nat.mod_mod]

theorem fld_putField_below (x lo n v : Nat) : fld (putField x lo n v) 0 lo = fld x 0 lo := by
  rw [fld, fld, pow_zero, Nat.div_one, Nat.div_one, putField_eq, Nat.add_mul_mod_self_left, Nat.mod_mod]

theorem fld_putField_above (x lo n v k : Nat) : fld (putField x lo n v) (lo + n) k = fld x (lo + n) k := by
  rw [fld, fld, pow_add, ← Nat.div_div_eq_div_mul, putField_div, Nat.add_mul_div_left _ _ (Nat.two_pow_pos n),
    Nat.div_eq_of_lt (Nat.mod_lt _ (Nat.two_pow_pos n)), Nat.zero_add, pow_add]

/-- An insertion sets its 16 bits and leaves those below and above (R87). -/
theorem bits_insert16 (v : Word) {lo imm : Nat} (h : lo + 16 ≤ 64) (hi : imm < 65536) :
    bits (insert16 v lo imm) lo 16 = imm ∧ bits (insert16 v lo imm) 0 lo = bits v 0 lo ∧
    ∀ k, lo + 16 + k ≤ 64 → bits (insert16 v lo imm) (lo + 16) k = bits v (lo + 16) k := by
  refine ⟨?_, ?_, fun k hk => ?_⟩
  · rw [insert16, bits_word _ h, fld_putField_same]
    exact Nat.mod_eq_of_lt hi
  · rw [insert16, bits_word _ (by omega), fld_putField_below, bits]
  · rw [insert16, bits_word _ hk, fld_putField_above, bits]

theorem immWord_signed_toInt {i : Nat} (h : i < 65536) :
    (immWord (signed 16 i)).toInt = if i < 32768 then (i : Int) else (i : Int) - 65536 := by
  have hs : signed 16 i = if i < 32768 then (i : Int) else (i : Int) - 65536 := rfl
  rw [immWord, wordI, BitVec.toInt_ofInt, hs]
  refine Int.bmod_eq_of_le ?_ ?_ <;> split <;> omega

/-! The forms of syllables that a guard suppresses whole. -/

theorem onTile_on {s : State} {h : Hdr} (hg : s.tile.guarded h = true) (f : Tile → Tile) :
    onTile (fun t => if t.guarded h then .ok (f t) else .ok t) s = s.nextTile (f s.tile) :=
  onTile_ok (by simp [hg])

/-! Immediates (R85 to R87). -/

/-- Settles O19: the forms of one source under each operation, the insertions field by field, and the decoder major by major. -/
theorem immediates : Obligations.Immediates := by
  unfold Obligations.Immediates
  refine ⟨?results, ?words, ?reserved⟩
  case results =>
    intro s h d a x imm n r i hg ha hn hi put
    have result {f : Word → Word} {v : Word} (hv : f x = v) := onTile_scalar1 (lat := 1) hg ha d hv
    refine ⟨result rfl, result rfl, result rfl, result rfl, result rfl, result rfl, result rfl, result (rotateLeft_of_lt x hn),
      ⟨_, onTile_on hg fun t => t.put 1 .s (.sreg r (immWord (signed 16 i))), immWord_signed_toInt hi⟩, _, _, _,
      onTile_on hg fun t => t.put 1 .s (.sreg r (insert16 (t.sreg r) 16 i)),
      onTile_on hg fun t => t.put 1 .s (.sreg r (insert16 (t.sreg r) 32 i)),
      onTile_on hg fun t => t.put 1 .s (.sreg r (insert16 (t.sreg r) 48 i)), ?_, ?_, ?_⟩
    · obtain ⟨same, below, above⟩ := bits_insert16 (s.tile.sreg r) (lo := 16) (by decide) hi
      exact ⟨same, below, above 32 (by decide)⟩
    · obtain ⟨same, below, above⟩ := bits_insert16 (s.tile.sreg r) (lo := 32) (by decide) hi
      exact ⟨same, below, above 16 (by decide)⟩
    · obtain ⟨same, below, -⟩ := bits_insert16 (s.tile.sreg r) (lo := 48) (by decide) hi
      exact ⟨same, below⟩
  case words =>
    intro w i hw
    obtain ⟨h4, h5, h6, h7, h8, h9, h10, h11, h12⟩ := decodeWord_of_major hw
    exact ⟨fun hm => (judge_ok (h4 hm)).1.symm, fun hm => (judge_ok (h5 hm)).1.symm, fun hm => (judge_ok (h6 hm)).1.symm,
      fun hm => (judge_ok (h7 hm)).1.symm, fun hm => decodeMaj8_ok (h8 hm), fun hm => (judge_ok (h9 hm)).1.symm,
      fun hm => (judge_ok (h10 hm)).1.symm, fun hm => (judge_ok (h11 hm)).1.symm, fun hm => (judge_ok (h12 hm)).1.symm⟩
  case reserved =>
    intro w hm hr
    rw [← decodeMaj8_reserved hr, decodeWord]
    simp only [hm]

/-! Compares and predicates (R88 to R90). -/

theorem bne_decide (x y : Word) : (x != y) = decide (x ≠ y) := by simp [bne, beq_eq_decide]

section
variable {s : State} {h : Hdr} {a b : Src} {x y : Word}

theorem onTile_compare (hg : s.tile.guarded h = true) (ha : s.tile.readS a = some x) (hb : s.tile.readS b = some y) (d : Nat)
    {f : Word → Word → Bool} {c : Bool} (hc : f x y = c) :
    onTile (Tile.compare h d a b f) s = s.nextTile (s.tile.put 1 .s (.pred d (if c then -1 else 0))) :=
  onTile_ok (by simp [Tile.compare, hg, ha, hb, hc, boolWord])

theorem onTile_predOp (hg : s.tile.guarded h = true) (d : Nat) (v : Tile → Word) :
    onTile (fun t => Tile.predOp h d (v t) t) s = s.nextTile (s.tile.put 1 .s (.pred d (v s.tile))) :=
  onTile_ok (by simp [Tile.predOp, hg])

theorem execSel_next (ha : s.tile.readS a = some x) (hb : s.tile.readS b = some y) (d : Dest) :
    execSel h d a b s = s.nextTile (s.tile.putS 1 d (if s.tile.guarded h then x else y)) :=
  onTile_ok (by simp [ha, hb])

theorem execMovtp_next (hg : s.tile.guarded h = true) (ha : s.tile.readS a = some x) (d : Nat) :
    execMovtp h d a s = s.nextTile (s.tile.put 1 .s (.pred d x)) :=
  onTile_ok (by simp [hg, ha])

end

/-- Settles O20: the forms of a compare and of a predicate operation under each function, and the empty syllables. -/
theorem comparesAndPredicates : Obligations.ComparesAndPredicates := by
  unfold Obligations.ComparesAndPredicates
  refine ⟨?compares, ?predicates, ?sel, ?movp, ?movtp, ?empty, ?vnop, by decide, by decide⟩
  case compares =>
    intro s h d a b x y hg ha hb put
    have result {f : Word → Word → Bool} {c : Bool} (hc : f x y = c) := onTile_compare hg ha hb d hc
    exact ⟨result (beq_eq_decide x y), result (bne_decide x y), result rfl, result rfl, result rfl, result rfl,
      result (bne_decide _ _)⟩
  case predicates =>
    intro s h d a b hg put x y
    exact ⟨onTile_predOp hg d fun t => t.pred a &&& t.pred b, onTile_predOp hg d fun t => t.pred a ||| t.pred b,
      onTile_predOp hg d fun t => t.pred a ^^^ t.pred b, onTile_predOp hg d fun t => t.pred a &&& ~~~(t.pred b),
      onTile_predOp hg d fun t => ~~~(t.pred a), onTile_predOp hg d fun t => t.pred a, onTile_predOp hg d fun _ => -1,
      onTile_predOp hg d fun _ => 0⟩
  case sel => exact fun s h d a b x y ha hb => execSel_next ha hb d
  case movp => exact fun s h d a hg => onTile_on hg fun t => t.putS 1 d (t.pred a)
  case movtp => exact fun s h d a x hg ha => execMovtp_next hg ha d
  case empty => exact fun s e => ⟨rfl, rfl, rfl, rfl⟩
  case vnop =>
    intro w hm hz i hw
    have hd : decodeWord w = decodeMaj37 w := by simp only [decodeWord, hm]
    rw [hd, decodeMaj37_nonzero hz] at hw
    cases hw

/-! CSRs (R91 to R93). -/

section
variable {s : State} {h : Hdr} {c : Csr} (hg : s.tile.guarded h = true)
include hg

theorem onTile_csrWrite_legal (hc : csrAccess c = .rw) (v : Tile → Word) (hv : csrLegal c (v s.tile) = true) :
    onTile (fun t => Tile.csrWrite h c (v t) t) s = s.nextTile (s.tile.putCsr c (v s.tile &&& word (csrMask c))) :=
  onTile_ok (by simp [Tile.csrWrite, hg, hc, hv])

theorem onTile_csrWrite_illegal (hc : csrAccess c = .rw) (v : Tile → Word) (hv : csrLegal c (v s.tile) = false) :
    onTile (fun t => Tile.csrWrite h c (v t) t) s = .next (s.takeTrap (illegalTrap s.tile.iss.pos .badCsrValue)) :=
  onTile_trap (by simp [Tile.csrWrite, hg, hc, hv])

theorem onTile_csrWrite_readOnly (hc : csrAccess c = .ro) (v : Tile → Word) :
    onTile (fun t => Tile.csrWrite h c (v t) t) s = .next (s.takeTrap (illegalTrap s.tile.iss.pos .badCsrValue)) :=
  onTile_trap (by simp [Tile.csrWrite, hg, hc])

theorem onTile_csrWrite_privileged (hc : csrAccess c = .pr) (v : Tile → Word) :
    onTile (fun t => Tile.csrWrite h c (v t) t) s = .next (s.takeTrap (privTrap s.tile.iss.pos c)) :=
  onTile_trap (by simp [Tile.csrWrite, hg, hc])

end

/-- Settles O21: a write of each access class, with the value that each of CSRW, CSRS and CSRC makes. -/
theorem csrAccesses : Obligations.CsrAccess := by
  unfold Obligations.CsrAccess
  intro s h d c hg t
  refine ⟨onTile_on hg fun t => t.put 1 .s (.sreg d (t.csr c)), fun hc => ⟨?write, ?set, ?clear, ?forbidden⟩, fun hc => ?readOnly,
    fun hc => ?privileged⟩
  case write => exact onTile_csrWrite_legal hg hc fun t => t.sreg d
  case set => exact onTile_csrWrite_legal hg hc fun t => t.csr c ||| t.sreg d
  case clear => exact onTile_csrWrite_legal hg hc fun t => t.csr c &&& ~~~(t.sreg d)
  case forbidden => exact onTile_csrWrite_illegal hg hc fun t => t.sreg d
  case readOnly =>
    exact ⟨onTile_csrWrite_readOnly hg hc fun t => t.sreg d,
      onTile_csrWrite_readOnly hg hc fun t => t.csr c ||| t.sreg d,
      onTile_csrWrite_readOnly hg hc fun t => t.csr c &&& ~~~(t.sreg d)⟩
  case privileged =>
    exact ⟨onTile_csrWrite_privileged hg hc fun t => t.sreg d,
      onTile_csrWrite_privileged hg hc fun t => t.csr c ||| t.sreg d,
      onTile_csrWrite_privileged hg hc fun t => t.csr c &&& ~~~(t.sreg d)⟩

end Sys2Proof.Machine
end

section
/-! PROOFS. Transfers of a tile in no gang (R95, R96, R99, R100): a jump and a call to a bundle start, the entry of a loop, and the
back edge of the innermost body. -/

namespace Sys2Proof.Machine

/-! A transfer to a bundle start (R95, R96). -/

theorem Tile.jumpTo_start {t : Tile} {p : Nat} {a : Int} (ha : a = p) (hp : t.isStart p = true) (j : Bool) :
    t.jumpTo a j = t.transfer p j := by
  subst ha
  simp [Tile.jumpTo, hp]

theorem Tile.callTo_start {t : Tile} {p : Nat} {a : Int} (ha : a = p) (hp : t.isStart p = true) :
    t.callTo a = (t.transfer p false).link := by
  subst ha
  simp [Tile.callTo, hp]

section
variable {s : State} {h : Hdr} {a b : Src} {x y : Word} (hg : s.tile.guarded h = true) (hf : s.tile.iss.follow = none)
include hg hf

theorem execBr_next (o : Int) : execBr h o s = s.nextTile (s.tile.jumpTo (s.tile.iss.addr + 4 * o) true) :=
  onTile_ok (by simp [hg, hf])

theorem execCall_next (o : Int) : execCall h o s = s.nextTile (s.tile.callTo (s.tile.iss.addr + 4 * o)) :=
  onTile_ok (by simp [hg, hf])

theorem execJmpr_next (ha : s.tile.readS a = some x) : execJmpr h a s = s.nextTile (s.tile.jumpTo x.toNat true) :=
  onTile_ok (by simp [hg, hf, ha])

theorem execCallr_next (ha : s.tile.readS a = some x) : execCallr h a s = s.nextTile (s.tile.callTo x.toNat) :=
  onTile_ok (by simp [hg, hf, ha])

/-! The entry of a loop (R99): a count of 32 bits, and a body whose last bundle is given. -/

theorem execLoop_next {len stop : Nat} (ha : s.tile.readS a = some x) (hs : s.tile.nthStart s.tile.iss.addr len = some stop) (l : Nat) :
    execLoop h l a len s = s.nextTile (s.tile.enterLoop l (x.toNat % 2 ^ 32) stop) :=
  onTile_ok (by simp [hg, hf, ha, hs, Tile.loopOver, bits, fld])

theorem execLoopr_next {stop : Nat} (ha : s.tile.readS a = some x) (hb : s.tile.readS b = some y) (h0 : 0 < y.toNat)
    (hle : y.toNat ≤ s.tile.csrs.prebound.toNat) (hs : s.tile.nthStart s.tile.iss.addr y.toNat = some stop) (l : Nat) :
    execLoopr h l a b s = s.nextTile (s.tile.enterLoop l (x.toNat % 2 ^ 32) stop) := by
  have hy : y ≠ 0#64 := by rintro rfl; exact absurd h0 (by decide)
  exact onTile_ok (by simp [hg, hf, ha, hb, hs, hy, hle, Tile.loopOver, bits, fld])

end

theorem Tile.enterLoop_count (t : Tile) (l : Nat) {n : Nat} (hn : 0 < n) (stop : Nat) :
    t.enterLoop l n stop =
      let u := if (t.loops.level l).isSome then t.loops.drop l else t.loops
      { t with loops := { levels := u.levels.set l (some ⟨t.tick, t.iss.next, stop, n, 0⟩), order := l :: u.order }, pc := t.iss.next } :=
  if_neg hn.ne'

theorem Tile.enterLoop_zero {t : Tile} {stop after : Nat} (h : t.startAfter stop 32768 = some after) (l : Nat) :
    t.enterLoop l 0 stop = { t with loops := if (t.loops.level l).isSome then t.loops.drop l else t.loops, pc := after } := by
  simp [Tile.enterLoop, h]

/-! The back edge (R100). -/

section
variable {u : LoopUnit} {addr l : Nat} {rest : List Nat} {v : LoopLevel} (hl : u.level l = some v)
include hl

theorem LoopUnit.backEdge_elsewhere (h : addr ≠ v.stop) : u.backEdge addr (l :: rest) = (u, none) := by
  simp [LoopUnit.backEdge, hl, h]

theorem LoopUnit.backEdge_again (h : addr = v.stop) (hr : 1 < v.remain) :
    u.backEdge addr (l :: rest) = (u.setLevel l { v with remain := v.remain - 1, index := v.index + 1 }, some v.start) := by
  simp [LoopUnit.backEdge, hl, h, hr]

theorem LoopUnit.backEdge_last (h : addr = v.stop) (hr : v.remain ≤ 1) :
    u.backEdge addr (l :: rest) = (u.drop l).backEdge addr rest := by
  simp [LoopUnit.backEdge, hl, h, hr.not_gt]

end

theorem Tile.advance_eq {t : Tile} {u : LoopUnit} {o : Option Nat} (h : t.loops.backEdge t.iss.addr t.loops.order = (u, o)) :
    t.advance = { t with loops := u, pc := o.getD t.iss.next, iss := { t.iss with edge := o.isSome } } := by
  simp only [Tile.advance, h]

/-- Settles O22: the target of each transfer, the two outcomes of a loop's entry, and the three of a bundle in the innermost body. -/
theorem controlTransfers : Obligations.ControlTransfers := by
  unfold Obligations.ControlTransfers
  refine ⟨?transfers, ?loops, ?edges⟩
  case transfers =>
    intro s h o a p hg hf hp t jump call
    refine ⟨fun ht => ⟨?_, ?_⟩, fun x ha hx => ⟨?_, ?_⟩⟩
    · exact (execBr_next hg hf o).trans (congrArg _ (Tile.jumpTo_start ht hp true))
    · exact (execCall_next hg hf o).trans (congrArg _ (Tile.callTo_start ht hp))
    · exact (execJmpr_next hg hf ha).trans (congrArg _ (Tile.jumpTo_start (congrArg _ hx) hp true))
    · exact (execCallr_next hg hf ha).trans (congrArg _ (Tile.callTo_start (congrArg _ hx) hp))
  case loops =>
    intro s h l len stop a b x y hg hf ha hb hy h0 hle hs t u
    subst hy
    have loop := execLoop_next hg hf ha hs l
    have loopr := execLoopr_next hg hf ha hb h0 hle hs l
    refine ⟨fun n hn hpos => ?_, fun after hn hafter => ?_⟩
    · rw [hn, Tile.enterLoop_count _ _ hpos] at loop loopr
      exact ⟨loop, loopr⟩
    · rw [hn, Tile.enterLoop_zero hafter] at loop loopr
      exact ⟨loop, loopr⟩
  case edges =>
    intro t l rest v ho hl
    refine ⟨fun h => ?_, fun h hr => ?_, fun h hr hrest => ?_⟩
    · exact Tile.advance_eq (ho ▸ LoopUnit.backEdge_elsewhere hl h)
    · exact Tile.advance_eq (ho ▸ LoopUnit.backEdge_again hl h hr)
    · subst hrest
      exact Tile.advance_eq (ho ▸ LoopUnit.backEdge_last hl h hr)

end Sys2Proof.Machine
end

section
/-! PROOFS. Vector syllables at their issue: what each shared form answers under an accepted format with its sources readable, and
the syllables of R108 to R120 and R124 to R131 by their forms. -/

namespace Sys2Proof.Machine

/-! The shared forms (R106, R107, R110, R129). An operation may read predicates of its tile, hence f over the tile. -/

section
variable {s : State} {h : Hdr} {a b : Src} {x y : VReg} {lat : Nat} {ok : Fmt → Bool}

theorem onTile_vec0 (d : Dest) (f : Tile → VCtx → List (Nat × Flags)) (hok : ok (s.tile.vctx h).fmt = true) :
    onTile (fun t => Tile.vec0 h d lat ok (f t) t) s =
      s.nextTile (s.tile.putLanes (s.tile.vctx h) lat d (f s.tile (s.tile.vctx h))) :=
  onTile_ok (by simp [Tile.vec0, hok])

variable (ha : s.tile.readV a = some x)
include ha

theorem onTile_vec1 (d : Dest) (f : Tile → VCtx → List Nat → List (Nat × Flags)) (hok : ok (s.tile.vctx h).fmt = true) :
    let c := s.tile.vctx h
    onTile (fun t => Tile.vec1 h d a lat ok (f t) t) s =
      s.nextTile (s.tile.putLanes c lat d (f s.tile c (lanesOf c.w c.n x.toNat))) :=
  onTile_ok (by simp [Tile.vec1, hok, ha])

variable (hb : s.tile.readV b = some y)
include hb

theorem onTile_vec2 (d : Dest) (f : VCtx → List Nat → List Nat → List (Nat × Flags)) (hok : ok (s.tile.vctx h).fmt = true) :
    let c := s.tile.vctx h
    onTile (Tile.vec2 h d a b lat ok f) s =
      s.nextTile (s.tile.putLanes c lat d (f c (lanesOf c.w c.n x.toNat) (lanesOf c.w c.n y.toNat))) :=
  onTile_ok (by simp [Tile.vec2, hok, ha, hb])

theorem onTile_vec3 (r : Nat) (f : VCtx → Nat → Nat → Nat → Nat × Flags) (hok : okFloat (s.tile.vctx h).fmt = true) :
    let c := s.tile.vctx h
    onTile (Tile.vec3 h r a b lat f) s = s.nextTile (s.tile.putLanes c lat (.reg r)
      ((List.zip (lanesOf c.w c.n x.toNat) (List.zip (lanesOf c.w c.n y.toNat)
        (lanesOf c.w c.n (s.tile.vreg s.tile.vfile r).toNat))).map fun z => f c z.1 z.2.1 z.2.2)) :=
  onTile_ok (by simp [Tile.vec3, hok, ha, hb])

theorem onTile_vecCompare (r : Nat) (f : VCtx → Nat → Nat → Bool × Flags) (hok : ok (s.tile.vctx h).fmt = true) :
    let c := s.tile.vctx h
    let rs := (List.zip (lanesOf c.w c.n x.toNat) (lanesOf c.w c.n y.toNat)).map fun z => f c z.1 z.2
    onTile (Tile.vecCompare h r a b ok f) s = s.nextTile
      ((s.tile.put 2 (vslotOf s.tile.vfile) (.pred r (maskOf c (s.tile.pred h.g) (s.tile.pred r) (rs.map (·.1))))).putFlags 2
        (vslotOf s.tile.vfile) (guardFlags c.guards (rs.map (·.2)))) :=
  onTile_ok (by simp [Tile.vecCompare, hok, ha, hb])

theorem onTile_vecDot (r : Nat) (f : VCtx → Nat → Nat → Nat → Nat × Flags) :
    let c := s.tile.vctxOf h .fp32
    onTile (Tile.vecDot h r a b f) s = s.nextTile (s.tile.putLanes c 4 (.reg r)
      ((List.zip (lanesOf 32 64 x.toNat) (List.zip (lanesOf 32 64 y.toNat)
        (lanesOf 32 64 (s.tile.vreg s.tile.vfile r).toNat))).map fun z => f c z.1 z.2.1 z.2.2)) :=
  onTile_ok (by simp [Tile.vecDot, ha, hb])

/-- VSEL writes every lane, whatever its guard (R124). -/
theorem execVsel_next (d : Dest) (hok : okLane (s.tile.vctx h).fmt = true) :
    let c := s.tile.vctx h
    execVsel h d a b s = s.nextTile (s.tile.putV 2 d
      (vregOf (packLanes c.w (guardLanes c.guards (lanesOf c.w c.n x.toNat) (lanesOf c.w c.n y.toNat))))) :=
  onTile_ok (by simp [hok, ha, hb])

end

/-! The syllables: each is its form under its own formats, latency and lane function. -/

/-- Settles O24: forms of one, two and three sources. -/
theorem vectorFloat : Obligations.VectorFloat := by
  unfold Obligations.VectorFloat
  intro s h d r a b x y ha hb c xs ys _ _ _
  have one {lat : Nat} {ok : Fmt → Bool} (d : Dest) (f : VCtx → List Nat → List (Nat × Flags)) :=
    onTile_vec1 (h := h) (lat := lat) (ok := ok) ha d fun _ => f
  have two {lat : Nat} {ok : Fmt → Bool} := onTile_vec2 (h := h) (lat := lat) (ok := ok) ha hb
  have three := onTile_vec3 (h := h) (lat := 4) ha hb r
  exact ⟨two d _, two d _, two d _, two d _, two d _, one d _, one d _, two d _, three _, three _, three _, three _,
    two (.reg r) _, one (.reg r) _, one (.reg r) _, one (.reg r) _, one d _, one d _, one d _, one d _, one d _,
    two d _, one d _, two d _⟩

/-- Settles O25: forms of one and two sources. -/
theorem vectorInteger : Obligations.VectorInteger := by
  unfold Obligations.VectorInteger
  intro s h d a b x y ha hb c xs ys _ _
  have one {lat : Nat} {ok : Fmt → Bool} (f : VCtx → List Nat → List (Nat × Flags)) :=
    onTile_vec1 (h := h) (lat := lat) (ok := ok) ha d fun _ => f
  have two {lat : Nat} {ok : Fmt → Bool} := onTile_vec2 (h := h) (lat := lat) (ok := ok) ha hb d
  exact ⟨two _, two _, two _, two _, two _, two _, two _, two _, two _, two _, two _, two _, one _, one _, two _, two _,
    two _, two _, two _, two _, two _, two _, two _, one _⟩

/-- Settles O26: the form of a compare. -/
theorem vectorCompares : Obligations.VectorCompares := by
  unfold Obligations.VectorCompares
  intro s h r a b x y ha hb c xs ys slot _
  have compare {ok : Fmt → Bool} := onTile_vecCompare (h := h) (ok := ok) ha hb r
  exact ⟨compare _, compare _, compare _, compare _, compare _, compare _, compare _, compare _, compare _, compare _, compare _,
    compare _, compare _, compare _, compare _⟩

/-- Settles O27: forms of no source, one and two, the reductions and compressions over a predicate of their tile, and VSEL. -/
theorem vectorMoves : Obligations.VectorMoves := by
  unfold Obligations.VectorMoves
  intro s h d r q imm a b x y ha hb c xs ys _ _ _
  have none {lat : Nat} {ok : Fmt → Bool} := onTile_vec0 (s := s) (h := h) (lat := lat) (ok := ok)
  have one {lat : Nat} {ok : Fmt → Bool} := onTile_vec1 (h := h) (lat := lat) (ok := ok) ha d
  have two {lat : Nat} {ok : Fmt → Bool} := onTile_vec2 (h := h) (lat := lat) (ok := ok) ha hb d
  have reduction {ok : Fmt → Bool} (f : Word → VCtx → List Nat → List (Nat × Flags)) := one (lat := 6) (ok := ok) fun t => f (t.pred q)
  exact ⟨two _, two _, two _, one fun _ => _, two _, fun hok => (one _ hok : execVcmprs h d a q s = _),
    fun hok => (one _ hok : execVexpnd h d a q s = _), reduction sumLanes, reduction (extremeLanes true), reduction (extremeLanes false),
    reduction isumLanes, reduction scanLanes, reduction (bitReduce _ true), reduction (bitReduce _ false), reduction (bitReduce _ false),
    none (.reg r) fun _ => _, none d fun _ => _, two _, fun hok => (none d _ hok : execVmovp h d q s = _),
    fun hok => (none d _ hok : execVpopc h d q s = _), execVsel_next ha hb d⟩

end Sys2Proof.Machine
end

section
/-! PROOFS. Conversions, dot products, random lanes and format writes (R121 to R123, R129, R132, R133). -/

namespace Sys2Proof.Machine

theorem bits_from_zero {k : Nat} (v : BitVec k) (n : Nat) : bits v 0 n = v.toNat % 2 ^ n := by simp [bits, fld]

section
variable {s : State} {h : Hdr} {a : Src} {x : VReg} (ha : s.tile.readV a = some x) (d : Dest) {tf : Fmt} (m : RndOvr) (sat : Bool)
include ha

/-! VCVT by its kinds of format (R121 to R123): between lane formats, from a microscaled one to FP32, and back. -/

theorem execVcvt_lanes (hc : isMx (s.tile.vctx h).fmt = false) (ht : isMx tf = false) :
    let c := s.tile.vctx h
    let k := s.tile.vctxOf h tf
    execVcvt h d a tf m sat s =
      s.nextTile (s.tile.putLanes k 3 d (cvtLanes c tf (RndOvr.pick c.rm m) sat k.n (lanesOf c.w c.n x.toNat))) :=
  onTile_ok (by simp [Tile.convert, hc, ht, ha])

theorem execVcvt_fromMx (hc : isMx (s.tile.vctx h).fmt = true) (ht : tf = .fp32) :
    let c := s.tile.vctx h
    execVcvt h d a tf m sat s = s.nextTile (s.tile.putLanes (s.tile.vctxOf h .fp32) 3 d
      ((List.range 64).map fun i => fp32.deliver (RndOvr.pick c.rm m) c.fz sat (decodeMx c.fmt x.toNat i))) :=
  onTile_ok (by simp [Tile.convert, hc, ht, ha])

theorem execVcvt_toMx (ht : isMx tf = true) (hc : (s.tile.vctx h).fmt = .fp32) (hg : h.g = 0) :
    let c := s.tile.vctx h
    let e := encodeMx tf (RndOvr.pick c.rm m) ((lanesOf 32 64 x.toNat).map c.val)
    execVcvt h d a tf m sat s = s.nextTile ((s.tile.putV 3 d (vregOf e.1)).putFlags 3 (vslotOf s.tile.vfile) e.2) :=
  onTile_ok (by simp [Tile.convert, hc, show isMx .fp32 = false from rfl, ht, hg, ha])

/-- A draw takes the low word of its source as the first word of its counter (R132). -/
theorem execVrng_next (hok : okRandom (s.tile.vctx h).fmt = true) :
    let c := s.tile.vctx h
    execVrng h d a s = s.nextTile (s.tile.putLanes c 8 d (plain (lanesOf c.w c.n
      (randomBits (x.toNat % 2 ^ 32) s.tile.key.id (bits s.tile.csrs.stepcnt 0 32) (word (bits s.tile.seed 0 64)))))) :=
  onTile_ok (by simp [hok, ha, bits_from_zero x])

theorem execVfmts_legal (hg : s.tile.guarded h = true) (hx : bit x 4 = false) :
    execVfmts h a s = s.nextTile (s.tile.putFormat (word (x.toNat % 64))) :=
  onTile_ok (by simp [hg, ha, hx, bits_from_zero x])

theorem execVfmts_reserved (hg : s.tile.guarded h = true) (hx : bit x 4 = true) :
    execVfmts h a s = .next (s.takeTrap (illegalTrap s.tile.iss.pos .badCsrValue)) :=
  onTile_trap (by simp [hg, ha, hx])

end

/-- Settles O28: the form of the dot products, and each other syllable by the branch that its formats and its guard take. -/
theorem vectorConversions : Obligations.VectorConversions := by
  unfold Obligations.VectorConversions
  intro s h d r a b x y ha hb c xs _
  have dot := onTile_vecDot (h := h) ha hb r
  exact ⟨dot _, dot _, dot _, dot _,
    fun _ m sat => ⟨execVcvt_lanes ha d m sat, execVcvt_fromMx ha d m sat, execVcvt_toMx ha d m sat⟩,
    execVrng_next ha d,
    fun hg => ⟨fun bind f => onTile_on hg fun t => t.putFormat (word (f.code + 32 * bind.toNat)),
      execVfmts_legal ha hg, execVfmts_reserved ha hg⟩⟩

end Sys2Proof.Machine
end

section
/-! PROOFS. Lanes by value (R108, R116 to R118): an integer lane in two's complement is a bit vector of its width, and the sign
operations replace one field of their lane. -/

namespace Sys2Proof

/-! Two's complement is the integer reading of bit vectors (R50). -/

theorem enc2_eq_toNat_ofInt (n : Nat) (v : Int) : enc2 n v = (BitVec.ofInt n v).toNat := (BitVec.toNat_ofInt v).symm

theorem signed_toNat {n : Nat} (hn : 0 < n) (x : BitVec n) : signed n x.toNat = x.toInt := by
  have hp : 2 ^ n = 2 * 2 ^ (n - 1) := by rw [← pow_succ', Nat.sub_add_cancel hn]
  have hc : x.toNat < 2 ^ (n - 1) ↔ 2 * x.toNat < 2 ^ n := by omega
  rw [signed, BitVec.toInt_eq_toNat_cond, if_congr hc rfl rfl]

theorem ofInt_toInt_sub {n : Nat} (x y : BitVec n) : BitVec.ofInt n (x.toInt - y.toInt) = x - y :=
  BitVec.eq_of_toInt_eq (by rw [BitVec.toInt_ofInt, BitVec.toInt_sub])

/-- Two numbers that agree in their low bits agree in every field of those. -/
theorem fld_congr_of_low {x y lo i k : Nat} (h : fld x 0 lo = fld y 0 lo) (hi : i + k ≤ lo) : fld x i k = fld y i k := by
  refine Nat.eq_of_testBit_eq fun j => ?_
  have hj := congrArg (Nat.testBit · (i + j)) h
  simp only [testBit_fld, Nat.zero_add] at hj ⊢
  by_cases hk : j < k
  · rw [decide_eq_true (show i + j < lo by omega), Bool.true_and, Bool.true_and] at hj
    rw [hj]
  · rw [decide_eq_false hk, Bool.false_and, Bool.false_and]

theorem fld_bit_le_one (x i : Nat) : fld x i 1 ≤ 1 := Nat.le_of_lt_succ (Nat.mod_lt _ (by decide))

end Sys2Proof

namespace Sys2Proof.Machine

theorem clampInt_eq {lo hi : Int} (h : lo ≤ hi) (v : Int) : clampInt (lo, hi) v = max lo (min hi v) := by
  unfold clampInt
  split
  · omega
  · split <;> omega

/-! The integer formats whose lane is a two's complement number of the lane's width (R104, R116). -/

def VCtx.TwosComplement (c : VCtx) : Prop := (c.fmt = .i16 ∨ c.fmt = .i32 ∨ c.fmt = .i64) ∧ c.w = laneWidth c.fmt

namespace VCtx.TwosComplement

variable {c : VCtx} (hc : c.TwosComplement)
include hc

theorem fmt_ne_ni : c.fmt ≠ .ni := by
  obtain ⟨hf, -⟩ := hc
  intro h
  simp [h] at hf

theorem width_pos : 0 < c.w := by
  obtain ⟨hf | hf | hf, hw⟩ := hc <;> simp [hw, hf, laneWidth]

theorem image_eq (v : Nat) : laneImage c.nif c.fmt v = v % 2 ^ c.w := by
  obtain ⟨hf | hf | hf, hw⟩ := hc <;> simp [hw, hf, laneImage, valueBits, laneWidth]

theorem vb_eq : c.vb = c.w := by
  obtain ⟨hf | hf | hf, hw⟩ := hc <;> simp [hw, hf, VCtx.vb, valueBits]

theorem int_toNat (x : BitVec c.w) : c.int true x.toNat = (x.toInt, 0) := by
  rw [VCtx.int, if_neg hc.fmt_ne_ni, if_pos rfl, signed_toNat hc.width_pos]

theorem wrap_eq (v : Int) : c.wrap v = (BitVec.ofInt c.w v).toNat := by
  rw [VCtx.wrap, hc.image_eq, wrapInt, hc.vb_eq, enc2_eq_toNat_ofInt, BitVec.toNat_mod_cancel]

theorem clampInt_range (v : Int) : clampInt (c.range true) v = max (-(2 ^ (c.w - 1))) (min (2 ^ (c.w - 1) - 1) v) := by
  have hp : (0 : Int) < 2 ^ (c.w - 1) := by positivity
  rw [VCtx.range, if_neg hc.fmt_ne_ni, if_pos rfl, clampInt_eq (by omega)]

theorem intLane_toNat (f : Int → Int → Int) (x y : BitVec c.w) :
    intLane true f c x.toNat y.toNat = ((BitVec.ofInt c.w (f x.toInt y.toInt)).toNat, 0) := by
  simp [intLane, hc.int_toNat, hc.wrap_eq]

theorem satLane_toNat (f : Int → Int → Int) (x y : BitVec c.w) : satLane true f c x.toNat y.toNat =
    ((BitVec.ofInt c.w (max (-(2 ^ (c.w - 1))) (min (2 ^ (c.w - 1) - 1) (f x.toInt y.toInt)))).toNat, 0) := by
  simp [satLane, hc.int_toNat, hc.wrap_eq, hc.clampInt_range]

theorem intLane_add (x y : BitVec c.w) :
    intLane true (fun a b => a + b) c x.toNat y.toNat = ((x.toNat + y.toNat) % 2 ^ c.w, 0) := by
  rw [hc.intLane_toNat, BitVec.ofInt_add, BitVec.ofInt_toInt, BitVec.ofInt_toInt, BitVec.toNat_add]

theorem intLane_sub (x y : BitVec c.w) :
    intLane true (fun a b => a - b) c x.toNat y.toNat = ((x.toNat + 2 ^ c.w - y.toNat) % 2 ^ c.w, 0) := by
  rw [hc.intLane_toNat, ofInt_toInt_sub, BitVec.toNat_sub, Nat.add_sub_assoc y.isLt.le, Nat.add_comm]

theorem intLane_mul (x y : BitVec c.w) :
    intLane true (fun a b => a * b) c x.toNat y.toNat = (x.toNat * y.toNat % 2 ^ c.w, 0) := by
  rw [hc.intLane_toNat, BitVec.ofInt_mul, BitVec.ofInt_toInt, BitVec.ofInt_toInt, BitVec.toNat_mul]

/-- The clamped value is in range, so its lane reads back as the value itself (R118). -/
theorem signed_toNat_clamped (v : Int) :
    signed c.w (BitVec.ofInt c.w (max (-(2 ^ (c.w - 1))) (min (2 ^ (c.w - 1) - 1) v))).toNat =
      max (-(2 ^ (c.w - 1))) (min (2 ^ (c.w - 1) - 1) v) := by
  have hp : (0 : Int) < 2 ^ (c.w - 1) := by positivity
  rw [signed_toNat hc.width_pos, BitVec.toInt_ofInt_eq_self hc.width_pos (le_max_left _ _) (by omega)]

end VCtx.TwosComplement

/-! The sign operations (R108): a lane with its top bit replaced. -/

theorem fld_putField_bit_below (x v : Nat) {lo i : Nat} (h : i < lo) : fld (putField x lo 1 v) i 1 = fld x i 1 :=
  fld_congr_of_low (fld_putField_below x lo 1 v) h

theorem fld_putField_bit_same (x : Nat) {lo v : Nat} (h : v ≤ 1) : fld (putField x lo 1 v) lo 1 = v := by
  rw [fld_putField_same]
  omega

/-- Settles O29: an integer lane through the bit vector that it is, a sign operation through the one field that it replaces. -/
theorem laneValues : Obligations.LaneValues := by
  unfold Obligations.LaneValues
  refine ⟨?integers, ?signs⟩
  case integers =>
    intro c x y hf hw hx hy
    have hc : c.TwosComplement := ⟨hf, hw⟩
    obtain ⟨x, rfl⟩ : ∃ v : BitVec c.w, v.toNat = x := ⟨.ofNatLT x hx, rfl⟩
    obtain ⟨y, rfl⟩ : ∃ v : BitVec c.w, v.toNat = y := ⟨.ofNatLT y hy, rfl⟩
    refine ⟨hc.intLane_add x y, hc.intLane_sub x y, hc.intLane_mul x y, _, hc.satLane_toNat _ x y, BitVec.isLt _, ?_⟩
    rw [hc.signed_toNat_clamped, signed_toNat hc.width_pos, signed_toNat hc.width_pos]
  case signs =>
    intro c x y i _ _ _ hi top
    exact ⟨rfl, rfl, rfl, fld_putField_bit_same x (by decide), fld_putField_bit_same x (Nat.sub_le 1 _),
      fld_putField_bit_same x (fld_bit_le_one y top),
      fld_putField_bit_below x _ hi, fld_putField_bit_below x _ hi, fld_putField_bit_below x _ hi⟩

end Sys2Proof.Machine
end

section
/-! PROOFS. Traffic at its issue (R142 to R163, R236 to R239, R256 to R258): what a request, a landing, a claim, a ring operation or a
copy command adds to its tile. -/

namespace Sys2Proof.Machine

/-- A tile stands as before but for its results in flight, copy queues and claims, and what it adds to its landings, far accesses and
station. -/
structure Tile.Requested (t u : Tile) : Prop where
  rest : u = { t with inflight := u.inflight, seq := u.seq, landings := u.landings, far := u.far, received := u.received,
                      claims := u.claims, queues := u.queues, station := u.station, iss := u.iss }
  landings : t.landings <+: u.landings
  far : t.far <+: u.far
  station : t.station <+: u.station

theorem Tile.Requested.trans {t u v : Tile} (h : t.Requested u) (k : u.Requested v) : t.Requested v := by
  obtain ⟨hr, hl, hf, hs⟩ := h
  obtain ⟨kr, kl, kf, ks⟩ := k
  refine ⟨?_, hl.trans kl, hf.trans kf, hs.trans ks⟩
  rw [hr] at kr
  exact kr

theorem Tile.requested_of_quiet {t u : Tile}
    (h : u = { t with inflight := u.inflight, seq := u.seq, received := u.received, claims := u.claims, queues := u.queues,
                      iss := u.iss }) : t.Requested u := by
  rw [h]
  exact ⟨rfl, List.prefix_rfl, List.prefix_rfl, List.prefix_rfl⟩

section
variable (t : Tile)

theorem Tile.Requested.refl : t.Requested t := Tile.requested_of_quiet rfl

theorem Tile.requested_put (n : Nat) (sl : Slot) (e : Eff) : t.Requested (t.put n sl e) := Tile.requested_of_quiet rfl

theorem Tile.requested_setQueue (q : Nat) (c : CopyQueue) : t.Requested (t.setQueue q c) := Tile.requested_of_quiet rfl

theorem Tile.requested_enqueue (q : Nat) (ws : List Word) : t.Requested (t.enqueue q ws) := t.requested_setQueue _ _

theorem Tile.requested_land (n : Nat) (d : LandDest) : t.Requested (t.land n d) :=
  ⟨rfl, List.prefix_append _ _, List.prefix_rfl, List.prefix_rfl⟩

theorem Tile.requested_sendFar (a : Nat) (k : FarKind) (l w : Option Nat) : t.Requested (t.sendFar a k l w) :=
  ⟨rfl, List.prefix_rfl, List.prefix_append _ _, List.prefix_rfl⟩

theorem Tile.requested_queueRill (slot wd : Nat) (k : RillKind) (l : Option Nat) : t.Requested (t.queueRill slot wd k l) :=
  ⟨rfl, List.prefix_rfl, List.prefix_rfl, List.prefix_append _ _⟩

theorem Tile.requested_claim (key : Nat) : t.Requested (t.claim key).1 := by
  unfold Tile.claim
  dsimp only
  split <;> exact Tile.requested_of_quiet rfl

end

/-! What a tile keeps at a request. -/

section
variable {t u : Tile} (h : t.Requested u)
include h

theorem Tile.Requested.sameRegs : t.SameRegs u := by
  rw [h.rest]
  exact ⟨fun _ => rfl, fun f _ => by cases f <;> rfl, fun f _ => by cases f <;> rfl, fun _ => rfl, fun _ => rfl, rfl⟩

theorem Tile.Requested.sameControl : t.SameControl u := by
  rw [h.rest]
  exact ⟨rfl, rfl, rfl, rfl, rfl, rfl, rfl, rfl⟩

theorem Tile.Requested.sameMemory : t.SameMemory u := by
  rw [h.rest]
  exact ⟨fun _ => rfl, fun _ => rfl, rfl, rfl⟩

/-- Neither the engines, the far-read buffer, the messages, the Rill state, the gang nor the waits change. -/
theorem Tile.Requested.sameRest : u.mx = t.mx ∧ u.casc = t.casc ∧ u.buffer = t.buffer ∧ u.basin = t.basin ∧ u.skid = t.skid ∧
    u.sent = t.sent ∧ u.berth = t.berth ∧ u.gang = t.gang ∧ u.pc = t.pc ∧ u.waits = t.waits := by
  rw [h.rest]
  exact ⟨rfl, rfl, rfl, rfl, rfl, rfl, rfl, rfl, rfl, rfl⟩

end

/-! The shared operations. -/

/-- An effect of a syllable adds requests to its tile. -/
def Res.Requests (t : Tile) : Res → Prop
  | .ok u => t.Requested u
  | _ => True

theorem Tile.reserve_ok {t u : Tile} {n : Nat} {d : LandDest} (e : t.reserve n d = .ok u) : u = t.land n d := by
  unfold Tile.reserve at e
  split at e <;> cases e
  rfl

section
variable (t : Tile) (h : Hdr)

theorem Tile.reserve_requests (n : Nat) (d : LandDest) : (t.reserve n d).Requests t := by
  unfold Tile.reserve
  split
  · trivial
  · exact t.requested_land n d

theorem Tile.reserve_requested {t u : Tile} {n : Nat} {d : LandDest} (e : t.reserve n d = .ok u) : t.Requested u :=
  Tile.reserve_ok e ▸ t.requested_land n d

theorem Tile.farLoad_requests (a : Src) (al n : Nat) (k : FarKind) (d : LandDest) : (t.farLoad h a al n k d).Requests t := by
  unfold Tile.farLoad
  split
  · split
    · trivial
    · split
      · trivial
      · split
        · exact (Tile.reserve_requested ‹_›).trans (Tile.requested_sendFar _ _ _ _ _)
        · exact t.reserve_requests n d
  · exact .refl t

theorem Tile.farStore_requests (a : Src) (al : Nat) (bs : List Byte) : (t.farStore h a al bs).Requests t := by
  unfold Tile.farStore
  split
  · split
    · trivial
    · split
      · trivial
      · exact t.requested_sendFar _ _ _ _
  · exact .refl t

theorem Tile.atomic_requests (a : Nat) (op : AtomOp) (v v2 : Word) (d p : Option Nat) (o : Bool) :
    (t.atomic a op v v2 d p o).Requests t := by
  unfold Tile.atomic
  dsimp only
  split
  · trivial
  · split
    · exact t.requested_put _ _ _
    · split
      · split
        · exact (Tile.reserve_requested ‹_›).trans (Tile.requested_sendFar _ _ _ _ _)
        · exact t.reserve_requests _ _
      · exact t.requested_sendFar _ _ _ _

theorem Tile.atom1_requests (d : Dest) (a b : Src) (op : AtomOp) (o : Bool) : (t.atom1 h d a b op o).Requests t := by
  unfold Tile.atom1
  split
  · split
    · exact t.atomic_requests _ _ _ _ _ _ _
    · trivial
  · exact .refl t

theorem Tile.atom2_requests (d p : Option Nat) (a : Src) (b : Nat) (op : AtomOp) : (t.atom2 h d p a b op).Requests t := by
  unfold Tile.atom2
  split
  · split
    · exact t.atomic_requests _ _ _ _ _ _ _
    · trivial
  · exact .refl t

theorem Tile.ringAccess_requests (fn : Nat) (a : Word) (k : RillKind) (d : Option LandDest) : (t.ringAccess fn a k d).Requests t := by
  unfold Tile.ringAccess
  dsimp only
  split
  · trivial
  · split
    · exact t.requested_queueRill _ _ _ _
    · split
      · exact (Tile.reserve_requested ‹_›).trans (Tile.requested_queueRill _ _ _ _ _)
      · exact t.reserve_requests _ _

theorem Tile.ringUpdate_requests (fn : Nat) (d : Dest) (a b : Src) (k : Word → RillKind) : (t.ringUpdate h fn d a b k).Requests t := by
  unfold Tile.ringUpdate
  split
  · split
    · exact t.ringAccess_requests _ _ _ _
    · trivial
  · exact .refl t

end

/-! The syllables. -/

/-- A syllable that is issued without a trap has its effect, or its bundle is held. -/
theorem onTile_ok_or_held {f : Tile → Res} {s u : State} (e : onTile f s = .next u) (ht : u.untrapped) :
    ∃ t, u = { s with tile := t } ∧ (f s.tile = .ok t ∨ ∃ w, t = { s.tile with iss := { s.tile.iss with held := w } }) := by
  obtain ⟨t, hf, rfl⟩ | ⟨tr, -, rfl⟩ | ⟨c, n, -, rfl⟩ := onTile_cases e
  · exact ⟨t, rfl, .inl hf⟩
  · exact absurd ht (s.takeTrap_trapped tr)
  · exact ⟨_, rfl, .inr ⟨_, rfl⟩⟩

/-- The state after a syllable that adds requests to the tile in focus. -/
def State.Requests (s u : State) : Prop := ∃ t, u = { s with tile := t } ∧ s.tile.Requested t

theorem onTile_requests {f : Tile → Res} {s u : State} (e : onTile f s = .next u) (ht : u.untrapped)
    (hf : ∀ t, (f t).Requests t) : s.Requests u := by
  obtain ⟨t, rfl, ho | ⟨w, rfl⟩⟩ := onTile_ok_or_held e ht
  · have h := hf s.tile
    rw [ho] at h
    exact ⟨t, rfl, h⟩
  · exact ⟨_, rfl, Tile.requested_of_quiet rfl⟩

section
variable {s u : State} {h : Hdr} (ht : u.untrapped)
include ht

theorem execRecv_requests {f : VFile} {v x n : Nat} (e : execRecv h f v x n s = .next u) : s.Requests u := by
  refine onTile_requests e ht fun t => ?_
  split
  · exact (t.requested_claim _).trans (Tile.requested_land _ _ _)
  · exact .refl t

theorem execRcap_requests {d : Bool} {a : Src} (e : execRcap h d a s = .next u) : s.Requests u := by
  refine onTile_requests e ht fun t => ?_
  split
  · split
    · exact t.ringAccess_requests _ _ _ _
    · trivial
  · exact .refl t

theorem execRput_requests {a : Src} {b : Bool} (e : execRput h a b s = .next u) : s.Requests u := by
  refine onTile_requests e ht fun t => ?_
  split
  · split
    · exact t.ringAccess_requests _ _ _ _
    · trivial
  · exact .refl t

theorem execPush_requests {q p : Nat} {hi : Bool} (e : execPush h q hi p s = .next u) : s.Requests u := by
  refine onTile_requests e ht fun t => ?_
  split
  · dsimp only
    split
    · trivial
    · split
      · exact t.requested_put _ _ _
      · exact (t.requested_enqueue _ _).trans (Tile.requested_put _ _ _ _)
  · exact .refl t

theorem execPop_requests {q d p : Nat} (e : execPop h q d p s = .next u) : s.Requests u := by
  refine onTile_requests e ht fun t => ?_
  split
  · dsimp only
    split
    · exact t.requested_put _ _ _
    · split
      · trivial
      · split
        · exact t.requested_put _ _ _
        · split
          · exact (t.requested_setQueue _ _).trans (Tile.requested_put _ _ _ _)
          · exact (t.requested_setQueue _ _).trans ((Tile.requested_put _ _ _ _).trans (Tile.requested_put _ _ _ _))
  · exact .refl t

theorem execPopStall_requests {q d n : Nat} (e : execPopStall h q d n s = .next u) : s.Requests u := by
  refine onTile_requests e ht fun t => ?_
  split
  · dsimp only
    split
    · trivial
    · split
      · exact (Tile.reserve_requested ‹_›).trans (Tile.requested_setQueue _ _ _)
      · exact t.reserve_requests _ _
  · exact .refl t

/-- Every syllable of R142 to R148, R157 to R163, R236 to R239 and R256 to R258 but SEND. -/
theorem exec_requests {i : Instr} (hi : isTraffic i = true) (e : exec i s = .next u) : s.Requests u := by
  cases i with
  | fld | fldv => exact onTile_requests e ht fun t => t.farLoad_requests _ _ _ _ _ _
  | fst | fstv => exact onTile_requests e ht fun t => t.farStore_requests _ _ _ _
  | recv => exact execRecv_requests ht e
  | aadd | aincw | axchg | amins | amaxu | aorb => exact onTile_requests e ht fun t => t.atom1_requests _ _ _ _ _ _
  | afaab | acas => exact onTile_requests e ht fun t => t.atom2_requests _ _ _ _ _ _
  | rcap => exact execRcap_requests ht e
  | rput => exact execRput_requests ht e
  | radd | rcas | rmaxu | ror => exact onTile_requests e ht fun t => t.ringUpdate_requests _ _ _ _ _ _
  | push => exact execPush_requests ht e
  | pop => exact execPop_requests ht e
  | popStall => exact execPopStall_requests ht e
  | _ => cases hi

end

end Sys2Proof.Machine
end

section
/-! PROOFS. SEND, the SYNC group and GANG at their issue (R147, R151, R281 to R301, R309), BOARD and ALIGHT (R232, R233), and the frame of
all of these syllables with the traffic above. -/

namespace Sys2Proof.Machine

/-- A result in flight of the SYNC group: an arrival, the count of a STEP or the depth of a region, of the issuing copy slot. -/
def Tile.SyncResult (t : Tile) (p : Pending) : Prop :=
  p.slot = fileSlot t.cfile ∧ t.tick < p.due ∧ p.due ≤ t.tick + 6 ∧
    ((∃ a n k, p.eff = .arrive a n k) ∨ p.eff = .stepInc ∨ ∃ b, p.eff = .depth b)

/-- A tile stands as a base tile but for its trigger and a hold, and what it adds to its waits, far accesses, station and results in
flight. -/
structure Tile.Synced (b u : Tile) : Prop where
  rest : u = { b with inflight := u.inflight, seq := u.seq, waits := u.waits, far := u.far, station := u.station,
                      triggered := u.triggered, iss := { b.iss with held := u.iss.held } }
  waits : b.waits <+: u.waits
  far : b.far <+: u.far
  station : b.station <+: u.station
  inflight : ∃ new, u.inflight = b.inflight ++ new ∧ ∀ p ∈ new, b.SyncResult p

section
variable {b t u : Tile}

theorem Tile.synced_of_quiet
    (h : u = { b with seq := u.seq, triggered := u.triggered, iss := { b.iss with held := u.iss.held } }) : b.Synced u := by
  rw [h]
  exact ⟨rfl, List.prefix_rfl, List.prefix_rfl, List.prefix_rfl, [], (List.append_nil _).symm, by simp⟩

theorem Tile.Synced.refl (t : Tile) : t.Synced t := Tile.synced_of_quiet rfl

theorem Tile.Synced.syncResult (h : b.Synced t) {p : Pending} (hp : t.SyncResult p) : b.SyncResult p := by
  rw [h.rest] at hp
  exact hp

theorem Tile.Synced.trans (h : b.Synced t) (k : t.Synced u) : b.Synced u := by
  obtain ⟨new, hi, hn⟩ := h.inflight
  obtain ⟨more, ki, km⟩ := k.inflight
  refine ⟨?_, h.waits.trans k.waits, h.far.trans k.far, h.station.trans k.station, new ++ more,
    by rw [ki, hi, List.append_assoc], fun p hp => (List.mem_append.1 hp).elim (hn p) fun hm => h.syncResult (km p hm)⟩
  have kr := k.rest
  rw [h.rest] at kr
  exact kr

theorem Tile.synced_put {n : Nat} {e : Eff} (hn : 0 < n) (h6 : n ≤ 6)
    (he : (∃ a n k, e = .arrive a n k) ∨ e = .stepInc ∨ ∃ b, e = .depth b) (t : Tile) : t.Synced (t.put n (fileSlot t.cfile) e) :=
  ⟨rfl, List.prefix_rfl, List.prefix_rfl, List.prefix_rfl, _, rfl, fun p hp => by
    rw [List.mem_singleton.1 hp]
    exact ⟨rfl, Nat.lt_add_of_pos_right hn, Nat.add_le_add_left h6 _, he⟩⟩

theorem Tile.synced_addWait (t : Tile) (due : Nat) (k : WaitKind) : t.Synced (t.addWait due k) :=
  ⟨rfl, List.prefix_append _ _, List.prefix_rfl, List.prefix_rfl, [], (List.append_nil _).symm, by simp⟩

theorem Tile.synced_sendMsg (t : Tile) (dst chan : Nat) (v : VReg) :
    ({ t with sent := (t.sendMsg dst chan v).1.sent } : Tile).Synced (t.sendMsg dst chan v).1 := Tile.synced_of_quiet rfl

theorem Tile.synced_sendFar (t : Tile) (a : Nat) (k : FarKind) (l w : Option Nat) : t.Synced (t.sendFar a k l w) :=
  ⟨rfl, List.prefix_rfl, List.prefix_append _ _, List.prefix_rfl, [], (List.append_nil _).symm, by simp⟩

theorem Tile.synced_queueRill (t : Tile) (slot wd : Nat) (k : RillKind) (l : Option Nat) : t.Synced (t.queueRill slot wd k l) :=
  ⟨rfl, List.prefix_rfl, List.prefix_rfl, List.prefix_append _ _, [], (List.append_nil _).symm, by simp⟩

end

/-! What it keeps of a tile from which its base differs in the numbers sent, the gang and the regions alone. -/

section
variable {t u : Tile} {x : List (Nat × Nat)} {g : Gang} {r : List Region}
  (h : ({ t with sent := x, gang := g, regions := r } : Tile).Synced u)
include h

theorem Tile.Synced.sameRegs : t.SameRegs u := by
  rw [h.rest]
  exact ⟨fun _ => rfl, fun f _ => by cases f <;> rfl, fun f _ => by cases f <;> rfl, fun _ => rfl, fun _ => rfl, rfl⟩

theorem Tile.Synced.sameMemory : t.SameMemory u := by
  rw [h.rest]
  exact ⟨fun _ => rfl, fun _ => rfl, rfl, rfl⟩

theorem Tile.Synced.sameEngines : t.SameEngines u := by
  rw [h.rest]
  exact ⟨rfl, rfl, rfl⟩

/-- The CSRs, the governing formats, the seed, the loop unit, the recorded faults, the phase, the tick and the next bundle stay. -/
theorem Tile.Synced.sameControl : u.csrs = t.csrs ∧ u.gov = t.gov ∧ u.seed = t.seed ∧ u.loops = t.loops ∧ u.faults = t.faults ∧
    u.phase = t.phase ∧ u.tick = t.tick ∧ u.pc = t.pc := by
  rw [h.rest]
  exact ⟨rfl, rfl, rfl, rfl, rfl, rfl, rfl, rfl⟩

theorem Tile.Synced.sameTraffic : ∃ far station,
    t.SameTraffic { u with far := t.far, station := t.station, sent := t.sent, gang := t.gang } ∧
      u.far = t.far ++ far ∧ u.station = t.station ++ station := by
  obtain ⟨far, hf⟩ := h.far
  obtain ⟨station, hs⟩ := h.station
  refine ⟨far, station, ?_, hf.symm, hs.symm⟩
  rw [h.rest]
  exact ⟨rfl, rfl, rfl, rfl, rfl, rfl, rfl, rfl, rfl, rfl, rfl, rfl⟩

theorem Tile.Synced.sent : u.sent = x := by rw [h.rest]
theorem Tile.Synced.gang : u.gang = g := by rw [h.rest]
theorem Tile.Synced.regions : u.regions = r := by rw [h.rest]

end

/-! The syllables of the tile in focus that change nothing besides. -/

/-- An effect of a syllable is one of the SYNC group. -/
def Res.Syncs (t : Tile) : Res → Prop
  | .ok u => t.Synced u
  | _ => True

section
variable (t : Tile)

theorem Tile.settle_syncs {r : Res} (e : t.settle = some r) : r.Syncs t := by
  cases r with
  | ok u => exact absurd e (t.settle_not_ok u)
  | trap | hold => trivial

theorem Tile.acquire_syncs (bs : List Binding) (k : Nat) (a : Src) (b : Nat) : (t.acquire bs k a b).Syncs t := by
  unfold Tile.acquire
  split
  · trivial
  · split
    · trivial
    · split
      · split
        · trivial
        · exact t.synced_addWait _ _
      · exact (t.synced_addWait _ _).trans (Tile.synced_sendFar _ _ _ _ _)

theorem Tile.release_syncs (bs : List Binding) (b : Nat) : (t.release bs b).Syncs t := by
  unfold Tile.release
  split
  · trivial
  · split
    · split
      · trivial
      · split
        · trivial
        · exact t.synced_queueRill _ _ _ _
    · exact t.synced_sendFar _ _ _ _

end

/-- The state after a syllable of the SYNC group that leaves the launches, the numbers sent, the gang and the regions as given. -/
def State.Syncs (s : State) (l : List Launch) (x : List (Nat × Nat)) (g : Gang) (r : List Region) (u : State) : Prop :=
  ∃ t, u = { s with tile := t, launches := l } ∧ ({ s.tile with sent := x, gang := g, regions := r } : Tile).Synced t

/-- The state after a syllable of the SYNC group that changes none of these. -/
def State.SyncsAlone (s u : State) : Prop := s.Syncs s.launches s.tile.sent s.tile.gang s.tile.regions u

theorem State.syncsAlone_held (s : State) (w : Option (FreezeCause × Nat)) :
    s.SyncsAlone { s with tile := { s.tile with iss := { s.tile.iss with held := w } } } :=
  ⟨_, rfl, Tile.synced_of_quiet rfl⟩

theorem State.SyncsAlone.refl (s : State) : s.SyncsAlone s := s.syncsAlone_held s.tile.iss.held

theorem onTile_syncs {f : Tile → Res} {s u : State} (e : onTile f s = .next u) (ht : u.untrapped) (hf : (f s.tile).Syncs s.tile) :
    s.SyncsAlone u := by
  obtain ⟨t, rfl, ho | ⟨w, rfl⟩⟩ := onTile_ok_or_held e ht
  · rw [ho] at hf
    exact ⟨t, rfl, hf⟩
  · exact s.syncsAlone_held w

section
variable {s u : State} {h : Hdr} (ht : u.untrapped)
include ht

theorem execAcq_syncs {k b : Nat} {a : Src} (e : execAcq h k a b s = .next u) : s.SyncsAlone u := by
  refine onTile_syncs e ht ?_
  split
  · exact s.tile.acquire_syncs _ _ _ _
  · exact .refl s.tile

theorem execRel_syncs {b : Nat} (e : execRel h b s = .next u) : s.SyncsAlone u := by
  refine onTile_syncs e ht ?_
  split
  · split
    · exact s.tile.settle_syncs ‹_›
    · exact s.tile.release_syncs _ _
  · exact .refl s.tile

theorem execBar_syncs {k : Nat} {a b : Src} (e : execBar h k a b s = .next u) : s.SyncsAlone u := by
  refine onTile_syncs e ht ?_
  split
  · split
    · exact s.tile.settle_syncs ‹_›
    · split
      · split
        · trivial
        · dsimp only
          split
          · exact (s.tile.synced_addWait _ _).trans
              (Tile.synced_put (by decide) (by decide) (.inl ⟨_, _, _, rfl⟩) (s.tile.addWait _ _))
          · exact (s.tile.synced_addWait _ _).trans (Tile.synced_sendFar _ _ _ _ _)
      · trivial
  · exact .refl s.tile

theorem execFence_syncs {k : Nat} {sc : Scope} (e : execFence h k sc s = .next u) : s.SyncsAlone u := by
  refine onTile_syncs e ht ?_
  split
  · split
    · exact s.tile.settle_syncs ‹_›
    · exact s.tile.synced_addWait _ _
  · exact .refl s.tile

theorem execTrig_syncs (e : execTrig h s = .next u) : s.SyncsAlone u := by
  refine onTile_syncs e ht ?_
  split
  · split
    · exact s.tile.settle_syncs ‹_›
    · exact Tile.synced_of_quiet rfl
  · exact .refl s.tile

theorem execStep_syncs {k : Nat} (e : execStep h k s = .next u) : s.SyncsAlone u := by
  refine onTile_syncs e ht ?_
  split
  · exact (Tile.synced_put (by decide) (by decide) (.inr (.inl rfl)) s.tile).trans (Tile.synced_addWait _ _ _)
  · exact .refl s.tile

/-! GANG, CRGO, CRGC and SEND, which change one thing besides each. -/

theorem execGang_syncs {a b : Src} (e : execGang h a b s = .next u) : ∃ g, s.Syncs s.launches s.tile.sent g s.tile.regions u := by
  obtain ⟨t, rfl, ho | ⟨w, rfl⟩⟩ := onTile_ok_or_held e ht
  · split at ho
    · split at ho
      · dsimp only at ho
        split at ho
        · cases ho
        · split at ho <;> cases ho
          exact ⟨_, _, rfl, Tile.synced_addWait _ _ _⟩
      · cases ho
    · cases ho
      exact ⟨_, State.SyncsAlone.refl s⟩
  · exact ⟨_, s.syncsAlone_held w⟩

theorem execCrgo_syncs {a : Src} (e : execCrgo h a s = .next u) : ∃ r, s.Syncs s.launches s.tile.sent s.tile.gang r u := by
  obtain ⟨t, rfl, ho | ⟨w, rfl⟩⟩ := onTile_ok_or_held e ht
  · split at ho
    · split at ho
      · cases ho
      · split at ho
        · cases ho
        · split at ho <;> cases ho
          exact ⟨_, _, rfl, Tile.synced_put (by decide) (by decide) (.inr (.inr ⟨_, rfl⟩)) _⟩
    · cases ho
      exact ⟨_, State.SyncsAlone.refl s⟩
  · exact ⟨_, s.syncsAlone_held w⟩

theorem execCrgc_syncs (e : execCrgc h s = .next u) : ∃ r, s.Syncs s.launches s.tile.sent s.tile.gang r u := by
  obtain ⟨t, rfl, ho | ⟨w, rfl⟩⟩ := onTile_ok_or_held e ht
  · split at ho
    · split at ho <;> cases ho
      exact ⟨_, _, rfl, Tile.synced_put (by decide) (by decide) (.inr (.inr ⟨_, rfl⟩)) _⟩
    · cases ho
      exact ⟨_, State.SyncsAlone.refl s⟩
  · exact ⟨_, s.syncsAlone_held w⟩

end

/-- A launch without what is on its links. -/
def Launch.unlinked (l : Launch) : Launch := { l with links := [] }

theorem execSend_syncs {h : Hdr} {f : VFile} {v x : Nat} {s u : State} (ht : u.untrapped) (e : execSend h f v x s = .next u) :
    ∃ l n, s.Syncs l n s.tile.gang s.tile.regions u ∧ l.map Launch.unlinked = s.launches.map Launch.unlinked := by
  unfold execSend at e
  dsimp only at e
  split at e
  · split at e
    · cases e
      exact absurd ht (s.takeTrap_trapped _)
    · split at e <;> cases e
      · exact ⟨_, _, s.syncsAlone_held _, rfl⟩
      · refine ⟨_, _, ⟨_, rfl, s.tile.synced_sendMsg _ _ _⟩, ?_⟩
        rw [List.map_map]
        refine List.map_congr_left fun l _ => ?_
        simp only [Function.comp]
        split <;> rfl
  · cases e
    exact ⟨_, _, State.SyncsAlone.refl s, rfl⟩

/-- What a syllable may change besides: SEND the links and the numbers sent, GANG the gang, CRGO and CRGC the regions. -/
structure State.Besides (s : State) (i : Instr) (l : List Launch) (x : List (Nat × Nat)) (g : Gang) (r : List Region) : Prop where
  links : l.map Launch.unlinked = s.launches.map Launch.unlinked
  sent : (∀ h f v n, i ≠ .send h f v n) → l = s.launches ∧ x = s.tile.sent
  gang : (∀ h a b, i ≠ .gang h a b) → g = s.tile.gang
  regions : (∀ h a, i ≠ .crgo h a) → (∀ h, i ≠ .crgc h) → r = s.tile.regions

theorem State.besides_alone (s : State) (i : Instr) : s.Besides i s.launches s.tile.sent s.tile.gang s.tile.regions :=
  ⟨rfl, fun _ => ⟨rfl, rfl⟩, fun _ => rfl, fun _ _ => rfl⟩

/-- Every syllable of R147, R151, R281 to R301 and R309. -/
theorem exec_syncs {i : Instr} {s u : State} (ht : u.untrapped) (hi : isSync i = true) (e : exec i s = .next u) :
    ∃ l x g r, s.Syncs l x g r u ∧ s.Besides i l x g r := by
  have alone (h : s.SyncsAlone u) : ∃ l x g r, s.Syncs l x g r u ∧ s.Besides i l x g r := ⟨_, _, _, _, h, s.besides_alone i⟩
  cases i with
  | send =>
    obtain ⟨l, n, h, hl⟩ := execSend_syncs ht e
    exact ⟨_, _, _, _, h, hl, fun hn => absurd rfl (hn _ _ _ _), fun _ => rfl, fun _ _ => rfl⟩
  | gang =>
    obtain ⟨g, h⟩ := execGang_syncs ht e
    exact ⟨_, _, _, _, h, rfl, fun _ => ⟨rfl, rfl⟩, fun hn => absurd rfl (hn _ _ _), fun _ _ => rfl⟩
  | crgo =>
    obtain ⟨r, h⟩ := execCrgo_syncs ht e
    exact ⟨_, _, _, _, h, rfl, fun _ => ⟨rfl, rfl⟩, fun _ => rfl, fun hn _ => absurd rfl (hn _ _)⟩
  | crgc =>
    obtain ⟨r, h⟩ := execCrgc_syncs ht e
    exact ⟨_, _, _, _, h, rfl, fun _ => ⟨rfl, rfl⟩, fun _ => rfl, fun _ hn => absurd rfl (hn _)⟩
  | acq => exact alone (execAcq_syncs ht e)
  | rel => exact alone (execRel_syncs ht e)
  | bar => exact alone (execBar_syncs ht e)
  | fence => exact alone (execFence_syncs ht e)
  | trig => exact alone (execTrig_syncs ht e)
  | step => exact alone (execStep_syncs ht e)
  | _ => cases hi

/-! BOARD and ALIGHT (R232, R233). -/

@[simp] theorem sameGang_self (t : Tile) : sameGang t t = true := by simp [sameGang]

theorem State.setBerth_eq (s : State) (b : Berth) :
    s.setBerth b = { s with tile := { s.tile with berth := b },
                            others := s.others.map fun t => if sameGang s.tile t then { t with berth := b } else t } := by
  simp only [State.setBerth, State.mapTiles, sameGang_self, if_true]

/-- The Rill state of the gang is set, or the tile is as it was but for its issue record. -/
def State.Berths (s u : State) : Prop := (∃ b, u = s.setBerth b) ∨ ∃ i, u = { s with tile := { s.tile with iss := i } }

section
variable {s u : State} {h : Hdr} (ht : u.untrapped)
include ht

theorem execBoard_berths (e : execBoard h s = .next u) : s.Berths u := by
  unfold execBoard at e
  dsimp only at e
  split at e
  · split at e
    · cases e
      exact absurd ht (s.takeTrap_trapped _)
    · cases e
      exact .inr ⟨_, rfl⟩
    · split at e <;> cases e
      · exact .inr ⟨_, rfl⟩
      · exact .inl ⟨_, rfl⟩
  · cases e
    exact .inr ⟨_, rfl⟩

theorem State.alight_berths {b : Berth} (e : s.alight h b = .next u) : s.Berths u := by
  unfold State.alight at e
  dsimp only at e
  split at e
  · split at e <;> cases e
    · exact .inl ⟨_, rfl⟩
    · exact absurd ht (s.takeTrap_trapped _)
  · cases e
    exact .inr ⟨_, rfl⟩

theorem exec_berths {i : Instr} (hi : i ∈ [.board h, .alight h, .alightFree h]) (e : exec i s = .next u) : s.Berths u := by
  simp only [List.mem_cons, List.not_mem_nil, or_false] at hi
  obtain rfl | rfl | rfl := hi
  · exact execBoard_berths ht e
  · exact State.alight_berths ht e
  · exact State.alight_berths ht e

end

/-- Settles O14: each class of syllables is one relation between the tiles before and after, from which its frame is read off once. -/
theorem trafficFrame : Obligations.TrafficFrame := by
  unfold Obligations.TrafficFrame
  refine ⟨?traffic, ?sync, ?berth⟩
  case traffic =>
    intro i s u hi e ht
    obtain ⟨t, rfl, h⟩ := exec_requests ht hi e
    obtain ⟨hmx, hcasc, hbuffer, hbasin, hskid, hsent, hberth, hgang, hpc, hwaits⟩ := h.sameRest
    obtain ⟨landings, hl⟩ := h.landings
    obtain ⟨far, hf⟩ := h.far
    obtain ⟨station, hs⟩ := h.station
    exact ⟨s.sameModule_withTile t, h.sameRegs, h.sameControl, h.sameMemory, hmx, hcasc, hbuffer, hbasin, hskid, hsent, hberth, hgang,
      hpc, hwaits, ⟨landings, hl.symm⟩, ⟨far, hf.symm⟩, ⟨station, hs.symm⟩⟩
  case sync =>
    intro i s u hi e ht
    obtain ⟨l, x, g, r, ⟨t, rfl, h⟩, links, sent, gang, regions⟩ := exec_syncs ht hi e
    obtain ⟨hcsrs, hgov, hseed, hloops, hfaults, hphase, htick, hpc⟩ := h.sameControl
    obtain ⟨waits, hw⟩ := h.waits
    exact ⟨s.sameModule_withTile t, links, h.sameRegs, hcsrs, hgov, hseed, hloops, hfaults, hphase, htick, h.sameMemory, h.sameEngines,
      hpc, h.sameTraffic, ⟨waits, hw.symm⟩, h.inflight, fun hn => ⟨(sent hn).1, h.sent.trans (sent hn).2⟩,
      fun hn => h.gang.trans (gang hn), fun ho hc => h.regions.trans (regions ho hc)⟩
  case berth =>
    intro i h s u hi e ht
    obtain ⟨b, rfl⟩ | ⟨iss, rfl⟩ := exec_berths ht hi e
    · rw [s.setBerth_eq b]
      exact ⟨s.sameModule_withTile _, rfl, .inr rfl⟩
    · exact ⟨s.sameModule_withTile _, rfl, .inl rfl⟩

end Sys2Proof.Machine
end

section
/-! PROOFS. The scratchpad (R136, R154, R155): what a note of a touch and a write leave of it, byte by byte. -/

namespace Sys2Proof.Machine

/-! A touch changes the guard record alone. -/

@[simp] theorem Spad.note_mem (sp : Spad) (src agent a n : Nat) : (sp.note src agent a n).mem = sp.mem := by
  unfold Spad.note Spad.record
  split
  · split <;> rfl
  · rfl

@[simp] theorem Spad.note_marks (sp : Spad) (src agent a n : Nat) : (sp.note src agent a n).marks = sp.marks := by
  unfold Spad.note Spad.record
  split
  · split <;> rfl
  · rfl

@[simp] theorem Spad.note_marked (sp : Spad) (src agent a n b : Nat) : (sp.note src agent a n).marked b = sp.marked b := by
  rw [Spad.marked, Spad.note_marks, Spad.marked]

/-! One byte: written outside marked granules alone. -/

/-- The scratchpad after the write of one byte. -/
def Spad.writeByte (sp : Spad) (a : Nat) (b : Byte) : Spad := if sp.marked a then sp else { sp with mem := Mem.write1 sp.mem a b }

theorem Spad.writeRaw_cons (sp : Spad) (a : Nat) (b : Byte) (bs : List Byte) :
    sp.writeRaw a (b :: bs) = (sp.writeByte a b).writeRaw (a + 1) bs := rfl

@[simp] theorem Spad.writeByte_marks (sp : Spad) (a : Nat) (b : Byte) : (sp.writeByte a b).marks = sp.marks := by
  unfold Spad.writeByte
  split <;> rfl

@[simp] theorem Spad.writeByte_marked (sp : Spad) (a : Nat) (b : Byte) (i : Nat) : (sp.writeByte a b).marked i = sp.marked i := by
  rw [Spad.marked, Spad.writeByte_marks, Spad.marked]

theorem Spad.wf_writeByte {sp : Spad} (a : Nat) (b : Byte) (h : Mem.wf sp.mem = true) : Mem.wf (sp.writeByte a b).mem = true := by
  unfold Spad.writeByte
  split
  · exact h
  · exact Mem.wf_write1 a b h

theorem Spad.read1_writeByte {sp : Spad} (a : Nat) (b : Byte) (i : Nat) (h : Mem.wf sp.mem = true) :
    Mem.read1 (sp.writeByte a b).mem i = if i = a ∧ sp.marked i = false then b else Mem.read1 sp.mem i := by
  unfold Spad.writeByte
  by_cases ha : sp.marked a = true
  · rw [if_pos ha, if_neg]
    rintro ⟨rfl, hi⟩
    exact absurd ha (by simp [hi])
  · rw [if_neg ha, Mem.read1_write1 a b i h]
    by_cases hi : i = a
    · subst hi
      simp [ha]
    · simp [hi]

/-! A range of bytes. -/

@[simp] theorem Spad.writeRaw_marks (sp : Spad) (a : Nat) (bs : List Byte) : (sp.writeRaw a bs).marks = sp.marks := by
  induction bs generalizing sp a with
  | nil => rfl
  | cons b bs ih => rw [Spad.writeRaw_cons, ih, Spad.writeByte_marks]

theorem Spad.wf_writeRaw {sp : Spad} (a : Nat) (bs : List Byte) (h : Mem.wf sp.mem = true) : Mem.wf (sp.writeRaw a bs).mem = true := by
  induction bs generalizing sp a with
  | nil => exact h
  | cons b bs ih => exact ih (a + 1) (Spad.wf_writeByte a b h)

/-- A byte of the range outside marked granules reads as written, every other one as before. -/
theorem Spad.read1_writeRaw {sp : Spad} (a : Nat) (bs : List Byte) (i : Nat) (h : Mem.wf sp.mem = true) :
    Mem.read1 (sp.writeRaw a bs).mem i =
      if (a ≤ i ∧ i < a + bs.length) ∧ sp.marked i = false then (bs[i - a]?).getD 0 else Mem.read1 sp.mem i := by
  induction bs generalizing sp a with
  | nil =>
    rw [if_neg]
    · rfl
    · rintro ⟨hi, -⟩
      simp only [List.length_nil] at hi
      omega
  | cons b bs ih =>
    rw [Spad.writeRaw_cons, ih (a + 1) (Spad.wf_writeByte a b h), Spad.read1_writeByte a b i h, Spad.writeByte_marked, List.length_cons]
    cases hm : sp.marked i with
    | true => simp
    | false =>
      simp only [and_true]
      rcases Nat.lt_trichotomy i a with hi | rfl | hi
      · rw [if_neg (by omega), if_neg (by omega), if_neg (by omega)]
      · rw [if_neg (by omega), if_pos rfl, if_pos (by omega), Nat.sub_self, List.getElem?_cons_zero, Option.getD_some]
      · rw [if_neg (by omega : ¬ i = a), show i - a = i - (a + 1) + 1 by omega, List.getElem?_cons_succ]
        exact if_congr (by omega) rfl rfl

/-! A store. -/

@[simp] theorem Spad.write_marks (sp : Spad) (a : Nat) (bs : List Byte) : (sp.write a bs).marks = sp.marks := sp.writeRaw_marks a bs

theorem Spad.write_mem (sp : Spad) (a : Nat) (bs : List Byte) : (sp.write a bs).mem = (sp.writeRaw a bs).mem := rfl

theorem Spad.writeByte_mem_congr {sp sq : Spad} (hm : sp.mem = sq.mem) (hk : sp.marks = sq.marks) (a : Nat) (b : Byte) :
    (sp.writeByte a b).mem = (sq.writeByte a b).mem := by
  unfold Spad.writeByte Spad.marked
  rw [hk]
  split
  · exact hm
  · rw [hm]

/-- The bytes that are written rest on the bytes that stood there and on the marks alone. -/
theorem Spad.writeRaw_mem_congr {sp sq : Spad} (hm : sp.mem = sq.mem) (hk : sp.marks = sq.marks) (a : Nat) (bs : List Byte) :
    (sp.writeRaw a bs).mem = (sq.writeRaw a bs).mem := by
  induction bs generalizing sp sq a with
  | nil => exact hm
  | cons b bs ih =>
    rw [Spad.writeRaw_cons, Spad.writeRaw_cons]
    exact ih (Spad.writeByte_mem_congr hm hk a b) (by rw [Spad.writeByte_marks, Spad.writeByte_marks, hk]) (a + 1)

theorem Spad.store_mem (sp : Spad) (src agent a : Nat) (bs : List Byte) : (sp.store src agent a bs).mem = (sp.write a bs).mem :=
  Spad.writeRaw_mem_congr (sp.note_mem _ _ _ _) (sp.note_marks _ _ _ _) a bs

/-- Settles O45: a store is a write of its range behind the note of a touch, which changes no byte and no mark. -/
theorem storeWritten : Obligations.StoreWritten := by
  unfold Obligations.StoreWritten
  intro sp src agent a bs b hw
  dsimp only
  rw [Spad.store_mem, Spad.write_mem]
  have hread := Spad.read1_writeRaw a bs b hw
  refine ⟨Spad.wf_writeRaw a bs hw, by rw [Spad.store, Spad.write_marks, Spad.note_marks], fun i hi hb hm => ?_, fun ho => ?_⟩
  · rw [hread, if_pos ⟨by omega, hm⟩, hb, Nat.add_sub_cancel_left]
  · rw [hread, if_neg]
    rintro ⟨hr, hm⟩
    rcases ho with ho | ho | ho
    · omega
    · omega
    · exact absurd ho (by simp [hm])

end Sys2Proof.Machine
end

section
/-! PROOFS. Local loads and stores at their issue (R136 to R140): the check of an address, and what SLD, SST, CLD, CST, CGATH and CSCAT
answer with the guard on and the base readable. -/

namespace Sys2Proof.Machine

/-! The check of an access (R136), and of a list of elements. -/

theorem spadCheck_pass {pos a n : Nat} (ha : a % n = 0) (hb : a + n ≤ 0x200000) : spadCheck pos a n n = none := by
  rw [spadCheck, if_neg (not_not.mpr ha), if_neg (Nat.not_lt.mpr hb)]

theorem spadCheck_align {pos a n : Nat} (ha : a % n ≠ 0) : spadCheck pos a n n = some (addrTrap .align pos a) := if_pos ha

theorem spadCheck_perm {pos a n : Nat} (ha : a % n = 0) (hb : 0x200000 < a + n) : spadCheck pos a n n = some (addrTrap .perm pos a) := by
  rw [spadCheck, if_neg (not_not.mpr ha), if_pos hb]

theorem gatherCheck_eq_findSome (pos e : Nat) (l : List Nat) : gatherCheck pos e l = l.findSome? fun a => spadCheck pos a e e := by
  induction l with
  | nil => rfl
  | cons a l ih =>
    rw [gatherCheck, List.findSome?_cons]
    cases spadCheck pos a e e with
    | some tr => rfl
    | none => exact ih

theorem gatherCheck_pass {pos e : Nat} {l : List Nat} (h : ∀ p ∈ l, p % e = 0 ∧ p + e ≤ 0x200000) : gatherCheck pos e l = none := by
  rw [gatherCheck_eq_findSome, List.findSome?_eq_none_iff]
  exact fun p hp => spadCheck_pass (h p hp).1 (h p hp).2

/-- The first element at fault decides. -/
theorem gatherCheck_first {pos e p : Nat} {pre post : List Nat} {tr : Trap} (h : ∀ q ∈ pre, q % e = 0 ∧ q + e ≤ 0x200000)
    (hp : spadCheck pos p e e = some tr) : gatherCheck pos e (pre ++ p :: post) = some tr := by
  have hpre := gatherCheck_pass (pos := pos) h
  rw [gatherCheck_eq_findSome] at hpre
  rw [gatherCheck_eq_findSome, List.findSome?_append, hpre, Option.none_or, List.findSome?_cons, hp]

/-! SLD and SST (R138). -/

theorem extend_eq (n : Nat) (sx : Bool) (v : Nat) :
    extend n sx v = if sx ∧ 2 ^ (8 * n - 1) ≤ v then BitVec.ofInt 64 ((v : Int) - 2 ^ (8 * n)) else BitVec.ofNat 64 v := by
  cases sx with
  | false => simp [extend, word]
  | true =>
    by_cases hv : v < 2 ^ (8 * n - 1)
    · simp [extend, signed, wordI, hv]
    · simp [extend, signed, wordI, hv, Nat.not_lt.mp hv]

section
variable {s : State} {h : Hdr} {a : Src} {base : Word} {size : MemSize} {o : Int} {n x : Nat} {tr : Trap}
  (hg : s.tile.guarded h = true) (ha : s.tile.readS a = some base) (hn : MemSize.bytes size = n) (hx : offsetAddr base o n = x)
include hg ha hn hx

theorem execSst_next (hc : spadCheck s.tile.iss.pos x n n = none) (r : Nat) :
    execSst h r a size o s = s.nextTile (s.tile.put 1 .s (.store 0 [(x, bytesOfNat n (s.tile.sreg r).toNat)])) :=
  onTile_ok (by simp only [hg, ha, hn, hx, hc, if_true])

theorem execSst_trap (hc : spadCheck s.tile.iss.pos x n n = some tr) (r : Nat) : execSst h r a size o s = .next (s.takeTrap tr) :=
  onTile_trap (by simp only [hg, ha, hn, hx, hc, if_true])

theorem execSld_next (hc : spadCheck s.tile.iss.pos x n n = none) (hp : s.tile.spad.poisoned x n = false) (d : Dest) (sx : Bool) :
    execSld h d a size sx o s = s.nextTile (({ s.tile with spad := s.tile.spad.note s.tile.key.id 0 x n } : Tile).putS 3 d
      (extend n sx (natOfBytes (s.tile.spad.readBytes x n)))) :=
  onTile_ok (by simp only [hg, ha, hn, hx, hc, hp, if_true, Bool.false_eq_true, if_false])

theorem execSld_struck (hc : spadCheck s.tile.iss.pos x n n = none) (hp : s.tile.spad.poisoned x n = true) (d : Dest) (sx : Bool) :
    execSld h d a size sx o s = s.nextTile (({ s.tile with spad := s.tile.spad.note s.tile.key.id 0 x n } : Tile).put 3 .s
      (.fault (addrTrap .eccue s.tile.iss.pos x))) :=
  onTile_ok (by simp only [hg, ha, hn, hx, hc, hp, if_true])

theorem execSld_trap (hc : spadCheck s.tile.iss.pos x n n = some tr) (d : Dest) (sx : Bool) :
    execSld h d a size sx o s = .next (s.takeTrap tr) :=
  onTile_trap (by simp only [hg, ha, hn, hx, hc, if_true])

end

/-- Settles O30: the check passes or names ALIGN before PERM, and the load that passes is clean or struck. -/
theorem scalarMemory : Obligations.ScalarMemory := by
  unfold Obligations.ScalarMemory
  intro s h d r a size sx o base hg ha t n addr
  have hn : MemSize.bytes size = n := by cases size <;> rfl
  have hx : offsetAddr base o n = addr := rfl
  refine ⟨fun hal hin => ⟨?store, ?clean, ?struck⟩, fun hal => ?align, fun hal hout => ?perm⟩
  case store => exact execSst_next hg ha hn hx (spadCheck_pass hal hin) r
  case clean =>
    refine fun hp => ⟨_, ⟨t.spad.note t.key.id 0 addr n, rfl, Spad.note_mem _ _ _ _ _, Spad.note_marks _ _ _ _ _⟩, ?_⟩
    exact (execSld_next hg ha hn hx (spadCheck_pass hal hin) hp d sx).trans (by rw [extend_eq])
  case struck => exact fun hp => ⟨_, execSld_struck hg ha hn hx (spadCheck_pass hal hin) hp d sx⟩
  case align => exact ⟨execSst_trap hg ha hn hx (spadCheck_align hal) r, execSld_trap hg ha hn hx (spadCheck_align hal) d sx⟩
  case perm => exact ⟨execSst_trap hg ha hn hx (spadCheck_perm hal hout) r, execSld_trap hg ha hn hx (spadCheck_perm hal hout) d sx⟩

/-! CLD and CST (R139). -/

section
variable {s : State} {h : Hdr} {f : VFile} {d : Nat} {a : Src} {imm : Int} {base : Word} {x : Nat} {tr : Trap}
  (hg : s.tile.guarded h = true) (ha : s.tile.readX a = some base) (hx : rowAddr base imm = x)
include hg ha hx

theorem execCst_next (hc : spadCheck s.tile.iss.pos x 256 256 = none) :
    execCst h f d a imm s = s.nextTile (s.tile.put 1 (fileSlot s.tile.cfile)
      (.store (storeRank s.tile.cfile) [(x, vregBytes (s.tile.vreg f d))])) :=
  onTile_ok (by simp only [hg, ha, hx, hc, if_true])

theorem execCst_trap (hc : spadCheck s.tile.iss.pos x 256 256 = some tr) : execCst h f d a imm s = .next (s.takeTrap tr) :=
  onTile_trap (by simp only [hg, ha, hx, hc, if_true])

theorem execCld_next (hc : spadCheck s.tile.iss.pos x 256 256 = none) (hp : s.tile.spad.poisoned x 256 = false) :
    execCld h f d a imm s = s.nextTile (({ s.tile with spad := s.tile.spad.note s.tile.key.id 0 x 256 } : Tile).put 4
      (fileSlot s.tile.cfile) (.vreg f d (vregOfBytes (s.tile.spad.readBytes x 256)))) :=
  onTile_ok (by simp only [hg, ha, hx, hc, hp, if_true, Bool.false_eq_true, if_false])

theorem execCld_struck (hc : spadCheck s.tile.iss.pos x 256 256 = none) (hp : s.tile.spad.poisoned x 256 = true) :
    execCld h f d a imm s = s.nextTile (({ s.tile with spad := s.tile.spad.note s.tile.key.id 0 x 256 } : Tile).put 4
      (fileSlot s.tile.cfile) (.fault (addrTrap .eccue s.tile.iss.pos x))) :=
  onTile_ok (by simp only [hg, ha, hx, hc, hp, if_true])

theorem execCld_trap (hc : spadCheck s.tile.iss.pos x 256 256 = some tr) : execCld h f d a imm s = .next (s.takeTrap tr) :=
  onTile_trap (by simp only [hg, ha, hx, hc, if_true])

end

/-! CGATH and CSCAT (R140). -/

section
variable {s : State} {h : Hdr} {f : VFile} {d r : Nat} {a : Src} {wide : Bool} {base : Word} {e : Nat} {l : List Nat} {tr : Trap}
  (hg : s.tile.guarded h = true) (ha : s.tile.readX a = some base) (he : gatherSize wide = e)
  (hl : gatherAddrs wide base (s.tile.vreg f r) = l)
include hg ha he hl

theorem execCscat_next (hc : gatherCheck s.tile.iss.pos e l = none) :
    execCscat h f d a wide r s = s.nextTile (s.tile.put 1 (fileSlot s.tile.cfile) (.store (storeRank s.tile.cfile)
      (List.zip l ((lanesOf (8 * e) (gatherLanes wide) (s.tile.vreg f d).toNat).map fun v => bytesOfNat e v)))) :=
  onTile_ok (by simp only [hg, ha, he, hl, hc, if_true])

theorem execCscat_trap (hc : gatherCheck s.tile.iss.pos e l = some tr) : execCscat h f d a wide r s = .next (s.takeTrap tr) :=
  onTile_trap (by simp only [hg, ha, he, hl, hc, if_true])

theorem execCgath_trap (hc : gatherCheck s.tile.iss.pos e l = some tr) : execCgath h f d a wide r s = .next (s.takeTrap tr) :=
  onTile_trap (by simp only [hg, ha, he, hl, hc, if_true])

theorem execCgath_next (hc : gatherCheck s.tile.iss.pos e l = none) (hp : ∀ p ∈ l, s.tile.spad.poisoned p e = false) :
    execCgath h f d a wide r s = s.nextTile
      (({ s.tile with spad := l.foldl (fun sp p => sp.note s.tile.key.id 0 p e) s.tile.spad } : Tile).put 6 (fileSlot s.tile.cfile)
        (.vreg f d (vregOf (packLanes (8 * e) (l.map fun p => natOfBytes (s.tile.spad.readBytes p e)))))) := by
  have hfind : l.find? (fun p => s.tile.spad.poisoned p e) = none := List.find?_eq_none.2 fun p hm => by simp [hp p hm]
  exact onTile_ok (by simp only [hg, ha, he, hl, hc, hfind, if_true])

/-- Of the elements that meet an error in a word that is read, the first is the one reported. -/
theorem execCgath_struck {pre post : List Nat} {p : Nat} (hc : gatherCheck s.tile.iss.pos e l = none) (hs : l = pre ++ p :: post)
    (hq : ∀ q ∈ pre, s.tile.spad.poisoned q e = false) (hp : s.tile.spad.poisoned p e = true) :
    execCgath h f d a wide r s = s.nextTile
      (({ s.tile with spad := l.foldl (fun sp p => sp.note s.tile.key.id 0 p e) s.tile.spad } : Tile).put 6 (fileSlot s.tile.cfile)
        (.fault (addrTrap .eccue s.tile.iss.pos p))) := by
  have hfind : l.find? (fun p => s.tile.spad.poisoned p e) = some p :=
    List.find?_eq_some_iff_append.2 ⟨hp, pre, post, hs, fun q hm => by simp [hq q hm]⟩
  exact onTile_ok (by simp only [hg, ha, he, hl, hc, hfind, if_true])

end

/-- Settles O31: a row passes one check, a gather or scatter the checks of all its elements, of which the first that fails traps. -/
theorem vectorMemory : Obligations.VectorMemory := by
  unfold Obligations.VectorMemory
  intro s h f d r a imm wide base hg ha t slot addr e n addrs
  have hx : rowAddr base imm = addr := rfl
  have he : gatherSize wide = e := rfl
  have hl : gatherAddrs wide base (s.tile.vreg f r) = addrs := rfl
  refine ⟨fun hal hin => ⟨?store, ?clean, ?struck⟩, fun hal => ?align, fun hal hout => ?perm, fun pre p post hs hpre => ?first,
    fun hall => ⟨?scatter, ?gather, ?gatherStruck⟩⟩
  case store => exact execCst_next hg ha hx (spadCheck_pass hal hin)
  case clean => exact execCld_next hg ha hx (spadCheck_pass hal hin)
  case struck => exact execCld_struck hg ha hx (spadCheck_pass hal hin)
  case align => exact ⟨execCst_trap hg ha hx (spadCheck_align hal), execCld_trap hg ha hx (spadCheck_align hal)⟩
  case perm => exact ⟨execCst_trap hg ha hx (spadCheck_perm hal hout), execCld_trap hg ha hx (spadCheck_perm hal hout)⟩
  case first =>
    have traps {tr : Trap} (ht : spadCheck t.iss.pos p e e = some tr) : gatherCheck t.iss.pos e addrs = some tr :=
      hs ▸ gatherCheck_first hpre ht
    exact ⟨fun hal => ⟨execCscat_trap hg ha he hl (traps (spadCheck_align hal)),
        execCgath_trap hg ha he hl (traps (spadCheck_align hal))⟩,
      fun hal hout => ⟨execCscat_trap hg ha he hl (traps (spadCheck_perm hal hout)),
        execCgath_trap hg ha he hl (traps (spadCheck_perm hal hout))⟩⟩
  case scatter => exact execCscat_next hg ha he hl (gatherCheck_pass hall)
  case gather => exact execCgath_next hg ha he hl (gatherCheck_pass hall)
  case gatherStruck => exact fun pre p post hs hq hp => execCgath_struck hg ha he hl (gatherCheck_pass hall) hs hq hp

end Sys2Proof.Machine
end

section
/-! PROOFS. Timed messages and GANG at their issue (R147, R148, R151). -/

namespace Sys2Proof.Machine

/-- A SEND whose receiver is in the grid and has room puts its message on the links of its launch. -/
theorem execSend_next {s : State} {h : Hdr} {f : VFile} {v x dst chan : Nat} (hg : s.tile.guarded h = true)
    (hd : bits (s.tile.xreg s.tile.cfile x) 0 11 = dst) (hc : bits (s.tile.xreg s.tile.cfile x) 11 4 = chan)
    (hin : dst < s.tile.grid) (hroom : s.skidFull ⟨s.tile.key.pasid, dst⟩ = false) :
    execSend h f v x s = .next { s with
      tile := (s.tile.sendMsg dst chan (s.tile.vreg f v)).1,
      launches := s.launches.map fun l =>
        if l.key == s.tile.launchKey then { l with links := l.links ++ [(s.tile.sendMsg dst chan (s.tile.vreg f v)).2] } else l } := by
  simp only [execSend, hg, hd, hc, Nat.not_le.mpr hin, hroom, if_true, if_false, Bool.false_eq_true]

/-- With no number of its flow given back, a claim takes the next one (R148). -/
theorem Tile.claim_next {t : Tile} {key : Nat} (h : ∀ c ∈ t.claims, c.1 ≠ key) :
    t.claim key = ({ t with received := assocSet t.received key (assocGet t.received key 0 + 1) }, assocGet t.received key 0) := by
  have hback : t.claims.filter (fun c => c.1 == key) = [] := List.filter_eq_nil_iff.2 fun c hc => by simp [h c hc]
  rw [Tile.claim, hback, List.map_nil]

section
variable {s : State} {h : Hdr} (hg : s.tile.guarded h = true)
include hg

theorem execRecv_next {f : VFile} {v x n src chan : Nat} (hs : bits (s.tile.xreg s.tile.cfile x) 32 11 = src)
    (hc : bits (s.tile.xreg s.tile.cfile x) 43 4 = chan) (hfree : ∀ c ∈ s.tile.claims, c.1 ≠ src * 16 + chan) :
    execRecv h f v x n s = s.nextTile
      (({ s.tile with received := assocSet s.tile.received (src * 16 + chan) (assocGet s.tile.received (src * 16 + chan) 0 + 1) } :
        Tile).land n (.recv f v src chan (assocGet s.tile.received (src * 16 + chan) 0) (bits (s.tile.xreg s.tile.cfile x) 0 32))) :=
  onTile_ok (by simp only [hg, hs, hc, Tile.claim_next hfree, if_true])

theorem execGang_next {a b : Src} {x y : Word} {first n : Nat} (ha : s.tile.readX a = some x) (hb : s.tile.readX b = some y)
    (hf : bits x 0 11 = first) (hn : bits x 11 5 = n) (hc : gangCheck s.tile.grid s.tile.key.id first n = none)
    (hlate : s.tile.ltime < y.toNat) :
    execGang h a b s = s.nextTile (({ s.tile with gang := { s.tile.gang with first := s.tile.key.id, size := 1 } } : Tile).addWait
      (s.tile.tickAt y.toNat + (s.tile.key.id - first)) (.gang first n (s.tile.tickAt y.toNat))) :=
  onTile_ok (by simp only [hg, ha, hb, hf, hn, hc, Nat.not_le.mpr hlate, if_true, if_false])

end

/-- Settles O34: each clause is one syllable past its checks. -/
theorem messagesAndGangs : Obligations.MessagesAndGangs := by
  unfold Obligations.MessagesAndGangs
  refine ⟨?send, ?recv, ?gang⟩
  case send => exact fun s h f v x hg hin hroom => execSend_next hg rfl rfl hin hroom
  case recv => exact fun s h f v x n hg hfree => execRecv_next hg rfl rfl hfree
  case gang => exact fun s h a b x y hg ha hb hc hlate => execGang_next hg ha hb rfl rfl hc hlate

end Sys2Proof.Machine
end

section
/-! PROOFS. Far accesses performed (R144, R161, R229, R278, R283, R358): the one event of an access of one unit, at its home, at the bank of
another tile, or at the end of its path. -/

namespace Sys2Proof.Machine

/-! The one event of an access of one unit that is no load. -/

section
variable {s s1 : State} {t : Tile} {f : FarOp} {va : Nat} (h : OneUnit s t f)
include h

/-- No line of the far-read buffer serves it: its unit is performed where its address leads. -/
theorem State.farEvent_unit (hl : f.kind.isLoad = false) : s.farEvent t f false = s.tickFresh.farUnit t f 0 := by
  have hsent := Tile.sent?_of_oneUnit h
  obtain ⟨-, hleft, hord, -, -⟩ := h
  simp [State.farEvent, hsent, hleft, hord, State.hits, hl, State.pick_one]

theorem State.farUnit_home {pa : Nat} (hs : f.kind.size = 8) (ht : farTarget t.grid f.addr = .virt va)
    (hr : s.tickFresh.reach t.key.pasid (.farPath t.key.id) va f.kind.access = (s1, .home pa)) :
    s.tickFresh.farUnit t f 0 = some (s1.homeUnit t.key f 0 va 8 pa) := by
  obtain ⟨-, -, -, -, hbad⟩ := h
  have hva : farTarget t.grid va = .virt va := by simpa only [FarOp.unitAt_zero hs ht] using farTarget_unitAt hs ht
  simp only [State.farUnit, hbad, Bool.false_eq_true, if_false, FarOp.unitAt_zero hs ht, hva, hr]

theorem State.farUnit_fault {c : Cause} (hs : f.kind.size = 8) (ht : farTarget t.grid f.addr = .virt va)
    (hr : s.tickFresh.reach t.key.pasid (.farPath t.key.id) va f.kind.access = (s1, .fault c)) :
    s.tickFresh.farUnit t f 0 = some (s1.onKey t.key fun u => u.failFar f c) := by
  obtain ⟨-, -, -, -, hbad⟩ := h
  simp only [State.farUnit, hbad, Bool.false_eq_true, if_false, farTarget_unitAt hs ht, hr]

end

/-! A store at its home (R144, R278). -/

/-- The last unit of a store ends it. -/
theorem Tile.wroteUnit_last {f : FarOp} (hl : f.left = [0]) (t : Tile) : t.wroteUnit f 0 = t.dropFar f := by
  simp [Tile.wroteUnit, hl]

theorem State.homeUnit_store {f : FarOp} {bs : List Byte} (hk : f.kind = .store bs) (h8 : bs.length = 8) (hl : f.left = [0]) (s : State)
    (k : TileKey) (va pa : Nat) :
    s.homeUnit k f 0 va 8 pa = (s.hbmWrite pa bs).onKey k fun u => (u.patchLine va bs).dropFar f := by
  have hpart : (bs.drop (0 * 8)).take 8 = bs := by rw [Nat.zero_mul, List.drop_zero, ← h8, List.take_length]
  simp only [State.homeUnit, hk, hpart, Tile.wroteUnit_last hl]

theorem State.homeUnit_rel {f : FarOp} {b : Nat} {g : Nat × Nat} (hk : f.kind = .rel b g) {s : State} {pa : Nat}
    (hp : s.hbmPoisoned pa 8 = false) (k : TileKey) (va : Nat) :
    s.homeUnit k f 0 va 8 pa = (s.hbmWrite pa (bytesOfNat 8 (Mem.readWord s.hbm pa + 1).toNat)).onKey k
      fun u => (u.dropLine va).dropFar f := by
  simp only [State.homeUnit, hk, hp, Bool.false_eq_true, if_false]

section
variable {s s1 : State} {k : TileKey} {t : Tile} {n va : Nat} {f : FarOp} (hk : s.tile? k = some t) (hf : t.farOp n = some f)
  (h : OneUnit s t f) (ht : farTarget t.grid f.addr = .virt va)
include hk hf h ht

section
variable {bs : List Byte} (hl : f.landing = none) (hst : f.kind = .store bs) (h8 : bs.length = 8)
include hl hst

/-- The event of a store in virtual space that may be performed. -/
theorem execFarStorePerform_unit {u : State} (he : s.tickFresh.farUnit t f 0 = some u) : execFarStorePerform k n s = .next u := by
  have hload : f.kind.isLoad = false := by rw [hst]; rfl
  exact State.onFar_some hk hf (by simp [hl, FarOp.not_isWindow ht, hst]) ((State.farEvent_unit h hload).trans he)

include h8

theorem execFarStorePerform_home {pa : Nat} (hr : s.tickFresh.reach k.pasid (.farPath k.id) va .write = (s1, .home pa)) :
    execFarStorePerform k n s = .next ((s1.hbmWrite pa bs).onKey k fun u => (u.patchLine va bs).dropFar f) := by
  refine execFarStorePerform_unit hk hf h ht hl hst ?_
  obtain rfl := State.tile?_key hk
  have ⟨_, hleft, _, _, _⟩ := h
  rw [State.farUnit_home h (by rw [hst]; exact h8) ht (by rw [hst]; exact hr), State.homeUnit_store hst h8 hleft]

theorem execFarStorePerform_fault {c : Cause} (hr : s.tickFresh.reach k.pasid (.farPath k.id) va .write = (s1, .fault c)) :
    execFarStorePerform k n s = .next (s1.onKey k fun u => u.failFar f c) := by
  refine execFarStorePerform_unit hk hf h ht hl hst ?_
  obtain rfl := State.tile?_key hk
  exact State.farUnit_fault h (by rw [hst]; exact h8) ht (by rw [hst]; exact hr)

end

/-! The increment of a REL (R283). -/

theorem execRelIncrement_home {b pa : Nat} {g : Nat × Nat} (hrel : f.kind = .rel b g)
    (hc : s.coversOpen t (s.bindingsOf t) b g f.num = false)
    (hr : s.tickFresh.reach k.pasid (.farPath k.id) va .atomic = (s1, .home pa)) (hp : s1.hbmPoisoned pa 8 = false) :
    execRelIncrement k n s = .next ((s1.hbmWrite pa (bytesOfNat 8 (Mem.readWord s1.hbm pa + 1).toNat)).onKey k
      fun u => (u.dropLine va).dropFar f) := by
  have hs : f.kind.size = 8 := by rw [hrel]; rfl
  have hload : f.kind.isLoad = false := by rw [hrel]; rfl
  refine State.onFar_some hk hf (by simp [hrel, hc]) ((State.farEvent_unit h hload).trans ?_)
  obtain rfl := State.tile?_key hk
  rw [State.farUnit_home h hs ht (by rw [hrel]; exact hr), State.homeUnit_rel hrel hp]

end

/-! A store through a window (R161). -/

theorem farTarget_window {grid a id off : Nat} (h : farTarget grid a = .window id off) : off = fld a 0 21 := by
  unfold farTarget at h
  split at h
  · cases h
  · split at h
    · split at h <;> cases h
      rfl
    · split at h <;> cases h

theorem FarOp.unitAt_zero_window {f : FarOp} {grid id off : Nat} (hs : f.kind.size = 8) (ht : farTarget grid f.addr = .window id off) :
    f.unitAt grid 0 = (f.addr, 8) := by
  rw [FarOp.unitAt, unitSize, ht, hs]
  simp [Target.unit]

theorem State.farUnit_window {s : State} {t : Tile} {f : FarOp} {id off : Nat} (h : OneUnit s t f) (hs : f.kind.size = 8)
    (ht : farTarget t.grid f.addr = .window id off) :
    s.tickFresh.farUnit t f 0 = some (s.tickFresh.windowUnit t.key f 0 id 8) := by
  obtain ⟨-, -, -, -, hbad⟩ := h
  simp only [State.farUnit, hbad, Bool.false_eq_true, if_false, FarOp.unitAt_zero_window hs ht, ht]

@[simp] theorem Tile.touchFar_key (t : Tile) (src agent a n : Nat) (first : Bool) : (t.touchFar src agent a n first).key = t.key := by
  unfold Tile.touchFar
  split <;> rfl

/-- A touch leaves the bytes and the marks, on which a write rests. -/
theorem Tile.touchFar_write_mem (t : Tile) (src agent a n : Nat) (first : Bool) (b : Nat) (bs : List Byte) :
    ((t.touchFar src agent a n first).spad.write b bs).mem = (t.spad.write b bs).mem := by
  unfold Tile.touchFar
  split
  · exact Spad.writeRaw_mem_congr (t.spad.note_mem _ _ _ _) (t.spad.note_marks _ _ _ _) b bs
  · rfl

/-- A tile with bytes written to its scratchpad. -/
def Tile.writeSpad (a : Nat) (bs : List Byte) (t : Tile) : Tile := { t with spad := t.spad.write a bs }

@[simp] theorem Tile.writeSpad_key (a : Nat) (bs : List Byte) (t : Tile) : (t.writeSpad a bs).key = t.key := rfl

@[simp] theorem Tile.dropFar_key (t : Tile) (f : FarOp) : (t.dropFar f).key = t.key := rfl

theorem State.windowUnit_store {s : State} {k : TileKey} {f : FarOp} {id : Nat} {v : Tile} {bs : List Byte} (hk : f.kind = .store bs)
    (h8 : bs.length = 8) (hl : f.left = [0]) (hv : s.tile? ⟨k.pasid, id⟩ = some v) :
    ∃ src agent first, s.windowUnit k f 0 id 8 =
      ((s.onKey ⟨k.pasid, id⟩ fun u => u.touchFar src agent (fld f.addr 0 21) 8 first).onKey ⟨k.pasid, id⟩
        (Tile.writeSpad (fld f.addr 0 21) bs)).onKey k fun u => u.dropFar f := by
  have hpart : (bs.drop (0 * 8)).take 8 = bs := by rw [Nat.zero_mul, List.drop_zero, ← h8, List.take_length]
  refine ⟨k.id, touchAgent k ⟨k.pasid, id⟩ (.store bs), f.left.length * 8 == (FarKind.store bs).size, ?_⟩
  simp only [State.windowUnit, hk, State.ensureTile_of_some hv, hpart, Tile.wroteUnit_last hl, Nat.zero_mul, Nat.add_zero]
  simp only [FarKind.size, h8]
  rfl

/-- What a store through the window of another tile leaves of that tile and of its own. -/
theorem execRemoteAccessApply_store {s : State} {k : TileKey} {t v : Tile} {n id off : Nat} {f : FarOp} {bs : List Byte}
    (hk : s.tile? k = some t) (hf : t.farOp n = some f) (h : OneUnit s t f) (hst : f.kind = .store bs) (h8 : bs.length = 8)
    (ht : farTarget t.grid f.addr = .window id off) (hv : s.tile? ⟨k.pasid, id⟩ = some v) (hne : id ≠ k.id) :
    ∃ u w, execRemoteAccessApply k n s = .next u ∧ u.tile? ⟨k.pasid, id⟩ = some w ∧
      w.spad.mem = (v.spad.write off bs).mem ∧ u.tile? k = some (t.dropFar f) := by
  have hs : f.kind.size = 8 := by rw [hst]; exact h8
  have hload : f.kind.isLoad = false := by rw [hst]; rfl
  have hwin : f.isWindow t.grid = true := by rw [FarOp.isWindow, ht]
  have hown : (⟨k.pasid, id⟩ : TileKey) ≠ k := fun e => hne (congrArg TileKey.id e)
  obtain rfl := farTarget_window ht
  have hunit := State.farUnit_window h hs ht
  rw [State.tile?_key hk] at hunit
  have ⟨_, hleft, _, _, _⟩ := h
  obtain ⟨src, agent, first, hw⟩ := State.windowUnit_store (s := s.tickFresh) hst h8 hleft hv
  refine ⟨_, (v.touchFar src agent (fld f.addr 0 21) 8 first).writeSpad (fld f.addr 0 21) bs,
    State.onFar_some hk hf (by simp [hwin, hst]) ((State.farEvent_unit h hload).trans hunit), ?owner, ?bytes, ?own⟩
  case owner =>
    rw [hw, State.tile?_onKey_other _ (Tile.dropFar_key · f) hown]
    exact State.tile?_onKey_same _ (Tile.writeSpad_key _ _) (State.tile?_onKey_same _ (Tile.touchFar_key · _ _ _ _ _) hv)
  case bytes => exact v.touchFar_write_mem _ _ _ _ _ _ _
  case own =>
    rw [hw]
    refine State.tile?_onKey_same _ (Tile.dropFar_key · f) ?_
    rw [State.tile?_onKey_other _ (Tile.writeSpad_key _ _) hown.symm, State.tile?_onKey_other _ (Tile.touchFar_key · _ _ _ _ _) hown.symm]
    exact hk

/-! The end of a path (R358). -/

theorem execRemotePathTimeout_late {s : State} {k : TileKey} {t : Tile} {n c : Nat} {f : FarOp} (hk : s.tile? k = some t)
    (hf : t.farOp n = some f) (hs : f.since = some c) (hl : c + Config.tenMsCycles ≤ s.cycle) :
    execRemotePathTimeout k n s = .next (s.onKey k fun u => u.failFar f .perm) := by
  obtain ⟨hn, pre, post, hfar, hpre⟩ := List.find?_eq_some_iff_append.1 hf
  have hlate : pathLate s.cycle f.since = true := by rw [hs]; exact decide_eq_true hl
  have hfind : t.far.find? (fun g => g.num == n && pathLate s.cycle g.since) = some f :=
    List.find?_eq_some_iff_append.2 ⟨by rw [hn, hlate]; rfl, pre, post, hfar,
      fun g hg => by rw [Bool.not_and, hpre g hg, Bool.true_or]⟩
  simp only [execRemotePathTimeout, hk, hfind]

/-- Settles O49: each clause is the one event of an access of one unit, or the passes of a ring tick. -/
theorem farPerformed : Obligations.FarPerformed := by
  unfold Obligations.FarPerformed
  refine ⟨fun s k t n f hk hf hl => ⟨?store, ?window, ?rel, ?lost⟩, ?pass⟩
  case store =>
    exact fun bs va s1 pa h hst h8 ht => ⟨execFarStorePerform_home hk hf h ht hl hst h8,
      fun c => execFarStorePerform_fault hk hf h ht hl hst h8⟩
  case window => exact fun bs id off v h hst h8 ht hv hne => execRemoteAccessApply_store hk hf h hst h8 ht hv hne
  case rel => exact fun b g va s1 pa h hrel ht hc hr hp => execRelIncrement_home hk hf h ht hrel hc hr hp
  case lost => exact fun c hs hc => execRemotePathTimeout_late hk hf hs hc
  case pass =>
    intro s lk l hl hp hr
    have hops : (s.passing l).isEmpty = false := List.isEmpty_eq_false_iff.2 hp
    change execRillPass lk s = _
    simp [execRillPass, hl, hops, hr]

end Sys2Proof.Machine
end

section
/-! PROOFS. The word that an atomic leaves (R158, R159), and the word that an arrival leaves on a barrier (R164, R165). -/

namespace Sys2Proof.Machine

/-! AFAAB stores its sum up to the bound in v2, and ACAS its second operand on a match. -/

section
variable {old v v2 : Word}

theorem atomResult_faab_within (h : old.toNat + v.toNat ≤ v2.toNat) : atomResult .faab old v v2 = (old + v, false) := if_pos h

theorem atomResult_faab_beyond (h : v2.toNat < old.toNat + v.toNat) : atomResult .faab old v v2 = (old, true) :=
  if_neg (Nat.not_le.mpr h)

theorem atomWrites_faab_within (h : old.toNat + v.toNat ≤ v2.toNat) : atomWrites .faab old v v2 = true := decide_eq_true h

theorem atomWrites_faab_beyond (h : v2.toNat < old.toNat + v.toNat) : atomWrites .faab old v v2 = false :=
  decide_eq_false (Nat.not_le.mpr h)

theorem atomResult_cas_match (h : old = v) : (atomResult .cas old v v2).1 = v2 := if_pos h

theorem atomResult_cas_mismatch (h : old ≠ v) : (atomResult .cas old v v2).1 = old := if_neg h

end

/-! The smaller, the larger and the union of two words. -/

theorem atomResult_mins_toInt (old v v2 : Word) : (atomResult .mins old v v2).1.toInt = min old.toInt v.toInt := by
  rw [atomResult, min_def, apply_ite BitVec.toInt]

theorem atomResult_maxu_toNat (old v v2 : Word) : (atomResult .maxu old v v2).1.toNat = max old.toNat v.toNat := by
  rw [atomResult, max_def, apply_ite BitVec.toNat]

theorem bit_atomResult_orb (old v v2 : Word) (i : Nat) : bit (atomResult .orb old v v2).1 i = (bit old i || bit v i) :=
  BitVec.getLsbD_or

/-! The halves of a barrier word: the count below, the generation above. -/

theorem bits_low_word_pair {g k : Nat} (hk : k < 2 ^ 32) : bits (word (g * 2 ^ 32 + k)) 0 32 = k := by
  rw [bits_word _ (by decide), fld]
  omega

theorem bits_high_word_pair {g k : Nat} (hk : k < 2 ^ 32) (hg : g < 2 ^ 32) : bits (word (g * 2 ^ 32 + k)) 32 32 = g := by
  rw [bits_word _ (by decide), fld]
  omega

section
variable {w : Word} {n : Nat}

theorem arriveWord_counting (h : bits w 0 32 + 1 < n) : arriveWord w n = word (bits w 32 32 * 2 ^ 32 + (bits w 0 32 + 1)) :=
  if_neg (Nat.not_le.mpr h)

theorem arriveWord_complete (h : n ≤ bits w 0 32 + 1) : arriveWord w n = word ((bits w 32 32 + 1) % 2 ^ 32 * 2 ^ 32 + 0) := by
  rw [Nat.add_zero]
  exact if_pos h

end

/-- Settles O36: each atomic by the branch that its operands take, and the arrival by the two halves of its word. -/
theorem atomicResults : Obligations.AtomicResults := by
  unfold Obligations.AtomicResults
  refine ⟨fun old v v2 => ⟨rfl, rfl, ?within, ?beyond, ?hit, ?miss, rfl, ?mins, ?maxu, ?orb⟩,
    fun w n _ hn => ⟨?counting, ?complete⟩⟩
  case within => exact fun h => ⟨atomResult_faab_within h, atomWrites_faab_within h⟩
  case beyond => exact fun h => ⟨atomResult_faab_beyond h, atomWrites_faab_beyond h⟩
  case hit => exact fun h => ⟨atomResult_cas_match h, beq_iff_eq.2 h⟩
  case miss => exact fun h => ⟨atomResult_cas_mismatch h, beq_eq_false_iff_ne.2 h⟩
  case mins => exact atomResult_mins_toInt old v v2
  case maxu => exact atomResult_maxu_toNat old v v2
  case orb => exact fun i _ => bit_atomResult_orb old v v2 i
  case counting =>
    intro h
    have hg : bits w 32 32 < 2 ^ 32 := Nat.mod_lt _ (by decide)
    rw [arriveWord_counting h]
    exact ⟨bits_low_word_pair (h.trans hn), bits_high_word_pair (h.trans hn) hg⟩
  case complete =>
    intro h
    rw [arriveWord_complete h]
    exact ⟨bits_low_word_pair (by decide), bits_high_word_pair (by decide) (Nat.mod_lt _ (by decide))⟩

end Sys2Proof.Machine
end

section
/-! PROOFS. Atomics at their issue (R158 to R160, R163, R362): what the check of the address lets pass, and what the shared operation
answers in the own scratchpad and beyond it. -/

namespace Sys2Proof.Machine

/-! The check of the address (R142, R160, R163, R362). -/

section
variable {t : Tile} {a : Nat} (hal : a % 8 = 0)
include hal

theorem atomCheck_local (hin : a < 0x200000) (o : Bool) : atomCheck t a o = none := by
  rw [atomCheck, if_neg (not_not.mpr hal), atomTarget, if_pos hin]

section
variable (hout : 0x200000 ≤ a)
include hout

theorem atomCheck_far {o : Bool} (ht : (∃ id off, farTarget t.grid a = .window id off) ∨
    (∃ va, farTarget t.grid a = .virt va) ∧ (bit t.csrs.detmode 0 && !o) = false) : atomCheck t a o = none := by
  rw [atomCheck, if_neg (not_not.mpr hal), atomTarget, if_neg (Nat.not_lt.mpr hout)]
  rcases ht with ⟨id, off, hw⟩ | ⟨⟨va, hv⟩, hm⟩
  · rw [hw]
  · simp only [hv, hm, Bool.false_eq_true, if_false]

theorem atomCheck_detv {va : Nat} (ht : farTarget t.grid a = .virt va) (hm : bit t.csrs.detmode 0 = true) :
    atomCheck t a false =
      some (infoTrap .detv t.iss.pos (word (9 * 2 ^ 60 + t.iss.pos % 8 * 2 ^ 57 + a % 2 ^ 57))) := by
  rw [atomCheck, if_neg (not_not.mpr hal), atomTarget, if_neg (Nat.not_lt.mpr hout)]
  simp only [ht, hm, Bool.not_false, Bool.and_true, if_true]

theorem atomCheck_perm (ht : farTarget t.grid a = .bad ∨ ∃ e off, farTarget t.grid a = .aperture e off) (o : Bool) :
    atomCheck t a o = some (addrTrap .perm t.iss.pos a) := by
  rw [atomCheck, if_neg (not_not.mpr hal), atomTarget, if_neg (Nat.not_lt.mpr hout)]
  rcases ht with hb | ⟨e, off, hp⟩
  · rw [hb]
  · rw [hp]

end
end

theorem atomCheck_align {t : Tile} {a : Nat} (hal : a % 8 ≠ 0) (o : Bool) : atomCheck t a o = some (addrTrap .align t.iss.pos a) :=
  if_pos hal

/-! The shared operation behind its check. -/

section
variable {t : Tile} {a : Nat} {o : Bool}

theorem Tile.atomic_trap {tr : Trap} (hc : atomCheck t a o = some tr) (op : AtomOp) (v v2 : Word) (d p : Option Nat) :
    t.atomic a op v v2 d p o = .trap tr := by
  simp only [Tile.atomic, hc]

variable (hc : atomCheck t a o = none)
include hc

theorem Tile.atomic_local (hin : a < 0x200000) (op : AtomOp) (v v2 : Word) (d p : Option Nat) :
    t.atomic a op v v2 d p o = .ok (t.put 6 (fileSlot t.cfile) (.atom op a v v2 t.cfile d p t.iss.pos)) := by
  simp only [Tile.atomic, hc, hin, if_true]

theorem Tile.atomic_returning (hout : 0x200000 ≤ a) (hb : t.basinUsed < Config.basinEntries) (op : AtomOp) (v v2 : Word) (r : Nat)
    (p : Option Nat) : t.atomic a op v v2 (some r) p o =
      .ok ((t.land (bits t.csrs.atdue 0 9) (.atom t.cfile (some r) p)).sendFar a (.atom op v v2 true) (some t.seq) none) := by
  simp only [Tile.atomic, hc, Nat.not_lt.mpr hout, if_false, Option.isSome_some, Bool.true_or, if_true, Tile.reserve_free hb]

theorem Tile.atomic_quiet (hout : 0x200000 ≤ a) (op : AtomOp) (v v2 : Word) :
    t.atomic a op v v2 none none o = .ok (t.sendFar a (.atom op v v2 false) none none) := by
  simp only [Tile.atomic, hc, Nat.not_lt.mpr hout, if_false, Option.isSome_none, Bool.or_self, Bool.false_eq_true]

end

/-! The forms of one source and of a register pair, with the guard on and the sources readable. -/

section
variable {s : State} {h : Hdr} {a : Src} {x : Word} (hg : s.tile.guarded h = true) (hx : s.tile.readX a = some x)
include hg hx

section
variable {c : Src} {y : Word} (hy : s.tile.readX c = some y) (d : Dest) (op : AtomOp) (f : Bool)
include hy

theorem Tile.atom1_eq : s.tile.atom1 h d a c op f =
    s.tile.atomic x.toNat op y 0 (Dest.num d) none (f && (Dest.num d).isNone) := by
  simp only [Tile.atom1, hg, hx, hy, if_true]

variable {d op f}

theorem onTile_atom1_next {u : Tile} (e : s.tile.atomic x.toNat op y 0 (Dest.num d) none (f && (Dest.num d).isNone) = .ok u) :
    onTile (Tile.atom1 h d a c op f) s = s.nextTile u :=
  onTile_ok ((Tile.atom1_eq hg hx hy d op f).trans e)

theorem onTile_atom1_trap {tr : Trap} (hc : atomCheck s.tile x.toNat (f && (Dest.num d).isNone) = some tr) :
    onTile (Tile.atom1 h d a c op f) s = .next (s.takeTrap tr) :=
  onTile_trap ((Tile.atom1_eq hg hx hy d op f).trans (Tile.atomic_trap hc _ _ _ _ _))

end

section
variable (d p : Option Nat) (b : Nat) (op : AtomOp)

theorem Tile.atom2_eq : s.tile.atom2 h d p a b op =
    s.tile.atomic x.toNat op (s.tile.xreg s.tile.cfile b) (s.tile.xreg s.tile.cfile (b + 1)) d p false := by
  simp only [Tile.atom2, hg, hx, if_true]

variable {d p b op}

theorem onTile_atom2_next {u : Tile}
    (e : s.tile.atomic x.toNat op (s.tile.xreg s.tile.cfile b) (s.tile.xreg s.tile.cfile (b + 1)) d p false = .ok u) :
    onTile (Tile.atom2 h d p a b op) s = s.nextTile u :=
  onTile_ok ((Tile.atom2_eq hg hx d p b op).trans e)

theorem onTile_atom2_trap {tr : Trap} (hc : atomCheck s.tile x.toNat false = some tr) :
    onTile (Tile.atom2 h d p a b op) s = .next (s.takeTrap tr) :=
  onTile_trap ((Tile.atom2_eq hg hx d p b op).trans (Tile.atomic_trap hc _ _ _ _ _))

end
end

/-- Settles O35: every clause is one outcome of the shared operation, reached through the form of one source or of a register pair. -/
theorem atomics : Obligations.Atomics := by
  unfold Obligations.Atomics
  intro s h d r b a c x y hg hx hy t v1 v2 n due here away quiet
  have hn : Dest.num d = n := by cases d <;> rfl
  refine ⟨fun hal hin => ?here, fun hal hout ht => ?plain, fun hal hout ht => ?openForms,
    fun va hal hout ht hm => ?detv, fun hal hout ht => ?perm, fun hal => ?align⟩
  case here =>
    have one (op : AtomOp) (f : Bool) : onTile (Tile.atom1 h d a c op f) s = here op y 0 n none :=
      hn ▸ onTile_atom1_next hg hx hy (Tile.atomic_local (atomCheck_local hal hin _) hin _ _ _ _ _)
    have two (op : AtomOp) (e p : Option Nat) : onTile (Tile.atom2 h e p a b op) s = here op v1 v2 e p :=
      onTile_atom2_next hg hx (Tile.atomic_local (atomCheck_local hal hin _) hin _ _ _ _ _)
    exact ⟨one .add true, one .incw false, one .xchg false, one .mins true, one .maxu true, one .orb true,
      hn ▸ two .cas (Dest.num d) none, two .faab (some r) (some r)⟩
  case plain =>
    have pass (o : Bool) : atomCheck t x.toNat o = none :=
      atomCheck_far hal hout (ht.imp_right fun ⟨hv, hm⟩ => ⟨hv, by rw [hm, Bool.false_and]⟩)
    refine ⟨fun hb => ?away, ?quiet⟩
    case away =>
      have one (op : AtomOp) (f : Bool) : onTile (Tile.atom1 h (.reg r) a c op f) s = away op y 0 (some r) none :=
        onTile_atom1_next hg hx hy (Tile.atomic_returning (pass _) hout hb _ _ _ _ _)
      have two (op : AtomOp) (p : Option Nat) : onTile (Tile.atom2 h (some r) p a b op) s = away op v1 v2 (some r) p :=
        onTile_atom2_next hg hx (Tile.atomic_returning (pass _) hout hb _ _ _ _ _)
      exact ⟨one .add true, one .incw false, one .xchg false, one .mins true, one .maxu true, one .orb true, two .cas none,
        two .faab (some r)⟩
    case quiet =>
      have one (op : AtomOp) : onTile (Tile.atom1 h .suppressed a c op false) s = quiet op y 0 :=
        onTile_atom1_next hg hx hy (Tile.atomic_quiet (pass _) hout _ _ _)
      exact ⟨one .incw, one .xchg, onTile_atom2_next hg hx (Tile.atomic_quiet (pass _) hout _ _ _)⟩
  case openForms =>
    have pass : atomCheck t x.toNat true = none :=
      atomCheck_far hal hout (ht.imp_right fun hv => ⟨hv, Bool.and_false _⟩)
    have one (op : AtomOp) : onTile (Tile.atom1 h .suppressed a c op true) s = quiet op y 0 :=
      onTile_atom1_next hg hx hy (Tile.atomic_quiet pass hout _ _ _)
    exact ⟨one .add, one .mins, one .maxu, one .orb⟩
  case detv =>
    have trapped := atomCheck_detv hal hout ht hm
    have one (op : AtomOp) := onTile_atom1_trap hg hx hy (d := .reg r) (op := op) (f := true) trapped
    have other (op : AtomOp) := onTile_atom1_trap hg hx hy (d := d) (op := op) (f := false) trapped
    exact ⟨one .add, one .mins, one .maxu, one .orb, other .incw, other .xchg, onTile_atom2_trap hg hx trapped,
      onTile_atom2_trap hg hx trapped⟩
  case perm =>
    exact ⟨onTile_atom1_trap hg hx hy (atomCheck_perm hal hout ht _), onTile_atom2_trap hg hx (atomCheck_perm hal hout ht _)⟩
  case align => exact ⟨onTile_atom1_trap hg hx hy (atomCheck_align hal _), onTile_atom2_trap hg hx (atomCheck_align hal _)⟩

end Sys2Proof.Machine
end

section
/-! PROOFS. The matrix engine and the Cascade at work (R171 to R175, R184 to R187, R199 to R201, R213 to R218): each event under its
trigger, when a late step is worked on, and what an MCLR leaves. -/

namespace Sys2Proof.Machine

theorem State.onNamed_none {s : State} {k : TileKey} {t : Tile} {f : Tile → Option State} (h : s.tile? k = some t) (hf : f t = none) :
    s.onNamed k f = .refused .notEnabled := by
  simp only [State.onNamed, h, hf]

/-! A step waits for its tile of A (R171). -/

theorem Tile.mxStart_absent {t : Tile} {o : MxOp}
    (h : present (listGet o.aheadRings o.cfg.aRing ⟨0, 0, 0⟩) (listGet t.mx.rings o.cfg.aRing ⟨0, 0, 0⟩) = false) :
    t.mxStart o = none := by
  simp only [Tile.mxStart, h, Bool.false_and, Bool.false_eq_true, if_false]

/-! When the engine works on a late step (R175). -/

theorem Tile.mxWorks_advancing {t : Tile} (hp : t.phase = .running) (hf : t.freeze = none) (x : MxStep) : t.mxWorks x = true := by
  simp only [Tile.mxWorks, hp, hf, beq_self_eq_true, Bool.and_true]

theorem Tile.mxWorks_awaited {t : Tile} {x : MxStep} {z : Freeze} (hp : t.phase = .running) (hf : t.freeze = some z)
    (hc : z.cause = .landing) (hd : x.stop + 16 ≤ t.tick) : t.mxWorks x = true := by
  simp only [Tile.mxWorks, hp, hf, hc, hd, beq_self_eq_true, decide_true, Bool.and_true]

theorem Tile.mxWorks_held {t : Tile} {z : Freeze} (hf : t.freeze = some z) (hc : z.cause ≠ .landing) (x : MxStep) :
    t.mxWorks x = false := by
  simp only [Tile.mxWorks, hf, beq_false_of_ne hc, Bool.false_and, Bool.and_false]

/-! The events of the operation in the active place. -/

section
variable {s : State} {k : TileKey} {t : Tile} {o : MxOp} (hk : s.tile? k = some t) (ha : t.mx.active = some o)
include hk ha

theorem execMatrixOpBegin_due (ho : o.over = false) (hb : o.begun = false) (hd : o.start = t.tick) :
    execMatrixOpBegin k s = .next (s.setTile (t.mxBegin o)) :=
  State.onNamed_some hk (by simp [ha, ho, hb, hd])

/-- The step of an MGO that is due to start. -/
theorem execMatrixStepStart_due {g : Option (Nat × Nat)} (ho : o.over = false) (hg : o.kind = .go g) (hb : o.begun = true)
    (he : o.ahead.ended = false) (hd : o.nextStart = t.tick) :
    (∀ u, t.mxStart o = some u → execMatrixStepStart k s = .next (s.setTile u)) ∧
    (t.mxStart o = none → execMatrixStepStart k s = .next (s.holdAt k .landing false)) := by
  have hnow : o.startsNow t.tick = true := by simp [MxOp.startsNow, hg, ho, hb, he, hd]
  exact ⟨fun u hu => State.onNamed_some hk (by simp [ha, hnow, hu]), fun hn => State.onNamed_some hk (by simp [ha, hnow, hn])⟩

/-! The one step under way: its checks end, it is computed again, it completes. -/

section
variable {x : MxStep} (hx : o.steps = [x])
include hx

theorem execMatrixStepRetire_due (hs : x.stop + 16 = t.tick) (hc : x.compl = none) :
    execMatrixStepRetire k s = .next (s.setTile t.mxRetire) :=
  State.onNamed_some hk (by simp [ha, hx, hs, hc])

theorem execMatrixStepComplete_due (ho : o.over = false) (hc : x.compl = some t.tick) :
    execMatrixStepComplete k s = .next (s.engineDone (t.mxStepDone o x)) :=
  State.onNamed_some hk (by simp [ha, hx, ho, hc])

omit hk in
/-- A late step whose work has ended is computed again just when the engine works on it. -/
theorem Tile.mxReplayable_late (hl : x.late = true) (hs : x.stop ≤ t.tick) :
    t.mxReplayable = if t.mxWorks x then some (o, x) else none := by
  cases hw : t.mxWorks x <;> simp [Tile.mxReplayable, ha, hx, hl, hs, hw]

theorem execMatrixStepReplay_held (hl : x.late = true) (hs : x.stop ≤ t.tick) (hw : t.mxWorks x = false) :
    execMatrixStepReplay k s = .refused .notEnabled :=
  State.onNamed_none hk (by simp [Tile.mxReplayable_late ha hx hl hs, hw])

/-- A replay counts as a soft error of the tile when an error had brought it, not when a restore had (R184, R188). -/
theorem execMatrixStepReplay_works (hl : x.late = true) (hs : x.stop ≤ t.tick) (hw : t.mxWorks x = true) :
    execMatrixStepReplay k s = .next (
      let u := (s.setTile (t.mxReplay o x).1).countCheck k (t.mxReplay o x).2
      if x.hit || x.failed then u.countSoft k fun e => { e with mxrep := bump e.mxrep } else u) :=
  State.onNamed_some hk (by simp only [Tile.mxReplayable_late ha hx hl hs, hw, if_true, Option.map_some])

end

/-! The completion of an operation that is no MGO. -/

section
variable (ho : o.over = false) (hc : o.compl = some t.tick)
include ho hc

omit hk ha in
theorem MxOp.completesNow_due : o.completesNow t.tick = true := by
  simp [MxOp.completesNow, ho, hc]

theorem execMdrnComplete_due {a : Nat} (hd : o.kind = .drn a) : execMdrnComplete k s = .next (s.engineDone (t.mxOpDone o)) :=
  State.onNamed_some hk (by simp only [ha, hd, MxOp.completesNow_due ho hc, if_true])

theorem execMldwComplete_due {a w p q : Nat} (hd : o.kind = .ldw a w p q) :
    execMldwComplete k s = .next (s.engineDone (t.mxOpDone o)) :=
  State.onNamed_some hk (by simp only [ha, hd, MxOp.completesNow_due ho hc, if_true])

theorem execMclrComplete_due {m : Nat} (hd : o.kind = .clr m) : execMclrComplete k s = .next (s.engineDone (t.mxOpDone o)) :=
  State.onNamed_some hk (by simp only [ha, hd, MxOp.completesNow_due ho hc, if_true])

end
end

/-! The fault of lowest kind (R186). -/

theorem mem_of_worstFault {l : List (Nat × Nat)} {y : Nat × Nat} (h : worstFault l = some y) : y ∈ l := by
  induction l generalizing y with
  | nil => cases h
  | cons x l ih =>
    rw [worstFault] at h
    split at h
    · split at h <;> cases h
      · exact List.mem_cons_of_mem _ (ih ‹_›)
      · exact List.mem_cons_self
    · cases h
      exact List.mem_cons_self

/-- Of faults of which none is of a lower kind than the first, the first is reported. -/
theorem worstFault_cons_lowest {x : Nat × Nat} {l : List (Nat × Nat)} (h : ∀ y ∈ l, x.1 ≤ y.1) : worstFault (x :: l) = some x := by
  rw [worstFault]
  cases hl : worstFault l with
  | none => rfl
  | some y => exact if_neg (Nat.not_lt.mpr (h y (mem_of_worstFault hl)))

/-! Errors of accumulators and of their stacks (R185). -/

theorem Tile.accErrors_kind {t : Tile} {o : MxOp} {f : Fmt} {accs areas : List Nat} {y : Nat × Nat}
    (h : y ∈ t.accErrors o f accs areas) : y.1 = 4 := by
  rcases List.mem_append.mp h with h | h
  · obtain ⟨_, _, rfl⟩ := List.mem_map.mp h
    rfl
  · obtain ⟨a, _, h⟩ := List.mem_flatMap.mp h
    obtain ⟨i, _, h⟩ := List.mem_filterMap.mp h
    obtain ⟨_, _, rfl⟩ := Option.map_eq_some_iff.mp h
    rfl

/-- An accumulator in error is reported before any slot, at the address 0. -/
theorem Tile.worstFault_accErrors_struck {t : Tile} {accs : List Nat} {a : Nat} (hm : a ∈ accs)
    (hp : listGet t.mx.poison a false = true) (o : MxOp) (f : Fmt) (areas : List Nat) :
    worstFault (t.accErrors o f accs areas) = some (4, 0) := by
  have hkind (y) := Tile.accErrors_kind (t := t) (o := o) (f := f) (accs := accs) (areas := areas) (y := y)
  cases hstruck : accs.filter fun b => listGet t.mx.poison b false with
  | nil => exact absurd hp (List.filter_eq_nil_iff.mp hstruck a hm)
  | cons b bs =>
    simp only [Tile.accErrors, hstruck, List.map_cons, List.cons_append] at hkind ⊢
    exact worstFault_cons_lowest fun y hy => (hkind y (List.mem_cons_of_mem _ hy)).ge

theorem Spad.poisonAt_clean {sp : Spad} (h : sp.poison = []) (a n : Nat) : sp.poisonAt a n = none := by
  simp only [Spad.poisonAt, h, List.find?_nil, Option.map_none]

theorem Tile.accErrors_clean {t : Tile} {accs : List Nat} (hp : ∀ a ∈ accs, listGet t.mx.poison a false = false)
    (hs : t.spad.poison = []) (o : MxOp) (f : Fmt) (areas : List Nat) : t.accErrors o f accs areas = [] := by
  have hnone : accs.filter (fun a => listGet t.mx.poison a false) = [] :=
    List.filter_eq_nil_iff.mpr fun a ha => by simp [hp a ha]
  simp [Tile.accErrors, hnone, Spad.poisonAt_clean hs]

/-! MCLR (R200). -/

theorem Elems.toListFrom_nil (i n : Nat) : Elems.toListFrom [] i n = List.replicate n 0 := by
  induction n generalizing i with
  | zero => rfl
  | succ n ih => rw [Elems.toListFrom, ih, List.replicate_succ]

/-- A table by number reads its entry at each number below its length. -/
theorem listGet_map_range {α : Type} (f : Nat → α) {n i : Nat} (h : i < n) (d : α) : listGet ((List.range n).map f) i d = f i := by
  rw [listGet, List.getElem?_map, List.getElem?_range h, Option.map_some, Option.getD_some]

/-- The accumulators of a mask. -/
def maskAccs (m : Nat) : List Nat := (List.range 4).filter fun a => fld m a 1 == 1

theorem mem_maskAccs {m a : Nat} : a ∈ maskAccs m ↔ a < 4 ∧ fld m a 1 = 1 := by
  simp [maskAccs]

/-- The engine with the accumulators of a mask zero and their stacks empty. -/
def Matrix.clear (x : Matrix) (m : Nat) : Matrix :=
  { x with accs := (List.range 4).map fun a => if fld m a 1 = 1 then [] else listGet x.accs a [],
           stk := (List.range 4).map fun a => if fld m a 1 = 1 then StackDesc.empty else listGet x.stk a StackDesc.empty }

section
variable {x : Matrix} {m a : Nat} (h : a < 4)
include h

theorem Matrix.clear_acc_masked (hm : fld m a 1 = 1) : (x.clear m).acc a = List.replicate 16384 0 := by
  rw [Matrix.acc, Matrix.clear, listGet_map_range _ h, if_pos hm, Elems.toListFrom_nil]

theorem Matrix.clear_acc_other (hm : fld m a 1 ≠ 1) : (x.clear m).acc a = x.acc a := by
  rw [Matrix.acc, Matrix.clear, listGet_map_range _ h, if_neg hm, Matrix.acc]

theorem Matrix.clear_stk_masked (hm : fld m a 1 = 1) : listGet (x.clear m).stk a StackDesc.empty = StackDesc.empty := by
  rw [Matrix.clear, listGet_map_range _ h, if_pos hm]

end

section
variable {t : Tile} {o : MxOp} {m : Nat} (hc : o.kind = .clr m)
include hc

/-- An accumulator of the mask in error ends the MCLR with ECCUE of kind 4. -/
theorem Tile.mxOpDone_clr_struck {a : Nat} (hm : a ∈ maskAccs m) (hp : listGet t.mx.poison a false = true) :
    (t.mxOpDone o).2 = [engineTrap (4, 0)] := by
  have hworst := Tile.worstFault_accErrors_struck hm hp o (accFmt o.fa) (maskAccs m)
  simp only [maskAccs] at hworst
  simp only [Tile.mxOpDone, hc, hworst, Tile.mxFault]

theorem Tile.mxOpDone_clr_clean (hp : t.mx.poison = List.replicate 4 false) (hs : t.spad.poison = []) :
    t.mxOpDone o = (({ t with mx := t.mx.clear m } : Tile).endOp o, []) := by
  have hnone : t.accErrors o (accFmt o.fa) (maskAccs m) (maskAccs m) = [] :=
    Tile.accErrors_clean (fun a ha => by rw [hp, listGet_replicate _ _ (mem_maskAccs.mp ha).1]) hs _ _ _
  simp only [maskAccs] at hnone
  simp only [Tile.mxOpDone, hc, hnone, worstFault, Matrix.clear]

end

/-! The Cascade's events (R213, R215, R218). -/

section
variable {s : State} {k : TileKey} {t : Tile} (hk : s.tile? k = some t)
include hk

theorem execCascadeReadStage_due (hr : t.casc.reading.isSome = true) :
    execCascadeReadStage k s = .next (s.setTile (t.readStage t.ports)) :=
  State.onNamed_some hk (if_pos hr)

theorem execCascadeSubtreeWrite_due {x : Subtree} (hx : x ∈ t.casc.subs) (hd : x.due = some t.tick) :
    execCascadeSubtreeWrite k s = .next (s.engineDone t.writeSubs) :=
  State.onNamed_some hk (if_pos (List.any_eq_true.mpr ⟨x, hx, by simp [hd]⟩))

theorem execCascadeRowMove_due {x : Xfer} (hx : x ∈ t.casc.xfers) (hg : x.gone = false) (hs : x.struck = false)
    (hb : x.start ≤ t.tick) (he : t.tick < x.start + x.count) : execCascadeRowMove k s = .next (s.setTile t.moveRows) :=
  State.onNamed_some hk (if_pos (List.any_eq_true.mpr ⟨x, hx, by simp [hg, hs, hb, he]⟩))

theorem execCascadeRowWrite_due {x : Xfer} (hx : x ∈ t.casc.xfers) (hr : x.row.isSome = true) :
    execCascadeRowWrite k s = .next (s.engineDone t.writeRow) :=
  State.onNamed_some hk (if_pos (List.any_eq_true.mpr ⟨x, hx, hr⟩))

end

/-- Settles O51: each clause is one event under its trigger; a replay turns on whether the engine works on the late step, and an MCLR on
whether the accumulators of its mask are in error. -/
theorem engineEvents : Obligations.EngineEvents := by
  unfold Obligations.EngineEvents
  intro s k t hk
  refine ⟨fun o ha ho => ⟨?begin, ?start, fun x hx => ⟨?retire, ?held, ?replay, ?complete⟩, fun hc => ⟨?mdrn, ?mldw, ?mclr⟩⟩,
    ?readStage, ?subtreeWrite, ?rowMove, ?rowWrite⟩
  case begin => exact execMatrixOpBegin_due hk ha ho
  case start =>
    intro g hg hb he hd
    obtain ⟨hstart, hawait⟩ := execMatrixStepStart_due hk ha ho hg hb he hd
    exact ⟨hstart, fun h => hawait (Tile.mxStart_absent h)⟩
  case retire => exact execMatrixStepRetire_due hk ha hx
  case held =>
    intro hl hs _ hcause hf
    obtain ⟨z, hz⟩ := Option.isSome_iff_exists.mp hf
    exact execMatrixStepReplay_held hk ha hx hl hs (Tile.mxWorks_held hz (hcause z hz) x)
  case replay =>
    intro hl hs hp hadv u
    have hw : t.mxWorks x = true := by
      rcases hadv with hf | ⟨z, hf, hc, hd⟩
      · exact Tile.mxWorks_advancing hp hf x
      · exact Tile.mxWorks_awaited hp hf hc hd
    have hnext := execMatrixStepReplay_works hk ha hx hl hs hw
    refine ⟨fun hh hf => hnext.trans ?_, fun he => hnext.trans ?_⟩
    · simp only [hh, hf, Bool.or_self, Bool.false_eq_true, if_false, u]
    · simp only [Bool.or_eq_true, he, if_true, u]
  case complete => exact execMatrixStepComplete_due hk ha hx ho
  case mdrn => exact fun a hd => execMdrnComplete_due hk ha ho hc hd
  case mldw => exact fun a w p q hd => execMldwComplete_due hk ha ho hc hd
  case mclr =>
    intro m hd
    refine ⟨execMclrComplete_due hk ha ho hc hd, fun a h4 hm hp => Tile.mxOpDone_clr_struck hd (mem_maskAccs.mpr ⟨h4, hm⟩) hp,
      fun hp hs => ?_⟩
    rw [Tile.mxOpDone_clr_clean hd hp hs]
    exact ⟨rfl, fun a h4 => ⟨fun hm => ⟨Matrix.clear_acc_masked h4 hm, Matrix.clear_stk_masked h4 hm⟩, Matrix.clear_acc_other h4⟩⟩
  case readStage => exact execCascadeReadStage_due hk
  case subtreeWrite => exact fun x hx hd => execCascadeSubtreeWrite_due hk hx hd
  case rowMove => exact fun x hx hg hs hb he => execCascadeRowMove_due hk hx hg hs hb he
  case rowWrite => exact fun x hx hr => execCascadeRowWrite_due hk hx hr

end Sys2Proof.Machine
end

section
/-! PROOFS. The frame of the matrix slot at its issue (R189 to R204, R211 to R221): what a syllable leaves of its tile. -/

namespace Sys2Proof.Machine

/-! The frame: a place of the queue, the subtrees and row transfers, the guard record and the results in flight are all that an issue
changes. -/

/-- A result in flight of slot M, which writes neither the scratchpad nor an atomic's word. -/
def Tile.MatrixResult (t : Tile) (p : Pending) : Prop :=
  p.slot = .m ∧ t.tick < p.due ∧ p.due ≤ t.tick + 3 ∧ p.eff.isMemory = false ∧ p.eff.isStore = false

/-- A tile stands as before but for the places of the engine's queue, what its Cascade has to do, the guard record and a hold, and what
it adds to its results in flight. -/
structure Tile.Engaged (t u : Tile) : Prop where
  rest : u = { t with
    inflight := u.inflight, seq := u.seq, iss := u.iss, spad := { t.spad with touched := u.spad.touched },
    mx := { t.mx with active := u.mx.active, pending := u.mx.pending },
    casc := { t.casc with subs := u.casc.subs, rot := u.casc.rot, rowFree := u.casc.rowFree, xfers := u.casc.xfers } }
  inflight : ∃ new, u.inflight = t.inflight ++ new ∧ ∀ p ∈ new, t.MatrixResult p

theorem Tile.engaged_of_quiet {t u : Tile}
    (h : u = { t with
      seq := u.seq, iss := u.iss, spad := { t.spad with touched := u.spad.touched },
      mx := { t.mx with active := u.mx.active, pending := u.mx.pending },
      casc := { t.casc with subs := u.casc.subs, rot := u.casc.rot, rowFree := u.casc.rowFree, xfers := u.casc.xfers } }) :
    t.Engaged u := by
  rw [h]
  exact ⟨rfl, [], (List.append_nil _).symm, by simp⟩

theorem Tile.Engaged.refl (t : Tile) : t.Engaged t := Tile.engaged_of_quiet rfl

theorem Tile.engaged_put (t : Tile) {n : Nat} {e : Eff} (hn : 0 < n) (h3 : n ≤ 3) (hm : e.isMemory = false) (hs : e.isStore = false) :
    t.Engaged (t.put n .m e) :=
  ⟨rfl, _, rfl, fun p hp => by
    rw [List.mem_singleton.1 hp]
    exact ⟨rfl, Nat.lt_add_of_pos_right hn, Nat.add_le_add_left h3 _, hm, hs⟩⟩

section
variable {t u : Tile} (h : t.Engaged u)
include h

theorem Tile.Engaged.sameRegs : t.SameRegs u := by
  rw [h.rest]
  exact ⟨fun _ => rfl, fun f _ => by cases f <;> rfl, fun f _ => by cases f <;> rfl, fun _ => rfl, fun _ => rfl, rfl⟩

theorem Tile.Engaged.sameControl : t.SameControl u := by
  rw [h.rest]
  exact ⟨rfl, rfl, rfl, rfl, rfl, rfl, rfl, rfl⟩

theorem Tile.Engaged.sameMemory : t.SameMemory u := by
  rw [h.rest]
  exact ⟨fun _ => rfl, fun _ => rfl, rfl, rfl⟩

theorem Tile.Engaged.sameTraffic : t.SameTraffic u := by
  rw [h.rest]
  exact ⟨rfl, rfl, rfl, rfl, rfl, rfl, rfl, rfl, rfl, rfl, rfl, rfl⟩

/-- Neither the copy queues, the accumulators, the configuration, the rings, the banks, the next bundle nor the waits change. -/
theorem Tile.Engaged.sameRest : u.queues = t.queues ∧ u.mx.accs = t.mx.accs ∧ u.mx.cfg = t.mx.cfg ∧ u.mx.rings = t.mx.rings ∧
    u.casc.banks = t.casc.banks ∧ u.pc = t.pc ∧ u.waits = t.waits := by
  rw [h.rest]
  exact ⟨rfl, rfl, rfl, rfl, rfl, rfl, rfl⟩

end

/-- An effect of a syllable of the slot engages its tile. -/
def Res.Engages (t : Tile) : Res → Prop
  | .ok u => t.Engaged u
  | _ => True

/-- The state after a syllable that engages the tile in focus. -/
def State.Engages (s u : State) : Prop := ∃ t, u = { s with tile := t } ∧ s.tile.Engaged t

theorem onTile_engages {f : Tile → Res} {s u : State} (e : onTile f s = .next u) (ht : u.untrapped)
    (hf : ∀ t, (f t).Engages t) : s.Engages u := by
  obtain ⟨t, rfl, ho | ⟨w, rfl⟩⟩ := onTile_ok_or_held e ht
  · have h := hf s.tile
    rw [ho] at h
    exact ⟨t, rfl, h⟩
  · exact ⟨_, rfl, Tile.engaged_of_quiet rfl⟩

/-! A guard that is off, and a check that fails, engage nothing. -/

section
variable {t : Tile} {r : Res} {c : Prop} [Decidable c] (h : r.Engages t)
include h

theorem Res.Engages.guarded : (if c then r else .ok t).Engages t := by
  split
  · exact h
  · exact Tile.Engaged.refl t

theorem Res.Engages.checked {tr : Trap} : (if c then .trap tr else r).Engages t := by
  split
  · trivial
  · exact h

end

/-! The shared operations. -/

/-- A touch changes nothing of the scratchpad but its guard record. -/
theorem Spad.note_eq (sp : Spad) (src agent a n : Nat) :
    sp.note src agent a n = { sp with touched := (sp.note src agent a n).touched } := by
  unfold Spad.note Spad.record
  split
  · split <;> rfl
  · rfl

section
variable (t : Tile) (h : Hdr)

theorem Tile.mxQueue_engages (o : MxOp) : (t.mxQueue o).Engages t := by
  unfold Tile.mxQueue
  split
  · exact Tile.engaged_of_quiet rfl
  · refine Res.Engages.checked ?_
    exact Tile.engaged_of_quiet rfl

theorem Tile.mxGo_engages (gang : Bool) : (t.mxGo h gang).Engages t := by
  refine Res.Engages.guarded ?_
  dsimp only
  split
  · trivial
  · split
    · trivial
    · exact t.mxQueue_engages _

theorem Tile.subtree_engages (down : Bool) (a : MSrc) : (t.subtree h down a).Engages t := by
  refine Res.Engages.guarded ?_
  split
  · trivial
  · refine .checked (.checked (.checked (.checked (.checked (.checked ?_)))))
    refine Tile.engaged_of_quiet ?_
    rw [← Spad.note_eq]

theorem Tile.transferRows_engages (addr : Option Nat) (range : Word) (k : XferKind) : (t.transferRows addr range k).Engages t := by
  unfold Tile.transferRows
  dsimp only
  split
  · trivial
  · refine .checked (.checked (.checked ?_))
    exact Tile.engaged_of_quiet rfl

end

/-! The syllables. -/

section
variable {s u : State} {h : Hdr} (ht : u.untrapped)
include ht

theorem execMcfg_engages {a b : MSrc} {i : MField} (e : execMcfg h a b i s = .next u) : s.Engages u := by
  refine onTile_engages e ht fun t => .guarded ?_
  split
  · dsimp only
    split
    · refine .checked ?_
      exact t.engaged_put (by decide) (by decide) rfl rfl
    · exact t.engaged_put (by decide) (by decide) rfl rfl
  · trivial

theorem execMdrn_engages {c : Nat} (e : execMdrn h c s = .next u) : s.Engages u := by
  refine onTile_engages e ht fun t => .guarded (.checked (.checked ?_))
  split
  · trivial
  · exact t.mxQueue_engages _

theorem execMclr_engages {mask : Nat} (e : execMclr h mask s = .next u) : s.Engages u :=
  onTile_engages e ht fun t => .guarded (.checked (t.mxQueue_engages _))

theorem execMldw_engages {a : MSrc} {w c : Nat} (e : execMldw h a w c s = .next u) : s.Engages u := by
  refine onTile_engages e ht fun t => .guarded ?_
  split
  · trivial
  · refine .checked (.checked (.checked ?_))
    split
    · trivial
    · exact t.mxQueue_engages _

/-- Every syllable of R189 to R203 and R211 to R221. -/
theorem exec_engages {i : Instr} (hi : isMatrixSlot i = true) (e : exec i s = .next u) : s.Engages u := by
  cases i with
  | mcfg => exact execMcfg_engages ht e
  | mgo | mgog => exact onTile_engages e ht fun t => t.mxGo_engages _ _
  | mdrn => exact execMdrn_engages ht e
  | mclr => exact execMclr_engages ht e
  | mldw => exact execMldw_engages ht e
  | mmirr | mfmt | mli | mstat | spmode | spstat =>
    unfold exec at e
    simp only [execMmirr, execMfmt, execMli, execMstat, execSpmode, execSpstat] at e
    refine onTile_engages e ht fun t => ?_
    split
    · exact t.engaged_put (by decide) (by decide) rfl rfl
    · exact .refl t
  | spup | spdn => exact onTile_engages e ht fun t => t.subtree_engages _ _ _
  | spld | spst | spscl | spclr =>
    unfold exec at e
    simp only [execSpld, execSpst, execSpscl, execSpclr] at e
    refine onTile_engages e ht fun t => .guarded ?_
    split
    · exact t.transferRows_engages _ _ _
    · trivial
  | mnop => cases e; exact ⟨_, rfl, .refl _⟩
  | _ => cases hi

end

/-- Settles O15: every syllable of the slot engages its tile, and what that keeps is read off once. -/
theorem matrixSlotFrame : Obligations.MatrixSlotFrame := by
  unfold Obligations.MatrixSlotFrame
  intro i s u hi e ht
  obtain ⟨t, rfl, h⟩ := exec_engages ht hi e
  obtain ⟨hqueues, haccs, hcfg, hrings, hbanks, hpc, hwaits⟩ := h.sameRest
  exact ⟨s.sameModule_withTile t, h.sameRegs, h.sameControl, h.sameMemory, h.sameTraffic, hqueues, haccs, hcfg, hrings, hbanks, hpc,
    hwaits, h.inflight⟩

end Sys2Proof.Machine
end

section
/-! PROOFS. The matrix engine's syllables at their issue (R191 to R204): what the configuration and the status put in flight, and what the
queue answers to an operation whose checks hold. -/

namespace Sys2Proof.Machine

/-! Configuration and status (R192 to R195, R202, R203). -/

section
variable {s : State} {h : Hdr} {a b : MSrc} {x y : Word} (hg : s.tile.guarded h = true)
include hg

/-- MMIRR, MFMT, MLI and MSTAT: one result in flight under the guard. -/
theorem onTile_put_guarded (n : Nat) (e : Tile → Eff) :
    onTile (fun t => .ok (if t.guarded h then t.put n .m (e t) else t)) s = s.nextTile (s.tile.put n .m (e s.tile)) :=
  onTile_ok (by simp only [hg, if_true])

variable (hx : s.tile.readM a = some x) (hy : s.tile.readM b = some y)
include hx hy

theorem execMcfg_field {f : MField} (hf : ∀ k, f ≠ .rctl k) : execMcfg h a b f s =
    s.nextTile (s.tile.put 1 .m (.mcfg f (BitVec.ofNat 128 (x.toNat + y.toNat * 2 ^ 64)))) := by
  refine onTile_ok ?_
  cases f with
  | rctl k => exact absurd rfl (hf k)
  | _ => simp only [hg, hx, hy, if_true]

theorem execMcfg_rctl {r : Nat} {v : Word128} (hv : BitVec.ofNat 128 (x.toNat + y.toNat * 2 ^ 64) = v)
    (hr : bit v 16 = false ∨ s.tile.mx.readsRing r = false) :
    execMcfg h a b (.rctl r) s = s.nextTile (s.tile.put 1 .m (.rctl r v)) :=
  onTile_ok (by simp only [hg, hx, hy, hv, if_true, Bool.and_eq_false_iff.mpr hr, Bool.false_eq_true, if_false])

theorem execMcfg_rctl_inUse {r : Nat} {v : Word128} (hv : BitVec.ofNat 128 (x.toNat + y.toNat * 2 ^ 64) = v)
    (hb : bit v 16 = true) (hr : s.tile.mx.readsRing r = true) :
    execMcfg h a b (.rctl r) s = .next (s.takeTrap (configTrap s.tile (MField.index (.rctl r)) 12)) :=
  onTile_trap (by simp only [hg, hx, hy, hv, if_true, hb, hr, Bool.and_self])

end

/-- Settles O41: MCFG by its field and the ring's use, and the syllables of one result each. -/
theorem matrixConfiguration : Obligations.MatrixConfiguration := by
  unfold Obligations.MatrixConfiguration
  intro s h a b x y f on bind fa fb d imm i r hg hx hy himm _ t v
  exact ⟨execMcfg_field hg hx hy, execMcfg_rctl hg hx hy rfl, execMcfg_rctl_inUse hg hx hy rfl,
    onTile_put_guarded hg 1 fun _ => .mirror on, onTile_put_guarded hg 3 fun _ => .mfr _,
    ⟨_, onTile_put_guarded hg 2 fun _ => .mreg d (wordI (signed 16 imm)), immWord_signed_toInt himm⟩,
    onTile_put_guarded hg 2 fun t => .mreg d (word (t.mxStatus i))⟩

/-! The queue of the engine (R196). -/

@[simp] theorem firstFail_nil : firstFail [] = none := rfl

section
variable {t : Tile}

theorem Tile.mxQueue_free (h : t.mx.active = none ∨ t.mx.pending = none) (o : MxOp) : t.mxQueue o = .ok (t.placed o) := by
  cases ha : t.mx.active with
  | none => simp [Tile.mxQueue, Tile.placed, ha]
  | some p =>
    have hp : t.mx.pending = none := h.resolve_left (by simp [ha])
    simp [Tile.mxQueue, Tile.placed, ha, hp]

theorem Tile.mxQueue_full (ha : t.mx.active ≠ none) (hp : t.mx.pending ≠ none) (o : MxOp) :
    t.mxQueue o = .trap (configTrap t 0 0xFF) := by
  obtain ⟨p, ha⟩ := Option.ne_none_iff_exists'.mp ha
  simp [Tile.mxQueue, ha, Option.isSome_iff_ne_none.mpr hp]

end

/-- An answer is the queue's to an operation: it takes a free place, and with both taken it is PERM with 0xFF. -/
def State.Queues (s : State) (o : MxOp) (r : Host.Outcome State Fault Refusal) : Prop :=
  (s.tile.mx.active = none ∨ s.tile.mx.pending = none → r = s.nextTile (s.tile.placed o)) ∧
  (s.tile.mx.active ≠ none → s.tile.mx.pending ≠ none → r = .next (s.takeTrap (configTrap s.tile 0 0xFF)))

theorem onTile_queues {f : Tile → Res} {s : State} {o : MxOp} (h : f s.tile = s.tile.mxQueue o) : s.Queues o (onTile f s) :=
  ⟨fun hf => onTile_ok (h.trans (Tile.mxQueue_free hf o)), fun ha hp => onTile_trap (h.trans (Tile.mxQueue_full ha hp o))⟩

/-! The operations whose checks hold (R191, R197 to R201, R204). -/

section
variable {s : State} {h : Hdr} (hg : s.tile.guarded h = true)
include hg

theorem Tile.mxGo_queues {gang : Bool} {o : MxOp}
    (ho : s.tile.mxOp (.go (if gang && decide (1 < s.tile.gang.size) then some (s.tile.gang.first, s.tile.gang.size) else none)) = o)
    (hc : goCombo o = none) (hf : goFails o = []) : s.Queues o (onTile (Tile.mxGo h gang) s) :=
  onTile_queues (by simp only [Tile.mxGo, hg, if_true, ho, hc, hf, firstFail_nil])

theorem execMdrn_queues {c : Nat} {o : MxOp} (ho : s.tile.mxOp (.drn c) = o) (hpair : ¬(accFmt o.fa = .fp64 ∧ c % 2 = 1))
    (hok : drainOk (accFmt o.fa) (bits o.cfg.drain 88 5) = true) (hmbz : mbzDrain o.cfg.drain = false) (he : entryFails o c = [])
    (hbad : drainBad o.cfg.drain = false) : s.Queues o (execMdrn h c s) :=
  onTile_queues (by simp [hg, ho, hpair, hok, hmbz, he, hbad])

theorem execMclr_queues {mask : Nat} {o : MxOp} (ho : s.tile.mxOp (.clr mask) = o)
    (hpair : ¬(accFmt o.fa = .fp64 ∧ splitPair mask = true)) : s.Queues o (execMclr h mask s) :=
  onTile_queues (by simp only [hg, if_true, ho, hpair, if_false])

theorem execMldw_queues {a : MSrc} {c w p q : Nat} {x : Word} {o : MxOp} (hx : s.tile.readM a = some x) (hp : bits x 0 21 = p)
    (hq : bits x 32 16 = q) (ho : s.tile.mxOp (.ldw c w p q) = o) (hpair : ¬(accFmt o.fa = .fp64 ∧ c % 2 = 1)) (hp64 : p % 64 = 0)
    (hq64 : q % 64 = 0) (hrow : 128 * accSize (accFmt o.fa) ≤ q) (htop : p + 127 * q + 128 * accSize (accFmt o.fa) ≤ 0x200000)
    (he : entryFails o c = []) : s.Queues o (execMldw h a w c s) :=
  onTile_queues (by simp [hg, hx, hp, hq, ho, hpair, hp64, hq64, Nat.not_lt.mpr hrow, Nat.not_lt.mpr htop, he])

theorem execMstop_idle (ha : s.tile.mx.active = none) : execMstop h s = s.nextTile s.tile :=
  onTile_ok (by simp only [hg, if_true, ha])

theorem execMstop_ends {o : MxOp} (ha : s.tile.mx.active = some o) :
    execMstop h s = s.nextTile { s.tile.endOp o with mx := { (s.tile.endOp o).mx with pending := none } } :=
  onTile_ok (by simp only [hg, if_true, ha])

end

theorem Tile.withMx_sameRegs (t : Tile) (m : Matrix) : t.SameRegs { t with mx := m } :=
  ⟨fun _ => rfl, fun f _ => by cases f <;> rfl, fun f _ => by cases f <;> rfl, fun _ => rfl, fun _ => rfl, rfl⟩

theorem Tile.withMx_sameMemory (t : Tile) (m : Matrix) : t.SameMemory { t with mx := m } := ⟨fun _ => rfl, fun _ => rfl, rfl, rfl⟩

/-- Settles O42: each operation whose checks hold answers as the queue does, and MSTOP goes by whether one is active. -/
theorem matrixOperations : Obligations.MatrixOperations := by
  unfold Obligations.MatrixOperations
  intro s h hg
  refine ⟨?mgo, ?mgog, ?mdrn, ?mclr, ?mldw, ?idle, ?ends⟩
  case mgo => exact Tile.mxGo_queues (gang := false) hg rfl
  case mgog => exact Tile.mxGo_queues (gang := true) hg (by simp)
  case mdrn => exact fun c => execMdrn_queues hg rfl
  case mclr => exact fun mask => execMclr_queues hg rfl
  case mldw => exact fun a c w x hx => execMldw_queues hg hx rfl rfl rfl
  case idle => exact execMstop_idle hg
  case ends => exact fun o ha => ⟨execMstop_ends hg ha, s.tile.withMx_sameRegs _, s.tile.withMx_sameMemory _⟩

end Sys2Proof.Machine
end

section
/-! PROOFS. The Cascade's syllables at their issue (R212, R213, R218 to R221): the subtree and the row transfer that a legal issue adds
to what the Cascade has to do. -/

namespace Sys2Proof.Machine

/-! A subtree (R212, R213). -/

/-- The subtree that an issue makes of the record at an address, nothing of it begun. -/
def Tile.newSubtree (t : Tile) (down : Bool) (addr : Nat) : Subtree :=
  let y : Subtree :=
    { issue := t.tick, seq := t.seq, addr := addr, record := natOfBytes (t.spad.readBytes addr 32), down := down, fmt := t.casc.fmt,
      dxor := fld t.casc.cmr 2 5, rm := slotRnd t.gov.fpcr .m, fz := slotFz t.gov.fpcr .m, tree := t.casc.rot, begun := none,
      left := [], ended := none, leaves := [], trace := [], adj := [], fault := none }
  { y with left := bankNeeds y.entries }

/-- No traced area is longer than the 256 bytes of a batch. -/
theorem traceArea_le (r : Nat) (down : Bool) : (if down || recTrace r then (if recBatch r then 256 else 64) else 0) ≤ 256 := by
  split
  · split <;> decide
  · decide

theorem Tile.subtree_legal {t : Tile} {h : Hdr} {a : MSrc} {x : Word} {addr r : Nat} (down : Bool) (hg : t.guarded h = true)
    (hx : t.readM a = some x) (haddr : bits x 0 21 = addr) (hr : natOfBytes (t.spad.readBytes addr 32) = r) (halign : addr % 32 = 0)
    (hclean : t.spad.poisoned addr 32 = false) (hpos : 0 < recNleaf r) (h16 : recNleaf r ≤ 16) (hmbz : fld r 15 1 = 0)
    (hplace : t.casc.later < 8) (htop : addr + 288 ≤ 0x200000) :
    t.subtree h down a = .ok { t with
      spad := t.spad.note t.key.id 2 addr 32, seq := t.seq + 1,
      casc := { t.casc with subs := t.casc.subs ++ [t.newSubtree down addr],
                            rot := if recBatch r then t.casc.rot else (t.casc.rot + 1) % 4 } } := by
  have harea := traceArea_le r down
  have hleaves : ¬(recNleaf r = 0 ∨ 16 < recNleaf r) := by omega
  unfold Tile.subtree
  rw [if_pos hg, hx]
  dsimp only
  rw [haddr, hr, if_neg (not_not.mpr halign), if_neg (Bool.eq_false_iff.mp hclean), if_neg (by omega), if_neg hleaves,
    if_neg (by omega), if_neg (by omega), Tile.newSubtree, hr]

/-! A row transfer (R212, R218). -/

/-- The tile with one more row transfer: it starts at the next free tick of the row port, and holds the port for a tick of each row. -/
def Tile.withTransfer (t : Tile) (r : Word) (k : XferKind) : Tile :=
  let start := max (t.tick + 1) t.casc.rowFree
  { t with seq := t.seq + 1, casc := { t.casc with
      rowFree := start + bits r 16 10,
      xfers := t.casc.xfers ++ [⟨k, bits r 0 9, bits r 16 10, t.tick, t.seq, start, t.casc.fmt, slotRnd t.gov.fpcr .m,
        slotFz t.gov.fpcr .m, none, none, false, false⟩] } }

theorem Tile.transferRows_legal {t : Tile} {addr : Option Nat} {r : Word} (k : XferKind)
    (haddr : ∀ a ∈ addr, a % 128 = 0 ∧ a + 128 * bits r 16 10 ≤ 0x200000) (hcount : 0 < bits r 16 10)
    (hrows : bits r 0 9 + bits r 16 10 ≤ 512) (hplace : (t.casc.active t.tick && t.casc.pending t.tick) = false) :
    t.transferRows addr r k = .ok (t.withTransfer r k) := by
  have halign : addr.filter (fun a => a % 128 != 0) = none := by
    rw [Option.filter_eq_none_iff]
    exact fun a ha => by simp [(haddr a ha).1]
  have htop : addr.getD 0 + 128 * bits r 16 10 ≤ 0x200000 := by
    cases addr with
    | none => rw [Option.getD_none]; omega
    | some a => exact (haddr a rfl).2
  unfold Tile.transferRows
  dsimp only
  rw [halign]
  dsimp only
  rw [if_neg (by omega), if_neg (by omega), if_neg (Bool.eq_false_iff.mp hplace)]
  rfl

/-- An answer is the one to a row transfer whose rows are legal and that finds a place free. -/
def State.MovesRows (s : State) (r : Word) (k : XferKind) (out : Host.Outcome State Fault Refusal) : Prop :=
  0 < bits r 16 10 → bits r 0 9 + bits r 16 10 ≤ 512 → (s.tile.casc.active s.tile.tick && s.tile.casc.pending s.tile.tick) = false →
    out = s.nextTile (s.tile.withTransfer r k)

theorem onTile_movesRows {s : State} {f : Tile → Res} {addr : Option Nat} {r : Word} {k : XferKind}
    (hf : f s.tile = s.tile.transferRows addr r k) (haddr : ∀ a ∈ addr, a % 128 = 0 ∧ a + 128 * bits r 16 10 ≤ 0x200000) :
    s.MovesRows r k (onTile f s) :=
  fun hcount hrows hplace => onTile_ok (hf.trans (Tile.transferRows_legal k haddr hcount hrows hplace))

section
variable {s : State} {h : Hdr} {a b : MSrc} {x y : Word} (hg : s.tile.guarded h = true) (hx : s.tile.readM a = some x)
include hg hx

theorem execSpscl_movesRows (n : Int) : s.MovesRows x (.scale n) (execSpscl h a n s) :=
  onTile_movesRows (addr := none) (by simp only [hg, hx, if_true]) nofun

theorem execSpclr_movesRows : s.MovesRows x .clear (execSpclr h a s) :=
  onTile_movesRows (addr := none) (by simp only [hg, hx, if_true]) nofun

variable (hy : s.tile.readM b = some y)
  (haddr : ∀ p ∈ some (bits x 0 21), p % 128 = 0 ∧ p + 128 * bits y 16 10 ≤ 0x200000)
include hy haddr

theorem execSpld_movesRows : s.MovesRows y (.load (bits x 0 21)) (execSpld h a b s) :=
  onTile_movesRows (by simp only [hg, hx, hy, if_true]) haddr

theorem execSpst_movesRows : s.MovesRows y (.save (bits x 0 21)) (execSpst h a b s) :=
  onTile_movesRows (by simp only [hg, hx, hy, if_true]) haddr

end

/-- Settles O43: a subtree and a row transfer past their checks, and the syllables of one result each. -/
theorem cascadeSyllables : Obligations.CascadeSyllables := by
  unfold Obligations.CascadeSyllables
  intro s h a b x y n dx d i f hg hx hy t addr rec_ sub rows
  refine ⟨?subtrees, ?memory, ?scale, ?clear, ?mode, ?status⟩
  case subtrees =>
    intro halign hclean hpos h16 hmbz hplace htop
    have hlegal (down : Bool) := Tile.subtree_legal down hg hx rfl rfl halign hclean hpos h16 hmbz hplace htop
    have hmem := t.spad.note_mem t.key.id 2 addr 32
    exact ⟨⟨_, _, onTile_ok (hlegal false), rfl, rfl, rfl, rfl, rfl, rfl, rfl, hmem⟩,
      ⟨_, _, onTile_ok (hlegal true), rfl, rfl, rfl, rfl, rfl, rfl, rfl, hmem⟩⟩
  case memory =>
    intro halign htop
    have haddr : ∀ p ∈ some addr, p % 128 = 0 ∧ p + 128 * bits y 16 10 ≤ 0x200000 :=
      fun _ hp => Option.some.inj hp ▸ ⟨halign, htop⟩
    exact ⟨execSpld_movesRows hg hx hy haddr, execSpst_movesRows hg hx hy haddr⟩
  case scale => exact execSpscl_movesRows hg hx n
  case clear => exact execSpclr_movesRows hg hx
  case mode => exact onTile_put_guarded hg 1 fun _ => .cmr (dx * 4 + f.code)
  case status => exact onTile_put_guarded hg 2 fun t => .mreg d (word (t.spStatus i))

end Sys2Proof.Machine
end

section
/-! PROOFS. Stations and pass ticks (R225, R226, R236): where a tile stands on the ring, and when a slot comes to it. -/

namespace Sys2Proof.Machine

/-! The pass tick (R236). -/

theorem lt_passTick (k s t l : Nat) : t < passTick k s t l := Nat.lt_of_lt_of_le t.lt_succ_self (Nat.le_add_right _ _)

theorem passTick_le (k s t : Nat) {l : Nat} (hl : 0 < l) : passTick k s t l ≤ t + l := by
  have hlt := Int.emod_lt_of_pos ((k : Int) - s - t - 1) (Int.natCast_pos.2 hl)
  unfold passTick
  omega

/-- The wait after tick t + 1 makes up what separates the slot's place at t + 1 from the station. -/
theorem add_passTick_mod {k l : Nat} (s t : Nat) (hk : k < l) : (s + passTick k s t l) % l = k := by
  have hwait : ((((k : Int) - s - t - 1) % l).toNat : Int) = (k - s - t - 1) % l :=
    Int.toNat_of_nonneg (Int.emod_nonneg _ (by omega))
  have hint : ((s : Int) + passTick k s t l) % l = k % l :=
    calc ((s : Int) + passTick k s t l) % l
        = ((s + (t + 1)) + (k - s - t - 1) % l) % l := by
          rw [passTick, Nat.cast_add, hwait, Nat.cast_add_one, add_assoc (s : Int)]
      _ = ((s + (t + 1)) + (k - s - t - 1)) % l := Int.add_emod_emod _ _ _
      _ = k % l := by congr 1; ring
  have hnat : (s + passTick k s t l) % l = k % l := mod_cast hint
  rw [hnat, Nat.mod_eq_of_lt hk]

/-! Stations (R225, R226): the die of a tile, and its place among the stations 1 to 160 of the die. -/

theorem stationOf_div (a : Nat) : stationOf a / 162 = a / 160 := by
  unfold stationOf
  dsimp only
  split <;> omega

theorem stationOf_mod (a : Nat) :
    stationOf a % 162 = 1 + 16 * (a % 160 / 16) + (if a % 160 / 16 % 2 = 0 then a % 16 else 15 - a % 16) := by
  unfold stationOf
  dsimp only
  split <;> omega

theorem stationOf_mod_pos (a : Nat) : 0 < stationOf a % 162 := by
  rw [stationOf_mod]
  omega

theorem stationOf_mod_lt (a : Nat) : stationOf a % 162 < 161 := by
  rw [stationOf_mod]
  split <;> omega

theorem stationOf_lt_ringLength {a grid : Nat} (ha : a < grid) : stationOf a < ringLength grid := by
  have hdie := stationOf_div a
  unfold ringLength ceilDiv
  omega

/-- Die and row follow from the station, and the row gives the direction in which its columns are numbered. -/
theorem stationOf_injective : Function.Injective stationOf := by
  intro a b h
  have hdie : a / 160 = b / 160 := by rw [← stationOf_div, ← stationOf_div, h]
  have hplace := congrArg (· % 162) h
  simp only [stationOf_mod] at hplace
  have hrow : a % 160 / 16 = b % 160 / 16 := by
    split at hplace <;> split at hplace <;> omega
  rw [hrow] at hplace
  split at hplace <;> omega

theorem stationOf_coordinates {d row col : Nat} (hrow : row < 10) (hcol : col < 16) :
    stationOf (160 * d + 16 * row + col) = 162 * d + 1 + 16 * row + (if row % 2 = 0 then col else 15 - col) := by
  have hd : (160 * d + 16 * row + col) / 160 = d := by omega
  have hr : (160 * d + 16 * row + col) % 160 / 16 = row := by omega
  have hc : (160 * d + 16 * row + col) % 16 = col := by omega
  simp only [stationOf, hd, hr, hc]

/-- Settles O37: the pass tick makes up the distance from the slot to the station in the turn after the issue, and a station gives back
its die, row and column. -/
theorem passTicks : Obligations.PassTick := by
  unfold Obligations.PassTick
  exact ⟨fun k s t l hl hk _ => ⟨lt_passTick k s t l, passTick_le k s t hl, add_passTick_mod s t hk⟩,
    fun a b grid ha _ => ⟨stationOf_lt_ringLength ha, (stationOf_mod_pos a).ne', (stationOf_mod_lt a).ne,
      fun h => stationOf_injective h⟩,
    fun t => rfl, fun d row col _ hrow hcol => stationOf_coordinates hrow hcol⟩

end Sys2Proof.Machine
end

section
/-! PROOFS. The Rill's syllables at their issue (R232, R233, R236 to R240): what a ring access of a boarded tile puts into its station,
and what BOARD and ALIGHT answer in each Rill state. -/

namespace Sys2Proof.Machine

/-! The shared access behind its check (R236, R240). -/

theorem rillCheck_unboarded {t : Tile} (hb : t.berth ≠ .boarded) (fn slot : Nat) :
    rillCheck t fn slot = some (rillTrap t.iss.pos fn) := if_pos hb

theorem Tile.ringAccess_unboarded {t : Tile} (hb : t.berth ≠ .boarded) (fn : Nat) (a : Word) (k : RillKind) (d : Option LandDest) :
    t.ringAccess fn a k d = .trap (rillTrap t.iss.pos fn) := by
  simp only [Tile.ringAccess, rillCheck_unboarded hb]

section
variable {t : Tile} {a : Word} (hb : t.berth = .boarded) (hs : bits a 0 11 < ringLength t.grid) (hq : t.station.length < 16)
include hb hs hq

theorem rillCheck_boarded (fn : Nat) : rillCheck t fn (bits a 0 11) = none := by
  rw [rillCheck, if_neg (not_not.mpr hb), if_neg (Nat.not_le.mpr hs), if_neg (Nat.not_le.mpr hq)]

theorem Tile.ringAccess_quiet (fn : Nat) (k : RillKind) :
    t.ringAccess fn a k none = .ok (t.queueRill (bits a 0 11) (bits a 11 3) k none) := by
  simp only [Tile.ringAccess, rillCheck_boarded hb hs hq]

theorem Tile.ringAccess_returning (hf : t.basinUsed < Config.basinEntries) (fn : Nat) (k : RillKind) (d : LandDest) :
    t.ringAccess fn a k (some d) =
      .ok ((t.land (passTick (stationOf t.key.id) (bits a 0 11) t.tick (ringLength t.grid) + 2 - t.tick) d).queueRill
        (bits a 0 11) (bits a 11 3) k (some t.seq)) := by
  simp only [Tile.ringAccess, rillCheck_boarded hb hs hq, Tile.reserve_free hf]

end

/-! The syllables, with the guard on and the sources readable (R238, R239). -/

section
variable {s : State} {h : Hdr} {a : Src} {x : Word} (hg : s.tile.guarded h = true) (hx : s.tile.readX a = some x)
include hg hx

theorem execRcap_eq (up : Bool) :
    execRcap h up a s = onTile (fun t => t.ringAccess 0 x .cap (some (.octet t.cfile (octetBase up)))) s := by
  simp only [execRcap, onTile, hg, hx, if_true]

theorem execRput_eq (up : Bool) : execRput h a up s = onTile (fun t => t.ringAccess 1 x (.put (t.octet up)) none) s := by
  simp only [execRput, onTile, hg, hx, if_true]

theorem Tile.ringUpdate_eq {c : Src} {y : Word} (hy : s.tile.readX c = some y) (fn : Nat) (d : Dest) (k : Word → RillKind) :
    s.tile.ringUpdate h fn d a c k = s.tile.ringAccess fn x (k y) ((Dest.num d).map fun n => .rill s.tile.cfile n) := by
  simp only [Tile.ringUpdate, hg, hx, hy, if_true]

end

/-! BOARD and ALIGHT of a syllable that leads its gang (R232, R233). -/

theorem State.boardHeld_eq {s : State} {t : Tile} {l : Launch} (hl : s.launch? t.launchKey = some l) :
    s.boardHeld t = (decide (l.rt < t.tick) || l.stopped) := by
  simp only [State.boardHeld, State.rillStopped, hl, Option.map_some, Option.getD_some]

section
variable {s : State} {h : Hdr} (hg : s.tile.guarded h = true) (hf : s.tile.iss.follow = none)
include hg hf

theorem execBoard_free (hb : s.tile.berth = .free) : execBoard h s = .next (s.takeTrap (rillTrap s.tile.iss.pos 6)) := by
  simp only [execBoard, hg, hf, hb, Option.isNone_none, Bool.and_self, if_true]

theorem execBoard_boarded (hb : s.tile.berth = .boarded) : execBoard h s = .next s := by
  simp only [execBoard, hg, hf, hb, Option.isNone_none, Bool.and_self, if_true]

theorem execBoard_berthed (hb : s.tile.berth = .berthed) :
    execBoard h s = if s.boardHeld s.tile then
        .next { s with tile := { s.tile with iss := { s.tile.iss with held := some (.wait, s.tile.key.id) } } }
      else .next (s.setBerth .boarded) := by
  simp only [execBoard, hg, hf, hb, Option.isNone_none, Bool.and_self, if_true]

theorem State.alight_boarded (hb : s.tile.berth = .boarded) (b : Berth) : s.alight h b = .next (s.setBerth b) := by
  simp only [State.alight, hg, hf, hb, Option.isNone_none, Bool.and_self, if_true]

theorem State.alight_unboarded (hb : s.tile.berth ≠ .boarded) (b : Berth) :
    s.alight h b = .next (s.takeTrap (rillTrap s.tile.iss.pos 7)) := by
  simp only [State.alight, hg, hf, hb, Option.isNone_none, Bool.and_self, if_true, if_false]

end

/-- Settles O38: a ring access is one outcome of the shared access, and BOARD and ALIGHT split on the Rill state of the tile. -/
theorem rillSyllables : Obligations.RillSyllables := by
  unfold Obligations.RillSyllables
  intro s h up r b a c x y hg hx hy t slot pass queue capture
  refine ⟨fun hb hs hq => ?boarded, fun hb => ?unboarded, fun hf => ⟨fun hb => ?aboard, fun l hl hb => ?berthed, fun hb => ?free⟩⟩
  case boarded =>
    have quiet (fn : Nat) (k : RillKind) : t.ringAccess fn x k none = .ok (t.queueRill slot (bits x 11 3) k none) :=
      Tile.ringAccess_quiet hb hs hq fn k
    have update (fn : Nat) (k : Word → RillKind) : onTile (Tile.ringUpdate h fn .suppressed a c k) s = queue (k y) :=
      onTile_ok ((Tile.ringUpdate_eq hg hx hy fn .suppressed k).trans (quiet fn _))
    refine ⟨(execRput_eq hg hx up).trans (onTile_ok (quiet 1 _)), update 2 .add, update 4 .maxu, update 5 .or,
      onTile_ok ((Tile.ringUpdate_eq hg hx rfl 3 .suppressed _).trans (quiet 3 _)), fun hn => ?captures⟩
    have returning (fn : Nat) (k : RillKind) (d : LandDest) := Tile.ringAccess_returning hb hs hq hn fn k d
    have fetch (fn : Nat) (k : Word → RillKind) :
        onTile (Tile.ringUpdate h fn (.reg r) a c k) s = capture (k y) (.rill t.cfile r) :=
      onTile_ok ((Tile.ringUpdate_eq hg hx hy fn (.reg r) k).trans (returning fn _ _))
    exact ⟨(execRcap_eq hg hx up).trans (onTile_ok (returning 0 _ _)), fetch 2 .add, fetch 4 .maxu, fetch 5 .or,
      onTile_ok ((Tile.ringUpdate_eq hg hx rfl 3 (.reg r) _).trans (returning 3 _ _))⟩
  case unboarded =>
    exact ⟨(execRcap_eq hg hx up).trans (onTile_trap (Tile.ringAccess_unboarded hb 0 x _ _)),
      (execRput_eq hg hx up).trans (onTile_trap (Tile.ringAccess_unboarded hb 1 x _ _))⟩
  case aboard => exact ⟨execBoard_boarded hg hf hb, State.alight_boarded hg hf hb .berthed, State.alight_boarded hg hf hb .free⟩
  case berthed =>
    have hboard := execBoard_berthed hg hf hb
    rw [State.boardHeld_eq hl] at hboard
    refine ⟨fun hrt hstop => hboard.trans (if_neg ?_), fun hheld => hboard.trans (if_pos ?_)⟩
    · simpa [hstop] using hrt
    · simpa using hheld
  case free =>
    have hne : t.berth ≠ .boarded := by simp [hb]
    exact ⟨execBoard_free hg hf hb, State.alight_unboarded hg hf hne .berthed⟩

end Sys2Proof.Machine
end

section
/-! PROOFS. The invariant of the module: what keeps the clocks and the form of HBM keeps it, and what resets the module establishes it
again, with HBM empty and the counter at zero. -/

namespace Sys2Proof.Machine

theorem State.Kept.inv {s u : State} (k : s.Kept u) (h : s.Inv) : u.Inv := ⟨k.mem h.1, k.counter ▸ h.2⟩

/-- A module without contents: HBM is empty and the counter stands at zero (R385, R391). -/
theorem State.cleared_inv (s : State) (b : Board) : (s.cleared b).Inv := ⟨Mem.wf_nil, Nat.two_pow_pos 64⟩

theorem State.bringUp_inv (s : State) : s.bringUp.Inv := ⟨Mem.wf_nil, Nat.two_pow_pos 64⟩

/-- Settles O7: the state after reset holds nothing in HBM, and its counter is zero. -/
theorem resetInvariant : Obligations.ResetInvariant := ⟨Mem.wf_nil, Nat.two_pow_pos 64⟩

/-! One step of the table. -/

theorem execResetModule_inv {h : MgmtHdr} {s u : State} (hi : s.Inv) (e : execResetModule h s = .next u) : u.Inv := by
  have answered (n : Nat) : (s.reply h n []).Inv := (State.reply_kept s h n [] (.refl s)).inv hi
  unfold execResetModule State.manage at e
  split at e
  · cases e
  · cases e
  · split at e
    · cases e
      exact answered 4
    · split at e <;> cases e
      · exact State.bringUp_inv _
      · exact answered 3

theorem exec_inv {i : Instr} {s u : State} (hi : s.Inv) (e : exec i s = .next u) : u.Inv := by
  cases h : resetsModule i with
  | false => exact (exec_kept h e).inv hi
  | true =>
    cases i with
    | thermalTrip | powerOff =>
      simp only [exec, execThermalTrip, execPowerOff] at e
      split at e <;> cases e
      exact s.cleared_inv _
    | powerGood =>
      simp only [exec, execPowerGood] at e
      split at e <;> cases e
      exact s.bringUp_inv
    | resetModule m => exact execResetModule_inv hi e
    | _ => cases h

theorem State.attempt_inv {s : State} {f : Move} (hi : s.Inv) (hf : ∀ u, f s = .next u → u.Inv) : (s.attempt f).Inv := by
  unfold State.attempt
  split
  · exact hf _ (by assumption)
  · exact hi

theorem State.attempt_exec_inv {s : State} (i : Instr) (hi : s.Inv) : (s.attempt (exec i)).Inv :=
  State.attempt_inv hi fun _ e => exec_inv hi e

/-! The outside world. -/

theorem State.perform_inv {s : State} (x : Input) (hi : s.Inv) : (s.perform x).Inv := by
  unfold State.perform
  split
  · exact hi
  · split
    · exact (State.unknownOp_kept s _ (.refl s)).inv hi
    · split
      · split
        · exact State.attempt_exec_inv _ hi
        · exact hi
      · exact hi

theorem State.request_inv {s : State} (x : Input) (h : MgmtHdr) (hi : s.Inv) : (s.request x h).Inv := by
  unfold State.request
  split
  · exact hi
  · exact hi
  · split
    · exact hi
    · exact State.perform_inv x hi

theorem State.receiveData_inv {s : State} (x : Input) (hi : s.Inv) : (s.receiveData x).Inv := by
  rcases State.receiveData_clocks s x with k | c
  · exact k.inv hi
  · obtain ⟨i, -, rfl⟩ := c.resets
    unfold State.receiveData
    dsimp only
    split
    · exact State.attempt_exec_inv i hi
    · exact hi

theorem State.receive_inv {s : State} (x : Input) (hi : s.Inv) : (s.receive x).Inv := by
  unfold State.receive
  split
  · exact State.request_inv x _ hi
  · exact State.receiveData_inv x hi

/-! Between two turns. -/

theorem State.events_inv {s v u : State} {m : Move} (hm : m ∈ s.events) (hi : v.Inv) (e : m v = .next u) : u.Inv := by
  rcases List.mem_append.mp hm with hn | hw
  · obtain ⟨x, -, rfl⟩ := List.mem_map.mp hn
    cases e
    exact State.perform_inv x hi
  · split at hw
    · exact (s.workEvents_quiet m hw v u e).inv hi
    · cases hw

/-- A cycle counts modulo 2^64, does work that keeps the invariant, or ends bring-up. -/
theorem State.startCycle_inv {s : State} (hi : s.Inv) : s.startCycle.Inv := by
  have counted : State.Inv { s with cycle := s.cycle + 1, counter := (s.counter + 1) % 2 ^ 64 } := ⟨hi.1, Nat.mod_lt _ (by decide)⟩
  by_cases hr : s.board.power = .ready
  · exact (State.startCycle_ready hr).inv counted
  by_cases hf : s.board.power = .fatal
  · exact State.startCycle_fatal hf ▸ counted
  rcases State.startCycle_down hr hf with e | ⟨-, -, e⟩
  · exact e ▸ hi
  · exact e ▸ State.cleared_inv _ _

theorem State.between_inv {s : State} (hi : s.Inv) : s.between.Inv := by
  have hf : s.tickFresh.Inv := hi
  unfold State.between
  split
  · rename_i m hm
    exact State.attempt_inv hf fun _ e => State.events_inv (List.mem_of_getElem? hm) hf e
  · exact State.startCycle_inv hf

/-- Settles O8, by who makes the step: an input, a domain in its turn, or what happens between two turns. -/
theorem stepKeepsInvariant : Obligations.StepKeepsInvariant := by
  unfold Obligations.StepKeepsInvariant
  intro s u hi e
  unfold step at e
  split at e
  · cases e
    exact State.receive_inv _ hi
  · split at e
    · rename_i d ds _
      cases e
      exact (State.domainTurn_kept { s with turn := ds } d (.refl _)).inv hi
    · cases e
      exact State.between_inv hi

end Sys2Proof.Machine
end

section
/-! PROOFS. Traps entered and unwinds (R272, R304, R305, R310): the fields of TRAPCAUSE, what a switch to another bundle leaves of a tile,
and the one tile that a trap of a tile in no gang concerns. -/

namespace Sys2Proof.Machine

/-! The fields of TRAPCAUSE (R304). -/

theorem bit_word (x : Nat) {i : Nat} (h : i < 64) : bit (word x) i = decide (x / 2 ^ i % 2 = 1) := by
  rw [bit, word, BitVec.getLsbD_ofNat, Nat.testBit_eq_decide_div_mod_eq, decide_eq_true h, Bool.true_and]

theorem Cause.code_lt (c : Cause) : c.code < 256 := by cases c <;> decide

section
variable {cause pos orig level : Nat} (peer inh waitx : Bool) (hc : cause < 256) (hp : pos < 16)
include hc hp

/-- The numbers of TRAPCAUSE, low to high; ORIG and LEVEL fill its upper half. -/
theorem bits_trapCauseWord (ho : orig < 256) (hl : level < 256) :
    bits (trapCauseWord cause pos peer inh waitx orig level) 0 8 = cause ∧
    bits (trapCauseWord cause pos peer inh waitx orig level) 8 4 = pos ∧
    bits (trapCauseWord cause pos peer inh waitx orig level) 16 8 = orig ∧
    bits (trapCauseWord cause pos peer inh waitx orig level) 24 8 = level ∧
    bits (trapCauseWord cause pos peer inh waitx orig level) 16 16 = orig + 256 * level := by
  have h1 := peer.toNat_le
  have h2 := inh.toNat_le
  have h3 := waitx.toNat_le
  unfold trapCauseWord
  refine ⟨?_, ?_, ?_, ?_, ?_⟩ <;> rw [bits_word _ (by decide), fld] <;> omega

theorem bit_trapCauseWord :
    bit (trapCauseWord cause pos peer inh waitx orig level) 12 = peer ∧
    bit (trapCauseWord cause pos peer inh waitx orig level) 13 = inh ∧
    bit (trapCauseWord cause pos peer inh waitx orig level) 14 = waitx := by
  have h1 := peer.toNat_le
  have h2 := inh.toNat_le
  have h3 := waitx.toNat_le
  have one (b : Bool) : b = decide (b.toNat = 1) := by cases b <;> rfl
  unfold trapCauseWord
  refine ⟨?_, ?_, ?_⟩ <;> rw [bit_word _ (by decide)]
  · conv_rhs => rw [one peer]
    exact decide_eq_decide.mpr (by omega)
  · conv_rhs => rw [one inh]
    exact decide_eq_decide.mpr (by omega)
  · conv_rhs => rw [one waitx]
    exact decide_eq_decide.mpr (by omega)

end

/-- The address that a trap reports has 17 bits. -/
theorem word_fld_17 {n : Nat} (h : n < 2 ^ 17) : word (fld n 0 17) = BitVec.ofNat 64 n := by
  rw [fld, pow_zero, Nat.div_one, Nat.mod_eq_of_lt h, word]

/-! The fault of a far store that is raised (R146): the record alone changes. -/

theorem Tile.dropFault_eq (t : Tile) {tr : Trap} {held low : Nat} {cause : Cause} :
    t.dropFault ⟨some tr, held, cause, low⟩ = { t with faults := if tr.recorded = true then t.faults.drop 1 else t.faults } := by
  unfold Tile.dropFault
  dsimp only
  split <;> rfl

/-! The unwind (R272, R310). -/

/-- The innermost region counts from its own CRGO. -/
theorem Tile.regionSince_innermost {t : Tile} {g : Region} {rest : List Region} (h : t.regions = g :: rest) :
    t.regionSince t.regions.length = g.opened := by
  simp [Tile.regionSince, h]

theorem Eff.isResult_withoutResult {e : Eff} (h : e.isResult = false) : e.withoutResult.isResult = false := by
  cases e <;> exact h

/-- Settles O47: the fields of its TRAPCAUSE, and each list of the tile by the filter that cuts it at the region's opening. -/
theorem unwind : Obligations.Unwind := by
  unfold Obligations.Unwind
  intro t tr g rest held low cause hr hn hl hh
  have hlen : t.regions.length = rest.length + 1 := by rw [hr, List.length_cons]
  obtain ⟨hcause, -, horig, hlevel, -⟩ := bits_trapCauseWord (level := t.regions.length) (some tr).isNone (bit t.csrs.trapcause 13)
    (t.endsWait ⟨some tr, held, cause, low⟩) Cause.contained.code_lt hl cause.code_lt (by omega)
  obtain ⟨-, hinh, -⟩ := bit_trapCauseWord (level := t.regions.length) (some tr).isNone (bit t.csrs.trapcause 13)
    (t.endsWait ⟨some tr, held, cause, low⟩) (orig := cause.code) Cause.contained.code_lt hl
  refine ⟨rfl, ?regions, ?depth, hcause, horig, hlevel, hinh, word_fld_17 hh, rfl, rfl, rfl, ?gone, ?stays, ?landings, ?regs, ?spad, ?faults⟩
  all_goals simp only [Tile.unwind, Tile.dropFault_eq, Tile.regionSince_innermost hr, Tile.switchTo, Tile.endWaits, Tile.flushFormats, Tile.dropLandings]
  case regions => rw [hlen, hr]; simp
  case depth => rw [hlen, Nat.add_sub_cancel]
  case gone =>
    intro p hp hopen
    obtain ⟨q, hq, rfl⟩ := List.mem_map.mp hp
    obtain ⟨-, hkept⟩ := List.mem_filter.mp hq
    simp only [Bool.not_eq_true', Bool.or_eq_false_iff, Bool.and_eq_false_iff, decide_eq_false_iff_not] at hkept
    obtain ⟨-, hkept⟩ := hkept
    by_cases ho : g.opened ≤ q.issue
    · rw [if_pos ho]
      exact Eff.isResult_withoutResult (hkept.resolve_left (not_not_intro ho))
    · rw [if_neg ho] at hopen
      exact absurd hopen ho
  case stays =>
    intro p hp hbefore hformat hdepth
    refine List.mem_map.mpr ⟨p, List.mem_filter.mpr ⟨List.mem_filter.mpr ⟨hp, by simp [hformat]⟩, ?_⟩, if_neg (by omega)⟩
    have hnot : ¬ g.opened ≤ p.issue := by omega
    simp only [hnot, decide_false, Bool.false_and, Bool.or_false, Bool.not_eq_true']
  case landings =>
    intro l
    simp

end Sys2Proof.Machine
end

section
/-! PROOFS. Traps of one tile (R304, R305, R310, R311): what an entry leaves of the tile, and of a trap of a tile in no gang whose report
decides and which tile it concerns. -/

namespace Sys2Proof.Machine

/-! The entry (R305). -/

/-- What a trap entry writes; the rest of the tile stays. -/
theorem Tile.enter_eq (t : Tile) (handler : Nat) (tr : Trap) (held low : Nat) (cause : Cause) :
    t.enter handler ⟨some tr, held, cause, low⟩ = { t with
      gov := (sortBy (fun p => p.due) (t.inflight.filter Pending.isFormat)).foldl Gov.apply t.gov,
      inflight := t.inflight.filter fun p => !p.isFormat, waits := [], far := t.endWaits.far, latches := Latches.invalid,
      pc := handler, freeze := none, iss := { t.iss with held := none },
      faults := if tr.recorded = true then t.faults.drop 1 else t.faults, spad := { t.spad with touched := none },
      csrs := { t.csrs with
        trapcause := trapCauseWord cause.code low false true (t.endsWait ⟨some tr, held, cause, low⟩) 0 0,
        trappc := word (fld held 0 17), trapinfo := tr.info } } := by
  simp only [Tile.enter, Tile.dropFault_eq, Tile.switchTo, Tile.endWaits, Tile.flushFormats]
  rfl

theorem Tile.endsWait_idle {t : Tile} (h : t.waits = []) (r : Report) : t.endsWait r = false := by simp [Tile.endsWait, h]

/-- A wait that is no fault of its own reads ends (R297, R305). -/
theorem Tile.endsWait_waiting {t : Tile} (h : t.waits ≠ []) (hf : ∀ w ∈ t.waits, w.fault = none) (r : Report) : t.endsWait r = true := by
  simp only [Tile.endsWait, Bool.and_eq_true, Bool.not_eq_true', List.isEmpty_eq_false_iff, List.any_eq_false]
  exact ⟨h, fun w hw => by simp [hf w hw]⟩

/-- Two format writes take effect in the order of their ticks (R43). -/
theorem sortBy_pair_rising {α : Type} (key : α → Nat) {a b : α} (h : key a < key b) : sortBy key [a, b] = [a, b] := by
  rw [sortBy_pair, if_neg (Nat.lt_asymm h)]

/-! A tile in no gang. -/

theorem find?_head {α : Type} {p : α → Bool} {a : α} (l : List α) (h : p a = true) : (a :: l).find? p = some a := by simp [h]

/-- Where no other tile has its key, a change by key concerns the tile in focus alone. -/
theorem State.mapTiles_focus {s : State} (hd : ∀ u ∈ s.others, u.key ≠ s.tile.key) {f : Tile → Tile}
    (hf : ∀ u, u.key ≠ s.tile.key → f u = u) : s.mapTiles f = { s with tile := f s.tile } := by
  unfold State.mapTiles
  congr
  exact (List.map_congr_left fun u hu => hf u (hd u hu)).trans (List.map_id' _)

theorem State.onKey_focus {s : State} (hd : ∀ u ∈ s.others, u.key ≠ s.tile.key) (f : Tile → Tile) :
    s.onKey s.tile.key f = { s with tile := f s.tile } := by
  rw [State.onKey, State.mapTiles_focus hd fun u hu => by simp [hu]]
  simp

theorem State.gangOf_alone {s : State} (h1 : s.tile.gang.size = 1) (hd : ∀ u ∈ s.others, u.key ≠ s.tile.key) :
    s.gangOf s.tile = [s.tile] := by
  have hs : s.others.filter (sameGang s.tile) = [] :=
    List.filter_eq_nil_iff.mpr fun u hu => by simp [sameGang, hd u hu, h1]
  have hf : s.tiles.filter (sameGang s.tile) = [s.tile] := by
    rw [State.tiles, List.filter_cons_of_pos (by simp [sameGang]), hs]
  rw [State.gangOf, hf]
  rfl

theorem deciding_one (r : Nat × Trap × Option Nat) : deciding [r] = some r := by
  by_cases h : r.2.1.cause = .eccue <;> simp [deciding, sortBy, insertBy, h]

theorem leadOf_alone {t : Tile} (hf : t.gang.first = t.key.id) : leadOf [t] = some t := by simp [leadOf, Tile.pos, hf]

theorem catching_alone {t : Tile} (hf : t.gang.first = t.key.id) :
    catching [t] t = t.regions.head?.map fun g => (t.regions.length, g.handler) := by
  simp [catching, leadOf_alone hf]

theorem heldAddr_alone {t : Tile} (h1 : t.gang.size = 1) : heldAddr t t = t.pc := by simp [heldAddr, h1]

theorem Tile.saveStream_alone {t : Tile} (h1 : t.gang.size = 1) (a b c d e f : Nat) : t.saveStream a b c d e f = t := by
  simp [Tile.saveStream, h1]

theorem Tile.unwind_gang (t : Tile) (l h : Nat) (tr : Trap) (n m : Nat) (c : Cause) : (t.unwind l h ⟨some tr, n, c, m⟩).gang = t.gang := by
  simp only [Tile.unwind, Tile.dropFault_eq, Tile.dropLandings, Tile.switchTo, Tile.endWaits, Tile.flushFormats]

theorem Tile.enter_gang (t : Tile) (h : Nat) (tr : Trap) (n m : Nat) (c : Cause) : (t.enter h ⟨some tr, n, c, m⟩).gang = t.gang := by
  rw [Tile.enter_eq]

/-- The report of the trap of a syllable (R271, R305). -/
def Tile.reports (t : Tile) (tr : Trap) : Report := ⟨some tr, t.pc, tr.cause, 0⟩

/-- A trap that concerns the tile in focus alone: its issue record keeps the trap. -/
theorem State.takeTrap_goes {s : State} (hd : ∀ u ∈ s.others, u.key ≠ s.tile.key) {tr : Trap} {u : Tile} (hu : u.key = s.tile.key)
    (h : s.enterTraps s.tile.key [(s.tile.key.id, tr, none)] = { s with tile := u }) :
    s.takeTrap tr = { s with tile := { u with iss := { u.iss with trap := some tr } } } := by
  have hd' : ∀ v ∈ ({ s with tile := u } : State).others, v.key ≠ ({ s with tile := u } : State).tile.key := hu ▸ hd
  rw [State.takeTrap, h, ← hu]
  exact State.onKey_focus hd' _

section
variable {s : State} (h1 : s.tile.gang.size = 1) (hf : s.tile.gang.first = s.tile.key.id) (hd : ∀ u ∈ s.others, u.key ≠ s.tile.key)
include h1 hf hd

theorem State.enterTraps_alone (tr : Trap) :
    s.enterTraps s.tile.key [(s.tile.key.id, tr, none)] =
      match (if tr.cause = .eccue then s.tile.regions.head?.map fun g => (s.tile.regions.length, g.handler) else none) with
      | some x => { s with tile := s.tile.unwind x.1 x.2 (s.tile.reports tr) }
      | none =>
        if tr.cause == .eccue || bit s.tile.csrs.trapcause 13 || bits s.tile.csrs.tvec 0 17 == 0 ||
            !s.tile.isStart (bits s.tile.csrs.tvec 0 17) then
          s.contextFault s.tile.key tr.cause.code (word (fld s.tile.pc 0 17)) tr.info
        else { s with tile := s.tile.enter (bits s.tile.csrs.tvec 0 17) (s.tile.reports tr) } := by
  unfold State.enterTraps
  rw [State.tile?_focus rfl, deciding_one]
  simp only [State.gangOf_alone h1 hd, leadOf_alone hf, catching_alone hf, Option.getD_some, List.find?_cons, BEq.rfl, h1, Nat.le_refl,
    if_true, Option.bind_some, Option.getD_none, heldAddr_alone h1, Option.isNone_some, Bool.or_false,
    List.any_cons, List.any_nil]
  split
  · rw [State.mapTiles_focus hd fun u hu => by simp [hu.symm]]
    rename_i e
    simp [e, Tile.saveStream_alone, Tile.unwind_gang, h1, Tile.reports, heldAddr_alone]
  · rw [State.mapTiles_focus hd fun u hu => by simp [hu.symm]]
    rename_i e
    simp [e, Tile.saveStream_alone, Tile.enter_gang, h1, Tile.reports, heldAddr_alone]

end

/-- Settles O46: the entry is its own record update; of a trap, the branch that the cause, INH, the handler and the regions take. -/
theorem trapsEntered : Obligations.TrapsEntered := by
  unfold Obligations.TrapsEntered
  refine ⟨fun t handler tr held low cause hh hl => ?_, fun s tr h1 hf hd => ?_⟩
  · obtain ⟨hcause, hlow, -, -, hupper⟩ := bits_trapCauseWord (orig := 0) (level := 0) false true
      (t.endsWait ⟨some tr, held, cause, low⟩) cause.code_lt hl (by decide) (by decide)
    obtain ⟨hpeer, hinh, hwaitx⟩ := bit_trapCauseWord (orig := 0) (level := 0) false true
      (t.endsWait ⟨some tr, held, cause, low⟩) cause.code_lt hl
    rw [Tile.enter_eq]
    refine ⟨rfl, hcause, hlow, hpeer, hinh, fun h => hwaitx.trans (Tile.endsWait_idle h _),
      fun h hw => hwaitx.trans (Tile.endsWait_waiting h hw _), hupper, word_fld_17 hh, rfl, rfl, rfl, rfl, rfl,
      fun h => ?none, fun p c mx v h he => ?one, fun p v h he => ?mfr, fun p q m n v w h hdue hp hq => ?two, rfl,
      rfl, rfl, rfl, rfl, rfl, rfl, rfl, rfl, rfl, rfl, rfl, rfl, rfl, rfl, rfl, rfl, rfl, rfl, fun h => ?faults⟩
    case none => exact congrArg (fun l => (sortBy _ l).foldl Gov.apply t.gov) h
    case one => simp [h, sortBy, insertBy, Gov.apply, he]
    case mfr => simp [h, sortBy, insertBy, Gov.apply, he]
    case two => simp [h, sortBy_pair_rising _ hdue, Gov.apply, hp, hq, Gov.write]
    case faults => simp [h]
  · have henter := State.enterTraps_alone h1 hf hd tr
    have faults (h : s.enterTraps s.tile.key [(s.tile.key.id, tr, none)] =
        s.contextFault s.tile.key tr.cause.code (word (fld s.tile.pc 0 17)) tr.info) :
        s.takeTrap tr = (s.contextFault s.tile.key tr.cause.code (BitVec.ofNat 64 (fld s.tile.pc 0 17)) tr.info).onKey s.tile.key
          fun u => { u with iss := { u.iss with trap := some tr } } := congrArg (fun x : State => x.onKey _ _) h
    refine ⟨fun hne => ⟨fun hinh hh hs => ?enters, fun hno => ?none⟩, fun he => ⟨fun g rest hr => ?region, fun hr => ?bare⟩⟩
    case enters => exact State.takeTrap_goes hd (Tile.enter_key _ _ _) (henter.trans (by simp [hne, hinh, hh, hs, Tile.reports]))
    case none =>
      refine faults (henter.trans ?_)
      rcases hno with h | h | h <;> simp [hne, h]
    case region => exact State.takeTrap_goes hd (Tile.unwind_key _ _ _ _) (henter.trans (by simp [he, hr, Tile.reports]))
    case bare => exact faults (henter.trans (by simp [he, hr]))

end Sys2Proof.Machine
end

section
/-! PROOFS. TRAP, TRET, TFENCE, EXIT and WAITT at their issue (R293, R302, R306 to R308), of a tile in no gang that nothing holds. -/

namespace Sys2Proof.Machine

/-- With no store open, no guard record and no fault recorded, nothing holds a bundle (R293). -/
theorem Tile.settle_none {t : Tile} (ho : t.storesOpen = false) (hr : t.iss.record = none) (hf : t.faults = []) : t.settle = none := by
  simp [Tile.settle, ho, hr, hf]

theorem Tile.fallThrough_alone {t : Tile} (h : t.iss.follow = none) : t.fallThrough = t.advance := by simp [Tile.fallThrough, h]

/-! The return (R306). -/

section
variable {t : Tile} (hs : t.isStart (bits t.csrs.trappc 0 17) = true)
include hs

/-- A return to a bundle start clears INH and goes there; what it takes up of a stream changes no register and no result. -/
theorem Tile.ret_start : t.ret = { t.clearInh.restream (bits t.csrs.trappc 0 17) with pc := bits t.csrs.trappc 0 17 } := by
  simp [Tile.ret, hs]

theorem Tile.ret_steered : ({ t.clearInh with gang := t.ret.gang } : Tile).Steered (fun _ => False) t.ret := by
  rw [Tile.ret_start hs]
  exact (t.clearInh.restream_steered _).trans (Tile.steered_of_quiet rfl)

theorem Tile.ret_sameRegs : t.SameRegs t.ret := by
  obtain ⟨hS, hV, hX, hM, hP, hL⟩ := (Tile.ret_steered hs).sameRegs
  exact ⟨hS, hV, hX, hM, hP, hL⟩

theorem Tile.ret_csrs : t.ret.csrs = t.clearInh.csrs := (Tile.ret_steered hs).csrs

end

theorem bit_clearInh_same (v : Word) : bit (v &&& ~~~(0x2000 : Word)) 13 = false := by
  rw [bit, BitVec.getLsbD_and, show (~~~(0x2000 : Word)).getLsbD 13 = false by decide, Bool.and_false]

/-! The syllables, with the guard on. -/

section
variable {s : State} {h : Hdr} (hg : s.tile.guarded h = true) (hf : s.tile.iss.follow = none)
include hg

theorem execTret_alone (hf : s.tile.iss.follow = none) : execTret h s = s.nextTile s.tile.ret :=
  onTile_ok (by simp [Tile.controls, hg, hf])

theorem execExit_settled (hn : s.tile.settle = none) : execExit h s = s.nextTile s.tile.retire := onTile_ok (by simp [hg, hn])

include hf

theorem execTrap_alone {a : Src} {x : Word} (hx : s.tile.readS a = some x) (h1 : s.tile.gang.size = 1) (h0 : s.tile.pos = 0) :
    let u := (s.tile.put 1 .s (.fault (infoTrap .user s.tile.iss.pos x))).advance
    execTrap h a s = s.nextTile { u with iss := { u.iss with taken := true } } := by
  refine onTile_ok ?_
  have hput (n : Nat) (e : Eff) : (s.tile.put n .s e).fallThrough = (s.tile.put n .s e).advance := Tile.fallThrough_alone hf
  simp only [Tile.controls, hf, Option.getD_none, hg, if_true, hx, h1, h0, Nat.sub_zero, hput, Nat.lt_irrefl, false_and, if_false]
  rfl

theorem execTfence_clear (hn : s.tile.settle = none) (hm : enabledFlags s.tile.gov.fpcr s.tile.csrs.fpsr = 0) :
    execTfence h s = s.nextTile s.tile.advance :=
  onTile_ok (by simp [hg, hn, hm, Tile.fallThrough_alone hf])

omit hf in
theorem execTfence_flagged (hn : s.tile.settle = none) (hm : enabledFlags s.tile.gov.fpcr s.tile.csrs.fpsr ≠ 0) :
    execTfence h s = .next (s.takeTrap (infoTrap .arith s.tile.iss.pos (enabledFlags s.tile.gov.fpcr s.tile.csrs.fpsr))) :=
  onTile_trap (by simp only [hg, hn, if_true, if_neg hm])

theorem execWaitt_ahead {a : Src} {x : Word} (hx : s.tile.readS a = some x) (hl : s.tile.ltime < x.toNat) :
    execWaitt h a s = s.nextTile (s.tile.addWait (s.tile.tickAt x.toNat) .tick).advance := by
  have hw : (s.tile.addWait (s.tile.tickAt x.toNat) .tick).fallThrough = (s.tile.addWait (s.tile.tickAt x.toNat) .tick).advance :=
    Tile.fallThrough_alone hf
  exact onTile_ok (by simp [hg, hx, Nat.not_le.mpr hl, hw])

omit hf in
theorem execWaitt_past {a : Src} {x : Word} (hx : s.tile.readS a = some x) (hl : x.toNat ≤ s.tile.ltime) :
    execWaitt h a s = .next (s.takeTrap (infoTrap .timepast s.tile.iss.pos x)) :=
  onTile_trap (by simp [hg, hx, hl])

end

/-- Settles O23: each syllable by the branch that its operand, its flags or its target takes. -/
theorem trapsAndWaits : Obligations.TrapsAndWaits := by
  unfold Obligations.TrapsAndWaits
  intro s h a x hg hf h1 hx t
  refine ⟨execTrap_alone hg hf hx h1, fun hs => ?tret, fun ho hr hq => ?settled, execWaitt_ahead hg hf hx, execWaitt_past hg hx⟩
  case tret =>
    have hcsrs := congrArg Csrs.trapcause (Tile.ret_csrs hs)
    refine ⟨t.ret, execTret_alone hg hf, by rw [Tile.ret_start hs], ?_, fun i hi hne => ?_, Tile.ret_sameRegs hs,
      (Tile.ret_steered hs).inflight_eq⟩
    · rw [hcsrs]
      exact bit_clearInh_same _
    · rw [hcsrs]
      exact bit_clearInh _ hi hne
  case settled =>
    have hn := Tile.settle_none ho hr hq
    exact ⟨execTfence_clear hg hf hn, execTfence_flagged hg hn, execExit_settled hg hn, rfl, by simp [Tile.retire, Tile.dropLandings],
      rfl, rfl, rfl, rfl⟩

end Sys2Proof.Machine
end

section
/-! PROOFS. PUSH and POP at their issue (R256 to R258): the branch that the check of the command, the queue and the record take. -/

namespace Sys2Proof.Machine

section
variable {s : State} {h : Hdr} (hg : s.tile.guarded h = true)
include hg

/-! PUSH (R257): behind its check the queue has a place or is full. -/

theorem execPush_room {q p : Nat} {up : Bool} (hc : pushCheck s.tile (s.tile.octet up) = none) (hq : (s.tile.queue q).occ < 64) :
    execPush h q up p s = s.nextTile ((s.tile.enqueue q (s.tile.octet up)).put 1 (fileSlot s.tile.cfile) (.pred p 0)) :=
  onTile_ok (by simp [hg, hc, Nat.not_le.mpr hq])

theorem execPush_full {q p : Nat} {up : Bool} (hc : pushCheck s.tile (s.tile.octet up) = none) (hq : 64 ≤ (s.tile.queue q).occ) :
    execPush h q up p s = s.nextTile (s.tile.put 1 (fileSlot s.tile.cfile) (.pred p (-1))) :=
  onTile_ok (by simp [hg, hc, hq])

/-! POP (R258): no command, or the record of the next one; a stalling POP claims it unseen. -/

theorem execPop_none {q d p : Nat} (hn : (s.tile.queue q).next = none) :
    execPop h q d p s = s.nextTile (s.tile.put 1 (fileSlot s.tile.cfile) (.pred p (-1))) :=
  onTile_ok (by simp only [hg, if_true, hn])

theorem execPop_record {q d p : Nat} {k : CopyCmd} {r : Word} (hn : (s.tile.queue q).next = some k)
    (hv : bit s.tile.csrs.detmode 0 = false ∨ k.due.isSome) (hr : k.record = some r) (hc : recordCause r = none) :
    execPop h q d p s = s.nextTile (((s.tile.setQueue q ((s.tile.queue q).claim.remove k.num)).put 1 (fileSlot s.tile.cfile)
      (.xplain s.tile.cfile d r)).put 1 (fileSlot s.tile.cfile) (.pred p 0)) := by
  have hdetv : (bit s.tile.csrs.detmode 0 && k.due.isNone) = false := by
    rcases hv with hv | hv
    · rw [hv, Bool.false_and]
    · rw [Option.isNone_eq_false_iff.mpr hv, Bool.and_false]
  exact onTile_ok (by simp only [hg, if_true, hn, hdetv, Bool.false_eq_true, if_false, hr, hc])

theorem execPopStall_claims {q d n : Nat} (ho : 0 < (s.tile.queue q).occ) (hb : s.tile.basinUsed < Config.basinEntries) :
    execPopStall h q d n s = s.nextTile
      ((s.tile.land n (.pop s.tile.cfile d q (s.tile.queue q).claimed)).setQueue q (s.tile.queue q).claim) :=
  onTile_ok (by simp only [hg, if_true, ho.ne', if_false, Tile.reserve_free hb])

theorem execPopStall_empty {q d n : Nat} (ho : (s.tile.queue q).occ = 0) :
    execPopStall h q d n s = .next (s.takeTrap (checkTrap .perm 7 s.tile.iss.pos 5)) :=
  onTile_trap (by simp only [hg, if_true, ho])

end

/-- Settles O39: each clause is one branch of PUSH, POP or the stalling POP. -/
theorem copyQueues : Obligations.CopyQueues := by
  unfold Obligations.CopyQueues
  intro s h q d p n up hg t slot ws c
  exact ⟨fun hc => ⟨execPush_room hg hc, execPush_full hg hc⟩, execPop_none hg, fun k r hn hv hr hc => execPop_record hg hn hv hr hc,
    execPopStall_claims hg, execPopStall_empty hg⟩

end Sys2Proof.Machine
end

section
/-! PROOFS. The SYNC group at its issue (R283, R284, R292, R293, R297 to R301, R309), where nothing holds the bundle: the wait, the request
or the region that each syllable adds. -/

namespace Sys2Proof.Machine

/-- A count of 32 bits that is not zero, at an aligned address of the own scratchpad, passes the checks of BAR (R296). -/
theorem barCheck_local {t : Tile} {a n : Word} (h0 : 0 < n.toNat) (hn : n.toNat < 2 ^ 32) (h8 : a.toNat % 8 = 0)
    (ha : a.toNat < 0x200000) : barCheck t a n = none := by
  have hne : n ≠ 0 := by rintro rfl; cases h0
  have hhigh : bits n 32 32 = 0 := by rw [bits, fld, Nat.div_eq_of_lt hn, Nat.zero_mod]
  simp only [barCheck, hne, hhigh, h8, atomTarget, if_pos ha, ne_eq, not_true_eq_false, or_self, if_false]

section
variable {s : State} {h : Hdr} (hg : s.tile.guarded h = true)
include hg

/-! ACQ and REL (R283, R284, R297): a word at its home, or a Rill word of a boarded tile. -/

section
variable {k b : Nat} {o : Binding} (ho : (s.bindingsOf s.tile)[b]? = some o)
include ho

theorem execAcq_word {a : Src} {x : Word} (hx : s.tile.readX a = some x) (hk : o.okind ≠ 2) :
    execAcq h k a b s = s.nextTile ((s.tile.addWait (s.tile.tick + 8 * (k + 1)) (.acq b x.toNat false)).sendFar o.obj .acq none
      (some s.tile.seq)) :=
  onTile_ok (by simp [hg, Tile.acquire, hx, ho, hk, dueOf])

theorem execAcq_rill {a : Src} {x : Word} (hx : s.tile.readX a = some x) (hk : o.okind = 2) (hb : s.tile.berth = .boarded) :
    execAcq h k a b s = s.nextTile (s.tile.addWait (s.tile.tick + 8 * (k + 1)) (.acqRill b x.toNat none 0)) :=
  onTile_ok (by simp [hg, Tile.acquire, hx, ho, hk, hb, dueOf])

theorem execRel_word (hn : s.tile.settle = none) (hk : o.okind ≠ 2) :
    execRel h b s = s.nextTile (s.tile.sendFar o.obj (.rel b s.tile.gangNow) none none) :=
  onTile_ok (by simp [hg, hn, Tile.release, ho, hk])

end

/-! BAR, FENCE, TRIG and STEP (R298 to R301). -/

theorem execBar_local {k : Nat} {a c : Src} {x y : Word} (hn : s.tile.settle = none) (hx : s.tile.readX a = some x)
    (hy : s.tile.readX c = some y) (hc : barCheck s.tile x y = none) (ha : x.toNat < 0x200000) :
    execBar h k a c s = s.nextTile ((s.tile.addWait (s.tile.tick + 8 * (k + 1)) (.bar true x.toNat 0 false false)).put 6
      (fileSlot s.tile.cfile) (.arrive x.toNat y.toNat s.tile.seq)) :=
  onTile_ok (by simp [hg, hn, hx, hy, hc, ha, dueOf])

theorem execFence_waits {k : Nat} {sc : Scope} (hn : s.tile.settle = none) :
    execFence h k sc s = s.nextTile (s.tile.addWait (s.tile.tick + 8 * (k + 1)) (.fence sc s.tile.gangNow s.tile.seq)) :=
  onTile_ok (by simp [hg, hn, dueOf])

theorem execTrig_triggers (hn : s.tile.settle = none) :
    execTrig h s = s.nextTile { s.tile with triggered := some (s.tile.triggered.getD s.tile.tick) } :=
  onTile_ok (by simp [hg, hn])

theorem execStep_counts {k : Nat} : execStep h k s = s.nextTile ((s.tile.put 1 (fileSlot s.tile.cfile) .stepInc).addWait
    (s.tile.tick + 8 * (k + 1)) (.step ((s.tile.csrs.stepcnt.toNat + s.tile.stepsInFlight + 1) % 2 ^ 64))) :=
  onTile_ok (by simp [hg, dueOf])

/-! The containment regions (R309). -/

theorem execCrgo_opens {a : Src} {x : Word} (hx : s.tile.readX a = some x) (ha : x.toNat < 0x20000)
    (hs : s.startsBundle s.tile x.toNat = true) (hr : s.tile.regions.length < 4) :
    execCrgo h a s = s.nextTile (({ s.tile with regions := ⟨x.toNat, s.tile.tick, s.tile.seq⟩ :: s.tile.regions } : Tile).put 1
      (fileSlot s.tile.cfile) (.depth true)) :=
  onTile_ok (by simp [hg, hx, hs, Nat.not_le.mpr ha, Nat.not_le.mpr hr])

theorem execCrgc_closes {g : Region} {rest : List Region} (hr : s.tile.regions = g :: rest) :
    execCrgc h s = s.nextTile (({ s.tile with regions := rest } : Tile).put 1 (fileSlot s.tile.cfile) (.depth false)) :=
  onTile_ok (by simp [hg, hr])

theorem execCrgc_none (hr : s.tile.regions = []) : execCrgc h s = .next (s.takeTrap (syncTrap .perm s.tile.iss.pos 2)) :=
  onTile_trap (by simp [hg, hr])

end

/-- Settles O40: each clause is one syllable past its checks. -/
theorem syncSyllables : Obligations.SyncSyllables := by
  unfold Obligations.SyncSyllables
  intro s h k b sc a c x y hg hx hy t slot due
  refine ⟨fun o ho hk => execAcq_word hg ho hx hk, fun o ho hk hb => execAcq_rill hg ho hx hk hb, fun ho hr hf => ?_,
    execStep_counts hg, execCrgo_opens hg hx, fun g rest hr => execCrgc_closes hg hr, execCrgc_none hg⟩
  have hn := Tile.settle_none ho hr hf
  exact ⟨fun o ho hk => execRel_word hg ho hn hk,
    fun h0 h32 h8 ha => execBar_local hg hn hx hy (barCheck_local h0 h32 h8 ha) ha, execFence_waits hg hn, execTrig_triggers hg hn⟩

end Sys2Proof.Machine
end

section
/-! PROOFS. The copy engine's events (R252, R254, R260): the one command that may go on, a unit of a fill, a unit whose address meets a
fault, and the timed records of a tick. -/

namespace Sys2Proof.Machine

/-! A translation (R331 to R335) touches the contexts, HBM, the hub's cache, the draws and the requests to other modules alone. -/

/-- What a translation leaves of a state. -/
def State.Translates (s u : State) : Prop :=
  u = { s with contexts := u.contexts, hbm := u.hbm, hbmPoison := u.hbmPoison, hubTlb := u.hubTlb, draws := u.draws, remoteOut := u.remoteOut }

theorem State.Translates.refl (s : State) : s.Translates s := rfl

theorem State.Translates.trans {s t u : State} (h : s.Translates t) (k : t.Translates u) : s.Translates u := by
  unfold State.Translates at *
  rw [k, h]

theorem State.Translates.tile? {s u : State} (h : s.Translates u) (k : TileKey) : u.tile? k = s.tile? k := by
  rw [h]
  rfl

theorem State.Translates.queue? {s u : State} (h : s.Translates u) (n : Nat) : u.queue? n = s.queue? n := by
  rw [h]
  rfl

theorem State.setCtx_translates (s : State) (c : Context) : s.Translates (s.setCtx c) := rfl

theorem State.hbmWrite_translates (s : State) (a : Nat) (bs : List Byte) : s.Translates (s.hbmWrite a bs) := rfl

theorem State.walked_translates (s : State) (c : Context) (va : Nat) : s.Translates (s.walked c va) := rfl

theorem State.keep_translates (s : State) (c : Context) (a : Agent) (e : TlbEntry) : s.Translates (s.keep c a e) := by
  unfold State.keep
  dsimp only
  split
  · rfl
  · split <;> rfl

theorem State.writeRequests_translates (p : Nat) (l : List PageReq) (s : State) : s.Translates (s.writeRequests p l) := by
  induction l generalizing s with
  | nil => rfl
  | cons r more ih =>
    unfold State.writeRequests
    split
    · rfl
    · split
      · exact ih s
      · split
        · rfl
        · exact ((s.setCtx_translates _).trans (State.hbmWrite_translates _ _ _)).trans (ih _)

theorem State.requestPage_translates (s : State) (p : Nat) (a : Agent) (g : Nat) (k : AccKind) : s.Translates (s.requestPage p a g k) := by
  unfold State.requestPage
  split
  · rfl
  · split
    · rfl
    · unfold State.postRequests
      split
      · exact (s.setCtx_translates _).trans (State.writeRequests_translates _ _ _)
      · exact s.setCtx_translates _

theorem State.reach_translates (s : State) (p : Nat) (a : Agent) (va : Nat) (k : AccKind) : s.Translates (s.reach p a va k).1 := by
  unfold State.reach
  split
  · rfl
  · split
    · exact s.keep_translates _ _ _
    · split
      · rfl
      · dsimp only
        split
        · exact (s.walked_translates _ _).trans (State.keep_translates _ _ _ _)
        · exact (s.walked_translates _ _).trans (State.requestPage_translates _ _ _ _ _)
        · exact s.walked_translates _ _

/-! The one command of a queue. -/

section
variable {s : State} {t : Tile} {q : Nat} {c : CopyCmd} (hc : (t.queue q).cmds = [c])
include hc

/-- An ended command of its own completes; one at work does not. -/
theorem Tile.mayComplete_ended {n : Nat} (hs : c.stage = .ended n) (hd : c.due = none) (hr : c.record = none) :
    t.mayComplete (t.queue q) c = true := by
  simp [Tile.mayComplete, CopyQueue.ready, CopyCmd.status, hc, hs, hd, hr]

omit hc in
theorem Tile.mayComplete_running (hs : c.stage = .running) : t.mayComplete (t.queue q) c = false := by
  simp [Tile.mayComplete, CopyQueue.ready, CopyCmd.status, hs]

theorem State.copyEvent_one (hgo : s.mayRun t (t.queue q) c = true ∨ t.mayComplete (t.queue q) c = true) :
    s.copyEvent t q =
      if t.mayComplete (t.queue q) c then some (s.tickFresh.completeCopy t q c, false) else some (s.tickFresh.copyWork t q c) := by
  have hf : (t.queue q).cmds.filter (fun c => s.mayRun t (t.queue q) c || t.mayComplete (t.queue q) c) = [c] := by
    rw [hc, List.filter_cons_of_pos (by simpa using hgo), List.filter_nil]
  unfold State.copyEvent
  dsimp only
  rw [hf, List.length_singleton, State.pick_one, List.getElem?_cons_zero]

theorem State.copyEvent_completes {n : Nat} (hs : c.stage = .ended n) (hd : c.due = none) (hr : c.record = none) :
    s.copyEvent t q = some (s.tickFresh.completeCopy t q c, false) := by
  have hm := Tile.mayComplete_ended hc hs hd hr
  rw [State.copyEvent_one hc (.inr hm), if_pos hm]

omit hc in
theorem State.stage_of_mayRun (h : s.mayRun t (t.queue q) c = true) : c.stage = .running := by
  simp only [State.mayRun, Bool.and_eq_true, beq_iff_eq] at h
  tauto

theorem State.copyEvent_works (h : s.mayRun t (t.queue q) c = true) : s.copyEvent t q = some (s.tickFresh.copyWork t q c) := by
  rw [State.copyEvent_one hc (.inl h), Tile.mayComplete_running (State.stage_of_mayRun h)]
  rfl

end

/-- A unit of an element of 8 bytes is the element. -/
theorem CopyCmd.units_word {c : CopyCmd} (hs : cmdSize c.words = 8) (hl : c.left = []) : c.units 8 = [0] := by
  simp [CopyCmd.units, hl, hs]

/-! A unit of a fill into the own scratchpad (R252). -/

/-- An element in the own scratchpad is noted as a touch of its tile, which changes the guard record alone. -/
theorem State.touchCopy_spad {s : State} {k : TileKey} {t : Tile} (hk : s.tile? k = some t) (c : CopyCmd) (off : Nat) :
    (s.touchCopy t c (.spad off)).tile? k =
      some { t with spad := t.spad.note t.key.id (copyAgent t.key t.key) off (cmdSize c.words) } := by
  have hkey := State.tile?_key hk
  subst hkey
  exact State.tile?_onKey_same (fun u => { u with spad := u.spad.note t.key.id (copyAgent t.key t.key) off (cmdSize c.words) })
    (fun _ => rfl) hk

/-- The command after a unit that is a whole element and not the last (R252). -/
theorem CopyCmd.afterWrite_whole {c : CopyCmd} (hl : c.prog + 1 < cmdElems c.words) (hs : c.stage = .running) (hn : c.left = [])
    (bs : List Byte) :
    c.afterWrite [0] 0 bs = { c with prog := c.prog + 1, paused := none, since := none, data := none } := by
  simp [CopyCmd.afterWrite, Nat.not_le.mpr hl, ← hs, ← hn]

@[simp] theorem Tile.queue_withSpad (t : Tile) (sp : Spad) (q : Nat) : ({ t with spad := sp } : Tile).queue q = t.queue q := rfl

theorem Tile.queue_setQueue {t : Tile} {q : Nat} (h : q < t.queues.length) (c : CopyQueue) : (t.setQueue q c).queue q = c := by
  simp [Tile.queue, Tile.setQueue, listGet, h]

@[simp] theorem fillBytes_length {ws : List Word} (h : cmdSize ws = 8) : (fillBytes ws).length = 8 := by
  simp [fillBytes, h, bytesOfNat_length]

section
variable {s : State} {k : TileKey} {t : Tile} {q : Nat} {c : CopyCmd} (hk : s.tile? k = some t)
include hk

/-- Replacing a command of a tile leaves the tile but for its queue. -/
theorem State.tile?_setCopy (d : CopyCmd) : (s.setCopy k q d).tile? k = some (t.setQueue q ((t.queue q).setCmd d)) :=
  State.tile?_onKey_same (fun u => u.setQueue q ((u.queue q).setCmd d)) (fun _ => rfl) hk

/-- The unit of a fill that is a whole element of the own scratchpad: written there, behind the note of a touch. -/
theorem State.copyWrite_fill {off : Nat} (hd : (cmdDst t.grid c.words c.prog).2 = .spad off) (hn : c.left = [])
    (hl : c.prog + 1 < cmdElems c.words) (hr : c.stage = .running) (hs : cmdSize c.words = 8) :
    ∃ u, s.copyWrite t q c (fillBytes c.words) = (u, false) ∧
      u.tile? k = some (({ t with spad := (t.spad.note t.key.id (copyAgent t.key t.key) off 8).write off (fillBytes c.words) } : Tile).setQueue q
        ((t.queue q).setCmd { c with prog := c.prog + 1, paused := none, since := none, data := none })) := by
  have hkey := State.tile?_key hk
  subst hkey
  have hnote := State.touchCopy_spad (s := s.tickFresh) hk c off
  rw [hs] at hnote
  have hwrite := State.tile?_onKey_same (fun u => { u with spad := u.spad.write off (fillBytes c.words) }) (fun _ => rfl) hnote
  have hlen := fillBytes_length hs
  refine ⟨_, ?_, State.tile?_setCopy hwrite _⟩
  have hleft : c.left.isEmpty = true := List.isEmpty_iff.mpr hn
  have hstale : { c with stale := c.stale ++ [] } = c := by rw [List.append_nil]
  simp only [State.copyWrite, State.sinkUnit, State.afterUnit, hd, Target.unit, hs, show min 8 64 = 8 from rfl, CopyCmd.units_word hs hn,
    hleft, if_true, List.length_singleton, State.pick_one, listGet, List.getElem?_cons_zero, Option.getD_some, Nat.zero_mul, Nat.add_zero,
    List.drop_zero, State.sinkWrite, Tile.staleLine, List.take_of_length_le hlen.le, hstale, CopyCmd.afterWrite_whole hl hr hn]

/-- Where its address meets a fault, a unit of 8 bytes of virtual space stops its command (R260). -/
theorem State.copyRead_fault {s1 : State} {va : Nat} {x : Cause} (hd : (cmdSrc t.grid c.words c.prog).2 = .virt va)
    (hs : cmdSize c.words = 8) (hn : c.left = []) (hr : c.read = []) (hp : t.phase = .running)
    (hx : s.tickFresh.reach t.key.pasid (.copyEngine t.key.id) va .read = (s1, .fault x)) :
    s.copyRead t q c = (s1.setCopy t.key q { c with stage := .ended (statusOf x), read := [], data := none, left := [] }, true) := by
  have hkey := State.tile?_key hk
  subst hkey
  have ht : s1.tile? t.key = some t := by
    have h := State.reach_translates s.tickFresh t.key.pasid (.copyEngine t.key.id) va .read
    rw [hx] at h
    exact (h.tile? t.key).trans hk
  have hread : c.read.isEmpty = true := List.isEmpty_iff.mpr hr
  have hstop : s1.stopCopy t q c (statusOf x) =
      s1.setCopy t.key q { c with stage := .ended (statusOf x), read := [], data := none, left := [] } := by
    simp [State.stopCopy, ht, hp]
  simp only [State.copyRead, State.sourceUnit, State.afterUnit, State.touchCopy, hd, Target.unit, hs, show min 8 8 = 8 from rfl,
    CopyCmd.units_word hs hn, hread, if_true, List.length_singleton, State.pick_one, listGet, List.getElem?_cons_zero, Option.getD_some,
    Nat.zero_mul, Nat.add_zero, hx, hstop]

end

/-! Work on a command starts it (R247). -/

theorem State.copyWork_fill {s : State} {t : Tile} {q : Nat} {c : CopyCmd} (hl : c.prog < cmdElems c.words) (ho : cmdOp c.words = 1) :
    s.copyWork t q c = s.copyWrite t q { c with started := true } (fillBytes c.words) := by
  simp [State.copyWork, Nat.not_le.mpr hl, ho]

theorem State.copyWork_read {s : State} {t : Tile} {q : Nat} {c : CopyCmd} (hl : c.prog < cmdElems c.words) (ho : cmdOp c.words = 0)
    (hd : c.data = none) : s.copyWork t q c = s.copyRead t q { c with started := true } := by
  simp [State.copyWork, Nat.not_le.mpr hl, ho, hd]

/-! The events. -/

section
variable {s : State} {k : TileKey} {t : Tile} (hk : s.tile? k = some t)
include hk

theorem execCopyCommandComplete_event {q : Nat} {u : State} (h : s.copyEvent t q = some (u, false)) :
    execCopyCommandComplete k q s = .next u := by
  simp only [execCopyCommandComplete, hk, h]

theorem execCopyCommandStop_event {q : Nat} {u : State} (h : s.copyEvent t q = some (u, true)) : execCopyCommandStop k q s = .next u := by
  simp only [execCopyCommandStop, hk, h]

/-- The timed records of a tick fall due together, or the domain is held for one that is not done (R254). -/
theorem execCopyCompletionDue_done (hd : t.copiesDue ≠ []) (hl : t.copyLate = false) (hf : t.faultsCopy = []) :
    execCopyCompletionDue k s = .next (s.setTile t.completeCopies) :=
  State.onNamed_some hk (by simp only [List.isEmpty_eq_false_iff.mpr hd, hl, hf, Bool.false_eq_true, if_false]; rfl)

theorem execCopyCompletionDue_late (hd : t.copiesDue ≠ []) (hl : t.copyLate = true) :
    execCopyCompletionDue k s = .next (s.holdAt k .landing false) :=
  State.onNamed_some hk (by simp only [List.isEmpty_eq_false_iff.mpr hd, hl, Bool.false_eq_true, if_false, if_true])

end

/-- Settles O50: the one command of the queue completes, moves a unit, or stops at its address, and the timed ones of a tick together. -/
theorem copyEngineEvents : Obligations.CopyEngineEvents := by
  unfold Obligations.CopyEngineEvents
  intro s k t q c hk hc hp hr hq hlen
  have hkey := State.tile?_key hk
  have hq' : q < t.queues.length := hlen ▸ hq
  refine ⟨fun n hs hd => ?ends, fun off hm ho hdst hl he hs => ?fill, fun va s1 x hm ho he hs hdata hread hl hsrc hx => ?stop,
    execCopyCompletionDue_done hk, fun hl hd => execCopyCompletionDue_late hk hd hl⟩
  case ends =>
    have hev := State.copyEvent_completes (s := s) hc hs hd hr
    rw [State.completeCopy, if_neg (by simp [hp]), hkey] at hev
    exact execCopyCommandComplete_event hk hev
  case fill =>
    have hrun := State.stage_of_mayRun hm
    obtain ⟨u, hw, hu⟩ := State.copyWrite_fill (s := s.tickFresh) (q := q) (c := { c with started := true }) hk hdst hl he hrun hs
    have hwork := (State.copyWork_fill (s := s.tickFresh) (t := t) (q := q) (Nat.lt_of_succ_lt he) ho).trans hw
    refine ⟨u, _, execCopyCommandComplete_event hk ((State.copyEvent_works hc hm).trans (congrArg some hwork)), hu, ?_, ?_⟩
    · exact Spad.writeRaw_mem_congr (Spad.note_mem _ _ _ _ _) (Spad.note_marks _ _ _ _ _) off _
    · rw [Tile.queue_setQueue (by exact hq')]
      simp [CopyQueue.setCmd, hc]
  case stop =>
    have hfault := State.copyRead_fault (q := q) (c := { c with started := true }) (s := s.tickFresh) hk hsrc hs hl hread hp hx
    have hwork := (State.copyWork_read (t := t) (q := q) he ho hdata).trans hfault
    exact execCopyCommandStop_event hk ((State.copyEvent_works hc hm).trans (congrArg some hwork))

end Sys2Proof.Machine
end

section
/-! PROOFS. Launches (R300, R308, R323, R324): arming, its failure, the start of a launch and of a tile, the trigger and the retirement. -/

namespace Sys2Proof.Machine

/-! Tiles put into the state leave its launches (R323). -/

theorem State.placeTile_launches (s : State) (t : Tile) : (s.placeTile t).launches = s.launches := by
  unfold State.placeTile
  split <;> rfl

theorem State.placeTiles_launches (ts : List Tile) (s : State) : (ts.foldl State.placeTile s).launches = s.launches :=
  foldl_keep (P := fun x : State => x.launches = s.launches) ts rfl fun x t _ h => (x.placeTile_launches t).trans h

theorem State.placeTiles_launch? (ts : List Tile) (s : State) (k : LaunchKey) : (ts.foldl State.placeTile s).launch? k = s.launch? k := by
  rw [State.launch?, State.placeTiles_launches, State.launch?]

theorem State.mem_tiles_mapTiles {s : State} {f : Tile → Tile} {t : Tile} : t ∈ (s.mapTiles f).tiles ↔ ∃ u ∈ s.tiles, f u = t :=
  List.mem_map (l := s.tiles)

/-- A launch that ends leaves HBM, and is gone from the list. -/
theorem State.endLaunch_gone (s : State) (l : Launch) (a b d : Nat) :
    (s.endLaunch l a b d).hbm = s.hbm ∧ ∀ x ∈ (s.endLaunch l a b d).launches, x.key ≠ l.key := by
  unfold State.endLaunch
  split <;> exact ⟨rfl, fun x hx => by simpa using (List.mem_filter.mp hx).2⟩

/-- A launch as arming leaves it: its tiles loaded, its start fixed, the counts of its checkpoints set up (R227, R228, R323, R371). -/
def State.armedLaunch (s : State) (c : Context) (l : Launch) : Launch :=
  { l with stage := .armed, g := l.image.gTick, s := l.abs.getD ((s.counter + 64) % 2 ^ 64), rt := l.image.gTick, slots := l.image.ring,
           interval := c.ckpt.interval, pendingCount := if c.ckpt.held && !l.image.isSys then [1] else [] }

section
variable {s : State} {lk : LaunchKey} {l : Launch} {c : Context} (hl : s.launch? lk = some l)
include hl

/-! Arming (R323, R324). -/

section
variable (hc : s.ctx? lk.pasid = some c)
include hc

/-- Arming ends with the launch numbered and its context's count advanced (R366). -/
theorem State.armed_eq (f : State → Context → Launch → State) :
    s.armed l f = f ((s.setCtx { c with launchSeq := c.launchSeq + 1 }).setLaunch (l.numbered c)) { c with launchSeq := c.launchSeq + 1 }
      (l.numbered c) := by
  simp only [State.armed, State.launch?_key hl, hc]

theorem execLaunchArm_trouble {x : Cause} {d : Nat} (hm : s.mayArm l = true) (ht : s.armTrouble c l = some (x, d)) :
    execLaunchArm lk s = .next (s.armFails l x d) := by
  simp only [execLaunchArm, hl, hc, hm, if_true, ht]

theorem execLaunchArm_noPreloads (hm : s.mayArm l = true) (ht : s.armTrouble c l = none) (ho : l.image.objectZeros = [])
    (hf : l.image.farPreloads = []) : ∃ indirect, execLaunchArm lk s = .next (s.armed l fun s2 c2 m => s2.armNow c2 m indirect) :=
  ⟨(((s.queue? l.queue).bind fun q => q.packet? l.packet).map fun p => p.type == 2).getD false,
    by simp only [execLaunchArm, hl, hc, hm, if_true, ht, ho, hf, List.append_nil, State.farPreload]⟩

omit hl hc in
theorem State.armTrouble_none (hb : l.image.bytes ≠ []) (hr : l.image.refusal c (s.partTiles c) = none)
    (ha : l.abs = none ∨ ∃ a, l.abs = some a ∧ s.counter < a) : s.armTrouble c l = none := by
  have hlate : ¬ l.abs.getD (s.counter + 1) ≤ s.counter := by
    rcases ha with h | ⟨a, h, hlt⟩
    · simp [h]
    · simpa [h] using hlt
  simp [State.armTrouble, State.slipped, hlate, hb, hr]

omit hl hc in
theorem State.armTrouble_refused {d : Nat} (hs : s.slipped l = false) (hb : l.image.bytes ≠ [])
    (hr : l.image.refusal c (s.partTiles c) = some d) : s.armTrouble c l = some (.qcmd, d) := by
  simp [State.armTrouble, hs, hb, hr]

omit hc in
theorem State.armNow_launch (c : Context) (indirect : Bool) : (s.armNow c l indirect).launch? lk = some (s.armedLaunch c l) :=
  (State.placeTiles_launch? _ _ _).trans
    (State.launch?_setLaunch (s.armedLaunch c l) (show l.key = lk from State.launch?_key hl) hl)

end

/-! The start (R323). -/

theorem execLaunchStart_counted (hs : l.stage = .armed) (ht : l.s ≤ s.counter) (ha : l.abs = none) :
    execLaunchStart lk s = .next ({ s with draws := s.draws + 1 }.setLaunch { l with stage := .started }) := by
  simp [execLaunchStart, hl, hs, ht, State.startTrouble, ha]

theorem execTileStart_counted {k : TileKey} {t : Tile} (hk : s.tile? k = some t) (ht : t.launchKey = lk) (hp : t.phase = .armed)
    (hs : l.stage = .started) (hc : l.s + t.startTick - l.g ≤ s.counter)
    (hb : t.berth ≠ .boarded ∨ (l.rt = t.startTick ∧ l.stopped = false)) :
    execTileStart k s = .next (s.onKey k fun u => { u with phase := .running, freeze := none }) := by
  have hboard : (t.berth != .boarded || (l.rt == t.startTick && !l.stopped)) = true := by
    rcases hb with h | ⟨hr, hn⟩
    · simp [h]
    · simp [hr, hn]
  have hnow : s.startsNow t = true := by
    simp only [State.startsNow, ht, hl, hp, hs, hc, hboard, BEq.rfl, decide_true, Bool.and_self]
  simp only [execTileStart, hk, hnow, if_true]

/-! The trigger and the end (R300, R308). -/

theorem execLaunchTrigger_last (hf : l.fired = false) (hs : l.stage = .started)
    (ht : ∀ t ∈ s.tilesOf lk, ∃ tick, t.triggered = some tick ∧ s.releaseOpen t tick = false) (hlast : s.lastLaunch l = true) :
    execLaunchTrigger lk s = .next ((s.setLaunch { l with fired := true }).onPacketOf l fun p => { p with satisfied := true }) := by
  have hall : (s.tilesOf lk).all (fun t => (t.triggered.map fun tick => !s.releaseOpen t tick).getD false) = true := by
    refine List.all_eq_true.mpr fun t hm => ?_
    obtain ⟨tick, htick, hopen⟩ := ht t hm
    simp [htick, hopen]
  simp only [execLaunchTrigger, hl, hf, hs, hall, hlast, BEq.rfl, Bool.not_false, Bool.and_self, if_true]

theorem execLaunchRetire_last (hs : l.stage = .started) (hn : l.shard = none)
    (ht : ∀ t ∈ s.tilesOf lk, t.phase = .retired ∧ t.settled = true) (hlast : s.lastLaunch l = true) :
    execLaunchRetire lk s = .next (((s.mapTiles fun t => if t.launchKey == lk then { t with basin := [], skid := [], claims := [] } else
      t).endLaunch l 0 0 0).completePacket l.queue l.packet) := by
  have hall : (s.tilesOf lk).all (fun t => t.phase == Phase.retired && t.settled) = true :=
    List.all_eq_true.mpr fun t hm => by simp [ht t hm]
  simp only [execLaunchRetire, hl, hs, hn, hall, hlast, BEq.rfl, Option.isNone_none, Bool.and_self, if_true]

end

/-- Settles O56: an arming that meets no trouble or a refused image, and each other event under its trigger. -/
theorem launches : Obligations.Launches := by
  unfold Obligations.Launches
  intro s lk l c hl hc
  have hkey := State.launch?_key hl
  refine ⟨fun hm hb hr ho hf ha => ?arms, fun d hm hs hb hr => ?refused, execLaunchStart_counted hl,
    fun k t hk ht hp hs hcount hboard => execTileStart_counted hl hk ht hp hs hcount hboard,
    fun hf hs ht hlast => execLaunchTrigger_last hl hf hs ht hlast, fun hs hn ht hlast => ?retires⟩
  case arms =>
    obtain ⟨indirect, he⟩ := execLaunchArm_noPreloads hl hc hm (State.armTrouble_none hb hr ha) ho hf
    rw [State.armed_eq hl hc] at he
    have hnum : ((s.setCtx { c with launchSeq := c.launchSeq + 1 }).setLaunch (l.numbered c)).launch? lk = some (l.numbered c) :=
      State.launch?_setLaunch _ hkey hl
    exact ⟨_, _, he, State.armNow_launch hnum _ indirect, rfl, rfl, rfl⟩
  case refused =>
    have he := execLaunchArm_trouble hl hc hm (State.armTrouble_refused hs hb hr)
    rw [State.armFails, State.armed_eq hl hc] at he
    obtain ⟨hhbm, hgone⟩ := State.endLaunch_gone (((s.setCtx { c with launchSeq := c.launchSeq + 1 }).setLaunch (l.numbered c)).mapTiles
      fun t => if t.launchKey == l.key && t.phase.live then Tile.blank t.key else t) (l.numbered c) 2 0x0E d
    exact ⟨_, he, hhbm, fun x hx => hkey ▸ hgone x hx⟩
  case retires =>
    refine ⟨_, execLaunchRetire_last hl hs hn ht hlast, rfl, rfl, fun t hm hk => ?_⟩
    obtain ⟨u, -, rfl⟩ := State.mem_tiles_mapTiles.mp hm
    by_cases hu : u.launchKey = lk
    · simp [hu]
    · simp [hu] at hk

end Sys2Proof.Machine
end

section
/-! PROOFS. Collectives and requests of other modules (R349 to R354, R357, R358): the writes of the table, a round from its firing to its
last step in a peer's scratchpad, and the requests performed at this module's home. -/

namespace Sys2Proof.Machine

/-! The entry of a table. -/

theorem Launch.entry?_num {l : Launch} {n : Nat} {e : CollEntry} (h : l.entry? n = some e) : e.num = n := by
  simpa using List.find?_some h

theorem Launch.onEntry_key (l : Launch) (n : Nat) (f : CollEntry → CollEntry) : (l.onEntry n f).key = l.key := by
  unfold Launch.onEntry
  split <;> rfl

theorem State.launch?_onEntry {s : State} {lk : LaunchKey} {l : Launch} (h : s.launch? lk = some l) (n : Nat)
    (f : CollEntry → CollEntry) : (s.onEntry lk n f).launch? lk = some (l.onEntry n f) := by
  have hk := State.launch?_key h
  have e := find_map_key Launch.key (fun m => if m.key == lk then m.onEntry n f else m)
    (by intro m; split <;> simp [Launch.onEntry_key]) lk s.launches
  have e2 : s.launches.find? (fun m => decide (m.key = lk)) = some l := by simpa [State.launch?, beq_eq_decide] using h
  rw [e2] at e
  simpa [State.launch?, State.onEntry, beq_eq_decide, hk] using e

@[simp] theorem State.tile?_onEntry (s : State) (lk : LaunchKey) (n : Nat) (f : CollEntry → CollEntry) (k : TileKey) :
    (s.onEntry lk n f).tile? k = s.tile? k := rfl

theorem State.entryOf_some {s : State} {lk : LaunchKey} {l : Launch} {n : Nat} {e : CollEntry} (hl : s.launch? lk = some l)
    (he : l.entry? n = some e) : s.entryOf lk n = e := by
  simp [State.entryOf, hl, he]

/-- Ready writes that come in early leave the words and whether the entry is valid (R351). -/
theorem CollEntry.takeEarly_table (e : CollEntry) : e.takeEarly.valid = e.valid ∧ e.takeEarly.words = e.words := by
  unfold CollEntry.takeEarly
  split <;> exact ⟨rfl, rfl⟩

/-- An entry after a write of its word 0, which makes it valid or not and checks it (R349). -/
def CollEntry.putFirst (x : CollEntry) (v grid position : Nat) : CollEntry :=
  let y : CollEntry := { x with words := x.words.set 0 v }
  ({ y with valid := fld v 63 1 == 1, bad := y.isBad grid position } : CollEntry).takeEarly

/-! Writes of the table and ready writes (R349, R351). -/

section
variable {s : State} {k : TileKey} {t : Tile} {n e o v : Nat} {f : FarOp} {x : CollEntry} (hk : s.tile? k = some t)
  (hf : t.farOp n = some f) (hs : f.stage = .open) (hi : s.inOrder t f 0 = true) (ha : f.apertureFst t.grid = some (e, o, v))
  (hx : s.entryOf t.launchKey e = x)
include hk hf hs hi ha hx

theorem execCollectiveTableWrite_word {off : Nat} (ho : apertureOf e o = .table off) (hh : x.holdsTable off = false) (h8 : 8 ≤ off) :
    execCollectiveTableWrite k n s = .next ((s.onEntry t.launchKey e fun y => { y with words := y.words.set (off / 8) v }).onKey k
      fun u => u.dropFar f) := by
  have hne : off / 8 ≠ 0 := by omega
  refine State.onFar_some hk hf (by simp [ha, hs, hi]) ?_
  simp only [ha, ho, hx, hh, Bool.false_eq_true, if_false, hne]

theorem execCollectiveTableWrite_first (ho : apertureOf e o = .table 0) (hb : x.busy = false) :
    execCollectiveTableWrite k n s = .next ((s.onEntry t.launchKey e fun y => y.putFirst v t.grid s.board.position).onKey k
      fun u => u.dropFar f) := by
  have hh : x.holdsTable 0 = false := by rw [CollEntry.holdsTable, hb, Bool.false_and]
  refine State.onFar_some hk hf (by simp [ha, hs, hi]) ?_
  simp only [ha, ho, hx, hh, Bool.false_eq_true, if_false, Nat.zero_div, if_true, CollEntry.putFirst]

theorem execCollectiveReadyWrite_taken {j : Nat} (ho : apertureOf e o = .ready j) (hp : x.isPeer j k.id s.board.position = true)
    (hh : x.holdsReady j = false) : execCollectiveReadyWrite k n s =
      .next (((s.onEntry t.launchKey e fun y => { y with ready := y.ready ++ [(j, v % 2 ^ 32)] }).tell x
        fun m => .ready m t.launchKey e j (v % 2 ^ 32)).onKey k fun u => u.dropFar f) := by
  refine State.onFar_some hk hf (by simp [ha, hs, hi]) ?_
  simp only [ha, ho, hx, hp, hh, Bool.not_true, Bool.false_eq_true, if_false]

theorem execCollectiveReadyWrite_refused {j : Nat} (ho : apertureOf e o = .ready j) (hp : x.isPeer j k.id s.board.position = false) :
    execCollectiveReadyWrite k n s = .next (s.onKey k fun u => u.failFar f .perm) := by
  refine State.onFar_some hk hf (by simp [ha, hs, hi]) ?_
  simp only [ha, ho, hx, hp, Bool.not_false, if_true]

end

/-! A round (R352, R353). -/

/-- A choice among what is left names a member. -/
theorem listGet_pick_mem {α : Type} (s : State) {l : List α} (h : l ≠ []) (d : α) : listGet l (s.pick l.length) d ∈ l := by
  have hlen : s.pick l.length < l.length := by
    have hpos := List.length_pos_iff.mpr h
    rw [State.pick, Nat.max_eq_right hpos]
    exact Nat.mod_lt _ hpos
  rw [listGet, List.getElem?_eq_getElem hlen, Option.getD_some]
  exact List.getElem_mem hlen


section
variable {s : State} {lk : LaunchKey} {l : Launch} {c : Context} {n : Nat} {e : CollEntry} (hl : s.launch? lk = some l)
  (he : l.entry? n = some e)
include he

/-- What a round comes to as it fires: a bad table or a mismatch at once, or the units of its peers to be read. -/
theorem State.fireRound_at_once {r : List Byte × Nat} (h : e.early? = some r) : s.fireRound lk e = s.onEntry lk n fun x =>
    { x with since := some s.cycle, running := some r, left := e.toWrite s.board.position } := by
  simp only [State.fireRound, h, Launch.entry?_num he]

theorem State.fireRound_reads (h : e.early? = none) (hu : e.readUnits (e.peersOf s.board.position) ≠ []) :
    s.fireRound lk e = s.onEntry lk n fun x => { x with
      since := some s.cycle, toRead := e.readUnits (e.peersOf s.board.position), got := [], left := e.toWrite s.board.position } := by
  simp only [State.fireRound, h, Launch.entry?_num he, List.isEmpty_eq_false_iff.mpr hu, Bool.false_eq_true, if_false]

omit he in
theorem CollEntry.early?_bad (hb : e.bad = true) : e.early? = some ([], 3) := by simp [CollEntry.early?, hb]

omit he in
theorem CollEntry.early?_mismatch (hb : e.bad = false) (h : ∃ r ∈ e.ready, r.2 ≠ e.desc) :
    e.early? = some (poisonResult e.desc, 1) := by
  obtain ⟨r, hr, hne⟩ := h
  have hany : e.ready.any (fun r => r.2 != e.desc) = true := List.any_eq_true.mpr ⟨r, hr, by simpa using hne⟩
  simp [CollEntry.early?, hb, hany]

omit he in
theorem CollEntry.early?_agreed (hb : e.bad = false) (h : ∀ r ∈ e.ready, r.2 = e.desc) : e.early? = none := by
  have hany : e.ready.any (fun r => r.2 != e.desc) = false := List.any_eq_false.mpr fun r hr => by simp [h r hr]
  simp [CollEntry.early?, hb, hany]

omit he in
/-- The unit that is left is the one read: it brings nothing, or it ends the part of this module's peers (R352, R353). -/
theorem State.readRound_none {s1 : State} {y : Nat × Nat} (hr : e.toRead = [y])
    (h : s.tickFresh.switchRead c (e.readAt y).1 (e.readAt y).2 = (s1, none)) :
    s.readRound lk c e = s1.bringPart lk e ⟨s.board.position, [], 0, true⟩ := by
  simp [State.readRound, hr, State.pick_one, listGet, h]

theorem State.readRound_last {s1 : State} {y : Nat × Nat} {bs : List Byte} (hr : e.toRead = [y])
    (h : s.tickFresh.switchRead c (e.readAt y).1 (e.readAt y).2 = (s1, some bs)) :
    let x : CollEntry := { e with toRead := [], got := e.got ++ [(y.1, y.2, bs)] }
    s.readRound lk c e = (s1.onEntry lk n fun _ => x).bringPart lk x (x.ownPart s.board.position) := by
  simp [State.readRound, hr, State.pick_one, listGet, h, Launch.entry?_num he]

section
variable (hc : s.ctx? lk.pasid = some c)
include hl hc

theorem execCollectiveRoundFire_fires (hv : e.valid = true) (hf : e.fired = false) (ha : e.allReady = true) :
    execCollectiveRoundFire lk n s = .next (s.fireRound lk e) := by
  simp only [execCollectiveRoundFire, hl, hc, he, hv, hf, ha, Bool.not_false, Bool.and_self, if_true]

theorem execCollectiveRoundFire_late {c0 : Nat} (hr : e.running = none) (hs : e.since = some c0)
    (ht : c0 + Config.tenMsCycles ≤ s.cycle) (hw : s.awaitsModule c e = true) : execCollectiveRoundFire lk n s =
      .next (s.onEntry lk n fun x => { x with running := some (poisonResult e.desc, 2), toRead := [], got := [] }) := by
  simp [execCollectiveRoundFire, hl, hc, he, CollEntry.fired, hr, hs, pathLate, ht, hw]

theorem execCollectiveRoundFire_reads {c0 : Nat} (hr : e.running = none) (hs : e.since = some c0)
    (ht : s.cycle < c0 + Config.tenMsCycles) (hu : e.toRead ≠ []) : execCollectiveRoundFire lk n s = .next (s.readRound lk c e) := by
  simp [execCollectiveRoundFire, hl, hc, he, CollEntry.fired, hr, hs, pathLate, Nat.not_le.mpr ht, hu]

end

/-- The state after one step of the completion: the peer's scratchpad, and what is left of the round. -/
def State.roundStep (s : State) (lk : LaunchKey) (n : Nat) (e : CollEntry) (bs : List Byte) (st : Nat) (y : PeerLeft) (r : Nat) : State :=
  (s.onKey ⟨lk.pasid, e.peerId y.peer⟩ fun t => { t with
    spad := t.spad.collect e (e.peerId y.peer) bs st y r }).tickFresh.tickFresh.onEntry lk n fun x => x.wrote y r

/-! One step of the completion (R354): a peer that is left, and a unit of its result if one is. -/

include hl

theorem execCollectiveRoundComplete_step {bs : List Byte} {st : Nat} (hr : e.running = some (bs, st)) (hn : e.left ≠ [])
    (ht : ∀ y ∈ e.left, (s.tile? ⟨lk.pasid, e.peerId y.peer⟩).isSome = true) :
    ∃ (y : PeerLeft) (r : Nat) (t : Tile) (u : State), y ∈ e.left ∧ (y.units = [] ∨ r ∈ y.units) ∧
      s.tile? ⟨lk.pasid, e.peerId y.peer⟩ = some t ∧ execCollectiveRoundComplete lk n s = .next u ∧
      u.tile? ⟨lk.pasid, e.peerId y.peer⟩ = some { t with spad := t.spad.collect e (e.peerId y.peer) bs st y r } ∧
      u.launch? lk = some (l.onEntry n fun x => x.wrote y r) := by
  have hy := listGet_pick_mem s hn ⟨0, [], false⟩
  obtain ⟨t, htile⟩ := Option.isSome_iff_exists.mp (ht _ hy)
  generalize hchoice : listGet e.left (s.pick e.left.length) ⟨0, [], false⟩ = y at hy htile
  refine ⟨y, listGet y.units (s.tickFresh.pick y.units.length) 0, t,
    s.roundStep lk n e bs st y (listGet y.units (s.tickFresh.pick y.units.length) 0), hy, ?_, htile, ?_, ?_, ?_⟩
  · exact (em (y.units = [])).imp_right fun h => listGet_pick_mem _ h _
  · simp only [execCollectiveRoundComplete, hl, Option.bind_some, he, hr, hchoice, List.isEmpty_eq_false_iff.mpr hn, Bool.false_eq_true,
      if_false, State.ensureTile_of_some htile]
    rfl
  · exact State.tile?_onKey_same (fun t => { t with spad := t.spad.collect e (e.peerId y.peer) bs st y _ }) (fun _ => rfl) htile
  · exact State.launch?_onEntry (s := State.tickFresh (State.tickFresh (s.onKey _ _))) hl n _

end

/-! A step in a peer's scratchpad (R279, R354). -/

section
variable {sp : Spad} {e : CollEntry} {y : PeerLeft}

/-- The note of a touch does not change what a write leaves in memory. -/
theorem Spad.write_note_mem (sp : Spad) (src agent n k a : Nat) (bs : List Byte) :
    ((sp.note src agent n k).write a bs).mem = (sp.write a bs).mem := by
  rw [Spad.write_mem, Spad.write_mem, Spad.writeRaw_mem_congr (sp.note_mem _ _ _ _) (sp.note_marks _ _ _ _)]

theorem Spad.collect_unit (hu : y.units ≠ []) (id : Nat) (bs : List Byte) (st r : Nat) :
    let p := listGet (piecesOf 64 e.raddr bs.length) r (0, 0)
    (sp.collect e id bs st y r).mem = (sp.write (e.raddr + p.1) ((bs.drop p.1).take p.2)).mem := by
  simp only [Spad.collect, List.isEmpty_eq_false_iff.mpr hu, Bool.not_false, if_true]
  split
  · exact sp.write_note_mem _ _ _ _ _ _
  · rfl

theorem Spad.collect_status (hu : y.units = []) (hs : y.status = true) (id : Nat) (bs : List Byte) (st r : Nat) :
    sp.collect e id bs st y r = sp.store id 5 e.saddr (bytesOfNat 8 (e.statusWord st)) := by
  simp [Spad.collect, hu, hs]

theorem Spad.collect_arrival (hu : y.units = []) (hs : y.status = false) (id : Nat) (hm : (sp.note id 5 e.baddr 8).marked e.baddr = false)
    (bs : List Byte) (st r : Nat) : (sp.collect e id bs st y r).mem =
      (sp.write e.baddr (bytesOfNat 8 (arriveWord (Mem.readWord sp.mem e.baddr) e.barn).toNat)).mem := by
  have hm' : sp.marked e.baddr = false := (sp.note_marked _ _ _ _ _).symm.trans hm
  simp only [Spad.collect, hu, hs, List.isEmpty_nil, Bool.not_true, Bool.false_eq_true, if_false, Spad.note_marked, hm', Spad.note_mem]
  exact sp.write_note_mem _ _ _ _ _ _

/-- With the last arrival the round is over. -/
theorem CollEntry.wrote_last (hu : y.units = []) (hs : y.status = false) (hl : e.left = [y]) (r : Nat) : e.wrote y r = ({ e with
    running := none, since := none, parts := [], left := [], ready := [], rounds := e.rounds + 1 } : CollEntry).takeEarly := by
  have hrest : (e.left.flatMap fun x => if x.peer = y.peer then x.after r else [x]).isEmpty = true := by
    simp [hl, PeerLeft.after, hu, hs]
  exact if_pos hrest

end

/-! Requests of other modules (R357). -/

section
variable {s : State} {pa : Nat} (hp : s.board.power = .ready)
include hp

theorem execUalinkRemoteRequest_write {bs : List Byte} (h : s.ownPa pa bs.length = true) :
    execUalinkRemoteRequest (.write pa bs) s = .next (s.hbmWrite (localPa pa) bs) := by
  simp [execUalinkRemoteRequest, hp, State.addressed, h]

theorem execUalinkRemoteRequest_read {n : Nat} (h : s.ownPa pa n = true) : execUalinkRemoteRequest (.read pa n) s = .next s := by
  simp [execUalinkRemoteRequest, hp, State.addressed, h]

theorem execUalinkRemoteRequest_add {v : Word} (h : s.ownPa pa 8 = true) (hb : s.hbmPoisoned (localPa pa) 8 = false) :
    execUalinkRemoteRequest (.atomic pa .add v 0) s =
      .next (s.hbmWrite (localPa pa) (bytesOfNat 8 (Mem.readWord s.hbm (localPa pa) + v).toNat)) := by
  simp [execUalinkRemoteRequest, hp, State.addressed, h, hb, atomWrites, atomResult]

end

/-- Settles O57: the writes of the table, a round from its firing to its last step, and the requests at their home. -/
theorem collectives : Obligations.Collectives := by
  unfold Obligations.Collectives
  refine ⟨fun s k t n e o v f l x hk hf hs hi ha hl hx => ?table, fun s lk l c n e hl hc he => ?round, fun sp e id st r bs y => ?step,
    fun s pa bs hp => ⟨fun h => ⟨execUalinkRemoteRequest_write hp h, execUalinkRemoteRequest_read hp h⟩,
      fun v h hb => execUalinkRemoteRequest_add hp h hb⟩⟩
  case table =>
    have hentry := State.entryOf_some hl hx
    exact ⟨fun off ho hh h8 => execCollectiveTableWrite_word hk hf hs hi ha hentry ho hh h8,
      fun ho hb => ⟨_, execCollectiveTableWrite_first hk hf hs hi ha hentry ho hb, fun y => CollEntry.takeEarly_table _⟩,
      fun j ho => ⟨fun hp hh => execCollectiveReadyWrite_taken hk hf hs hi ha hentry ho hp hh,
        fun hp => execCollectiveReadyWrite_refused hk hf hs hi ha hentry ho hp⟩⟩
  case round =>
    refine ⟨fun hv hf ha => ⟨execCollectiveRoundFire_fires hl he hc hv hf ha,
        fun hb => State.fireRound_at_once he (CollEntry.early?_bad hb),
        fun hb hr => State.fireRound_at_once he (CollEntry.early?_mismatch hb hr),
        fun hb hr hu => State.fireRound_reads he (CollEntry.early?_agreed hb hr) hu⟩,
      fun c0 hr hs => ⟨fun ht hw => execCollectiveRoundFire_late hl he hc hr hs ht hw, fun y ht hu => ?_⟩,
      fun bs st hr hn ht => execCollectiveRoundComplete_step hl he hr hn ht⟩
    have hread := execCollectiveRoundFire_reads hl he hc hr hs ht (by simp [hu])
    exact ⟨fun s1 h => hread.trans (congrArg _ (State.readRound_none hu h)),
      fun s1 bs h => hread.trans (congrArg _ (State.readRound_last he hu h))⟩
  case step =>
    exact ⟨fun hu => Spad.collect_unit hu id bs st r, fun hu hs => Spad.collect_status hu hs id bs st r,
      fun hu hs hm => Spad.collect_arrival hu hs id hm bs st r, fun hu hs hl => CollEntry.wrote_last hu hs hl r⟩

end Sys2Proof.Machine
end

section
/-! PROOFS. Walks, page requests, their answers and invalidations (R331 to R336, R341). -/

namespace Sys2Proof.Machine

section
variable {s : State} {p va : Nat} {c : Context} {k : AccKind} {a : Agent} (hc : s.ctx? p = some c) (hn : s.cachedFor c a va = none)
  (hr : c.requested (va / 65536) k = false)
include hc hn hr

/-! The access that is not cached and not requested walks (R331, R333, R335). -/

theorem State.reach_page {e : TlbEntry} (hw : s.walk c va = .page e) :
    s.reach p a va k = ((s.walked c va).keep c a e, s.through c e va k) := by
  simp only [State.reach, hc, hn, hr, hw, Bool.false_eq_true, if_false]

theorem State.reach_absent (hw : s.walk c va = .absent) :
    s.reach p a va k = ((s.walked c va).requestPage p a (va / 65536) k, .wait) := by
  simp only [State.reach, hc, hn, hr, hw, Bool.false_eq_true, if_false]

theorem State.reach_bad {x : Cause} (hw : s.walk c va = .bad x) : s.reach p a va k = (s.walked c va, .fault x) := by
  simp only [State.reach, hc, hn, hr, hw, Bool.false_eq_true, if_false]

end

section
variable {s s1 : State} {p va : Nat} {k : AccKind} {a : Agent} (hw : s.agentWaits p va k a = true)
include hw

/-- A walk that raises no cause leaves what it found to the access that waits (R335). -/
theorem execTranslationWalk_next {r : Reach} (hr : s.reach p a va k = (s1, r)) (hf : ∀ x, r ≠ .fault x) :
    execTranslationWalk p va k a s = .next s1 := by
  unfold execTranslationWalk
  rw [if_pos hw, hr]
  cases r with
  | fault x => exact absurd rfl (hf x)
  | home pa => rfl
  | away pa => rfl
  | wait => rfl

theorem execTranslationWalk_fault {x : Cause} (hr : s.reach p a va k = (s1, .fault x)) :
    execTranslationWalk p va k a s = .next (s1.walkFails p va k a x) := by
  unfold execTranslationWalk
  rw [if_pos hw, hr]

end

/-! Answers, late or given, and invalidations (R334, R335, R341). -/

section
variable {s : State} {p : Nat} {c : Context} {r : PageReq} (hc : s.ctx? p = some c) (hr : c.requests = [r])
include hc hr

theorem execPageRequestTimeout_late {w : Nat} (hw : r.written = some w) (ha : r.answer = none) (ht : w + Config.tenMsCycles ≤ s.cycle) :
    execPageRequestTimeout p r.num s = .next (if c.resident then s.endRequest p r false else s.keepAnswer c r.num false) := by
  simp [execPageRequestTimeout, hc, hr, hw, ha, ht]

theorem execAnswerPageRequest_served {h : MgmtHdr} (hm : s.managed h) (hw : r.written.isSome = true) (ha : r.answer = none) (ok : Bool) :
    execAnswerPageRequest h p r.num ok s =
      .next (if c.resident then (s.endRequest p r ok).reply h 0 [] else (s.keepAnswer c r.num ok).reply h 0 []) := by
  rw [execAnswerPageRequest, State.manage_served hm]
  simp [hc, hr, hw, ha]

end

theorem execInvalidateTranslations_served {s : State} {p : Nat} {c : Context} {h : MgmtHdr} (hc : s.ctx? p = some c) (hm : s.managed h)
    (range : Option (Nat × Nat)) :
    execInvalidateTranslations h p range s = .next (s.setCtx { c with invals := c.invals ++ [(range, h)] }) := by
  rw [execInvalidateTranslations, State.manage_served hm, hc]

theorem execInvalidationComplete_first {s : State} {p : Nat} {c : Context} {h : MgmtHdr} {range : Option (Nat × Nat)}
    {more : List (Option (Nat × Nat) × MgmtHdr)} (hc : s.ctx? p = some c) (hi : c.invals = (range, h) :: more) :
    execInvalidationComplete p s =
      .next (((s.setCtx { c with invals := more }).dropTlb p fun e => !e.outside range).reply h 0 []) := by
  simp only [execInvalidationComplete, hc, hi]

/-- Settles O52: a walk by what it finds, a request by its answer or its 10 ms, an invalidation from its entry to its end. -/
theorem translationEvents : Obligations.TranslationEvents := by
  unfold Obligations.TranslationEvents
  refine fun s p c hc => ⟨fun va k a hw hn hr => ?walk, fun r w hq hwr ha ht => ?late,
    fun range h more hi => execInvalidationComplete_first hc hi, fun h hm => ⟨execInvalidateTranslations_served hc hm,
      fun r ok hq hwr ha => ?answer⟩⟩
  case walk =>
    exact ⟨fun e hp hf => execTranslationWalk_next hw (State.reach_page hc hn hr hp) hf,
      fun hab => execTranslationWalk_next hw (State.reach_absent hc hn hr hab) (fun _ => Reach.noConfusion),
      fun x hb => execTranslationWalk_fault hw (State.reach_bad hc hn hr hb)⟩
  case late =>
    have hlate := execPageRequestTimeout_late hc hq hwr ha ht
    exact ⟨fun hres => by rw [hres] at hlate; exact hlate, fun hres => by rw [hres] at hlate; exact hlate⟩
  case answer =>
    have hans := execAnswerPageRequest_served hc hq hm hwr ha ok
    exact ⟨fun hres => by rw [hres] at hans; exact hans, fun hres => by rw [hres] at hans; exact hans⟩

end Sys2Proof.Machine
end

section
/-! PROOFS. Contexts and their queues (R312, R337, R339, R340, R345, R346): what the end of the launches of a context leaves of it, the
caches emptied, tiles placed, and the management operations from their requests to their answers. -/

namespace Sys2Proof.Machine

/-! The end of a context's launches and the errors of its queues leave its tiles, and of a context all but its records, its count of
launches and the pre-emption that is given up. -/

/-- What of a context the end of its launches leaves. -/
def Context.lasting (c : Context) : Context := { c with records := [], launchSeq := 0, preempt := none }

/-- A state with the tiles of another, and with its contexts but for what the end of launches changes. -/
def State.Ends (s u : State) : Prop := u.tiles = s.tiles ∧ ∀ p, (u.ctx? p).map Context.lasting = (s.ctx? p).map Context.lasting

theorem State.Ends.refl (s : State) : s.Ends s := ⟨rfl, fun _ => rfl⟩

theorem State.Ends.trans {s u v : State} (h : s.Ends u) (g : u.Ends v) : s.Ends v :=
  ⟨g.1.trans h.1, fun p => (g.2 p).trans (h.2 p)⟩

/-- A context that is there before is there after, the same but for those fields. -/
theorem State.Ends.ctx? {s u : State} {p : Nat} {c : Context} (h : s.Ends u) (hc : s.ctx? p = some c) :
    ∃ d, u.ctx? p = some d ∧ d.lasting = c.lasting := by
  have hp := h.2 p
  rw [hc] at hp
  cases hd : u.ctx? p with
  | none => simp [hd] at hp
  | some d => exact ⟨d, rfl, by simpa [hd] using hp⟩

theorem State.setCtx_ends {s : State} {p : Nat} {c : Context} (d : Context) (hc : s.ctx? p = some c) (hd : d.lasting = c.lasting) :
    s.Ends (s.setCtx d) := by
  have hdc : d.lasting.pasid = c.lasting.pasid := by rw [hd]
  have hp : d.pasid = p := Eq.trans (b := c.pasid) hdc (State.ctx?_pasid hc)
  refine ⟨rfl, fun q => ?_⟩
  by_cases hq : d.pasid = q
  · rw [State.ctx?_setCtx d hq (by rw [← hq, hp]; exact hc), ← hq, hp, hc]
    exact congrArg some hd
  · rw [State.ctx?_setCtx_other d hq]

theorem State.queueErrorNow_ends (s : State) (q : Queue) (a b c d e : Nat) : s.Ends (s.queueErrorNow q a b c d e) := by
  simp only [State.Ends, State.queueErrorNow, State.setQstate, State.setQword, State.tiles_hbmWrite, State.ctx?_hbmWrite, implies_true, and_self]

theorem State.endLaunch_ends (s : State) (l : Launch) (a b c : Nat) : s.Ends (s.endLaunch l a b c) := by
  unfold State.endLaunch
  split
  next d hd => exact State.setCtx_ends (c := d) _ hd rfl
  next => exact State.Ends.refl s

theorem State.armed_endLaunch_ends (s : State) (l : Launch) (a b c : Nat) : s.Ends (s.armed l fun x _ m => x.endLaunch m a b c) := by
  unfold State.armed
  split
  next d hd => exact State.Ends.trans (State.setCtx_ends (c := d) { d with launchSeq := d.launchSeq + 1 } hd rfl) (State.endLaunch_ends _ _ _ _ _)
  next => exact State.Ends.refl s

theorem State.discardLaunches_ends (s : State) (p : Nat) (n : Option Nat) (c : Nat) : s.Ends (s.discardLaunches p n c) := by
  refine foldl_keep (P := fun x : State => s.Ends x) _ (State.Ends.refl s) fun x l _ hx => ?_
  split
  · split <;> exact hx.trans (State.endLaunch_ends _ _ _ _ _)
  · split
    · exact hx.trans (State.armed_endLaunch_ends _ _ _ _ _)
    · exact hx

theorem State.abandonPreempt_ends (s : State) (p : Nat) : s.Ends (s.abandonPreempt p) := by
  unfold State.abandonPreempt
  split
  next c hc =>
    split
    · exact State.setCtx_ends (c := c) _ hc rfl
    · exact State.Ends.refl s
  next => exact State.Ends.refl s

/-- A context takes the place of the one of its number. -/
theorem State.ctx?_setCtx_same {s : State} {p : Nat} {c d : Context} (hc : s.ctx? p = some c) (hd : d.pasid = c.pasid) :
    (s.setCtx d).ctx? p = some d := State.ctx?_setCtx d (hd.trans (State.ctx?_pasid hc)) hc

/-! The caches of a context are emptied (R333, R339). -/

theorem State.ctx?_map {s : State} {p : Nat} {f : Context → Context} (hf : ∀ c, (f c).pasid = c.pasid) :
    ({ s with contexts := s.contexts.map f } : State).ctx? p = (s.ctx? p).map f := by
  simpa [State.ctx?, beq_eq_decide] using find_map_key Context.pasid f hf p s.contexts

/-- A context with empty caches. -/
def Context.uncached (c : Context) : Context := { c with tileTlb := [], dieTlb := [] }

theorem State.ctx?_dropTlb {s : State} {p : Nat} {c : Context} (hc : s.ctx? p = some c) :
    (s.dropTlb p fun _ => true).ctx? p = some c.uncached := by
  refine (State.ctx?_map (s := s) (p := p) fun d => by split <;> rfl).trans ?_
  simp [hc, State.ctx?_pasid hc, Context.uncached]

/-! Tiles placed in the state are there (R345). -/

theorem State.tile?_placeTile (s : State) (t : Tile) (k : TileKey) : (s.placeTile t).tile? k = if k = t.key then some t else s.tile? k := by
  unfold State.placeTile
  split
  next h =>
    obtain ⟨v, hv⟩ := Option.isSome_iff_exists.mp h
    split
    next hk => rw [hk]; exact State.tile?_setTile t rfl hv
    next hk =>
      rw [State.setTile]
      refine (State.tile?_mapTiles _ _ (fun u => ?_) k).trans ?_
      · by_cases hu : u.key = t.key <;> simp [hu]
      · cases hs : s.tile? k with
        | none => rfl
        | some u => simp [State.tile?_key hs, hk]
  next h =>
    have hn : s.tile? t.key = none := by simpa using h
    have happ : ({ s with others := s.others ++ [t] } : State).tile? k = (s.tile? k).or ([t].find? fun u => u.key == k) :=
      List.find?_append (xs := s.tiles) (ys := [t])
    rw [happ]
    split
    next hk => subst hk; simp [hn]
    next hk => simp [Ne.symm hk]

/-- Of tiles placed under distinct names each is there. -/
theorem State.tile?_placeTiles_of_mem {ts : List Tile} {t : Tile} (hn : (ts.map Tile.key).Nodup) (ht : t ∈ ts) (s : State) :
    (ts.foldl State.placeTile s).tile? t.key = some t := by
  induction ts generalizing s with
  | nil => cases ht
  | cons u ts ih =>
    obtain ⟨hu, hn⟩ := List.nodup_cons.mp hn
    rcases List.mem_cons.mp ht with rfl | ht
    · refine foldl_keep (P := fun x : State => x.tile? t.key = some t) ts ?_ fun x v hv hx => ?_
      · rw [State.tile?_placeTile, if_pos rfl]
      · have hne : t.key ≠ v.key := fun h => hu (h ▸ List.mem_map_of_mem hv)
        rw [State.tile?_placeTile, if_neg hne, hx]
    · exact ih hn ht _

theorem State.placeTile_contexts (s : State) (t : Tile) : (s.placeTile t).contexts = s.contexts := by
  unfold State.placeTile
  split <;> rfl

theorem State.placeTiles_ctx? (ts : List Tile) (s : State) (p : Nat) : (ts.foldl State.placeTile s).ctx? p = s.ctx? p :=
  foldl_keep (P := fun x : State => x.ctx? p = s.ctx? p) ts rfl fun x t _ hx => (congrArg _ (x.placeTile_contexts t)).trans hx

/-! Creation (R337). -/

theorem execCreateContext_served {s : State} {h : MgmtHdr} (hm : s.managed h) {block : List Word} (hb : s.blockOk block = true)
    (hn : s.contexts.length < 64) : execCreateContext h block s = .next (({ s with
      contexts := s.contexts ++ [contextOf block (!s.partBusy (fld (listGet block 0 0).toNat 48 3)) s.draws],
      draws := s.draws + 1 } : State).reply h 0 []) := by
  rw [execCreateContext, State.manage_served hm, hb]
  simp only [Bool.not_true, Bool.false_eq_true, if_false, Nat.not_le.mpr hn]

/-! Teardown (R339). -/

/-- Every tile of a context stops. -/
def State.stopTiles (s : State) (p : Nat) (ls : List Launch) : State :=
  let s1 := (s.abandonPreempt p).mapTiles fun t => if t.key.pasid == p then t.faultStop else t
  { s1 with launches := s1.launches ++ ls }

/-- A context whose tiles have stopped, with its queues in ERROR, its launches over and its caches empty. -/
def State.tornDown (s : State) (p : Nat) (ls : List Launch) : State :=
  let s2 := s.stopTiles p ls
  let s3 := (s2.queues.filter fun q => q.pasid == p).foldl (fun x q => x.queueErrorNow q 0x10 13 0xFFFF 0 0) s2
  ((s3.discardLaunches p none 0).dropTlb p fun _ => true).onQueues p fun q => { q.unparked with packets := [] }

/-- A context that is being torn down, with its next generation. -/
def Context.torn (d : Context) (h : MgmtHdr) : Context :=
  { d with gen := (d.gen + 1) % 2 ^ 16, tearing := some h, requests := [], saved := none, invals := [] }

/-- The state that a teardown leaves to its completion, with the answers of the invalidations. -/
def State.tearing (s : State) (p : Nat) (c d : Context) (h : MgmtHdr) : State :=
  c.invals.foldl (fun x y => x.reply y.2 0 []) ((s.tornDown p ((c.saved.map SavedContext.launches).getD [])).setCtx
    (d.torn h))

/-- The errors of queues and the end of launches, in turn. -/
theorem State.errors_discard_ends (s : State) (qs : List Queue) (a b c d e p : Nat) (n : Option Nat) (cause : Nat) :
    s.Ends ((qs.foldl (fun x q => x.queueErrorNow q a b c d e) s).discardLaunches p n cause) :=
  State.Ends.trans (foldl_keep (P := fun x : State => s.Ends x) qs (State.Ends.refl s) fun _ _ _ hx =>
    hx.trans (State.queueErrorNow_ends _ _ _ _ _ _ _)) (State.discardLaunches_ends _ _ _ _)

theorem State.tornDown_ctx? {s : State} {p : Nat} {c : Context} (hc : s.ctx? p = some c) (ls : List Launch) :
    ∃ d : Context, (s.tornDown p ls).ctx? p = some d.uncached ∧ d.lasting = c.lasting := by
  obtain ⟨c1, h1, e1⟩ := (s.abandonPreempt_ends p).ctx? hc
  obtain ⟨d, hd, e2⟩ := (State.errors_discard_ends (s.stopTiles p ls) ((s.stopTiles p ls).queues.filter fun q => q.pasid == p)
    0x10 13 0xFFFF 0 0 p none 0).ctx? (p := p) (c := c1) h1
  exact ⟨d, State.ctx?_dropTlb hd, e2.trans e1⟩

theorem State.tornDown_tiles (s : State) (p : Nat) (ls : List Launch) : ∀ t ∈ (s.tornDown p ls).tiles, t.key.pasid = p → t.phase = .faulted := by
  have htiles : (s.tornDown p ls).tiles = (s.stopTiles p ls).tiles :=
    (State.errors_discard_ends (s.stopTiles p ls) ((s.stopTiles p ls).queues.filter fun q => q.pasid == p) 0x10 13 0xFFFF 0 0 p none 0).1
  intro t ht hp
  rw [htiles] at ht
  change t ∈ ((s.abandonPreempt p).mapTiles fun t => if t.key.pasid == p then t.faultStop else t).tiles at ht
  obtain ⟨u, -, rfl⟩ := State.mem_tiles_mapTiles.mp ht
  by_cases hu : u.key.pasid = p
  · simp only [hu, beq_self_eq_true, if_true]
    rfl
  · simp [hu] at hp

theorem State.tornDown_hubTlb (s : State) (p : Nat) (ls : List Launch) : ∀ x ∈ (s.tornDown p ls).hubTlb, x.1 ≠ p := by
  intro x hx
  simpa using (List.mem_filter.mp hx).2

/-- Answers change nothing but the list of answers. -/
theorem State.replies_keep (s : State) (l : List (Option (Nat × Nat) × MgmtHdr)) :
    let u := l.foldl (fun x y => x.reply y.2 0 []) s
    u.tiles = s.tiles ∧ u.contexts = s.contexts ∧ u.hubTlb = s.hubTlb :=
  foldl_keep (P := fun x : State => x.tiles = s.tiles ∧ x.contexts = s.contexts ∧ x.hubTlb = s.hubTlb) l ⟨rfl, rfl, rfl⟩
    fun _ _ _ hx => hx

section
variable {s : State} {h : MgmtHdr} {p : Nat} {c : Context} (hm : s.managed h) (hc : s.ctx? p = some c)
include hm hc

theorem execTeardownContext_served {d : Context} (ht : c.tearing = none)
    (hd : (s.tornDown p ((c.saved.map SavedContext.launches).getD [])).ctx? p = some d) :
    execTeardownContext h p s = .next (s.tearing p c d h) := by
  rw [execTeardownContext, State.manage_served hm]
  unfold State.tornDown State.stopTiles at hd
  simp only [hc, ht, Option.isSome_none, Bool.false_eq_true, if_false, hd]
  rfl

theorem execTeardownContext_tears (ht : c.tearing = none) : ∃ u d, execTeardownContext h p s = .next u ∧ u.ctx? p = some d ∧
    d.gen = (c.gen + 1) % 2 ^ 16 ∧ d.tearing = some h ∧ d.tileTlb = [] ∧ d.dieTlb = [] ∧ (∀ x ∈ u.hubTlb, x.1 ≠ p) ∧
    ∀ t ∈ u.tiles, t.key.pasid = p → t.phase = .faulted := by
  obtain ⟨d, hd, hlast⟩ := State.tornDown_ctx? hc ((c.saved.map SavedContext.launches).getD [])
  have hgen : d.lasting.gen = c.lasting.gen := by rw [hlast]
  have hpas : d.uncached.pasid = p := State.ctx?_pasid hd
  obtain ⟨htiles, hctx, hhub⟩ := State.replies_keep ((s.tornDown p ((c.saved.map SavedContext.launches).getD [])).setCtx
    (d.uncached.torn h)) c.invals
  refine ⟨s.tearing p c d.uncached h, d.uncached.torn h, execTeardownContext_served hm hc ht hd, ?_, ?_, rfl, rfl, rfl, ?_, ?_⟩
  · exact (congrArg (fun l => l.find? fun x => x.pasid == p) hctx).trans (State.ctx?_setCtx (d.uncached.torn h) hpas hd)
  · exact congrArg (fun n => (n + 1) % 2 ^ 16) hgen
  · rw [State.tearing, hhub]
    exact State.tornDown_hubTlb s p _
  · rw [State.tearing, htiles]
    exact State.tornDown_tiles s p _

/-! Pre-emption (R340). -/

omit hm hc in
/-- The state in which the pre-emption of a context is asked for. -/
def State.preempting (s : State) (p : Nat) (c : Context) (h : MgmtHdr) : State :=
  let s1 := ((s.setCtx { c with preempt := some (s.counter, h) }).raiseDuty c).mapTiles fun t =>
    if t.key.pasid == p then { t.unhalt with csrs := { t.csrs with stopflag := 1 } } else t
  { s1 with launches := s1.launches.map fun l => if l.key.pasid == p then { l with shard := none } else l }

omit hm hc in
theorem State.preempting_tiles (s : State) (p : Nat) (c : Context) (h : MgmtHdr) :
    ∀ t ∈ (s.preempting p c h).tiles, t.key.pasid = p → t.csrs.stopflag = 1 := by
  intro t ht hp
  change t ∈ (((s.setCtx { c with preempt := some (s.counter, h) }).raiseDuty c).mapTiles fun t =>
    if t.key.pasid == p then { t.unhalt with csrs := { t.csrs with stopflag := 1 } } else t).tiles at ht
  obtain ⟨u, -, rfl⟩ := State.mem_tiles_mapTiles.mp ht
  by_cases hu : u.key.pasid = p
  · simp only [hu, beq_self_eq_true, if_true]
  · simp [hu] at hp

theorem execPreemptContext_served (hr : c.resident = true) (hp : c.preempt = none) (ht : c.tearing = none) :
    execPreemptContext h p s = .next (s.preempting p c h) := by
  rw [execPreemptContext, State.manage_served hm]
  have hfree : (!c.resident || c.preempt.isSome || c.tearing.isSome) = false := by simp [hr, hp, ht]
  simp only [hc, hfree, Bool.false_eq_true, if_false]
  rfl

theorem execPreemptContext_stops (hr : c.resident = true) (hp : c.preempt = none) (ht : c.tearing = none) :
    ∃ u d, execPreemptContext h p s = .next u ∧ u.ctx? p = some d ∧ d.preempt = some (s.counter, h) ∧
      ∀ t ∈ u.tiles, t.key.pasid = p → t.csrs.stopflag = 1 :=
  ⟨s.preempting p c h, { c with preempt := some (s.counter, h) }, execPreemptContext_served hm hc hr hp ht,
    State.ctx?_setCtx_same hc rfl, rfl, State.preempting_tiles s p c h⟩

/-! Restore (R345, R346). -/

omit hm hc in
theorem State.applyAnswers_none (s : State) (p : Nat) (rs : List PageReq) (h : ∀ r ∈ rs, r.answer = none) : s.applyAnswers p rs = s := by
  induction rs with
  | nil => rfl
  | cons r rs ih =>
    rw [State.applyAnswers, h r List.mem_cons_self]
    exact ih fun x hx => h x (List.mem_cons_of_mem _ hx)

omit hm hc in
/-- A context on its new partition, with nothing saved. -/
def Context.restored (c : Context) (part : Nat) : Context := { c with part := part, resident := true, saved := none }

omit hm hc in
/-- The state in which a saved context has its caches empty, its launches back and its tiles placed. -/
def State.restoring (s : State) (p part : Nat) (c : Context) (v : SavedContext) : State :=
  (v.tiles.map fun t => t.resumed (c.restored part) v.launches s.cycle).foldl State.placeTile
    { (s.setCtx (c.restored part)).dropTlb p (fun _ => true) with
      launches := s.launches ++ v.launches.map fun l => { l with stopped := false } }

omit hm in
theorem State.restoring_ctx? (part : Nat) (v : SavedContext) :
    (s.restoring p part c v).ctx? p = some (c.restored part).uncached :=
  (State.placeTiles_ctx? _ _ _).trans (State.ctx?_dropTlb (State.ctx?_setCtx_same hc rfl))

omit hm hc in
theorem State.restoring_tile? {v : SavedContext} (hn : (v.tiles.map fun t => t.key).Nodup) (part : Nat) {t : Tile} (ht : t ∈ v.tiles) :
    (s.restoring p part c v).tile? t.key = some (t.resumed (c.restored part) v.launches s.cycle) := by
  refine State.tile?_placeTiles_of_mem (t := t.resumed (c.restored part) v.launches s.cycle) ?_
    (List.mem_map_of_mem (f := fun t => t.resumed (c.restored part) v.launches s.cycle) ht) _
  rw [List.map_map]
  exact hn

omit hm in
/-- The end of the launches of a context that is lost leaves it lost. -/
theorem State.loseContext_ctx? {d : Context} (hd : d.pasid = c.pasid) (ls : List Launch) (tile pa : Nat) (ecc : Bool) :
    ∃ e : Context, (s.loseContext d ls tile pa ecc).ctx? p = some e ∧ e.lost = true ∧ e.saved = none := by
  have hp := hd.trans (State.ctx?_pasid hc)
  subst hp
  obtain ⟨e, he, hlast⟩ := (State.errors_discard_ends (({ s with launches := s.launches ++ ls } : State).setCtx
    { d with resident := true, saved := none, lost := true })
    ((({ s with launches := s.launches ++ ls } : State).setCtx { d with resident := true, saved := none, lost := true }).queues.filter
      fun q => q.pasid == d.pasid) (if ecc then 0x08 else 0x06) 13 tile 0 pa d.pasid none 0).ctx?
    (State.ctx?_setCtx (s := { s with launches := s.launches ++ ls }) { d with resident := true, saved := none, lost := true } rfl hc)
  have hlost : e.lasting.lost = true := by rw [hlast]; rfl
  have hsaved : e.lasting.saved = none := by rw [hlast]; rfl
  exact ⟨e, he, hlost, hsaved⟩

section
variable (hr : c.resident = false) (ht : c.tearing = none) {part : Nat} (hp : s.hasPart part = true)
  (hsize : (s.partition part).2 = (s.partition c.part).2) (hfree : s.partBusy part = false)
include hr ht hp hsize hfree

/-- With a free partition of its size the request of a context that is away is served by what is saved of it. -/
theorem execRestoreContext_served : execRestoreContext h p part s = .next
    (match c.saved with
    | none => (s.setCtx { c with part := part, resident := true }).reply h 0 []
    | some v =>
      match s.badBlock c v with
      | some (tile, pa, ecc) => ((s.loseContext { c with part := part } v.launches tile pa ecc).applyAnswers p c.requests).reply h 0 []
      | none => ((s.restoring p part c v).applyAnswers p c.requests).reply h 0 []) := by
  have hpart : (!s.hasPart part || (s.partition part).2 != (s.partition c.part).2) = false := by simp [hp, hsize]
  have haway : (c.resident || c.tearing.isSome || s.partBusy part) = false := by simp [hr, ht, hfree]
  rw [execRestoreContext, State.manage_served hm]
  simp only [hc, hpart, haway, Bool.false_eq_true, if_false]
  rfl

theorem execRestoreContext_unsaved (hv : c.saved = none) :
    execRestoreContext h p part s = .next ((s.setCtx { c with part := part, resident := true }).reply h 0 []) := by
  rw [execRestoreContext_served hm hc hr ht hp hsize hfree, hv]

theorem execRestoreContext_good {v : SavedContext} (hv : c.saved = some v) (hg : s.badBlock c v = none)
    (ha : ∀ r ∈ c.requests, r.answer = none) : execRestoreContext h p part s = .next ((s.restoring p part c v).reply h 0 []) := by
  rw [execRestoreContext_served hm hc hr ht hp hsize hfree, hv]
  simp only [hg, State.applyAnswers_none _ p c.requests ha]

theorem execRestoreContext_bad {v : SavedContext} {tile pa : Nat} {ecc : Bool} (hv : c.saved = some v)
    (hb : s.badBlock c v = some (tile, pa, ecc)) : execRestoreContext h p part s =
      .next (((s.loseContext { c with part := part } v.launches tile pa ecc).applyAnswers p c.requests).reply h 0 []) := by
  rw [execRestoreContext_served hm hc hr ht hp hsize hfree, hv]
  simp only [hb]

end

/-! Queues (R312). -/

omit hm hc in
/-- The queue that a registration adds, and the state with it. -/
def State.newQueue (s : State) (p pa : Nat) : Queue :=
  { num := s.queues.foldl (fun n q => max n (q.num + 1)) 0, pasid := p, block := pa, packets := [], resident := false, rank := 0,
    served := false, parkedAt := none, parkedOn := none, parkedBy := none, reading := none }

theorem execRegisterQueue_served {va pa : Nat} {e : TlbEntry} (hn : (s.queues.filter fun q => q.pasid == p).length < 4096)
    (hal : va % 128 = 0) (hva : va < 2 ^ 57) (hw : s.walk c va = .page e) (hh : s.through c e va .write = .home pa)
    (hb : blockForm ((List.range 16).map fun i => Mem.readNat s.hbm (pa + 8 * i) 8) p = true) :
    execRegisterQueue h p va s = .next ((({ s.walked c va with queues := s.queues ++ [s.newQueue p pa] } : State).setQstate
      (s.newQueue p pa) 0).reply h 0 (bytesOfNat 8 (s.newQueue p pa).num)) := by
  have hh' : (s.walked c va).through c e va .write = .home pa := hh
  have hb' : blockForm ((List.range 16).map fun i => Mem.readNat (s.walked c va).hbm (pa + 8 * i) 8) p = true := hb
  rw [execRegisterQueue, State.manage_served hm]
  simp only [hc, decide_eq_false (Nat.not_le.mpr hn), hw, hh', hb', Bool.false_eq_true, if_false, if_true,
    if_neg (show ¬ (va % 128 ≠ 0 ∨ 2 ^ 57 ≤ va) by omega)]
  rfl

end

theorem execUnregisterQueue_served {s : State} {h : MgmtHdr} {n : Nat} {q : Queue} (hm : s.managed h) (hq : s.queue? n = some q)
    (he : q.packets = []) :
    execUnregisterQueue h n s = .next ({ s with queues := s.queues.filter fun r => r.num != n }.reply h 0 []) := by
  rw [execUnregisterQueue, State.manage_served hm]
  simp [hq, he]

/-! The completions (R339, R340). -/

section
variable {s : State} {p : Nat} {c : Context} {h : MgmtHdr} (hc : s.ctx? p = some c)

/-- The state from which everything of a context is gone. -/
def State.released (s : State) (p : Nat) : State :=
  { s.dropTlb p fun _ => true with
    tile := if s.tile.key.pasid = p then Tile.blank s.tile.key else s.tile,
    others := s.others.filter fun t => t.key.pasid != p,
    launches := s.launches.filter fun l => l.key.pasid != p,
    queues := s.queues.filter fun q => q.pasid != p,
    contexts := s.contexts.filter fun d => d.pasid != p }

include hc in
theorem execTeardownComplete_releases (ht : c.tearing = some h) (hu : s.up = true) :
    execTeardownComplete p s = .next ((s.released p).reply h 0 []) := by
  simp only [execTeardownComplete, hc, ht, hu, Bool.not_true, Bool.false_eq_true, if_false]
  rfl

theorem State.released_gone (s : State) (p : Nat) : (s.released p).ctx? p = none ∧ (∀ q ∈ (s.released p).queues, q.pasid ≠ p) ∧
    (∀ l ∈ (s.released p).launches, l.key.pasid ≠ p) ∧ ∀ t ∈ (s.released p).others, t.key.pasid ≠ p := by
  refine ⟨?_, fun q hq => by simpa using (List.mem_filter.mp hq).2, fun l hl => by simpa using (List.mem_filter.mp hl).2,
    fun t ht => by simpa using (List.mem_filter.mp ht).2⟩
  simp [State.released, State.ctx?, List.find?_eq_none]

/-- A write of areas leaves the contexts. -/
theorem State.writeAreas_contexts (s : State) (c : Context) (v : SavedContext) : (s.writeAreas c v).contexts = s.contexts :=
  foldl_keep (P := fun x : State => x.contexts = s.contexts) _ rfl fun _ _ _ hx =>
    foldl_keep (P := fun y : State => y.contexts = s.contexts) _ hx fun _ _ _ hy => hy

/-- What is saved of a context. -/
def State.savedOf (s : State) (p : Nat) (c : Context) : SavedContext :=
  ⟨c.seq + 1, s.draws, (s.tiles.filter fun t => t.key.pasid == p).map Tile.saved, s.launches.filter fun l => l.key.pasid == p⟩

/-- A context that has been saved and has left its partition. -/
def Context.away (c : Context) (v : SavedContext) : Context :=
  { c with preempt := none, resident := false, seq := c.seq + 1, saved := some v }

/-- The state after a save. -/
def State.saving (s : State) (p : Nat) (c : Context) : State :=
  let s1 := ({ s with draws := s.draws + 1 }.writeAreas c (s.savedOf p c)).setCtx (c.away (s.savedOf p c))
  { s1 with
    tile := if s1.tile.key.pasid = p then Tile.blank s1.tile.key else s1.tile,
    others := s1.others.filter fun t => t.key.pasid != p,
    launches := s1.launches.filter fun l => l.key.pasid != p }.onQueues p fun q =>
      { q with packets := q.packets.map Packet.recalled, reading := none }

include hc

theorem State.saving_ctx? : (s.saving p c).ctx? p = some (c.away (s.savedOf p c)) := by
  have hw : ({ s with draws := s.draws + 1 }.writeAreas c (s.savedOf p c)).ctx? p = some c := by
    rw [State.ctx?, State.writeAreas_contexts]
    exact hc
  exact State.ctx?_setCtx_same hw rfl

theorem execContextSaveComplete_saves {n : Nat} (hp : c.preempt = some (n, h))
    (ht : ∀ t ∈ s.tiles, t.key.pasid = p → s.saveReady t = true)
    (hl : ∀ l ∈ s.launches, l.key.pasid = p → l.saveReady = true) :
    execContextSaveComplete p s = .next ((s.saving p c).reply h 0 []) := by
  have htiles : (s.tiles.filter fun t => t.key.pasid == p).all s.saveReady = true := by
    simpa [← imp_iff_not_or] using ht
  have hlaunches : (s.launches.filter fun l => l.key.pasid == p).all Launch.saveReady = true := by
    simpa [← imp_iff_not_or] using hl
  simp only [execContextSaveComplete, hc, hp, htiles, hlaunches, Bool.and_self, if_true]
  rfl

end

/-- Settles O53: the requests of the management controller, and the two completions that answer later. -/
theorem contextOperations : Obligations.ContextOperations := by
  unfold Obligations.ContextOperations
  refine ⟨fun s h hm => ⟨fun block hb hn => ?create, fun p c hc => ⟨fun ht => execTeardownContext_tears hm hc ht,
    fun hr hp ht => execPreemptContext_stops hm hc hr hp ht, fun hr ht part hp hsize hfree => ?restore,
    fun va e pa hn hal hva hw hh hb => ?register⟩, fun n q hq he => execUnregisterQueue_served hm hq he⟩,
    fun s p c h hc => ⟨fun ht hu => ?released, fun n hp ht hl => ?saved⟩⟩
  case create =>
    exact ⟨_, execCreateContext_served hm hb hn, rfl, rfl, rfl, by simp [contextOf], rfl⟩
  case restore =>
    refine ⟨execRestoreContext_unsaved hm hc hr ht hp hsize hfree, fun v hv hg ha hn => ?_, fun v tile pa ecc hv hb => ?_⟩
    · exact ⟨s.restoring p part c v, (c.restored part).uncached, execRestoreContext_good hm hc hr ht hp hsize hfree hv hg ha,
        State.restoring_ctx? hc part v, rfl, rfl, fun t => State.restoring_tile? hn part⟩
    · exact ⟨execRestoreContext_bad hm hc hr ht hp hsize hfree hv hb,
        State.loseContext_ctx? (d := { c with part := part }) hc rfl v.launches tile pa ecc⟩
  case register =>
    exact ⟨_, s.newQueue p pa, execRegisterQueue_served hm hc hn hal hva hw hh hb, rfl, rfl, rfl, rfl⟩
  case released =>
    obtain ⟨hctx, hqueues, hlaunches, htiles⟩ := State.released_gone s p
    exact ⟨s.released p, execTeardownComplete_releases hc ht hu, hctx, hqueues, hlaunches, htiles⟩
  case saved =>
    exact ⟨s.saving p c, c.away (s.savedOf p c), execContextSaveComplete_saves hc hp ht hl, State.saving_ctx? hc, rfl, rfl, rfl,
      fun l hl => by simpa using (List.mem_filter.mp hl).2, rfl⟩

end Sys2Proof.Machine
end

section
/-! PROOFS. The packets of a queue (R316, R318, R322, R325, R326, R370): the start of a launch, the test of one signal, a signal changed, the
seed stack, and each packet by its event. -/

namespace Sys2Proof.Machine

/-! A launch is made of a packet and an image (R316, R322). -/

/-- The launch that a packet asks for in a context. -/
def Packet.launchOf (k : Packet) (c : Context) (q : Queue) (image : List Byte) : Launch :=
  { key := ⟨c.pasid, c.nextLaunch⟩, number := 0, queue := q.num, packet := k.index, index := 0, image := parseImage image,
    stage := .waiting, begun := false, abs := if fld (k.word 3) 63 1 = 1 then some (fld (k.word 3) 0 63) else none, g := 0, s := 0,
    interval := 0, rt := 0, slots := [], slotPoison := [], coll := [], links := [], fired := false, stopped := false, shard := none,
    pendingCount := [], taken := [], seedDigest := [] }

section
variable {s s1 : State} {q : Queue} {k : Packet} {c : Context} {bs : List Byte} (n : Nat) (hl : s.loadImage q k = (s1, .got bs))
  (hc : s1.ctx? q.pasid = some c)
include hl hc

theorem State.startLaunch_launches : (s.startLaunch q k n).launches = s1.launches ++ [k.launchOf c q bs] := by
  simp only [State.startLaunch, hl, State.newLaunch, hc]
  rfl

theorem State.startLaunch_ctx? : (s.startLaunch q k n).ctx? q.pasid = some { c with nextLaunch := c.nextLaunch + 1 } := by
  simp only [State.startLaunch, hl, State.newLaunch, hc]
  exact State.ctx?_setCtx_same hc rfl

end

section
variable {s s1 s2 : State} {q : Queue} {k : Packet} {c : Context} {hdr bs : List Byte}

theorem State.loadImage_slot (hc : s.ctx? q.pasid = some c) (hk : fld (k.word 1) 3 1 = 0) :
    s.loadImage q k = (s, .got ((c.images[fld (k.word 1) 0 3]?).join.getD [])) := by
  simp only [State.loadImage, hk, if_true, hc, Option.bind_some]

/-- A context that keeps an image in the slot that the packet names when its digest holds. -/
def Context.withImage (c : Context) (k : Packet) (bs : List Byte) : Context :=
  { c with images := if (parseImage bs).digestOk = true then c.images.set (fld (k.word 1) 0 3) (some bs) else c.images }

/-- An image that is read reaches the slot of the context; nothing else changes but by the reads. -/
theorem State.loadImage_read (hk : fld (k.word 1) 3 1 = 1)
    (hhdr : s.hubRead q.pasid .frontEnd (k.word 2) 0x740 2 = (s1, .got hdr)) (hlen : k.word 2 + imgLength hdr ≤ 2 ^ 57)
    (hbs : s1.hubRead q.pasid .frontEnd (k.word 2) (imgLength hdr) (granules (imgLength hdr)) = (s2, .got bs))
    (hc : s2.ctx? q.pasid = some c) : ∃ s3, s.loadImage q k = (s3, .got bs) ∧ s3.launches = s2.launches ∧
      s3.ctx? q.pasid = some (c.withImage k bs) := by
  simp only [State.loadImage, hk, hhdr, if_neg (Nat.not_lt.mpr hlen), hbs, hc, Nat.one_ne_zero, if_false, Context.withImage]
  by_cases hd : (parseImage bs).digestOk = true
  · simp only [hd, if_true]
    exact ⟨_, rfl, rfl, State.ctx?_setCtx_same hc rfl⟩
  · simp only [hd, Bool.false_eq_true, if_false]
    exact ⟨_, rfl, rfl, hc⟩

end

/-! Signals (R316). -/

section
variable {s s1 : State} {q : Queue} {k : Packet} {bs : List Byte}

/-- The test of one signal is the test of what it reads. -/
theorem State.testSignals_one {ok : Nat → Bool} {w : Nat} (hr : s.readSignal q w = (s1, .got bs)) :
    s.testSignals q ok [w] = (s1, .got (ok (natOfBytes bs))) := by
  simp only [State.testSignals, hr]
  cases ok (natOfBytes bs) <;> rfl

theorem State.testPacket_wait (ht : k.type = 0x03) (hr : s.readSignal q (k.word 1) = (s1, .got bs)) :
    s.testPacket q k = (s1, .got (waitHolds (fld (k.word 3) 0 2) (k.word 2) (natOfBytes bs))) := by
  rw [State.testPacket, if_pos ht, State.testSignals_one hr]

/-- A BARRIER_AND that names one signal. -/
theorem State.testPacket_barrier (ht : k.type = 0x0A) (h1 : k.word 1 ≠ 0) (h2 : k.word 2 = 0) (h3 : k.word 3 = 0) (h4 : k.word 4 = 0)
    (h5 : k.word 5 = 0) (hr : s.readSignal q (k.word 1) = (s1, .got bs)) : s.testPacket q k = (s1, .got (natOfBytes bs == 0)) := by
  have hnames : (([1, 2, 3, 4, 5].map k.word).filter fun x => x != 0) = [k.word 1] := by simp [h1, h2, h3, h4, h5]
  rw [State.testPacket, if_neg (by omega), hnames, State.testSignals_one hr]

/-- A packet that waits completes as its test holds. -/
theorem State.waitPacket_tested {b : Bool} (hq : s.qstate q ≠ 4)
    (ht : (s.onQueue q.num fun r => r.setPacket { k with started := true }).testPacket q k = (s1, .got b)) :
    s.waitPacket q k = if b = true then s1.completePacket q.num k.index else s1 := by
  simp only [State.waitPacket, if_neg hq, ht]
  cases b <;> rfl

/-- A signal changed at its home. -/
theorem State.hubAtomic_home {p va pa : Nat} (hr : s.reach p .frontEnd va .atomic = (s1, .home pa)) (hp : s1.hbmPoisoned pa 8 = false)
    (op : AtomOp) (v : Word) : s.hubAtomic p va op v =
      (s1.hbmWrite pa (bytesOfNat 8 (atomResult op (Mem.readWord s1.hbm pa) v 0).1.toNat), .got ()) := by
  simp only [State.hubAtomic, hr, hp, Bool.false_eq_true, if_false]

end

/-! The seed stack (R326). -/

section
variable {s : State} {q : Queue} {k : Packet} {c : Context} {f : List (BitVec 256) → Option (List (BitVec 256))} (hc : s.ctx? q.pasid = some c)
include hc

theorem State.seedPacket_some {l : List (BitVec 256)} (hf : f c.seeds = some l) (detail : Nat) :
    s.seedPacket q k f detail = (s.setCtx { c with seeds := l }).completePacket q.num k.index := by
  simp only [State.seedPacket, hc, hf]

theorem State.seedPacket_none (hf : f c.seeds = none) (detail : Nat) : s.seedPacket q k f detail = s.failPacket q.num k.index 0x0E detail := by
  simp only [State.seedPacket, hc, hf]
  rfl

end

/-! Each packet that may start, by its event. -/

section
variable {s : State} {n i : Nat} {q : Queue} {k : Packet} {c : Context} (hq : s.queue? n = some q) (hk : q.packet? i = some k)
  (hm : s.mayStart q k = true) (hc : s.ctx? q.pasid = some c)
include hq hk hm

section
variable (hf : k.started = false)

include hf in
/-- A packet that has not started runs its event. -/
theorem State.onPacket_fresh {type : Nat} (ht : k.type = type) (f : Queue → Packet → State) :
    s.onPacket n i type Packet.fresh f = .next (f q k) :=
  State.onPacket_some f hq hk ht hm (by simp [Packet.fresh, hf])

include hf

theorem execTimetable_starts (ht : k.type = 0x01) : execTimetable n i s = .next (s.startLaunch q k 1) :=
  State.onPacket_fresh hq hk hm hf ht _

include hc in
theorem execTimetable_slot (ht : k.type = 0x01) (hw : fld (k.word 1) 3 1 = 0) : ∃ u : State, execTimetable n i s = .next u ∧
    u.launches = s.launches ++ [k.launchOf c q ((c.images[fld (k.word 1) 0 3]?).join.getD [])] :=
  ⟨_, execTimetable_starts hq hk hm hf ht, State.startLaunch_launches 1 (State.loadImage_slot hc hw) hc⟩

theorem execTimetable_read {s1 s2 : State} {hdr bs : List Byte} {d : Context} (ht : k.type = 0x01) (hw : fld (k.word 1) 3 1 = 1)
    (hhdr : s.hubRead q.pasid .frontEnd (k.word 2) 0x740 2 = (s1, .got hdr)) (hlen : k.word 2 + imgLength hdr ≤ 2 ^ 57)
    (hbs : s1.hubRead q.pasid .frontEnd (k.word 2) (imgLength hdr) (granules (imgLength hdr)) = (s2, .got bs))
    (hd : s2.ctx? q.pasid = some d) : ∃ u : State, execTimetable n i s = .next u ∧
      u.launches = s2.launches ++ [k.launchOf (d.withImage k bs) q bs] ∧
      u.ctx? q.pasid = some { d.withImage k bs with nextLaunch := d.nextLaunch + 1 } := by
  obtain ⟨s3, hload, hlaunches, hctx⟩ := State.loadImage_read hw hhdr hlen hbs hd
  exact ⟨_, execTimetable_starts hq hk hm hf ht, hlaunches ▸ State.startLaunch_launches 1 hload hctx, State.startLaunch_ctx? 1 hload hctx⟩

theorem execTimetableIndirect_count {s1 : State} {bs : List Byte} (ht : k.type = 0x02)
    (hr : s.hubRead1 q.pasid .frontEnd (k.word 4) 4 = (s1, .got bs)) : execTimetableIndirect n i s =
      .next (if natOfBytes bs = 0 then s1.completePacket n i else s1.startLaunch q k (natOfBytes bs)) := by
  rw [execTimetableIndirect, State.onPacket_fresh hq hk hm hf ht]
  simp only [hr]

theorem execWait_tested {s1 : State} {bs : List Byte} (ht : k.type = 0x03) (hs : s.qstate q ≠ 4)
    (hr : (s.onQueue q.num fun r => r.setPacket { k with started := true }).readSignal q (k.word 1) = (s1, .got bs)) :
    execWait n i s = .next (if waitHolds (fld (k.word 3) 0 2) (k.word 2) (natOfBytes bs) = true then
      s1.completePacket q.num k.index else s1) := by
  rw [execWait, State.onPacket_fresh hq hk hm hf ht, State.waitPacket_tested hs (State.testPacket_wait ht hr)]

theorem execBarrierAnd_tested {s1 : State} {bs : List Byte} (ht : k.type = 0x0A) (hs : s.qstate q ≠ 4) (h1 : k.word 1 ≠ 0)
    (h2 : k.word 2 = 0) (h3 : k.word 3 = 0) (h4 : k.word 4 = 0) (h5 : k.word 5 = 0)
    (hr : (s.onQueue q.num fun r => r.setPacket { k with started := true }).readSignal q (k.word 1) = (s1, .got bs)) :
    execBarrierAnd n i s = .next (if natOfBytes bs = 0 then s1.completePacket q.num k.index else s1) := by
  rw [execBarrierAnd, State.onPacket_fresh hq hk hm hf ht,
    State.waitPacket_tested hs (State.testPacket_barrier ht h1 h2 h3 h4 h5 hr)]
  simp only [beq_iff_eq]

section
variable {s1 : State} {pa : Nat} (ht : k.type = 0x04)
  (hr : s.reach q.pasid .frontEnd (s.signalAddr q (k.word 1)) .atomic = (s1, .home pa)) (hp : s1.hbmPoisoned pa 8 = false)
include ht hr hp

theorem execSignal_set (hw : k.word 2 = 0) : execSignal n i s =
    .next ((s1.hbmWrite pa (bytesOfNat 8 (BitVec.ofNat 64 (k.word 3)).toNat)).completePacket n i) := by
  rw [execSignal, State.onPacket_fresh hq hk hm hf ht]
  simp only [hw, State.hubAtomic_home hr hp]
  rfl

theorem execSignal_add (hw : k.word 2 = 1) : execSignal n i s = .next ((s1.hbmWrite pa
    (bytesOfNat 8 (Mem.readWord s1.hbm pa + BitVec.ofNat 64 (k.word 3)).toNat)).completePacket n i) := by
  rw [execSignal, State.onPacket_fresh hq hk hm hf ht]
  simp only [hw, State.hubAtomic_home hr hp]
  rfl

theorem execSignal_sub (hw : k.word 2 = 2) : execSignal n i s = .next ((s1.hbmWrite pa
    (bytesOfNat 8 (Mem.readWord s1.hbm pa - BitVec.ofNat 64 (k.word 3)).toNat)).completePacket n i) := by
  have hsub : ∀ a b : Word, a + (0 - b) = a - b := fun a b => by bv_omega
  rw [execSignal, State.onPacket_fresh hq hk hm hf ht]
  simp only [hw, State.hubAtomic_home hr hp, atomResult, hsub]
  rfl

end

section
include hc

theorem execSeedPush_room (ht : k.type = 0x06) (hn : c.seeds.length < 16) : execSeedPush n i s = .next ((s.setCtx { c with
    seeds := BitVec.ofNat 256 (k.word 1 + k.word 2 * 2 ^ 64 + k.word 3 * 2 ^ 128 + k.word 4 * 2 ^ 192) :: c.seeds }).completePacket
      q.num k.index) := by
  rw [execSeedPush, State.onPacket_fresh hq hk hm hf ht]
  exact congrArg _ (State.seedPacket_some hc (if_pos hn) 6)

theorem execSeedPush_full (ht : k.type = 0x06) (hn : 16 ≤ c.seeds.length) :
    execSeedPush n i s = .next (s.failPacket q.num k.index 0x0E 6) := by
  rw [execSeedPush, State.onPacket_fresh hq hk hm hf ht]
  exact congrArg _ (State.seedPacket_none hc (if_neg (Nat.not_lt.mpr hn)) 6)

theorem execSeedPop_top (ht : k.type = 0x07) {v : BitVec 256} {more : List (BitVec 256)} (hl : c.seeds = v :: more) :
    execSeedPop n i s = .next ((s.setCtx { c with seeds := more }).completePacket q.num k.index) := by
  rw [execSeedPop, State.onPacket_fresh hq hk hm hf ht]
  exact congrArg _ (State.seedPacket_some hc (by rw [hl]) 7)

theorem execSeedPop_empty (ht : k.type = 0x07) (hl : c.seeds = []) :
    execSeedPop n i s = .next (s.failPacket q.num k.index 0x0E 7) := by
  rw [execSeedPop, State.onPacket_fresh hq hk hm hf ht]
  exact congrArg _ (State.seedPacket_none hc (by rw [hl]) 7)

theorem execSeedFork_top (ht : k.type = 0x08) {v : BitVec 256} {more : List (BitVec 256)} (hl : c.seeds = v :: more)
    (hn : c.seeds.length < 16) : execSeedFork n i s =
      .next ((s.setCtx { c with seeds := seedChild v (k.word 1) :: c.seeds }).completePacket q.num k.index) := by
  rw [execSeedFork, State.onPacket_fresh hq hk hm hf ht]
  refine congrArg _ (State.seedPacket_some hc ?_ _)
  rw [hl] at hn ⊢
  exact if_pos hn

theorem execSeedFork_empty (ht : k.type = 0x08) (hl : c.seeds = []) :
    execSeedFork n i s = .next (s.failPacket q.num k.index 0x0E 7) := by
  rw [execSeedFork, State.onPacket_fresh hq hk hm hf ht]
  simp only [hc, Option.map_some, Option.getD_some]
  rw [State.seedPacket_none hc (by rw [hl]), hl]
  rfl

theorem execSeedFork_full (ht : k.type = 0x08) (hn : 16 ≤ c.seeds.length) :
    execSeedFork n i s = .next (s.failPacket q.num k.index 0x0E 6) := by
  rw [execSeedFork, State.onPacket_fresh hq hk hm hf ht]
  simp only [hc, Option.map_some, Option.getD_some, if_neg (show c.seeds.length ≠ 0 by omega)]
  refine congrArg _ (State.seedPacket_none hc ?_ 6)
  cases hl : c.seeds with
  | nil => rfl
  | cons v more => exact if_neg (Nat.not_lt.mpr (hl ▸ hn))

theorem execCheckpointPolicy_stored (ht : k.type = 0x09) (hs : c.ckpt.store ≠ 0) :
    execCheckpointPolicy n i s = .next ((s.setCtx { c with ckpt := { c.ckpt with
      interval := k.word 1, period := k.word 2, stream := k.word 3 == 1, handle := k.word 4,
      timerFrom := if k.word 2 = 0 then none else some s.cycle } }).completePacket n i) := by
  rw [execCheckpointPolicy, State.onPacket_fresh hq hk hm hf ht]
  simp only [hc, if_neg (fun h : c.ckpt.store = 0 ∧ (k.word 1 ≠ 0 ∨ k.word 2 ≠ 0) => hs h.1)]

end

end

/-! COPY: the command is read and checked, and the packet completes with its last element (R316). -/

section
variable (ht : k.type = 0x05)
include ht

/-- A COPY packet whose turn it is goes on. -/
theorem execCopy_turn (hturn : q.copyTurn k = true) : execCopy n i s = .next (s.copyPacket q k) :=
  State.onPacket_some _ hq hk ht hm (by simp [hq, hturn])

/-- The command of a COPY packet as it is taken. -/
def Packet.command (k : Packet) (ws : List Word) : CopyCmd :=
  { num := k.index, words := ws, issue := 0, pos := 0, bundle := 0, due := none, upto := 0, gang := (0, 1), started := true, halted := false,
    paused := none, prog := 0, read := [], data := none, left := [], stale := [], stage := .running, record := none, since := none }

include hc in
theorem execCopy_reads {s1 : State} {bs : List Byte} (hn : k.copy = none)
    (hr : s.hubRead1 q.pasid .frontEnd (k.word 1) 64 = (s1, .got bs)) :
    let ws := (chunks 8 8 bs).map fun b => BitVec.ofNat 64 (natOfBytes b)
    (hubCommandError (s.partTiles c) ws = none → execCopy n i s =
      .next (s1.onQueue q.num fun r => r.setPacket { k with started := true, copy := some (k.command ws) })) ∧
    ∀ x, hubCommandError (s.partTiles c) ws = some x → execCopy n i s = .next (s1.failPacket q.num k.index x.code 4) := by
  have hgo := execCopy_turn hq hk hm ht (by rw [Queue.copyTurn, hn])
  have hpacket : s.copyPacket q k = s.copyRead1 q k (s.partTiles c) := by
    simp only [State.copyPacket, hn, hc, Option.map_some, Option.getD_some]
  rw [hgo, hpacket]
  refine ⟨fun he => ?_, fun x he => ?_⟩
  · simp only [State.copyRead1, hr, word, he]
    rfl
  · simp only [State.copyRead1, hr, word, he]

theorem execCopy_ends {d : CopyCmd} (hd : k.copy = some d) (he : cmdElems d.words ≤ d.prog) (hturn : q.copyTurn k = true) :
    execCopy n i s = .next (s.completePacket q.num k.index) := by
  rw [execCopy_turn hq hk hm ht hturn]
  simp only [State.copyPacket, hd, if_pos he]

end

theorem execSignalConditionMet_holds {s1 : State} {bs : List Byte} (ht : k.type = 0x03) (hst : k.started = true)
    (hr : s.readSignal q (k.word 1) = (s1, .got bs)) (hw : waitHolds (fld (k.word 3) 0 2) (k.word 2) (natOfBytes bs) = true) :
    execSignalConditionMet n i s = .next (s.waitPacket q k) := by
  have htest := State.testPacket_wait ht hr
  rw [hw] at htest
  simp only [execSignalConditionMet, hq, hk, ht, hst, hm, htest, beq_self_eq_true, Bool.true_or, Bool.and_self, if_true]

end

/-- Settles O54: a packet that may start, by its type. -/
theorem packets : Obligations.Packets := by
  unfold Obligations.Packets
  refine fun s n i q k c hq hk hm hc => ⟨fun hf => ⟨fun ht => State.onPacket_fresh hq hk hm hf ht _, fun ht hw => ?slot,
    fun s1 hdr s2 bs ht hw hhdr hlen hbs d2 hd => ?image, fun s1 bs ht hr => ?indirect,
    fun s1 bs hs hr => ⟨fun ht => execWait_tested hq hk hm hf ht hs hr,
      fun ht h1 h2 h3 h4 h5 => execBarrierAnd_tested hq hk hm hf ht hs h1 h2 h3 h4 h5 hr⟩,
    fun s1 pa ht hr hp => ⟨execSignal_set hq hk hm hf ht hr hp, execSignal_add hq hk hm hf ht hr hp, execSignal_sub hq hk hm hf ht hr hp⟩,
    fun ht => ⟨execSeedPush_room hq hk hm hc hf ht, execSeedPush_full hq hk hm hc hf ht⟩,
    fun ht => ⟨fun v more => execSeedPop_top hq hk hm hc hf ht, execSeedPop_empty hq hk hm hc hf ht⟩,
    fun ht => ⟨fun v more => execSeedFork_top hq hk hm hc hf ht, execSeedFork_empty hq hk hm hc hf ht,
      execSeedFork_full hq hk hm hc hf ht⟩, execCheckpointPolicy_stored hq hk hm hc hf⟩,
    fun ht => ⟨fun s1 bs hn hr => ?copy, fun d hd => execCopy_ends hq hk hm ht hd⟩,
    fun s1 bs ht hst _ hr hw => execSignalConditionMet_holds hq hk hm ht hst hr hw⟩
  case slot =>
    obtain ⟨u, hu, hl⟩ := execTimetable_slot hq hk hm hc hf ht hw
    exact ⟨u, _, hu, hl, rfl, rfl, rfl, rfl, rfl, rfl, rfl⟩
  case image =>
    obtain ⟨u, hu, hl, hctx⟩ := execTimetable_read hq hk hm hf ht hw hhdr hlen hbs hd
    have hpas : d2.pasid = c.pasid := (State.ctx?_pasid hd).trans (State.ctx?_pasid hc).symm
    exact ⟨u, _, _, hu, hl, hpas, rfl, rfl, hctx, rfl⟩
  case indirect =>
    have hcount := execTimetableIndirect_count hq hk hm hf ht hr
    exact ⟨fun h => hcount.trans (by rw [if_pos h]), fun h => hcount.trans (by rw [if_neg h])⟩
  case copy =>
    obtain ⟨hgood, hbad⟩ := execCopy_reads hq hk hm hc ht hn hr
    exact ⟨fun he => ⟨_, rfl, rfl, hgood he⟩, hbad⟩

end Sys2Proof.Machine
end

section
/-! PROOFS. The states of a queue (R312 to R314, R317, R318, R327): a poll, its reads, CTRL, and a queue parked too long. -/

namespace Sys2Proof.Machine

section
variable {s : State} {n : Nat} {q : Queue} (hq : s.queue? n = some q)
include hq

/-! A poll (R313, R314, R317, R318). -/

section
variable {c : Context} (hu : s.up = true) (hn : ∀ k ∈ q.packets, k.complete = false) (hs : s.qstate q = 1) (hc : s.ctx? q.pasid = some c)
  (hr : c.resident = true) (ht : c.tearing = none)
include hu hn hc hr ht

/-- A queue of a context that is served owes no signal: the poll goes on to its ring, or idles it. -/
theorem execQueuePoll_idles (hi : s.goesIdle q = true) : execQueuePoll n s = .next (s.setQstate q 0) := by
  have hnone : q.packets.find? (fun k => k.complete) = none := List.find?_eq_none.mpr fun k hk => by simp [hn k hk]
  have hserves : c.serves = true := by simp [Context.serves, hr, ht]
  simp only [execQueuePoll, hq, hu, hc, hnone, hi, hserves, Option.map_some, Option.getD_some, Bool.not_true, Bool.or_self, if_true,
    Bool.false_eq_true, if_false]

theorem execQueuePoll_polls (hi : s.goesIdle q = false) (hres : q.resident = true) (htk : s.takes q = true) (hb : s.behind q ≠ 0) :
    execQueuePoll n s = .next (s.pollQueue q) := by
  have hnone : q.packets.find? (fun k => k.complete) = none := List.find?_eq_none.mpr fun k hk => by simp [hn k hk]
  have hserves : c.serves = true := by simp [Context.serves, hr, ht]
  have hresidency : s.residency q = some s := if_pos hres
  simp only [execQueuePoll, hq, hu, hc, hnone, hi, hserves, hresidency, htk, decide_eq_false hb, Option.map_some, Option.getD_some,
    Bool.not_true, Bool.or_self, Bool.false_eq_true, if_false]

end

/-! The end of a wait for a page (R318). -/

theorem execQueueParkTimeout_fails {c : Nat} (hs : s.qstate q = 2) (hp : q.parkedAt = some c) (ht : c + Config.tenMsCycles ≤ s.cycle) :
    execQueueParkTimeout n s = .next (s.parkFails q) := by
  simp only [execQueueParkTimeout, hq, hs, hp, Option.getD_some, ht, and_self, if_true]

/-! CTRL (R318). -/

section
variable (hu : s.up = true)
include hu

theorem execQueueRestart_error (hc : s.qword q 3 = 1) (hs : s.qstate q = 3) :
    let v := (((s.setQword q 3 0).setQword q 5 0).setQword q 8 0).setQword q 9 0
    execQueueRestart n s = .next ((v.setQstate q (if v.qword q 2 < v.qword q 1 then 1 else 0)).onQueue n Queue.unparked) := by
  simp only [execQueueRestart, hq, hu, hc, hs, and_self, if_true]

theorem execQueueDestroy_drains (hc : s.qword q 3 = 2) (hs : s.qstate q < 4) : execQueueDestroy n s =
    .next (((s.setQword q 3 0).setQstate q 4).onQueue n fun r =>
      { r.unparked with packets := r.packets.filter fun k => k.type != 0x03 && k.type != 0x0A }) := by
  simp only [execQueueDestroy, hq, hu, hc, hs, and_self, if_true]

theorem execQueueDestroyed_drained (hs : s.qstate q = 4) (he : q.packets = []) : execQueueDestroyed n s = .next (s.setQstate q 5) := by
  simp only [execQueueDestroyed, hq, hu, hs, List.isEmpty_iff.mpr he, and_self, if_true]

end

end

/-! One poll of a ring (R313, R314). -/

section
variable {s : State} {q : Queue}

theorem State.goesIdle_empty (hs : s.qstate q = 1) (he : q.packets = []) (hw : s.qword q 1 = s.qword q 2) : s.goesIdle q = true := by
  simp [State.goesIdle, hs, he, hw]

theorem State.goesIdle_behind (hb : s.behind q ≠ 0) : s.goesIdle q = false := by
  have hw : s.qword q 1 ≠ s.qword q 2 := fun h => hb (by rw [State.behind, h, Nat.sub_self])
  simp [State.goesIdle, hw]

theorem State.pollQueue_overrun (hb : 2 ^ s.logn q < s.behind q) : s.pollQueue q = s.queueFail q 0x0E 5 := if_pos hb

/-- A queue that has had its turn (R327). -/
def State.polled (s : State) (q : Queue) : State := s.onQueue q.num fun x => { x with served := true }

@[simp] theorem State.polled_qword (s : State) (q r : Queue) (i : Nat) : (s.polled q).qword r i = s.qword r i := rfl

@[simp] theorem State.polled_packetAddr (s : State) (q r : Queue) : (s.polled q).packetAddr r = s.packetAddr r := by
  simp only [State.packetAddr, State.logn, State.polled_qword]

@[simp] theorem State.polled_phaseDue (s : State) (q r : Queue) : (s.polled q).phaseDue r = s.phaseDue r := by
  simp only [State.phaseDue, State.logn, State.polled_qword]

@[simp] theorem State.tickFresh_packetAddr (s : State) (r : Queue) : s.tickFresh.packetAddr r = s.packetAddr r := by
  simp only [State.packetAddr, State.logn, show ∀ i, s.tickFresh.qword r i = s.qword r i from fun _ => rfl]

/-- A poll reads the next packet of the queue that has had its turn. -/
theorem State.pollRing_eq (s : State) (q : Queue) : s.pollRing q =
    match (s.polled q).readingOf q with
    | none => (s.polled q).readWord q 0 fun s1 h =>
      if fld h.toNat 8 1 = (s.polled q).phaseDue q then
        s1.onQueue q.num fun x => { x with reading := some ⟨(s.polled q).qword q 2, some h :: List.replicate 7 none⟩ }
      else s1
    | some r => (s.polled q).tickFresh.readWord q (listGet r.left ((s.polled q).pick r.left.length) 0) fun s1 v =>
      s1.bodyWord q r (listGet r.left ((s.polled q).pick r.left.length) 0) v := rfl

theorem State.pollQueue_full (hb : s.behind q ≤ 2 ^ s.logn q) (hl : 64 ≤ q.packets.length) : s.pollQueue q = s.polled q :=
  (if_neg (Nat.not_lt.mpr hb)).trans (if_pos hl)

theorem State.pollQueue_ring (hb : s.behind q ≤ 2 ^ s.logn q) (hl : q.packets.length < 64) (hs : s.qstate q = 1) :
    s.pollQueue q = s.pollRing q := by
  rw [State.pollQueue, if_neg (Nat.not_lt.mpr hb), if_neg (Nat.not_le.mpr hl), hs, if_neg Nat.one_ne_zero]

theorem State.readWord_got {s1 : State} {bs : List Byte} {w : Nat}
    (hr : s.hubRead1 q.pasid .frontEnd (s.packetAddr q + 8 * w) 8 = (s1, .got bs)) (f : State → Word → State) :
    s.readWord q w f = f s1 (BitVec.ofNat 64 (natOfBytes bs)) := by
  simp only [State.readWord, hr]
  rfl

/-- With nothing of it read yet the header comes first, and goes on alone once its phase has matched. -/
theorem State.pollRing_header {s1 : State} {bs : List Byte} (hn : q.reading = none)
    (hr : (s.polled q).hubRead1 q.pasid .frontEnd (s.packetAddr q) 8 = (s1, .got bs)) :
    let h := BitVec.ofNat 64 (natOfBytes bs)
    s.pollRing q = if fld h.toNat 8 1 = s.phaseDue q then
      s1.onQueue q.num fun x => { x with reading := some ⟨s.qword q 2, some h :: List.replicate 7 none⟩ } else s1 := by
  have hnone : (s.polled q).readingOf q = none := by rw [State.readingOf, hn]; rfl
  have hread := State.readWord_got (s := s.polled q) (q := q) (w := 0) (by rw [Nat.mul_zero, Nat.add_zero, State.polled_packetAddr]; exact hr)
  simp only [State.pollRing_eq, hnone, hread, State.polled_phaseDue, State.polled_qword]

/-- A word of the body that is still to be read is read, and goes into its place. -/
theorem State.pollRing_body {r : RingRead} (hr : q.reading = some r) (hi : r.index = s.qword q 2) (hl : r.left ≠ []) :
    ∃ w ∈ r.left, ∀ s1 bs, (s.polled q).tickFresh.hubRead1 q.pasid .frontEnd (s.packetAddr q + 8 * w) 8 = (s1, .got bs) →
      s.pollRing q = s1.bodyWord q r w (BitVec.ofNat 64 (natOfBytes bs)) := by
  have hsome : (s.polled q).readingOf q = some r := by
    rw [State.readingOf, hr]
    exact Option.filter_eq_some_iff.mpr ⟨rfl, by rw [hi, State.polled_qword]; exact beq_self_eq_true _⟩
  refine ⟨_, listGet_pick_mem (s.polled q) hl 0, fun s1 bs hgot => ?_⟩
  have hread := State.readWord_got (s := (s.polled q).tickFresh) (q := q)
    (by rw [State.tickFresh_packetAddr, State.polled_packetAddr]; exact hgot)
  simp only [State.pollRing_eq, hsome, hread]

/-! A queue parked too long (R318, R366). -/

theorem State.parkFails_alone (hp : q.parkedBy = none) : s.parkFails q = s.queueFail q 0x05 12 := by
  rw [State.parkFails, hp]
  rfl

section
variable {i : Nat} (hp : q.parkedBy = some i)
include hp

theorem State.parkFails_packet (hl : ∀ l ∈ s.launches, l.queue = q.num → l.packet = i → l.begun = false ∨ l.stage ≠ .waiting) :
    s.parkFails q = s.failPacket q.num i 0x05 12 := by
  have hnone : (s.launches.find? fun l => l.queue == q.num && l.packet == i && l.begun && l.stage == LaunchStage.waiting) = none := by
    refine List.find?_eq_none.mpr fun l hm => ?_
    simp only [Bool.and_eq_true, beq_iff_eq, not_and]
    intro ⟨⟨h1, h2⟩, h3⟩ h4
    rcases hl l hm h1 h2 with h | h
    · simp [h] at h3
    · exact h h4
  simp only [State.parkFails, hp, hnone]
  rfl

theorem State.parkFails_launch {l : Launch} (hl : s.launches = [l]) (h1 : l.queue = q.num) (h2 : l.packet = i) (h3 : l.begun = true)
    (h4 : l.stage = .waiting) : s.parkFails q = s.armFails l .xlate 12 := by
  have hfind : (s.launches.find? fun l => l.queue == q.num && l.packet == i && l.begun && l.stage == LaunchStage.waiting) = some l := by
    simp [hl, h1, h2, h3, h4]
  simp only [State.parkFails, hp, hfind]

end

end

/-- Settles O55: a poll by what the ring holds, CTRL by its value, a queue parked too long by what needed the page. -/
theorem queueStates : Obligations.QueueStates := by
  unfold Obligations.QueueStates
  refine fun s n q hq => ⟨fun hu hn hs ⟨c, hc, hr, ht⟩ => ⟨fun he hw => execQueuePoll_idles hq hu hn hc hr ht (State.goesIdle_empty hs he hw),
    fun hres htk hb => ?poll⟩, fun hu hw hs => ⟨_, _, execQueueRestart_error hq hu hw hs, rfl, rfl⟩, execQueueDestroy_drains hq,
    execQueueDestroyed_drained hq, fun c hs hp ht => ?parked⟩
  case poll =>
    have hpoll := execQueuePoll_polls hq hu hn hc hr ht (State.goesIdle_behind hb) hres htk hb
    refine ⟨fun h => hpoll.trans (congrArg _ (State.pollQueue_overrun h)), fun h hl => hpoll.trans (congrArg _ (State.pollQueue_full h hl)),
      fun h hl => ?_⟩
    have hring := hpoll.trans (congrArg _ (State.pollQueue_ring h hl hs))
    refine ⟨fun hrd s1 bs hgot => ?_, fun r hrd hi hleft => ?_⟩
    · have hheader := hring.trans (congrArg _ (State.pollRing_header hrd hgot))
      exact ⟨fun hph => hheader.trans (congrArg _ (if_pos hph)), fun hph => hheader.trans (congrArg _ (if_neg hph))⟩
    · obtain ⟨w, hw, hbody⟩ := State.pollRing_body hrd hi hleft
      exact ⟨w, hw, fun s1 bs hgot => hring.trans (congrArg _ (hbody s1 bs hgot))⟩
  case parked =>
    have hfails := execQueueParkTimeout_fails hq hs hp ht
    exact ⟨fun hby => hfails.trans (congrArg _ (State.parkFails_alone hby)), fun i hby =>
      ⟨fun hl => hfails.trans (congrArg _ (State.parkFails_packet hby hl)),
        fun l hl h1 h2 h3 h4 => hfails.trans (congrArg _ (State.parkFails_launch hby hl h1 h2 h3 h4))⟩⟩

end Sys2Proof.Machine
end

section
/-! PROOFS. Checkpoints (R369 to R372, R375, R377, R378): the timer, a shard taken or reported as not taken, the configuration, and a shard
restored. -/

namespace Sys2Proof.Machine

/-! The timer (R370, R371). -/

/-- A mark leaves of a context its number and its shards. -/
theorem State.timerMark_ctx? {s : State} {p : Nat} {c d : Context} (hc : s.ctx? p = some c) (hd : d.pasid = c.pasid) (o : Option Nat) :
    ∃ e : Context, (s.timerMark d o).ctx? p = some e ∧ e.ckpt.latest = d.ckpt.latest ∧ e.ckpt.taken = d.ckpt.taken ∧
      e.ckpt.slot = d.ckpt.slot := by
  unfold State.timerMark
  dsimp only
  split
  · exact ⟨_, State.ctx?_setCtx_same hc hd, rfl, rfl, rfl⟩
  · refine ⟨{ d with ckpt := { d.ckpt with timerFrom := o } }, ?_, rfl, rfl, rfl⟩
    refine foldl_keep (P := fun x : State => x.ctx? p = some { d with ckpt := { d.ckpt with timerFrom := o } }) _
      (State.ctx?_setCtx_same hc hd) fun x l _ hx => ?_
    split <;> exact hx

section
variable {s : State} {p : Nat} {c : Context} (hc : s.ctx? p = some c)
include hc

/-- With no launch of the context an expiry is held (R371). -/
theorem State.timerMark_held (hl : ∀ l ∈ s.launches, l.key.pasid ≠ p) (o : Option Nat) :
    s.timerMark c o = s.setCtx { c with ckpt := { c.ckpt with timerFrom := o, held := true } } := by
  have hnone : (s.launches.filter fun l => l.key.pasid == c.pasid && l.stage.armedYet).isEmpty = true := by
    simp only [List.isEmpty_iff, List.filter_eq_nil_iff, State.ctx?_pasid hc]
    intro l hm
    simp [hl l hm]
  exact if_pos hnone

theorem execCheckpointTimer_expired {w : Nat} (hr : c.resident = true) (hp : c.ckpt.period ≠ 0) (hw : c.ckpt.timerFrom = some w)
    (ht : w + c.ckpt.period * Config.usCycles ≤ s.cycle) (hs : s.takingShard p = false) :
    execCheckpointTimer p s = .next (s.timerMark c none) := by
  have hexp : c.ckpt.expired s.cycle = true := by simp [Checkpoints.expired, hp, hw, ht]
  simp only [execCheckpointTimer, hc, hr, hexp, hs, Bool.not_false, Bool.and_self, if_true]

end

/-! A shard is taken, or not (R372, R373, R377). -/

/-- A slot that is written holds what was written. -/
theorem Checkpoints.slot_setSlot (k : Checkpoints) (b : Bool) (x : Option Shard) : (k.setSlot b x).slot b = x := by
  cases b <;> rfl

/-- A context whose latest shard is the one that has been written (R369, R371). -/
def Context.withShard (c : Context) (x : Shard) (o : Option Nat) : Context :=
  { c with ckpt := { c.ckpt.setSlot c.ckpt.nextSlot (some x) with latest := some c.ckpt.nextSlot, taken := x.seq, timerFrom := o } }

theorem Context.withShard_slot (c : Context) (x : Shard) (o : Option Nat) : (c.withShard x o).ckpt.slot c.ckpt.nextSlot = some x :=
  c.ckpt.slot_setSlot c.ckpt.nextSlot (some x)

/-- The time from which the timer of a context counts after a shard. -/
def Context.timerAgain (c : Context) (cycle : Nat) : Option Nat := if c.ckpt.period = 0 then none else some cycle

/-- The state in which a shard of a launch has come to its slot, and the launch goes on. -/
def State.shardStored (s : State) (c : Context) (l : Launch) (n : Nat) (x : Shard) (o : Option Nat) : State :=
  ((s.setCtx (c.withShard x o)).setLaunch { l with shard := none, taken := n :: l.taken }).unhaltTiles l.key

section
variable {s : State} {lk : LaunchKey} {l : Launch} {c : Context} {n : Nat} (hc : s.ctx? lk.pasid = some c)
include hc

theorem State.shardStored_ctx? (l : Launch) (n : Nat) (x : Shard) (o : Option Nat) :
    (s.shardStored c l n x o).ctx? lk.pasid = some (c.withShard x o) := State.ctx?_setCtx_same hc rfl

theorem State.shardDone_ctx? (rs : List (Nat × List Byte)) : ∃ d : Context, (s.shardDone c l n rs).ctx? lk.pasid = some d ∧
    d.ckpt.latest = some c.ckpt.nextSlot ∧ d.ckpt.taken = c.ckpt.taken + 1 ∧
    d.ckpt.slot c.ckpt.nextSlot = some (s.shardOf c l n rs) := by
  have hd := State.shardStored_ctx? hc l n (s.shardOf c l n rs) (c.timerAgain s.cycle)
  have hslot := c.withShard_slot (s.shardOf c l n rs) (c.timerAgain s.cycle)
  have hdone : (s.shardDone c l n rs).ctx? lk.pasid = (if c.ckpt.expired s.cycle then
      (s.shardStored c l n (s.shardOf c l n rs) (c.timerAgain s.cycle)).timerMark
        (c.withShard (s.shardOf c l n rs) (c.timerAgain s.cycle)) (c.timerAgain s.cycle)
    else s.shardStored c l n (s.shardOf c l n rs) (c.timerAgain s.cycle)).ctx? lk.pasid := rfl
  rw [hdone]
  split
  · obtain ⟨e, he, hlatest, htaken, hsame⟩ := State.timerMark_ctx? hd rfl (c.timerAgain s.cycle)
    exact ⟨e, he, hlatest, htaken, (congrFun hsame _).trans hslot⟩
  · exact ⟨_, hd, rfl, rfl, hslot⟩

variable (hl : s.launch? lk = some l)
include hl

section
variable (hn : s.shardCount l = some n) (hsh : l.shard = none) (hp : c.preempt = none)
include hn hsh hp

theorem execCheckpointShardTake_fits (hf : shardSize l.image.grid l.shardRegions ≤ c.ckpt.slotBytes) :
    execCheckpointShardTake lk s =
      .next ((s.setCtx { c with ckpt := c.ckpt.setSlot c.ckpt.nextSlot none }).setLaunch { l with shard := some n }) := by
  have hfree : (l.shard.isSome || c.preempt.isSome) = false := by simp [hsh, hp]
  simp only [execCheckpointShardTake, hl, hc, hn, hfree, Bool.false_eq_true, if_false, if_neg (Nat.not_lt.mpr hf)]

theorem execCheckpointShardTake_large (hf : c.ckpt.slotBytes < shardSize l.image.grid l.shardRegions) :
    execCheckpointShardTake lk s = .next (s.shardFails c l n 1) := by
  have hfree : (l.shard.isSome || c.preempt.isSome) = false := by simp [hsh, hp]
  simp only [execCheckpointShardTake, hl, hc, hn, hfree, Bool.false_eq_true, if_false, if_pos hf]

end

section
variable (hsh : l.shard = some n) (hr : s.shardReady l = true)
include hsh hr

theorem execCheckpointShardTaken_poisoned (hp : (∃ t ∈ s.tilesOf lk, t.hasPoison = true) ∨ l.slotPoison ≠ []) :
    execCheckpointShardTaken lk s = .next (s.shardFails c l n 2) := by
  have hbad : ((s.tilesOf lk).any Tile.hasPoison || !l.slotPoison.isEmpty) = true := by
    rcases hp with ⟨t, ht, hp⟩ | hp
    · rw [List.any_eq_true.mpr ⟨t, ht, hp⟩, Bool.true_or]
    · rw [List.isEmpty_eq_false_iff.mpr hp, Bool.not_false, Bool.or_true]
  simp only [execCheckpointShardTaken, hl, hc, hsh, hr, hbad, Bool.not_true, Bool.false_eq_true, if_false, if_true]

theorem execCheckpointShardTaken_written (hp : ∀ t ∈ s.tilesOf lk, t.hasPoison = false) (hs : l.slotPoison = [])
    (hg : l.shardRegions = []) : execCheckpointShardTaken lk s = .next (s.shardDone c l n []) := by
  have hgood : ((s.tilesOf lk).any Tile.hasPoison || !l.slotPoison.isEmpty) = false := by
    rw [List.any_eq_false.mpr fun t ht => by simp [hp t ht], List.isEmpty_iff.mpr hs, Bool.not_true, Bool.or_self]
  simp only [execCheckpointShardTaken, hl, hc, hsh, hr, hgood, hg, State.readRegions, Option.getD_some, Bool.not_true, Bool.false_eq_true,
    if_false]

end

end

/-! Management (R369, R374, R375, R378). -/

/-- A value comes back from its bytes. -/
theorem natOfBytes_bytesOfNat (n v : Nat) : natOfBytes (bytesOfNat n v) = v % 256 ^ n := by
  induction n generalizing v with
  | zero => simp [bytesOfNat, natOfBytes, Nat.mod_one]
  | succ n ih =>
    rw [bytesOfNat, natOfBytes, ih, BitVec.toNat_ofNat, pow_succ' 256 n]
    exact (Nat.mod_mul (a := 256) (b := 256 ^ n) (x := v)).symm

section
variable {s : State} {h : MgmtHdr} {p : Nat} {c : Context} (hm : s.managed h) (hc : s.ctx? p = some c)
include hm hc

theorem execSetCheckpointConfig_store (n : Nat) : execSetCheckpointConfig h p (.storeSize n) s =
    .next ((s.setCtx { c with ckpt := { c.ckpt with store := n, slotA := none, slotB := none, latest := none } }).reply h 0 []) := by
  rw [execSetCheckpointConfig, State.manage_served hm, hc]

theorem execSetCheckpointConfig_key {k : List Byte} (hk : k.length = 32) : execSetCheckpointConfig h p (.key k) s =
    .next ((s.setCtx { c with ckpt := { c.ckpt with key := k } }).reply h 0 []) := by
  rw [execSetCheckpointConfig, State.manage_served hm, hc]
  exact congrArg _ (if_pos hk)

omit hm hc in
/-- What is answered of the latest shard of a context: its sequence first. -/
def Context.shardReport (c : Context) : List Byte :=
  bytesOfNat 8 (((c.ckpt.latest.bind c.ckpt.slot).map fun x => x.seq).getD 0) ++
    bytesOfNat 8 ((c.ckpt.latest.map fun b => b.toNat + 1).getD 0) ++ bytesOfNat 8 (c.ckpt.failure.getD (0, 0)).1 ++
    bytesOfNat 8 (c.ckpt.failure.getD (0, 0)).2

theorem execReadLatestShard_served : execReadLatestShard h p s = .next (s.reply h 0 c.shardReport) := by
  rw [execReadLatestShard, State.manage_served hm, hc]
  rfl

omit hm hc in
theorem Context.shardReport_length (c : Context) : c.shardReport.length = 32 := by
  simp [Context.shardReport, bytesOfNat_length]

omit hm hc in
theorem Context.shardReport_seq {x : Shard} {i : Bool} (hi : c.ckpt.latest = some i) (hx : c.ckpt.slot i = some x) (hs : x.seq < 2 ^ 64) :
    natOfBytes (c.shardReport.take 8) = x.seq := by
  have hfirst : c.shardReport.take 8 = bytesOfNat 8 x.seq := by
    simp only [Context.shardReport, hi, hx, Option.bind_some, Option.map_some, Option.getD_some, List.append_assoc]
    exact List.take_left' (bytesOfNat_length 8 x.seq)
  rw [hfirst, natOfBytes_bytesOfNat, Nat.mod_eq_of_lt (show x.seq < 256 ^ 8 by omega)]

/-! A restore of a shard (R378). -/

section
variable {slot : Bool} {key : List Byte} {x : Shard} (hr : c.resident = true) (hp : c.preempt = none) (ht : c.tearing = none)
  (hl : ∀ l ∈ s.launches, l.key.pasid ≠ p) (hx : c.ckpt.slot slot = some x) (hsize : numAt x.bytes 13 1 = (s.partition c.part).2)
include hr hp ht hl hx hsize

/-- With no launch of the context in the way the shard is put to its checks. -/
theorem execRestoreCheckpoint_checks : execRestoreCheckpoint h p slot key s = .next
    (match s.shardChecks c x key with
    | some f => (s.loseShard p slot f).reply h 0 []
    | none =>
      match s.writeRegions p x.regions with
      | (s1, none) => (s1.loadShard ((s1.ctx? p).getD c) x).reply h 0 []
      | (s1, some ecc) => (s1.loseShard p slot (0xFFFF, 0, ecc)).reply h 0 []) := by
  have hnone : s.launches.any (fun l => l.key.pasid == p && l.stage.armedYet) = false :=
    List.any_eq_false.mpr fun l hm => by simp [hl l hm]
  have hfree : (!c.resident || c.preempt.isSome || c.tearing.isSome ||
      s.launches.any (fun l => l.key.pasid == p && l.stage.armedYet)) = false := by simp only [hr, hp, ht, hnone]; rfl
  rw [execRestoreCheckpoint, State.manage_served hm]
  simp only [hc, hfree, hx, hsize, ne_eq, not_true_eq_false, Bool.false_eq_true, if_false] <;> rfl

theorem execRestoreCheckpoint_good (hk : s.shardChecks c x key = none) (hg : x.regions = []) :
    execRestoreCheckpoint h p slot key s = .next ((s.loadShard c x).reply h 0 []) := by
  rw [execRestoreCheckpoint_checks hm hc hr hp ht hl hx hsize, hk, hg]
  simp only [State.writeRegions, hc, Option.getD_some]

theorem execRestoreCheckpoint_bad {f : ShardFault} (hk : s.shardChecks c x key = some f) : ∃ (u : State) (d : Context),
    execRestoreCheckpoint h p slot key s = .next (u.reply h 0 []) ∧ u.ctx? p = some d ∧ d.lost = true := by
  obtain ⟨d, hd, hlost, -⟩ := State.loseContext_ctx? hc (d := c) rfl [] f.1 (c.shardPa slot f.2.1) f.2.2
  have hlose : s.loseShard p slot f = s.loseContext c [] f.1 (c.shardPa slot f.2.1) f.2.2 := by simp only [State.loseShard, hc]
  refine ⟨s.loseShard p slot f, d, ?_, by rw [hlose]; exact hd, hlost⟩
  rw [execRestoreCheckpoint_checks hm hc hr hp ht hl hx hsize, hk]

end

end

/-- Settles O58: the timer, the requests of the management controller, and a shard from its count to its slot. -/
theorem checkpointEvents : Obligations.CheckpointEvents := by
  unfold Obligations.CheckpointEvents
  refine ⟨fun s p c hc => ⟨fun w hr hp hw ht hs => ⟨execCheckpointTimer_expired hc hr hp hw ht hs, fun hl => State.timerMark_held hc hl none⟩,
    fun h hm => ⟨execSetCheckpointConfig_store hm hc, fun k => execSetCheckpointConfig_key hm hc, ?report,
      fun slot key x hr hp ht hl hx hsize => ⟨execRestoreCheckpoint_good hm hc hr hp ht hl hx hsize,
        fun f => execRestoreCheckpoint_bad hm hc hr hp ht hl hx hsize⟩⟩⟩,
    fun s lk l c n hl hc => ⟨fun hn hsh hp => ⟨execCheckpointShardTake_fits hc hl hn hsh hp, execCheckpointShardTake_large hc hl hn hsh hp⟩,
      fun hsh hr => ⟨execCheckpointShardTaken_poisoned hc hl hsh hr, fun hp hs hg => ?written⟩⟩⟩
  case report =>
    exact ⟨c.shardReport, execReadLatestShard_served hm hc, c.shardReport_length, fun x i => Context.shardReport_seq⟩
  case written =>
    obtain ⟨d, hd, hlatest, htaken, hslot⟩ := State.shardDone_ctx? (n := n) (l := l) hc []
    exact ⟨_, d, execCheckpointShardTaken_written hc hl hsh hr hp hs hg, hd, hlatest, htaken, _, hslot, rfl⟩

end Sys2Proof.Machine
end

section
/-! PROOFS. The module as a device (R329, R379 to R382, R385, R387, R388, R391, R392): a fatal error, watchdogs, the scrubber, duties, power
and the end of bring-up. -/

namespace Sys2Proof.Machine

/-! A fatal error (R379). -/

/-- Every tile has stopped, and no context is being pre-empted. -/
def State.allStopped (s : State) : State :=
  (s.contexts.foldl (fun (x : State) c => x.abandonPreempt c.pasid) s).mapTiles fun t =>
    { t.faultStop with csrs := { t.csrs with stopflag := 0 } }

/-- Queues in ERROR leave the tiles as they stopped. -/
theorem State.fatal_tiles_eq (s : State) (code unit : Nat) : (s.fatal code unit).tiles = s.allStopped.tiles :=
  foldl_keep (P := fun x : State => x.tiles = s.allStopped.tiles) s.allStopped.queues rfl fun x q _ hx =>
    (x.queueErrorNow_ends q _ _ _ _ _).1.trans hx

theorem State.fatal_tiles (s : State) (code unit : Nat) : ∀ t ∈ (s.fatal code unit).tiles, t.phase = .faulted := by
  intro t ht
  rw [State.fatal_tiles_eq] at ht
  obtain ⟨u, -, rfl⟩ := State.mem_tiles_mapTiles.mp ht
  rfl

theorem State.fatal_board (s : State) (code unit : Nat) : (s.fatal code unit).board.power = .fatal ∧ (s.fatal code unit).launches = [] ∧
    (s.fatal code unit).board.cistern = some (cisternHeader code s.counter unit, s.draws) ∧ ∀ q ∈ (s.fatal code unit).queues, q.packets = [] := by
  refine ⟨rfl, rfl, rfl, fun q hq => ?_⟩
  obtain ⟨r, -, rfl⟩ := List.mem_map.mp hq
  rfl

/-! The front end runs (R329, R381, R387). -/

section
variable {s : State} (hu : s.up = true)
include hu

section
variable {core : Nat} (hc : core < 16) (hd : ∀ x ∈ s.board.coreDown, x.1 ≠ core)
include hc hd

theorem execWatchdogRestart_alone (h : ∀ x ∈ s.board.coreUp, x.1 = core → x.2 + Config.oneMsCycles ≤ s.cycle) :
    execWatchdogRestart core s = .next { s with
      board := { s.board with coreDown := s.board.coreDown ++ [(core, s.cycle)] },
      queues := s.queues.map fun q => if coreOf q.num = core then { q with reading := none } else q } := by
  have hdown : (s.board.coreDown.all fun x => x.1 != core) = true := List.all_eq_true.mpr fun x hx => by simpa using hd x hx
  have hagain : (s.board.coreUp.any fun x => x.1 == core && decide (s.cycle < x.2 + Config.oneMsCycles)) = false := by
    refine List.any_eq_false.mpr fun x hx => ?_
    simp only [Bool.and_eq_true, beq_iff_eq, decide_eq_true_eq, not_and]
    exact fun hk => Nat.not_lt.mpr (h x hx hk)
  simp only [execWatchdogRestart, hc, hu, hdown, hagain, and_self, if_true, Bool.false_eq_true, if_false]

theorem execWatchdogRestart_again {x : Nat × Nat} (hx : x ∈ s.board.coreUp) (hk : x.1 = core) (ht : s.cycle < x.2 + Config.oneMsCycles) :
    execWatchdogRestart core s = .next (s.fatal watchdogCode core) := by
  have hdown : (s.board.coreDown.all fun x => x.1 != core) = true := List.all_eq_true.mpr fun x hx => by simpa using hd x hx
  have hagain : (s.board.coreUp.any fun x => x.1 == core && decide (s.cycle < x.2 + Config.oneMsCycles)) = true :=
    List.any_eq_true.mpr ⟨x, hx, by simp [hk, ht]⟩
  simp only [execWatchdogRestart, hc, hu, hdown, hagain, and_self, if_true]

end

theorem execFrontEndCoreRestarted_down {core : Nat} {x : Nat × Nat} (hx : x ∈ s.board.coreDown) (hk : x.1 = core) :
    execFrontEndCoreRestarted core s = .next { s with board := { s.board with
      coreDown := s.board.coreDown.filter fun x => x.1 != core,
      coreUp := (core, s.cycle) :: s.board.coreUp.filter fun x => x.1 != core } } := by
  have hdown : (s.board.coreDown.any fun x => x.1 == core) = true := List.any_eq_true.mpr ⟨x, hx, by simpa using hk⟩
  simp only [execFrontEndCoreRestarted, hu, hdown, and_self, if_true]

theorem execFatalError_up (code unit : Nat) : execFatalError code unit s = .next (s.fatal code unit) := if_pos hu

/-- The scrubber finds an error at a place of the machine. -/
theorem execScrub_found {p : Place} (hp : s.hasPlace p = true) (uncor : Bool) : execScrub p uncor s =
    .next (if uncor then s.uncorrectable p else s.countAt (s.placeTileOf p) SoftErrors.scrubbed) := by
  simp only [execScrub, hu, hp, Bool.not_true, Bool.or_self, Bool.false_eq_true, if_false]

omit hu in
/-- A duty is 8/64 at the least. -/
theorem State.dutyAt_least (s : State) (die : Nat) : 8 ≤ s.dutyAt die := by
  unfold State.dutyAt
  dsimp only
  split <;> omega

theorem execDutyUpdate_up : execDutyUpdate s =
    .next { s with board := { s.board with duty := (List.range 8).map s.dutyAt }, draws := s.draws + 1 } := if_pos hu

end

/-! Power (R385, R388, R391, R392). -/

/-- What is cleared has no context, no launch, a counter of zero and an HBM of zeros. -/
theorem State.cleared_zero (s : State) (b : Board) : (s.cleared b).contexts = [] ∧ (s.cleared b).launches = [] ∧ (s.cleared b).counter = 0 ∧
    ∀ a, Mem.read1 (s.cleared b).hbm a = 0 := ⟨rfl, rfl, rfl, fun a => Mem.read1_nil a⟩

theorem State.bringUp_bootAt (s : State) : s.bringUp.board.power = .boot ∧ s.bringUp.board.bootAt ≤ s.cycle + bootBound := by
  refine ⟨rfl, Nat.add_le_add_left ?_ s.cycle⟩
  exact Nat.le_of_lt_succ (Nat.mod_lt _ (Nat.succ_pos _))

theorem Board.bringUp_ready {b : Board} {i : Nat} (h : b.bootSlot = some i) : b.bringUp.power = .ready ∧ b.bringUp.booted = i ∧
    b.bringUp.measurement = shake256 (listGet b.fw i ⟨[], [], false⟩).image 64 := by
  simp only [Board.bringUp, h, and_self]

theorem Board.bringUp_recovery {b : Board} (h : b.bootSlot = none) : b.bringUp.power = .recovery := by
  simp only [Board.bringUp, h]

/-- During bring-up no event comes between two cycles. -/
theorem State.events_boot {s : State} (hp : s.board.power = .boot) (hw : s.waiting = []) : s.events = [] := by
  simp [State.events, State.nextRequests, State.up, hp, hw]

theorem State.startCycle_booted {s : State} (hp : s.board.power = .boot) (hb : s.board.bootAt ≤ s.cycle + 1) :
    s.startCycle = State.booted { s with cycle := s.cycle + 1 } := by
  simp only [State.startCycle, hp, if_pos hb]

/-- The cycle at which bring-up ends. -/
theorem step_boots {s : State} (hp : s.board.power = .boot) (hi : s.inputs = []) (ht : s.turn = []) (hw : s.waiting = [])
    (hb : s.board.bootAt ≤ s.cycle + 1) : step s = .next (State.booted { s.tickFresh with cycle := s.cycle + 1 }) := by
  have hbetween : s.between = s.tickFresh.startCycle := by
    simp only [State.between, State.events_boot hp hw, List.getElem?_nil]
  have hstep : step s = .next s.between := by
    simp only [step, hi, ht]
  rw [hstep, hbetween, State.startCycle_booted (s := s.tickFresh) hp hb]
  rfl

/-- Settles O59: the front end's watchdogs and errors, duties, the loss of power, and bring-up from its start to its end. -/
theorem deviceEvents : Obligations.DeviceEvents := by
  unfold Obligations.DeviceEvents
  refine fun s => ⟨fun hu => ⟨fun core hc hd => ⟨execWatchdogRestart_alone hu hc hd, fun x hx hk ht => ?again⟩, fun core x hx hk => ?restarted,
    fun code unit => ?fatal, fun p hp => execScrub_found hu hp true, fun p hp => execScrub_found hu hp false,
    fun g hp => execScrub_found hu hp false, ?duty⟩, fun hp => ?down, fun hp => ?good, fun hp hi ht hw hb => ?boot⟩
  case again => exact ⟨_, execWatchdogRestart_again hu hc hd hx hk ht, rfl⟩
  case restarted =>
    exact ⟨_, execFrontEndCoreRestarted_down hu hx hk, fun y hy => by simpa using (List.mem_filter.mp hy).2, List.mem_cons_self⟩
  case fatal =>
    obtain ⟨hpower, hlaunches, hcistern, hqueues⟩ := s.fatal_board code unit
    exact ⟨_, execFatalError_up hu code unit, hpower, hlaunches, hcistern, hqueues, s.fatal_tiles code unit⟩
  case duty =>
    refine ⟨_, execDutyUpdate_up hu, rfl, rfl, by simp, fun d hd => ?_⟩
    obtain ⟨die, -, rfl⟩ := List.mem_map.mp hd
    exact s.dutyAt_least die
  case down =>
    obtain ⟨hctx, hlaunches, hcounter, hhbm⟩ := s.cleared_zero (s.board.bare .off)
    exact ⟨s.powerDown, if_neg hp, if_neg hp, rfl, hctx, hlaunches, hcounter, hhbm⟩
  case good =>
    obtain ⟨hboot, hbound⟩ := s.bringUp_bootAt
    exact ⟨s.bringUp, if_pos hp, rfl, rfl, fun a => Mem.read1_nil a, hboot, hbound⟩
  case boot =>
    refine ⟨_, step_boots hp hi ht hw hb, rfl, fun a => Mem.read1_nil a, fun i h => Board.bringUp_ready h, fun h => Board.bringUp_recovery h⟩

end Sys2Proof.Machine
end

section
/-! PROOFS. The management operations on the module (R14, R366 to R368, R379, R382, R383, R386 to R392): each served request, a connection,
and a request without one. -/

namespace Sys2Proof.Machine

section
variable {s : State} {h : MgmtHdr} (hm : s.managed h)
include hm

/-! A physical tile's block and its repair (R382, R383), and the map of a die (R14). -/

section
variable {t : PhysTile} (ht : physExists t = true)
include ht

theorem execReadSoftErrorBlock_served : execReadSoftErrorBlock h t s = .next (s.reply h 0 (s.board.softOf t).bytes) := by
  rw [execReadSoftErrorBlock, State.manage_served hm, if_pos ht]

theorem execClearSoftErrorBlock_served : execClearSoftErrorBlock h t s =
    .next ({ s with board := { s.board with soft := s.board.soft.filter fun x => x.1 != t } }.reply h 0 []) := by
  rw [execClearSoftErrorBlock, State.manage_served hm, if_pos ht]

theorem execWriteFieldRepair_served : execWriteFieldRepair h t s =
    .next ({ s with board := { s.board with field := s.board.field ++ [t] } }.reply h 0 []) := by
  rw [execWriteFieldRepair, State.manage_served hm, if_pos ht]

end

theorem execReadRemap_served {die : Nat} (hd : die < 8) : execReadRemap h die s =
    .next (s.reply h 0 ((List.range 10).flatMap fun r => bytesOfNat 8 (s.board.hole die r))) := by
  rw [execReadRemap, State.manage_served hm, if_pos hd]

/-! The cistern (R379), the power cap (R386) and the telemetry (R387). -/

theorem execReadCistern_empty (off len : Nat) (hc : s.board.cistern = none) : execReadCistern h off len s = .next (s.reply h 3 []) := by
  rw [execReadCistern, State.manage_served hm, hc]

theorem execReadCistern_dump {off len : Nat} {hd : List Byte × Nat} (hc : s.board.cistern = some hd) (hn : off + len ≤ 2 ^ 32) :
    execReadCistern h off len s = .next (s.reply h 0 ((List.range len).map fun i => cisternByte hd.1 hd.2 (off + i))) := by
  rw [execReadCistern, State.manage_served hm, hc]
  exact congrArg _ (if_neg (Nat.not_lt.mpr hn))

theorem execSetPowerCap_within {w : Nat} (h1 : 4000 ≤ w) (h2 : w ≤ 9200) :
    execSetPowerCap h w s = .next ({ s with board := { s.board with cap := w } }.reply h 0 []) := by
  rw [execSetPowerCap, State.manage_served hm, if_pos ⟨h1, h2⟩]

theorem execSetPowerCap_beyond {w : Nat} (hw : w < 4000 ∨ 9200 < w) : execSetPowerCap h w s = .next (s.reply h 2 []) := by
  rw [execSetPowerCap, State.manage_served hm, if_neg (by omega)]

theorem execReadTelemetry_served : ∃ b : List Byte, execReadTelemetry h s =
    .next ({ s with draws := s.draws + 1 }.reply h 0 (s.board.duty.flatMap (bytesOfNat 8) ++ b)) := by
  rw [execReadTelemetry, State.manage_served hm, List.append_assoc, List.append_assoc]
  exact ⟨_, rfl⟩

/-! The module's position, firmware and reset (R338, R357, R391, R392). -/

theorem execSetModulePosition_served {pos : Nat} {parts : List (Nat × Nat)} (hp : pos < 64) (hl : layoutOk parts = true) :
    execSetModulePosition h pos parts s =
      .next ({ s with board := { s.board with nextPosition := pos, nextLayout := parts } }.reply h 0 []) := by
  rw [execSetModulePosition, State.manage_served hm, if_pos ⟨hp, hl⟩]

theorem execStageFirmware_served (v : Nat) (im sig : List Byte) : ∃ f : FwSlot, f.image = im ∧ f.sig = sig ∧
    execStageFirmware h v im sig s = .next ({ s with
      board := { s.board with fw := s.board.fw.set (1 - s.board.booted) f, active := 1 - s.board.booted } }.reply h 0 []) := by
  rw [execStageFirmware, State.manage_served hm]
  exact ⟨⟨im, sig, Config.firmwareSigned (shake256 im 64) sig⟩, rfl, rfl, rfl⟩

theorem execResetModule_served : execResetModule h s = .next (s.reply h 0 []).bringUp := State.manage_served hm _ _

/-! Records and identity (R366 to R368). -/

theorem execReadIdentityKey_served : execReadIdentityKey h s =
    .next (s.reply h 0 (identityKeyBytes ++ (List.range Config.certificateLength).map Config.certificate)) := State.manage_served hm _ _

theorem execReadLaunchRecord_served {p : Nat} {c : Context} (hc : s.ctx? p = some c) (n : Nat) : execReadLaunchRecord h p n s =
    .next (s.reply h 0 (((c.records.find? fun r => r.1 == n).map (·.2)).getD [])) := by
  rw [execReadLaunchRecord, State.manage_served hm, hc]

end

/-! Connections (R389). -/

section
variable {s : State} {key ch : List Byte} (sig : List Byte) (hp : s.board.power = .ready)
include hp

/-- A provisioned peer with the module's challenge is put to its signature. -/
theorem execManagementConnect_known (hk : s.board.provisioned.contains key = true) (hc : ch = s.challengeBytes) :
    execManagementConnect key ch sig s = .next (if Config.verifies key ch [] sig = true then
      { s with board := { s.board with conns := s.board.conns + 1, challenge := s.draws + 1 }, draws := s.draws + 1 } else s) := by
  have hch : (ch == s.challengeBytes) = true := by rw [hc]; exact beq_self_eq_true _
  simp only [execManagementConnect, hp, hk, hch, Bool.true_and]
  split <;> rfl

theorem execManagementConnect_other (h : s.board.provisioned.contains key = false ∨ ch ≠ s.challengeBytes) :
    execManagementConnect key ch sig s = .next s := by
  have hno : (s.board.provisioned.contains key && ch == s.challengeBytes) = false := by
    rcases h with hk | hc
    · rw [hk, Bool.false_and]
    · rw [beq_false_of_ne hc, Bool.and_false]
  simp only [execManagementConnect, hp, hno, Bool.false_and, Bool.false_eq_true, if_false]

end

/-- The requests of the management controller, each with some operands. -/
noncomputable def mgmtRequests (h : MgmtHdr) (p n : Nat) (t : PhysTile) (bs : List Byte) (block : List Word) (b : Bool) (range : Option (Nat × Nat))
    (x : CkptSetting) (parts : List (Nat × Nat)) : List Instr :=
  [.registerQueue h p n, .unregisterQueue h n, .invalidateTranslations h p range, .answerPageRequest h p n b,
    .createContext h block, .teardownContext h p, .preemptContext h p, .restoreContext h p n, .readLaunchRecord h p n,
    .readIdentityKey h, .setCheckpointConfig h p x, .restoreCheckpoint h p b bs, .readLatestShard h p, .readSoftErrorBlock h t,
    .clearSoftErrorBlock h t, .writeFieldRepair h t, .readRemap h n, .readCistern h n p, .setPowerCap h n, .readTelemetry h,
    .setModulePosition h n parts, .stageFirmware h n bs bs, .resetModule h]

/-- Every request passes the check of its connection and of the power state first (R385, R390). -/
theorem exec_mgmtRequests {h : MgmtHdr} {p n : Nat} {t : PhysTile} {bs : List Byte} {block : List Word} {b : Bool}
    {range : Option (Nat × Nat)} {x : CkptSetting} {parts : List (Nat × Nat)} (s : State) :
    ∀ i ∈ mgmtRequests h p n t bs block b range x parts, ∃ (k : MgmtClass) (f : State), exec i s = s.manage h k f := by
  simp only [mgmtRequests, List.forall_mem_cons, List.not_mem_nil, false_imp_iff, implies_true, and_true]
  repeat' apply And.intro
  all_goals exact ⟨_, _, rfl⟩

/-- Settles O60: each request that is served, a connection, and every request without one. -/
theorem managementOperations : Obligations.ManagementOperations := by
  unfold Obligations.ManagementOperations
  refine ⟨fun s h hm => ⟨fun t ht => ⟨execReadSoftErrorBlock_served hm ht, execClearSoftErrorBlock_served hm ht, execWriteFieldRepair_served hm ht⟩,
      fun die => execReadRemap_served hm, fun off len => ⟨execReadCistern_empty hm off len, fun hd => execReadCistern_dump hm⟩,
      fun w => ⟨execSetPowerCap_within hm, execSetPowerCap_beyond hm⟩, execReadTelemetry_served hm,
      fun pos parts => execSetModulePosition_served hm, execStageFirmware_served hm, execResetModule_served hm, execReadIdentityKey_served hm,
      fun p n c hc => ?record⟩,
    fun s key ch sig hp => ⟨execManagementConnect_known sig hp, execManagementConnect_other sig hp⟩,
    fun s h p n t bs block b range x parts i hp hc hi => ?unconnected⟩
  case record =>
    have hread := execReadLaunchRecord_served hm hc n
    exact ⟨fun r hr => by rw [hr] at hread; exact hread, fun hr => by rw [hr] at hread; exact hread⟩
  case unconnected =>
    obtain ⟨k, f, hmanage⟩ := exec_mgmtRequests s i hi
    rw [hmanage, State.manage_unconnected hp hc]

end Sys2Proof.Machine
end

section
/-! PROOFS. The frame of the scalar, vector and local syllables at their issue (R74, R82 to R93, R104 to R140, R150): a syllable that is
issued without a trap puts results in flight, and the rest of its tile stays. -/

namespace Sys2Proof.Machine

/-! The frame: the results in flight, the guard record and a hold are all that an issue changes. -/

/-- A tile stands as before but for its guard record and a hold, and what it adds to its results in flight is of a kind. -/
structure Tile.Puts (P : Pending → Prop) (t u : Tile) : Prop where
  rest : u = { t with inflight := u.inflight, seq := u.seq, iss := { t.iss with held := u.iss.held },
                      spad := { t.spad with touched := u.spad.touched } }
  inflight : ∃ new, u.inflight = t.inflight ++ new ∧ ∀ p ∈ new, P p

section
variable {P : Pending → Prop} {t u : Tile}

theorem Tile.puts_of_quiet
    (h : u = { t with iss := { t.iss with held := u.iss.held }, spad := { t.spad with touched := u.spad.touched } }) : t.Puts P u := by
  rw [h]
  exact ⟨rfl, [], (List.append_nil _).symm, by simp⟩

theorem Tile.Puts.refl (t : Tile) : t.Puts P t := Tile.puts_of_quiet rfl

theorem Tile.Puts.put (h : t.Puts P u) {n : Nat} {sl : Slot} {e : Eff} (hp : P ⟨u.tick + n, sl, u.tick, u.seq, e⟩) :
    t.Puts P (u.put n sl e) := by
  obtain ⟨hr, new, hi, hn⟩ := h
  refine ⟨?_, new ++ [⟨u.tick + n, sl, u.tick, u.seq, e⟩], by rw [Tile.put_inflight, hi, List.append_assoc], fun p hm => ?_⟩
  · rw [hr]
    rfl
  · rcases List.mem_append.1 hm with hm | hm
    · exact hn p hm
    · exact List.mem_singleton.1 hm ▸ hp

section
variable (h : t.Puts P u)
include h

theorem Tile.Puts.tick : u.tick = t.tick := by rw [h.rest]

theorem Tile.Puts.sameRegs : t.SameRegs u := by
  rw [h.rest]
  exact ⟨fun _ => rfl, fun f _ => by cases f <;> rfl, fun f _ => by cases f <;> rfl, fun _ => rfl, fun _ => rfl, rfl⟩

theorem Tile.Puts.sameControl : t.SameControl u := by
  rw [h.rest]
  exact ⟨rfl, rfl, rfl, rfl, rfl, rfl, rfl, rfl⟩

theorem Tile.Puts.sameMemory : t.SameMemory u := by
  rw [h.rest]
  exact ⟨fun _ => rfl, fun _ => rfl, rfl, rfl⟩

theorem Tile.Puts.sameEngines : t.SameEngines u := by
  rw [h.rest]
  exact ⟨rfl, rfl, rfl⟩

theorem Tile.Puts.sameTraffic : t.SameTraffic u := by
  rw [h.rest]
  exact ⟨rfl, rfl, rfl, rfl, rfl, rfl, rfl, rfl, rfl, rfl, rfl, rfl⟩

theorem Tile.Puts.pc : u.pc = t.pc := by rw [h.rest]
theorem Tile.Puts.waits : u.waits = t.waits := by rw [h.rest]

end

end

/-- What a syllable of a class puts in flight, by the tile that it is issued on. -/
abbrev PutKind := Tile → Pending → Prop

/-- An effect of a syllable puts results of a kind in flight. -/
def Res.Puts (P : PutKind) (t : Tile) : Res → Prop
  | .ok u => t.Puts (P t) u
  | _ => True

/-- The state after a syllable that puts results of a kind in flight on the tile in focus. -/
def State.Puts (P : PutKind) (s u : State) : Prop := ∃ t, u = { s with tile := t } ∧ s.tile.Puts (P s.tile) t

/-- What such a syllable keeps: all but the results in flight, and the guard record. -/
theorem State.Puts.frame {P : PutKind} {s u : State} (h : s.Puts P u) :
    s.SameModule u ∧ s.tile.SameRegs u.tile ∧ s.tile.SameControl u.tile ∧ s.tile.SameMemory u.tile ∧ s.tile.SameEngines u.tile ∧
    s.tile.SameTraffic u.tile ∧ u.tile.pc = s.tile.pc ∧ u.tile.waits = s.tile.waits ∧
    ∃ new, u.tile.inflight = s.tile.inflight ++ new ∧ ∀ p ∈ new, P s.tile p := by
  obtain ⟨t, rfl, h⟩ := h
  exact ⟨s.sameModule_withTile t, h.sameRegs, h.sameControl, h.sameMemory, h.sameEngines, h.sameTraffic, h.pc, h.waits, h.inflight⟩

theorem onTile_puts {P : PutKind} {f : Tile → Res} {s u : State} (e : onTile f s = .next u) (ht : u.untrapped)
    (hf : ∀ t, (f t).Puts P t) : s.Puts P u := by
  obtain ⟨t, rfl, ho | ⟨w, rfl⟩⟩ := onTile_ok_or_held e ht
  · have h := hf s.tile
    rw [ho] at h
    exact ⟨t, rfl, h⟩
  · exact ⟨_, rfl, Tile.puts_of_quiet rfl⟩

/-! A guard that is off puts nothing in flight. -/

theorem Res.Puts.guarded {P : PutKind} {t : Tile} {r : Res} {c : Prop} [Decidable c] (h : r.Puts P t) :
    (if c then r else .ok t).Puts P t := by
  split
  · exact h
  · exact Tile.Puts.refl t

/-! Results of slot S (R82 to R93). -/

/-- A result of a slot due by a tick after the issue, which writes neither the scratchpad nor an atomic's word. -/
def Tile.ResultOf (sl : Slot) (lat : Nat) (t : Tile) (p : Pending) : Prop :=
  p.slot = sl ∧ t.tick < p.due ∧ p.due ≤ t.tick + lat ∧ p.eff.isMemory = false ∧ p.eff.isStore = false

theorem Tile.Puts.putResult {t u : Tile} {sl : Slot} {lat n : Nat} {e : Eff} (h : t.Puts (t.ResultOf sl lat) u) (h0 : 0 < n)
    (hn : n ≤ lat) (hm : e.isMemory = false) (hs : e.isStore = false) : t.Puts (t.ResultOf sl lat) (u.put n sl e) := by
  refine h.put ?_
  rw [h.tick]
  exact ⟨rfl, Nat.lt_add_of_pos_right h0, Nat.add_le_add_left hn _, hm, hs⟩

/-- R84's divisions are the latest results of the slot. -/
def ScalarKind : PutKind := Tile.ResultOf .s 18

section
variable (t : Tile) (h : Hdr)

theorem Tile.put_scalar {n : Nat} {e : Eff} (h0 : 0 < n) (hn : n ≤ 18) (hm : e.isMemory = false) (hs : e.isStore = false) :
    (Res.ok (t.put n .s e)).Puts ScalarKind t := (Tile.Puts.refl t).putResult h0 hn hm hs

theorem Tile.putS_scalar {n : Nat} (d : Dest) (v : Word) (h0 : 0 < n) (hn : n ≤ 18) : (Res.ok (t.putS n d v)).Puts ScalarKind t := by
  cases d with
  | reg => exact t.put_scalar h0 hn rfl rfl
  | suppressed => exact t.put_scalar h0 hn rfl rfl

theorem Tile.scalar1_puts (d : Dest) (a : Src) {lat : Nat} (f : Word → Word) (h0 : 0 < lat) (hn : lat ≤ 18) :
    (t.scalar1 h d a lat f).Puts ScalarKind t := by
  refine .guarded ?_
  split
  · exact t.putS_scalar _ _ h0 hn
  · trivial

theorem Tile.scalar2_puts (d : Dest) (a b : Src) {lat : Nat} (f : Word → Word → Word) (h0 : 0 < lat) (hn : lat ≤ 18) :
    (t.scalar2 h d a b lat f).Puts ScalarKind t := by
  refine .guarded ?_
  split
  · exact t.putS_scalar _ _ h0 hn
  · trivial

theorem Tile.compare_puts (d : Nat) (a b : Src) (f : Word → Word → Bool) : (t.compare h d a b f).Puts ScalarKind t := by
  refine .guarded ?_
  split
  · exact t.put_scalar (by decide) (by decide) rfl rfl
  · trivial

theorem Tile.predOp_puts (d : Nat) (v : Word) : (t.predOp h d v).Puts ScalarKind t :=
  .guarded (t.put_scalar (by decide) (by decide) rfl rfl)

/-- A CSR write: the stored value, and the values that govern later (R92). -/
theorem Tile.putCsr_puts (c : Csr) (v : Word) : (Res.ok (t.putCsr c v)).Puts ScalarKind t := by
  have stored : t.Puts (ScalarKind t) (t.put 1 .s (.csr c v)) := t.put_scalar (by decide) (by decide) rfl rfl
  have governs {u : Tile} (hu : t.Puts (ScalarKind t) u) {n : Nat} (h0 : 0 < n) (hn : n ≤ 18) (k : Csr) (mx : Bool) :
      t.Puts (ScalarKind t) (u.put n .s (.gov k mx v)) := hu.putResult h0 hn rfl rfl
  unfold Tile.putCsr
  dsimp only
  split
  case h_1 | h_2 | h_3 | h_4 | h_5 => exact governs stored (by decide) (by decide) _ _
  case h_6 => exact governs (governs stored (by decide) (by decide) _ _) (by decide) (by decide) _ _
  case h_7 => exact stored

theorem Tile.csrWrite_puts (c : Csr) (v : Word) : (t.csrWrite h c v).Puts ScalarKind t := by
  refine .guarded ?_
  split
  · trivial
  · trivial
  · split
    · exact t.putCsr_puts _ _
    · trivial

end

section
variable {s u : State} {h : Hdr} (ht : u.untrapped)
include ht

theorem execSel_puts {d : Dest} {a b : Src} (e : execSel h d a b s = .next u) : s.Puts ScalarKind u := by
  refine onTile_puts e ht fun t => ?_
  split
  · exact t.putS_scalar _ _ (by decide) (by decide)
  · trivial

theorem execMovp_puts {d : Dest} {a : Nat} (e : execMovp h d a s = .next u) : s.Puts ScalarKind u :=
  onTile_puts e ht fun t => .guarded (t.putS_scalar _ _ (by decide) (by decide))

theorem execMovtp_puts {d : Nat} {a : Src} (e : execMovtp h d a s = .next u) : s.Puts ScalarKind u := by
  refine onTile_puts e ht fun t => .guarded ?_
  split
  · exact t.put_scalar (by decide) (by decide) rfl rfl
  · trivial

/-- Every syllable of R82 to R93. -/
theorem exec_scalar_puts {i : Instr} (hi : isScalar i = true) (e : exec i s = .next u) : s.Puts ScalarKind u := by
  cases i with
  | snop => cases e; exact ⟨_, rfl, .refl _⟩
  | add | sub | and | or | xor | shl | shr | sra | mul | mulh | mulhu | div | divu | rem | remu | min | max | minu | maxu | rotl =>
    exact onTile_puts e ht fun t => t.scalar2_puts _ _ _ _ _ (by decide) (by decide)
  | clz | popc | ctz | bswap | addi | andi | ori | xori | shli | shri | srai | rotli =>
    exact onTile_puts e ht fun t => t.scalar1_puts _ _ _ _ (by decide) (by decide)
  | lis | ins1 | ins2 | ins3 | csrr =>
    unfold exec at e
    simp only [execLis, execIns1, execIns2, execIns3, execCsrr] at e
    exact onTile_puts e ht fun t => .guarded (t.put_scalar (by decide) (by decide) rfl rfl)
  | cmpeq | cmpne | cmplt | cmpltu | cmple | cmpleu | cmptst => exact onTile_puts e ht fun t => t.compare_puts _ _ _ _ _
  | pand | por | pxor | pandn | pnot | pmov | pset | pclr => exact onTile_puts e ht fun t => t.predOp_puts _ _ _
  | csrw | csrs | csrc => exact onTile_puts e ht fun t => t.csrWrite_puts _ _ _
  | sel => exact execSel_puts ht e
  | movp => exact execMovp_puts ht e
  | movtp => exact execMovtp_puts ht e
  | _ => cases hi

end

/-- Settles O10: every syllable of the class is one of the shared forms, which put results of slot S in flight. -/
theorem scalarFrame : Obligations.ScalarFrame := by
  unfold Obligations.ScalarFrame
  intro i s u hi e ht
  exact (exec_scalar_puts ht hi e).frame

/-! Results of the vector slots (R104 to R135). -/

/-- A result of the slot that a vector syllable issues in; R110's division and square root are the latest. -/
def VectorKind : PutKind := fun t => t.ResultOf (vslotOf t.vfile) 12

section
variable (t : Tile) (h : Hdr)

/-- The flags of a result come with it, or none are raised (R42). -/
theorem Tile.Puts.putFlags {t u : Tile} {sl : Slot} {lat n : Nat} (hu : t.Puts (t.ResultOf sl lat) u) (f : Flags) (h0 : 0 < n)
    (hn : n ≤ lat) : t.Puts (t.ResultOf sl lat) (u.putFlags n sl f) := by
  unfold Tile.putFlags
  split
  · exact hu
  · exact hu.putResult h0 hn rfl rfl

theorem Tile.putV_puts {n : Nat} (d : Dest) (v : VReg) (h0 : 0 < n) (hn : n ≤ 12) : t.Puts (VectorKind t) (t.putV n d v) := by
  cases d with
  | reg => exact (Tile.Puts.refl t).putResult h0 hn rfl rfl
  | suppressed => exact (Tile.Puts.refl t).putResult h0 hn rfl rfl

theorem Tile.putLanes_puts (c : VCtx) {n : Nat} (d : Dest) (rs : List (Nat × Flags)) (h0 : 0 < n) (hn : n ≤ 12) :
    (Res.ok (t.putLanes c n d rs)).Puts VectorKind t := (t.putV_puts d _ h0 hn).putFlags _ h0 hn

theorem Tile.putFormat_puts (v : Word) : (Res.ok (t.putFormat v)).Puts VectorKind t :=
  ((Tile.Puts.refl t).putResult (n := 1) (by decide) (by decide) rfl rfl).putResult (n := 2) (by decide) (by decide) rfl rfl

/-! Under a format that is not accepted a syllable puts nothing in flight (R105). -/

theorem Res.Puts.accepted {P : PutKind} {t : Tile} {r : Res} {tr : Trap} {c : Prop} [Decidable c] (h : r.Puts P t) :
    (if c then r else .trap tr).Puts P t := by
  split
  · exact h
  · trivial

theorem Tile.vec0_puts (d : Dest) {lat : Nat} (ok : Fmt → Bool) (f : VCtx → List (Nat × Flags)) (h0 : 0 < lat) (hn : lat ≤ 12) :
    (t.vec0 h d lat ok f).Puts VectorKind t := .accepted (t.putLanes_puts _ _ _ h0 hn)

theorem Tile.vec1_puts (d : Dest) (a : Src) {lat : Nat} (ok : Fmt → Bool) (f : VCtx → List Nat → List (Nat × Flags)) (h0 : 0 < lat)
    (hn : lat ≤ 12) : (t.vec1 h d a lat ok f).Puts VectorKind t := by
  refine .accepted ?_
  split
  · exact t.putLanes_puts _ _ _ h0 hn
  · trivial

theorem Tile.vec2_puts (d : Dest) (a b : Src) {lat : Nat} (ok : Fmt → Bool) (f : VCtx → List Nat → List Nat → List (Nat × Flags))
    (h0 : 0 < lat) (hn : lat ≤ 12) : (t.vec2 h d a b lat ok f).Puts VectorKind t := by
  refine .accepted ?_
  split
  · exact t.putLanes_puts _ _ _ h0 hn
  · trivial

theorem Tile.vec3_puts (d : Nat) (a b : Src) {lat : Nat} (f : VCtx → Nat → Nat → Nat → Nat × Flags) (h0 : 0 < lat) (hn : lat ≤ 12) :
    (t.vec3 h d a b lat f).Puts VectorKind t := by
  refine .accepted ?_
  split
  · exact t.putLanes_puts _ _ _ h0 hn
  · trivial

theorem Tile.vecCompare_puts (d : Nat) (a b : Src) (ok : Fmt → Bool) (f : VCtx → Nat → Nat → Bool × Flags) :
    (t.vecCompare h d a b ok f).Puts VectorKind t := by
  refine .accepted ?_
  split
  · have mask {v : Word} : t.Puts (VectorKind t) (t.put 2 (vslotOf t.vfile) (.pred d v)) :=
      (Tile.Puts.refl t).putResult (by decide) (by decide) rfl rfl
    exact mask.putFlags _ (by decide) (by decide)
  · trivial

theorem Tile.vecDot_puts (d : Nat) (a b : Src) (f : VCtx → Nat → Nat → Nat → Nat × Flags) :
    (t.vecDot h d a b f).Puts VectorKind t := by
  unfold Tile.vecDot
  dsimp only
  split
  · exact t.putLanes_puts _ _ _ (by decide) (by decide)
  · trivial

/-- A conversion out of a microscaled format, into one, or between lane formats (R121 to R123). -/
theorem Tile.convert_puts (d : Dest) (a : Src) (tf : Fmt) (r : RndOvr) (sat : Bool) : (t.convert h d a tf r sat).Puts VectorKind t := by
  unfold Tile.convert
  dsimp only
  split
  · refine .accepted ?_
    split
    · exact t.putLanes_puts _ _ _ (by decide) (by decide)
    · trivial
  · split
    · refine .accepted (.accepted ?_)
      split
      · exact (t.putV_puts d _ (by decide) (by decide)).putFlags _ (by decide) (by decide)
      · trivial
    · split
      · exact t.putLanes_puts _ _ _ (by decide) (by decide)
      · trivial

end

section
variable {s u : State} {h : Hdr} (ht : u.untrapped)
include ht

theorem execVsel_puts {d : Dest} {a b : Src} (e : execVsel h d a b s = .next u) : s.Puts VectorKind u := by
  refine onTile_puts e ht fun t => .accepted ?_
  split
  · exact t.putV_puts _ _ (by decide) (by decide)
  · trivial

theorem execVrng_puts {d : Dest} {a : Src} (e : execVrng h d a s = .next u) : s.Puts VectorKind u := by
  refine onTile_puts e ht fun t => .accepted ?_
  split
  · exact t.putLanes_puts _ _ _ (by decide) (by decide)
  · trivial

theorem execVfmts_puts {a : Src} (e : execVfmts h a s = .next u) : s.Puts VectorKind u := by
  refine onTile_puts e ht fun t => .guarded ?_
  split
  · split
    · trivial
    · exact t.putFormat_puts _
  · trivial

theorem execVfmt_puts {bind : Bool} {f : Fmt} (e : execVfmt h bind f s = .next u) : s.Puts VectorKind u :=
  onTile_puts e ht fun t => .guarded (t.putFormat_puts _)

/-- Every syllable of R104 to R135. -/
theorem exec_vector_puts {i : Instr} (hi : isVector i = true) (e : exec i s = .next u) : s.Puts VectorKind u := by
  cases i with
  | vnop => cases e; exact ⟨_, rfl, .refl _⟩
  | vadd | vsub | vmul | vmin | vmax | vcps | vdiv | vscale | vminnum | viadd | visub | vimul | vimulh | vimin | vimax | viminu
  | vimaxu | viadds | viaddsu | visubs | visubsu | viavg | viavgu | vand | vor | vxor | vandn | vshl | vshr | vsra | vperm | vzip
  | vunzip | vrot | vsplat => exact onTile_puts e ht fun t => t.vec2_puts _ _ _ _ _ _ (by decide) (by decide)
  | vabs | vneg | vsqrt | vrcp | vrsq | vexp2 | vlog2 | vrint | vrintz | vclass | vgetexp | viabs | vineg | vnot | vrev =>
    exact onTile_puts e ht fun t => t.vec1_puts _ _ _ _ _ (by decide) (by decide)
  | vfma | vfms | vfnma | vfnms => exact onTile_puts e ht fun t => t.vec3_puts _ _ _ _ _ (by decide) (by decide)
  | vfceq | vfcne | vfclt | vfcle | vfcgt | vfcge | vfcunord | vfcord | viceq | vicne | viclt | vicltu | vicle | vicleu | victst =>
    exact onTile_puts e ht fun t => t.vecCompare_puts _ _ _ _ _ _
  | vdot4s | vdot4u | vdot2bf | vdot2h => exact onTile_puts e ht fun t => t.vecDot_puts _ _ _ _ _
  | vcmprs | vexpnd | vrsum | vrmax | vrmin | vrisum | vscan | vrand | vror | vrxor =>
    unfold exec at e
    simp only [execVcmprs, execVexpnd, execVrsum, execVrmax, execVrmin, execVrisum, execVscan, execVrand, execVror, execVrxor] at e
    exact onTile_puts e ht fun t => t.vec1_puts _ _ _ _ _ (by decide) (by decide)
  | vspli | viota => exact onTile_puts e ht fun t => t.vec0_puts _ _ _ _ (by decide) (by decide)
  | vmovp | vpopc =>
    unfold exec at e
    simp only [execVmovp, execVpopc] at e
    exact onTile_puts e ht fun t => t.vec0_puts _ _ _ _ (by decide) (by decide)
  | vcvt => exact onTile_puts e ht fun t => t.convert_puts _ _ _ _ _ _
  | vsel => exact execVsel_puts ht e
  | vrng => exact execVrng_puts ht e
  | vfmts => exact execVfmts_puts ht e
  | vfmt => exact execVfmt_puts ht e
  | _ => cases hi

end

/-- Settles O11: every syllable of the class is one of the shared forms, which put results of their slot in flight. -/
theorem vectorFrame : Obligations.VectorFrame := by
  unfold Obligations.VectorFrame
  intro i s u hi e ht
  exact (exec_vector_puts ht hi e).frame

/-! Local loads and stores, and moves between files (R74, R136 to R140, R150). -/

/-- A result or a store in flight, which is no operation on an atomic's word; a CGATH's is the latest (R140). -/
def LocalKind : PutKind := fun t p => t.tick < p.due ∧ p.due ≤ t.tick + 6 ∧ p.eff.isMemory = false

theorem Tile.Puts.putLocal {t u : Tile} {n : Nat} {sl : Slot} {e : Eff} (h : t.Puts (LocalKind t) u) (h0 : 0 < n) (hn : n ≤ 6)
    (hm : e.isMemory = false) : t.Puts (LocalKind t) (u.put n sl e) := by
  refine h.put ?_
  rw [h.tick]
  exact ⟨Nat.lt_add_of_pos_right h0, Nat.add_le_add_left hn _, hm⟩

/-- The touches that the elements of a gather make change nothing of the scratchpad but its guard record. -/
theorem Spad.foldl_note_eq (l : List Nat) (sp : Spad) (src agent n : Nat) :
    l.foldl (fun x a => x.note src agent a n) sp =
      { sp with touched := (l.foldl (fun x a => x.note src agent a n) sp).touched } := by
  induction l generalizing sp with
  | nil => rfl
  | cons a l ih =>
    rw [List.foldl_cons, ih, Spad.note_eq]

section
variable {P : Pending → Prop} (t : Tile)

theorem Tile.puts_note (src agent a n : Nat) : t.Puts P { t with spad := t.spad.note src agent a n } := by
  refine Tile.puts_of_quiet ?_
  rw [← Spad.note_eq]

theorem Tile.puts_notes (l : List Nat) (src agent n : Nat) :
    t.Puts P { t with spad := l.foldl (fun x a => x.note src agent a n) t.spad } := by
  refine Tile.puts_of_quiet ?_
  rw [← Spad.foldl_note_eq]

end

section
variable (t : Tile) (h : Hdr)

theorem Tile.put_local {n : Nat} {sl : Slot} {e : Eff} (h0 : 0 < n) (hn : n ≤ 6) (hm : e.isMemory = false) :
    (Res.ok (t.put n sl e)).Puts LocalKind t := (Tile.Puts.refl t).putLocal h0 hn hm

theorem Tile.Puts.putS {t u : Tile} (hu : t.Puts (LocalKind t) u) {n : Nat} (d : Dest) (v : Word) (h0 : 0 < n) (hn : n ≤ 6) :
    t.Puts (LocalKind t) (u.putS n d v) := by
  cases d with
  | reg => exact hu.putLocal h0 hn rfl
  | suppressed => exact hu.putLocal h0 hn rfl

theorem Tile.putX_local {n : Nat} (d : Dest) (v : Word) (h0 : 0 < n) (hn : n ≤ 6) : (Res.ok (t.putX n d v)).Puts LocalKind t := by
  cases d with
  | reg => exact t.put_local h0 hn rfl
  | suppressed => exact t.put_local h0 hn rfl

theorem Tile.copyIn_puts (d : Dest) (v : Option Word) : (t.copyIn h d v).Puts LocalKind t := by
  refine .guarded ?_
  split
  · exact t.putX_local _ _ (by decide) (by decide)
  · trivial

theorem Tile.copyOut_puts (d : Dest) (a : Src) {e : Nat → Word → Eff} (he : ∀ n x, (e n x).isMemory = false) :
    (t.copyOut h d a e).Puts LocalKind t := by
  refine .guarded ?_
  split
  · trivial
  · split
    · exact t.put_local (by decide) (by decide) (he _ _)
    · exact t.put_local (by decide) (by decide) rfl

theorem Tile.copyLane_puts (d : Dest) (a : Src) (f : VFile) (lane : Nat) : (t.copyLane h d a f lane).Puts LocalKind t := by
  refine .guarded ?_
  split
  · trivial
  · cases d with
    | reg => exact ((Tile.Puts.refl t).putLocal (by decide) (by decide) rfl).putLocal (by decide) (by decide) rfl
    | suppressed => exact t.put_local (by decide) (by decide) rfl

end

section
variable {s u : State} {h : Hdr} (ht : u.untrapped)
include ht

/-- A load is clean or struck, behind the note of a touch (R136, R155). -/
theorem execSld_puts {d : Dest} {a : Src} {z : MemSize} {sx : Bool} {o : Int} (e : execSld h d a z sx o s = .next u) :
    s.Puts LocalKind u := by
  refine onTile_puts e ht fun t => .guarded ?_
  split
  · trivial
  · dsimp only
    split
    · trivial
    · split
      · exact (t.puts_note _ _ _ _).putLocal (by decide) (by decide) rfl
      · exact (t.puts_note _ _ _ _).putS _ _ (by decide) (by decide)

theorem execSst_puts {d : Nat} {a : Src} {z : MemSize} {o : Int} (e : execSst h d a z o s = .next u) : s.Puts LocalKind u := by
  refine onTile_puts e ht fun t => .guarded ?_
  split
  · trivial
  · dsimp only
    split
    · trivial
    · exact t.put_local (by decide) (by decide) rfl

theorem execCld_puts {f : VFile} {d : Nat} {a : Src} {o : Int} (e : execCld h f d a o s = .next u) : s.Puts LocalKind u := by
  refine onTile_puts e ht fun t => .guarded ?_
  split
  · trivial
  · dsimp only
    split
    · trivial
    · split
      · exact (t.puts_note _ _ _ _).putLocal (by decide) (by decide) rfl
      · exact (t.puts_note _ _ _ _).putLocal (by decide) (by decide) rfl

theorem execCst_puts {f : VFile} {d : Nat} {a : Src} {o : Int} (e : execCst h f d a o s = .next u) : s.Puts LocalKind u := by
  refine onTile_puts e ht fun t => .guarded ?_
  split
  · trivial
  · dsimp only
    split
    · trivial
    · exact t.put_local (by decide) (by decide) rfl

theorem execCgath_puts {f : VFile} {d x : Nat} {a : Src} {wide : Bool} (e : execCgath h f d a wide x s = .next u) :
    s.Puts LocalKind u := by
  refine onTile_puts e ht fun t => .guarded ?_
  split
  · trivial
  · dsimp only
    split
    · trivial
    · split
      · exact (t.puts_notes _ _ _ _).putLocal (by decide) (by decide) rfl
      · exact (t.puts_notes _ _ _ _).putLocal (by decide) (by decide) rfl

theorem execCscat_puts {f : VFile} {d x : Nat} {a : Src} {wide : Bool} (e : execCscat h f d a wide x s = .next u) :
    s.Puts LocalKind u := by
  refine onTile_puts e ht fun t => .guarded ?_
  split
  · trivial
  · dsimp only
    split
    · trivial
    · exact t.put_local (by decide) (by decide) rfl

/-- Every syllable of R74, R136 to R140 and R150. -/
theorem exec_local_puts {i : Instr} (hi : isLocal i = true) (e : exec i s = .next u) : s.Puts LocalKind u := by
  cases i with
  | cnop => cases e; exact ⟨_, rfl, .refl _⟩
  | sld => exact execSld_puts ht e
  | sst => exact execSst_puts ht e
  | cld => exact execCld_puts ht e
  | cst => exact execCst_puts ht e
  | cgath => exact execCgath_puts ht e
  | cscat => exact execCscat_puts ht e
  | xcpsx | xcpmx | xcpvax | xcpvbx =>
    unfold exec at e
    simp only [execXcpsx, execXcpmx, execXcpvax, execXcpvbx] at e
    exact onTile_puts e ht fun t => t.copyIn_puts _ _ _
  | xcpxs | xcpxm => exact onTile_puts e ht fun t => t.copyOut_puts _ _ _ fun _ _ => rfl
  | xcpxva | xcpxvb => exact onTile_puts e ht fun t => t.copyLane_puts _ _ _ _ _
  | ltime | seedr =>
    unfold exec at e
    simp only [execLtime, execSeedr] at e
    exact onTile_puts e ht fun t => .guarded (t.putX_local _ _ (by decide) (by decide))
  | _ => cases hi

end

/-- Settles O12: an access notes its touch and puts a result or a store in flight, and a move puts its result there. -/
theorem localFrame : Obligations.LocalFrame := by
  unfold Obligations.LocalFrame
  intro i s u hi e ht
  exact (exec_local_puts ht hi e).frame

end Sys2Proof.Machine
end

section
/-! PROOFS. Moves between files, LTIME and SEEDR (R74, R150): what the shared forms answer with the guard on and the source readable. -/

namespace Sys2Proof.Machine

section
variable {s : State} {h : Hdr} (hg : s.tile.guarded h = true)
include hg

theorem onTile_copyIn (d : Dest) {v : Tile → Option Word} {x : Word} (hv : v s.tile = some x) :
    onTile (fun t => Tile.copyIn h d (v t) t) s = s.nextTile (s.tile.putX 2 d x) :=
  onTile_ok (by simp [Tile.copyIn, hg, hv])

variable {a : Src} {x : Word} (ha : s.tile.readX a = some x)
include ha

theorem onTile_copyOut_reg (n : Nat) (e : Nat → Word → Eff) :
    onTile (Tile.copyOut h (.reg n) a e) s = s.nextTile (s.tile.put 2 (fileSlot s.tile.cfile) (e n x)) :=
  onTile_ok (by simp [Tile.copyOut, hg, ha])

theorem onTile_copyOut_suppressed (e : Nat → Word → Eff) :
    onTile (Tile.copyOut h .suppressed a e) s =
      s.nextTile (s.tile.put 2 (fileSlot s.tile.cfile) (.latchW (fileSlot s.tile.cfile) x)) :=
  onTile_ok (by simp [Tile.copyOut, hg, ha])

/-- A lane copy writes the register as read at issue with the lane replaced, and the latches. -/
theorem onTile_copyLane_reg (n : Nat) (f : VFile) (lane : Nat) :
    onTile (Tile.copyLane h (.reg n) a f lane) s =
      s.nextTile ((s.tile.put 2 (fileSlot s.tile.cfile) (.vreg f n (setLane64 (s.tile.vreg f n) lane x))).put 2
        (fileSlot s.tile.cfile) (.latchW (fileSlot s.tile.cfile) x)) :=
  onTile_ok (by simp [Tile.copyLane, hg, ha])

theorem onTile_copyLane_suppressed (f : VFile) (lane : Nat) :
    onTile (Tile.copyLane h .suppressed a f lane) s =
      s.nextTile (s.tile.put 2 (fileSlot s.tile.cfile) (.latchW (fileSlot s.tile.cfile) x)) :=
  onTile_ok (by simp [Tile.copyLane, hg, ha])

end

/-- Settles O32: a copy into the issuing file, out of it, or into a lane, each with its latch form, and the two reads of the tile. -/
theorem copyMoves : Obligations.CopyMoves := by
  unfold Obligations.CopyMoves
  intro s h d a r m lane k x hg ha t slot
  have copied (v : Tile → Option Word) {y : Word} (hy : v t = some y) := onTile_copyIn hg d hy
  exact ⟨copied (fun t => some (t.sreg r)) rfl, fun y hy => copied (fun t => t.readX (.latch k)) hy,
    copied (fun t => some (t.mreg m)) rfl, copied (fun t => some (word (bits (t.vreg .va r) (64 * lane) 64))) rfl,
    copied (fun t => some (word (bits (t.vreg .vb r) (64 * lane) 64))) rfl, onTile_copyOut_reg hg ha r _, onTile_copyOut_reg hg ha m _, onTile_copyOut_suppressed hg ha _,
    onTile_copyOut_suppressed hg ha _, onTile_copyLane_reg hg ha r .va lane, onTile_copyLane_reg hg ha r .vb lane,
    onTile_copyLane_suppressed hg ha .va lane, onTile_copyLane_suppressed hg ha .vb lane,
    onTile_on hg fun t => t.putX 1 d (word t.tick), onTile_on hg fun t => t.putX 2 d (word (bits t.seed (64 * k) 64))⟩

end Sys2Proof.Machine
end

section
/-! PROOFS. The operands of a syllable and their fields in its word (R61, R64, R65, R66, R94, R194): what each check of the decoder lets
pass, and that each reader and its code undo each other. -/

namespace Sys2Proof

/-! The judgement: a word is accepted when every check passes. -/

theorem worse_foldr_none {rs : List (Option Illegal)} : rs.foldr Illegal.worse none = none ↔ ∀ r ∈ rs, r = none := by
  induction rs with
  | nil => simp
  | cons r rs ih => rw [List.foldr_cons, Illegal.worse_none, ih, List.forall_mem_cons]

theorem judge_eq_ok {rs : List (Option Illegal)} {i j : Instr} : judge rs i = .ok j ↔ i = j ∧ ∀ r ∈ rs, r = none := by
  rw [← worse_foldr_none]
  refine ⟨judge_ok, fun ⟨hi, hn⟩ => ?_⟩
  rw [judge, hn, hi]

/-! Fields (R64). -/

theorem fld_lt (w lo n : Nat) : fld w lo n < 2 ^ n := Nat.mod_lt _ (Nat.two_pow_pos n)

theorem fld_one_lt (w lo : Nat) : fld w lo 1 < 2 := fld_lt w lo 1

/-! What each check lets pass (R65, R66, R75). -/

section
variable {n : Nat}

@[simp] theorem chkZero_none : chkZero n = none ↔ n = 0 := by simp [chkZero]
@[simp] theorem chkSrc32_none : chkSrc32 n = none ↔ n < 40 := by simp [chkSrc32]
@[simp] theorem chkPsrc_none : chkPsrc n = none ↔ n < 16 := by unfold chkPsrc; split <;> [skip; split] <;> simp [*]
@[simp] theorem chkPdest_none : chkPdest n = none ↔ 0 < n ∧ n < 16 := by
  unfold chkPdest
  split <;> [skip; split] <;> simp <;> omega
@[simp] theorem chkSrc16_none : chkSrc16 n = none ↔ n < 16 ∨ 32 ≤ n ∧ n < 40 := by
  unfold chkSrc16
  split <;> [skip; split <;> [skip; split]] <;> simp <;> omega
@[simp] theorem chkReg16_none : chkReg16 n = none ↔ n < 16 := by simp [chkReg16]
@[simp] theorem chkCsr_none : chkCsr n = none ↔ (csrOfNumber n).isSome := by simp [chkCsr, Option.isSome_iff_ne_none]
@[simp] theorem chkLevel_none : chkLevel n = none ↔ n < 6 := by simp [chkLevel]
@[simp] theorem chkNonzero_none : chkNonzero n = none ↔ 0 < n := by simp [chkNonzero, Nat.pos_iff_ne_zero]
@[simp] theorem chkOct3_none : chkOct3 n = none ↔ n = 0 := by simp [chkOct3]
@[simp] theorem chkFmt_none : chkFmt n = none ↔ n < 16 := by simp [chkFmt]
@[simp] theorem chkRnd_none : chkRnd n = none ↔ n < 6 := by simp [chkRnd]
@[simp] theorem chkMreg6_none : chkMreg6 n = none ↔ n < 16 := by unfold chkMreg6; split <;> [skip; split] <;> simp [*]
@[simp] theorem chkVreg6_none : chkVreg6 n = none ↔ n < 32 := by simp [chkVreg6]
@[simp] theorem chkFlag_none : chkFlag n = none ↔ 0 < n := by simp [chkFlag, Nat.pos_iff_ne_zero]
@[simp] theorem chkOctD_none : chkOctD n = none ↔ n = 0 ∨ n = 8 := by unfold chkOctD; split <;> simp [*]
@[simp] theorem chkOctB_none : chkOctB n = none ↔ n = 0 ∨ n = 8 := by unfold chkOctB; split <;> [skip; split] <;> simp [*]
@[simp] theorem chkPair_none : chkPair n = none ↔ n < 16 ∧ n % 2 = 0 := by
  unfold chkPair
  split <;> [skip; split] <;> simp <;> omega
@[simp] theorem chkScope_none : chkScope n = none ↔ n < 6 := by simp [chkScope]
@[simp] theorem chkMsrc_none : chkMsrc n = none ↔ n < 24 := by simp [chkMsrc]
@[simp] theorem chkMfield_none : chkMfield n = none ↔ (mfieldOfIndex n).isSome := by simp [chkMfield, Option.isSome_iff_ne_none]
@[simp] theorem chkMask_none : chkMask n = none ↔ 0 < n := by simp [chkMask, Nat.pos_iff_ne_zero]
@[simp] theorem chkMitem_none : chkMitem n = none ↔ mstatItem n = true := by simp [chkMitem]
@[simp] theorem chkSpitem_none : chkSpitem n = none ↔ n < 3 := by simp [chkSpitem]
@[simp] theorem chkCfmt_none : chkCfmt n = none ↔ n < 3 := by simp [chkCfmt]

end

@[simp] theorem chkSx_none {z x : Nat} : chkSx z x = none ↔ ¬(z = 3 ∧ x = 1) := by simp [chkSx]

section
variable {w : Nat}

@[simp] theorem chkDest32_none : chkDest32 w = none ↔ fld w 20 1 = 0 ∨ fld w 15 5 = 0 := by
  have := fld_one_lt w 20
  simp only [chkDest32, ite_eq_right_iff, reduceCtorEq, imp_false]
  omega

@[simp] theorem chkDest16_none : chkDest16 w = none ↔ fld w 15 5 < 16 ∧ (fld w 20 1 = 0 ∨ fld w 15 5 = 0) := by
  unfold chkDest16
  split
  · simp; omega
  · simp; omega

end

/-- A flag of one bit is its bit. -/
theorem toNat_beq_one {n : Nat} (h : n < 2) : (n == 1).toNat = n := by interval_cases n <;> rfl

@[simp] theorem toNat_flag (w lo : Nat) : (fld w lo 1 == 1).toNat = fld w lo 1 := toNat_beq_one (fld_one_lt w lo)

@[simp] theorem toNat_beq_one_toNat (b : Bool) : (b.toNat == 1) = b := by cases b <;> rfl

/-! The header (R61). -/

@[simp] theorem Hdr.ok_hdrOf (w : Nat) : (hdrOf w).ok = true := decide_eq_true (fld_lt w 21 4)

@[simp] theorem Hdr.field_hdrOf (w : Nat) : (hdrOf w).field = fld w 31 1 * 2147483648 + fld w 21 4 * 2097152 := by
  rw [Hdr.field, hdrOf, toNat_flag]

/-! Own sources and destinations (R65, R66). -/

@[simp] theorem Src.code_srcOf (n : Nat) : (srcOf n).code = n := by
  unfold srcOf
  split
  · rfl
  · simp only [Src.code]; omega

@[simp] theorem Src.ok32_srcOf {n : Nat} (h : n < 40) : (srcOf n).ok 32 = true := by
  unfold srcOf
  split
  · simpa [Src.ok]
  · simp only [Src.ok, decide_eq_true_eq]; omega

@[simp] theorem Src.ok16_srcOf {n : Nat} (h : n < 16 ∨ 32 ≤ n ∧ n < 40) : (srcOf n).ok 16 = true := by
  unfold srcOf
  split <;> simp only [Src.ok, decide_eq_true_eq] <;> omega

@[simp] theorem Dest.ok32_destOf (w : Nat) : (destOf w).ok 32 = true := by
  unfold destOf
  split
  · rfl
  · exact decide_eq_true (fld_lt w 15 5)

@[simp] theorem Dest.ok16_destOf {w : Nat} (h : fld w 15 5 < 16) : (destOf w).ok 16 = true := by
  unfold destOf
  split
  · rfl
  · exact decide_eq_true h

@[simp] theorem Dest.field_destOf {w : Nat} (h : fld w 20 1 = 0 ∨ fld w 15 5 = 0) :
    (destOf w).field = fld w 20 1 * 1048576 + fld w 15 5 * 32768 := by
  have := fld_one_lt w 20
  unfold destOf
  split
  next hw => rw [h.resolve_left (by omega), hw]; rfl
  next hw => simp only [Dest.field]; omega

/-- The six bits of a destination: W above D (R66). -/
def Dest.code : Dest → Nat
  | .reg n => n
  | .suppressed => 32

theorem Dest.field_eq (d : Dest) : d.field = d.code * 32768 := by cases d <;> rfl

/-- The destination of six bits. -/
def Dest.ofCode (n : Nat) : Dest := if n / 32 = 1 then .suppressed else .reg (n % 32)

theorem destOf_eq_ofCode {w n : Nat} (h1 : fld w 20 1 = n / 32) (h5 : fld w 15 5 = n % 32) : destOf w = Dest.ofCode n := by
  rw [destOf, Dest.ofCode, h1, h5]

/-! What it is to be well formed (R65): a code in range that is read back. -/

theorem Hdr.ok_iff {h : Hdr} : h.ok = true ↔ h.g < 16 := decide_eq_true_iff

theorem Dest.ok32_iff {d : Dest} : d.ok 32 = true ↔ d.code ≤ 32 ∧ Dest.ofCode d.code = d := by
  cases d with
  | reg n =>
    simp only [Dest.ok, Dest.code, Dest.ofCode, decide_eq_true_eq]
    by_cases h : n / 32 = 1 <;> simp [h] <;> omega
  | suppressed => decide

theorem Dest.ok16_iff {d : Dest} : d.ok 16 = true ↔ (d.code < 16 ∨ d.code = 32) ∧ Dest.ofCode d.code = d := by
  cases d with
  | reg n =>
    simp only [Dest.ok, Dest.code, Dest.ofCode, decide_eq_true_eq]
    by_cases h : n / 32 = 1 <;> simp [h] <;> omega
  | suppressed => decide

theorem Src.ok32_iff {a : Src} : a.ok 32 = true ↔ a.code < 40 ∧ srcOf a.code = a := by
  cases a with
  | reg n =>
    by_cases h : n < 32 <;> simp [Src.ok, Src.code, srcOf, h]
    omega
  | latch b => simp [Src.ok, Src.code, srcOf]; omega

theorem Src.ok16_iff {a : Src} : a.ok 16 = true ↔ (a.code < 16 ∨ 32 ≤ a.code ∧ a.code < 40) ∧ srcOf a.code = a := by
  cases a with
  | reg n =>
    by_cases h : n < 32 <;> simp [Src.ok, Src.code, srcOf, h]
    omega
  | latch b => simp [Src.ok, Src.code, srcOf]; omega

theorem MSrc.ok_iff {a : MSrc} : a.ok = true ↔ a.code < 24 ∧ msrcOf a.code = a := by
  cases a with
  | reg n =>
    by_cases h : n < 16 <;> simp [MSrc.ok, MSrc.code, msrcOf, h]
    omega
  | latch b => simp [MSrc.ok, MSrc.code, msrcOf]; omega

@[simp] theorem MSrc.code_msrcOf (n : Nat) : (msrcOf n).code = n := by
  unfold msrcOf
  split
  · rfl
  · simp only [MSrc.code]; omega

@[simp] theorem MSrc.ok_msrcOf {n : Nat} (h : n < 24) : (msrcOf n).ok = true := by
  unfold msrcOf
  split <;> simp only [MSrc.ok, decide_eq_true_eq] <;> omega

/-! Codes of small kinds (R31, R40, R64, R138, R207, R277). -/

@[simp] theorem VFile.code_vfileOf {n : Nat} (h : n < 2) : (vfileOf n).code = n := by interval_cases n <;> rfl
@[simp] theorem vfileOf_code (f : VFile) : vfileOf f.code = f := by cases f <;> rfl
@[simp] theorem Fmt.code_fmtOf {n : Nat} (h : n < 16) : (fmtOf n).code = n := by interval_cases n <;> rfl
@[simp] theorem fmtOf_code (f : Fmt) : fmtOf f.code = f := by cases f <;> rfl
@[simp] theorem RndOvr.code_rndOf {n : Nat} (h : n < 6) : (rndOf n).code = n := by interval_cases n <;> rfl
@[simp] theorem rndOf_code (r : RndOvr) : rndOf r.code = r := by
  cases r with
  | slot => rfl
  | mode r => cases r <;> rfl
@[simp] theorem MemSize.code_sizeOf {n : Nat} (h : n < 4) : (sizeOf n).code = n := by interval_cases n <;> rfl
@[simp] theorem sizeOf_code (z : MemSize) : sizeOf z.code = z := by cases z <;> rfl
@[simp] theorem Scope.code_scopeOf {n : Nat} (h : n < 6) : (scopeOf n).code = n := by interval_cases n <;> rfl
@[simp] theorem scopeOf_code (k : Scope) : scopeOf k.code = k := by cases k <;> rfl
@[simp] theorem CFmt.code_cfmtOf {n : Nat} (h : n < 3) : (cfmtOf n).code = n := by interval_cases n <;> rfl
@[simp] theorem cfmtOf_code (f : CFmt) : cfmtOf f.code = f := by cases f <;> rfl

theorem VFile.code_lt (f : VFile) : f.code < 2 := by cases f <;> decide
theorem Fmt.code_lt (f : Fmt) : f.code < 16 := by cases f <;> decide
theorem RndOvr.code_lt (r : RndOvr) : r.code < 6 := by
  cases r with
  | slot => decide
  | mode r => cases r <;> decide
theorem MemSize.code_lt (z : MemSize) : z.code < 4 := by cases z <;> decide
/-- An octet base is 0 or 8 (R235). -/
theorem octet_toNat {n : Nat} (h : n = 0 ∨ n = 8) : (n == 8).toNat * 8 = n := by rcases h with rfl | rfl <;> rfl
theorem mstatItem_lt {i : Nat} (h : mstatItem i = true) : i < 256 := by
  simp only [mstatItem, Bool.or_eq_true, Bool.and_eq_true, decide_eq_true_eq] at h
  omega
theorem MemSize.sx_iff {z : MemSize} {x : Bool} : (!(z == .b8 && x)) = true ↔ (z.code = 3 → x = false) := by
  cases z <;> cases x <;> decide
theorem Scope.code_lt (k : Scope) : k.code < 6 := by cases k <;> decide
theorem CFmt.code_lt (f : CFmt) : f.code < 3 := by cases f <;> decide

/-! CSRs and configuration fields by number (R94, R194). -/

theorem csrOfNumber_number {c : Csr} (h : c.ok = true) : csrOfNumber c.number = some c := by
  cases c with
  | ftab n | seed n | zero n | lstate n =>
    have hn := of_decide_eq_true h
    interval_cases n <;> rfl
  | _ => rfl

theorem csrOf_number {c : Csr} (h : c.ok = true) : csrOf c.number = c := by rw [csrOf, csrOfNumber_number h, Option.getD_some]

/-- A number of R94 is the number of its CSR. -/
theorem csrOfNumber_some {n : Nat} {c : Csr} (h : csrOfNumber n = some c) : c.ok = true ∧ c.number = n := by
  unfold csrOfNumber at h
  split at h
  case h_25 =>
    repeat' split at h
    all_goals cases h
    all_goals simp only [Csr.ok, Csr.number, decide_eq_true_eq]; omega
  all_goals
    cases h
    exact ⟨rfl, rfl⟩

theorem Csr.csrOf_of_isSome {n : Nat} (h : (csrOfNumber n).isSome) : (csrOf n).ok = true ∧ (csrOf n).number = n := by
  obtain ⟨c, hc⟩ := Option.isSome_iff_exists.1 h
  rw [csrOf, hc, Option.getD_some]
  exact csrOfNumber_some hc

theorem mfieldOfIndex_index {f : MField} (h : f.ok = true) : mfieldOfIndex f.index = some f := by
  cases f with
  | level n | ring n | rctl n =>
    have hn := of_decide_eq_true h
    interval_cases n <;> rfl
  | _ => rfl

theorem mfieldOf_index {f : MField} (h : f.ok = true) : mfieldOf f.index = f := by
  rw [mfieldOf, mfieldOfIndex_index h, Option.getD_some]

theorem mfieldOfIndex_some {n : Nat} {f : MField} (h : mfieldOfIndex n = some f) : f.ok = true ∧ f.index = n := by
  unfold mfieldOfIndex at h
  repeat' split at h
  all_goals cases h
  all_goals simp only [MField.ok, MField.index, decide_eq_true_eq, true_and]; omega

theorem MField.index_lt {f : MField} (h : f.ok = true) : f.index < 32 := by
  cases f with
  | level n | ring n | rctl n =>
    have hn := of_decide_eq_true h
    simp only [MField.index]
    omega
  | _ => decide

theorem MField.mfieldOf_of_isSome {n : Nat} (h : (mfieldOfIndex n).isSome) : (mfieldOf n).ok = true ∧ (mfieldOf n).index = n := by
  obtain ⟨f, hf⟩ := Option.isSome_iff_exists.1 h
  rw [mfieldOf, hf, Option.getD_some]
  exact mfieldOfIndex_some hf

/-! Immediates in two's complement (R64). -/

section
variable {n : Nat} (h : 0 < n)
include h

theorem two_pow_half : 2 ^ n = 2 * 2 ^ (n - 1) := by rw [← pow_succ', Nat.sub_add_cancel h]

theorem fits_signed {x : Nat} (hx : x < 2 ^ n) : fits n (signed n x) = true := by
  have hp : (2 : Int) ^ (n - 1) = ((2 ^ (n - 1) : Nat) : Int) := by norm_cast
  have h2 := two_pow_half h
  simp only [fits, Bool.and_eq_true, decide_eq_true_eq, signed, hp]
  split <;> omega

theorem signed_enc2 {x : Int} (hx : fits n x = true) : signed n (enc2 n x) = x := by
  have hp : (2 : Int) ^ (n - 1) = ((2 ^ (n - 1) : Nat) : Int) := by norm_cast
  have h2 := two_pow_half h
  simp only [fits, Bool.and_eq_true, decide_eq_true_eq, hp] at hx
  have hm : x % ((2 ^ n : Nat) : Int) = if 0 ≤ x then x else x + (2 ^ n : Nat) := by
    split
    next h0 => exact Int.emod_eq_of_lt h0 (by omega)
    next h0 => rw [← Int.add_emod_right, Int.emod_eq_of_lt (by omega) (by omega)]
  rw [signed, enc2, hm]
  split <;> split <;> omega

end

theorem enc2_signed {n x : Nat} (hx : x < 2 ^ n) : enc2 n (signed n x) = x := by
  rw [enc2, signed]
  split
  · rw [Int.emod_eq_of_lt (by omega) (by omega), Int.toNat_natCast]
  · rw [Int.sub_emod_right, Int.emod_eq_of_lt (by omega) (by omega), Int.toNat_natCast]

@[simp] theorem enc2_sfld (w lo n : Nat) : enc2 n (sfld w lo n) = fld w lo n := enc2_signed (fld_lt w lo n)

@[simp] theorem fits_sfld (w lo : Nat) {n : Nat} (h : 0 < n) : fits n (sfld w lo n) = true := fits_signed h (fld_lt w lo n)

end Sys2Proof
end

section
/-! PROOFS. A syllable's word decodes to it (R61, R64, R65, R73): the fields of the word that the encoder puts together, by the
arrangement of the operands, and the decoder's branch for each syllable. -/

namespace Sys2Proof
open Machine

/-! The fields of a word that is a sum of its parts. -/

theorem hdrOf_eq {w : Nat} {h : Hdr} (he : fld w 31 1 = h.e.toNat) (hg : fld w 21 4 = h.g) : hdrOf w = h := by
  rw [hdrOf, he, hg, toNat_beq_one_toNat]

/-- A field that lies within the low p bits. -/
theorem fld_of_low {w p x lo n : Nat} (h : fld w 0 p = x) (hn : lo + n ≤ p) : fld w lo n = x / 2 ^ lo % 2 ^ n := by
  subst h
  refine Nat.eq_of_testBit_eq fun b => ?_
  simp only [testBit_fld, Nat.testBit_mod_two_pow, Nat.testBit_div_two_pow]
  by_cases hb : b < n
  · have : b + lo < p := by omega
    simp [hb, Nat.add_comm lo, this]
  · simp [hb]

section
variable {h : Hdr} {c d a b n w : Nat}

/-- The major, the header and the low 21 bits of a word, c being the constant of its syllable. -/
structure HeaderForm (w : Nat) (h : Hdr) (c low : Nat) : Prop where
  major : fld w 25 6 = c / 33554432
  hdr : hdrOf w = h
  low : fld w 0 21 = c % 33554432 + low

theorem headerForm {low : Nat} (enc : h.field + (c + low) = w) (hh : h.g < 16) (hc : c < 2147483648)
    (hl : c % 33554432 + low < 2097152) : HeaderForm w h c low := by
  have := Bool.toNat_lt h.e
  subst enc
  refine ⟨?_, hdrOf_eq ?_ ?_, ?_⟩
  all_goals simp only [fld, Hdr.field]; omega

/-- The destination, the first source and the low nine bits. -/
structure ImmForm (w : Nat) (h : Hdr) (c d a n : Nat) : Prop where
  major : fld w 25 6 = c / 33554432
  hdr : hdrOf w = h
  dest : destOf w = Dest.ofCode d
  w1 : fld w 20 1 = d / 32
  d5 : fld w 15 5 = d % 32
  l3 : fld w 15 3 = d % 8
  a6 : fld w 9 6 = a
  low : ∀ {lo k}, lo + k ≤ 9 → fld w lo k = (c % 33554432 + n) / 2 ^ lo % 2 ^ k

theorem immForm (enc : h.field + (c + (d * 32768 + (a * 512 + n))) = w) (hh : h.g < 16) (hc : c < 2147483648)
    (hn : c % 33554432 + n < 512) (hd : d < 64) (ha : a < 64) : ImmForm w h c d a n := by
  have H := headerForm enc hh hc (by omega)
  have w1 : fld w 20 1 = d / 32 := by rw [fld_of_low H.low (by decide)]; omega
  have d5 : fld w 15 5 = d % 32 := by rw [fld_of_low H.low (by decide)]; omega
  have l3 : fld w 15 3 = d % 8 := by rw [fld_of_low H.low (by decide)]; omega
  have a6 : fld w 9 6 = a := by rw [fld_of_low H.low (by decide)]; omega
  have n9 : fld w 0 9 = c % 33554432 + n := by rw [fld_of_low H.low (by decide)]; omega
  exact ⟨H.major, H.hdr, destOf_eq_ofCode w1 d5, w1, d5, l3, a6, fld_of_low n9⟩

/-- The fields of a shift by an immediate (R86). -/
theorem ImmForm.shift (F : ImmForm w h c d a n) (hn : n < 64) (hc : c % 33554432 % 128 = 0) :
    fld w 7 2 = c % 33554432 / 128 % 4 ∧ fld w 6 1 = 0 ∧ fld w 0 6 = n := by
  refine ⟨?_, ?_, ?_⟩
  all_goals rw [F.low (by decide)]; omega

/-- The destination, both sources and the function code. -/
structure OperandForm (w : Nat) (h : Hdr) (c d a b : Nat) : Prop extends ImmForm w h c d a (b * 8) where
  fn : fld w 0 3 = c % 33554432
  b6 : fld w 3 6 = b

theorem operandForm (enc : h.field + (c + (d * 32768 + (a * 512 + b * 8))) = w) (hh : h.g < 16) (hc : c < 2147483648)
    (hf : c % 33554432 < 8) (hd : d < 64) (ha : a < 64) (hb : b < 64) : OperandForm w h c d a b := by
  have I := immForm enc hh hc (by omega) hd ha
  refine ⟨I, ?_, ?_⟩
  all_goals rw [I.low (by decide)]; omega

theorem operandForm_DA (enc : h.field + (c + (d * 32768 + a * 512)) = w) (hh : h.g < 16) (hc : c < 2147483648)
    (hf : c % 33554432 < 8) (hd : d < 64) (ha : a < 64) : OperandForm w h c d a 0 :=
  operandForm (b := 0) (by simpa using enc) hh hc hf hd ha (by decide)

theorem operandForm_D (enc : h.field + (c + d * 32768) = w) (hh : h.g < 16) (hc : c < 2147483648)
    (hf : c % 33554432 < 8) (hd : d < 64) : OperandForm w h c d 0 0 :=
  operandForm (a := 0) (b := 0) (by simpa using enc) hh hc hf hd (by decide) (by decide)

theorem operandForm_A (enc : h.field + (c + a * 512) = w) (hh : h.g < 16) (hc : c < 2147483648)
    (hf : c % 33554432 < 8) (ha : a < 64) : OperandForm w h c 0 a 0 :=
  operandForm (d := 0) (b := 0) (by simpa using enc) hh hc hf (by decide) ha (by decide)

theorem operandForm_AB (enc : h.field + (c + (a * 512 + b * 8)) = w) (hh : h.g < 16) (hc : c < 2147483648)
    (hf : c % 33554432 < 8) (ha : a < 64) (hb : b < 64) : OperandForm w h c 0 a b :=
  operandForm (d := 0) (by simpa using enc) hh hc hf (by decide) ha hb

theorem operandForm_DB (enc : h.field + (c + (d * 32768 + b * 8)) = w) (hh : h.g < 16) (hc : c < 2147483648)
    (hf : c % 33554432 < 8) (hd : d < 64) (hb : b < 64) : OperandForm w h c d 0 b :=
  operandForm (a := 0) (by simpa using enc) hh hc hf hd (by decide) hb

theorem operandForm_B (enc : h.field + (c + b * 8) = w) (hh : h.g < 16) (hc : c < 2147483648)
    (hf : c % 33554432 < 8) (hb : b < 64) : OperandForm w h c 0 0 b :=
  operandForm (d := 0) (a := 0) (by simpa using enc) hh hc hf (by decide) (by decide) hb

theorem operandForm_none (enc : h.field + c = w) (hh : h.g < 16) (hc : c < 2147483648)
    (hf : c % 33554432 < 8) : OperandForm w h c 0 0 0 :=
  operandForm (d := 0) (a := 0) (b := 0) (by simpa using enc) hh hc hf (by decide) (by decide) (by decide)

theorem fileForm {f : Nat} (enc : h.field + (c + (f * 1048576 + (d * 32768 + (a * 512 + n)))) = w) (hh : h.g < 16) (hc : c < 2147483648)
    (hn : c % 33554432 + n < 512) (hf : f < 2) (hd : d < 32) (ha : a < 64) : ImmForm w h c (f * 32 + d) a n :=
  immForm (by rw [← enc]; ring) hh hc hn (by omega) ha

/-- A vector file above the register (R64). -/
theorem ImmForm.file {f : Nat} (F : ImmForm w h c (f * 32 + d) a n) (hd : d < 32) : fld w 20 1 = f ∧ fld w 15 5 = d := by
  rw [F.w1, F.d5]
  omega

/-- The fields of a syllable that does nothing (R73). -/
theorem nopForm {e : Bool} (enc : e.toNat * 2147483648 + c = w) (hc : c < 2147483648) :
    fld w 25 6 = c / 33554432 ∧ (fld w 31 1 == 1) = e ∧ fld w 0 25 = c % 33554432 := by
  have := e.toNat_lt
  subst enc
  refine ⟨?_, ?_, ?_⟩
  · simp only [fld]; omega
  · have h31 : fld (e.toNat * 2147483648 + c) 31 1 = e.toNat := by simp only [fld]; omega
    rw [h31, toNat_beq_one_toNat]
  · simp only [fld]; omega

/-- The two registers of slot M, the function code and the low byte. -/
structure MatrixForm (w : Nat) (h : Hdr) (c a b n : Nat) : Prop where
  major : fld w 25 6 = c / 33554432
  hdr : hdrOf w = h
  a5 : fld w 16 5 = a
  b5 : fld w 11 5 = b
  fn : fld w 8 3 = c % 33554432 / 256
  n8 : fld w 0 8 = n
  low : ∀ {lo k}, lo + k ≤ 8 → fld w lo k = n / 2 ^ lo % 2 ^ k

theorem matrixForm (enc : h.field + (c + (a * 65536 + (b * 2048 + n))) = w) (hh : h.g < 16) (hc : c < 2147483648)
    (hf : c % 33554432 % 256 = 0 ∧ c % 33554432 < 2048) (ha : a < 32) (hb : b < 32) (hn : n < 256) : MatrixForm w h c a b n := by
  have H := headerForm enc hh hc (by omega)
  have a5 : fld w 16 5 = a := by rw [fld_of_low H.low (by decide)]; omega
  have b5 : fld w 11 5 = b := by rw [fld_of_low H.low (by decide)]; omega
  have fn : fld w 8 3 = c % 33554432 / 256 := by rw [fld_of_low H.low (by decide)]; omega
  have n8 : fld w 0 8 = n := by rw [fld_of_low H.low (by decide)]; omega
  exact ⟨H.major, H.hdr, a5, b5, fn, n8, fld_of_low n8⟩

theorem matrixForm_AN (enc : h.field + (c + (a * 65536 + n)) = w) (hh : h.g < 16) (hc : c < 2147483648)
    (hf : c % 33554432 % 256 = 0 ∧ c % 33554432 < 2048) (ha : a < 32) (hn : n < 256) : MatrixForm w h c a 0 n :=
  matrixForm (b := 0) (by simpa using enc) hh hc hf ha (by decide) hn

theorem matrixForm_AB (enc : h.field + (c + (a * 65536 + b * 2048)) = w) (hh : h.g < 16) (hc : c < 2147483648)
    (hf : c % 33554432 % 256 = 0 ∧ c % 33554432 < 2048) (ha : a < 32) (hb : b < 32) : MatrixForm w h c a b 0 :=
  matrixForm (n := 0) (by simpa using enc) hh hc hf ha hb (by decide)

theorem matrixForm_A (enc : h.field + (c + a * 65536) = w) (hh : h.g < 16) (hc : c < 2147483648)
    (hf : c % 33554432 % 256 = 0 ∧ c % 33554432 < 2048) (ha : a < 32) : MatrixForm w h c a 0 0 :=
  matrixForm (b := 0) (n := 0) (by simpa using enc) hh hc hf ha (by decide) (by decide)

theorem matrixForm_N (enc : h.field + (c + n) = w) (hh : h.g < 16) (hc : c < 2147483648)
    (hf : c % 33554432 % 256 = 0 ∧ c % 33554432 < 2048) (hn : n < 256) : MatrixForm w h c 0 0 n :=
  matrixForm (a := 0) (b := 0) (by simpa using enc) hh hc hf (by decide) (by decide) hn

theorem matrixForm_none (enc : h.field + c = w) (hh : h.g < 16) (hc : c < 2147483648)
    (hf : c % 33554432 % 256 = 0 ∧ c % 33554432 < 2048) : MatrixForm w h c 0 0 0 :=
  matrixForm (a := 0) (b := 0) (n := 0) (by simpa using enc) hh hc hf (by decide) (by decide) (by decide)

/-- The register above a 16-bit immediate. -/
structure WideForm (w : Nat) (h : Hdr) (c d n : Nat) : Prop where
  major : fld w 25 6 = c / 33554432
  hdr : hdrOf w = h
  d5 : fld w 16 5 = d
  low : ∀ {lo k}, lo + k ≤ 16 → fld w lo k = (c % 33554432 + n) / 2 ^ lo % 2 ^ k

theorem wideForm (enc : h.field + (c + (d * 65536 + n)) = w) (hh : h.g < 16) (hc : c < 2147483648)
    (hn : c % 33554432 + n < 65536) (hd : d < 32) : WideForm w h c d n := by
  have H := headerForm enc hh hc (by omega)
  have d5 : fld w 16 5 = d := by rw [fld_of_low H.low (by decide)]; omega
  have n16 : fld w 0 16 = c % 33554432 + n := by rw [fld_of_low H.low (by decide)]; omega
  exact ⟨H.major, H.hdr, d5, fld_of_low n16⟩

/-- The fields of a CSR access (R93). -/
theorem WideForm.csr (F : WideForm w h c d n) (hn : n < 4096) (hc : c % 33554432 % 4096 = 0) :
    fld w 12 4 = c % 33554432 / 4096 % 16 ∧ fld w 0 12 = n := by
  refine ⟨?_, ?_⟩
  all_goals rw [F.low (by decide)]; omega

end

theorem sfld_of_enc2 {w lo n : Nat} {x : Int} (hn : 0 < n) (h : fld w lo n = enc2 n x) (hx : fits n x = true) : sfld w lo n = x := by
  rw [sfld, h, signed_enc2 hn hx]

theorem Csr.number_lt {c : Csr} (h : c.ok = true) : c.number < 4096 := by
  cases c with
  | ftab n | seed n | zero n | lstate n =>
    have hn := of_decide_eq_true h
    simp only [Csr.number]
    omega
  | _ => decide

/-! The decoder of each major (R73). -/

/-- Majors of slot S (R73). -/
theorem decodeWord_scalar (w : Nat) :
    (fld w 25 6 = 0 → decodeWord w = decodeMaj0 w) ∧ (fld w 25 6 = 1 → decodeWord w = decodeMaj1 w) ∧
    (fld w 25 6 = 2 → decodeWord w = decodeMaj2 w) ∧ (fld w 25 6 = 3 → decodeWord w = decodeMaj3 w) ∧
    (fld w 25 6 = 4 → decodeWord w = decodeMaj4 w) ∧ (fld w 25 6 = 5 → decodeWord w = decodeMaj5 w) ∧
    (fld w 25 6 = 6 → decodeWord w = decodeMaj6 w) ∧ (fld w 25 6 = 7 → decodeWord w = decodeMaj7 w) ∧
    (fld w 25 6 = 8 → decodeWord w = decodeMaj8 w) ∧ (fld w 25 6 = 9 → decodeWord w = decodeMaj9 w) ∧
    (fld w 25 6 = 10 → decodeWord w = decodeMaj10 w) ∧ (fld w 25 6 = 11 → decodeWord w = decodeMaj11 w) ∧
    (fld w 25 6 = 12 → decodeWord w = decodeMaj12 w) ∧ (fld w 25 6 = 13 → decodeWord w = decodeMaj13 w) ∧
    (fld w 25 6 = 14 → decodeWord w = decodeMaj14 w) ∧ (fld w 25 6 = 15 → decodeWord w = decodeMaj15 w) ∧
    (fld w 25 6 = 16 → decodeWord w = decodeMaj16 w) ∧ (fld w 25 6 = 17 → decodeWord w = decodeMaj17 w) ∧
    (fld w 25 6 = 18 → decodeWord w = decodeMaj18 w) ∧ (fld w 25 6 = 19 → decodeWord w = decodeMaj19 w) ∧
    (fld w 25 6 = 20 → decodeWord w = decodeMaj20 w) ∧ (fld w 25 6 = 21 → decodeWord w = decodeMaj21 w) ∧
    (fld w 25 6 = 22 → decodeWord w = decodeMaj22 w) := by
  refine ⟨?_, ?_, ?_, ?_, ?_, ?_, ?_, ?_, ?_, ?_, ?_, ?_, ?_, ?_, ?_, ?_, ?_, ?_, ?_, ?_, ?_, ?_, ?_⟩
  all_goals
    intro hm
    rw [decodeWord, hm]
    rfl

/-- Majors of slots VA and VB (R73). -/
theorem decodeWord_vector (w : Nat) :
    (fld w 25 6 = 23 → decodeWord w = decodeMaj23 w) ∧ (fld w 25 6 = 24 → decodeWord w = decodeMaj24 w) ∧
    (fld w 25 6 = 25 → decodeWord w = decodeMaj25 w) ∧ (fld w 25 6 = 26 → decodeWord w = decodeMaj26 w) ∧
    (fld w 25 6 = 27 → decodeWord w = decodeMaj27 w) ∧ (fld w 25 6 = 28 → decodeWord w = decodeMaj28 w) ∧
    (fld w 25 6 = 29 → decodeWord w = decodeMaj29 w) ∧ (fld w 25 6 = 30 → decodeWord w = decodeMaj30 w) ∧
    (fld w 25 6 = 31 → decodeWord w = decodeMaj31 w) ∧ (fld w 25 6 = 32 → decodeWord w = decodeMaj32 w) ∧
    (fld w 25 6 = 33 → decodeWord w = decodeMaj33 w) ∧ (fld w 25 6 = 34 → decodeWord w = decodeMaj34 w) ∧
    (fld w 25 6 = 35 → decodeWord w = decodeMaj35 w) ∧ (fld w 25 6 = 36 → decodeWord w = decodeMaj36 w) ∧
    (fld w 25 6 = 37 → decodeWord w = decodeMaj37 w) ∧ (fld w 25 6 = 38 → decodeWord w = decodeMaj38 w) := by
  refine ⟨?_, ?_, ?_, ?_, ?_, ?_, ?_, ?_, ?_, ?_, ?_, ?_, ?_, ?_, ?_, ?_⟩
  all_goals
    intro hm
    rw [decodeWord, hm]
    rfl

/-- Majors of slots CA and CB (R73). -/
theorem decodeWord_copy (w : Nat) :
    (fld w 25 6 = 39 → decodeWord w = decodeMaj39 w) ∧ (fld w 25 6 = 40 → decodeWord w = decodeMaj40 w) ∧
    (fld w 25 6 = 41 → decodeWord w = decodeMaj41 w) ∧ (fld w 25 6 = 42 → decodeWord w = decodeMaj42 w) ∧
    (fld w 25 6 = 43 → decodeWord w = decodeMaj43 w) ∧ (fld w 25 6 = 44 → decodeWord w = decodeMaj44 w) ∧
    (fld w 25 6 = 45 → decodeWord w = decodeMaj45 w) ∧ (fld w 25 6 = 46 → decodeWord w = decodeMaj46 w) ∧
    (fld w 25 6 = 47 → decodeWord w = decodeMaj47 w) ∧ (fld w 25 6 = 48 → decodeWord w = decodeMaj48 w) ∧
    (fld w 25 6 = 49 → decodeWord w = decodeMaj49 w) ∧ (fld w 25 6 = 50 → decodeWord w = decodeMaj50 w) ∧
    (fld w 25 6 = 51 → decodeWord w = decodeMaj51 w) ∧ (fld w 25 6 = 52 → decodeWord w = decodeMaj52 w) ∧
    (fld w 25 6 = 53 → decodeWord w = decodeMaj53 w) ∧ (fld w 25 6 = 54 → decodeWord w = decodeMaj54 w) ∧
    (fld w 25 6 = 55 → decodeWord w = decodeMaj55 w) := by
  refine ⟨?_, ?_, ?_, ?_, ?_, ?_, ?_, ?_, ?_, ?_, ?_, ?_, ?_, ?_, ?_, ?_, ?_⟩
  all_goals
    intro hm
    rw [decodeWord, hm]
    rfl

/-- Majors of slot M (R73). -/
theorem decodeWord_matrix (w : Nat) :
    (fld w 25 6 = 56 → decodeWord w = decodeMaj56 w) ∧ (fld w 25 6 = 57 → decodeWord w = decodeMaj57 w) ∧
    (fld w 25 6 = 58 → decodeWord w = decodeMaj58 w) ∧ (fld w 25 6 = 59 → decodeWord w = decodeMaj59 w) ∧
    (fld w 25 6 = 60 → decodeWord w = decodeMaj60 w) ∧ (fld w 25 6 = 61 → decodeWord w = decodeMaj61 w) := by
  refine ⟨?_, ?_, ?_, ?_, ?_, ?_⟩
  all_goals
    intro hm
    rw [decodeWord, hm]
    rfl

theorem scalar_decodes {i : Instr} {w : Nat} (hi : isScalar i = true) (wf : i.wf = true) (enc : encode i = some w) :
    decodeWord w = .ok i := by
  cases i with
  | add | sub | and | or | xor | shl | shr | sra | mul | mulh | mulhu | div | divu | rem | remu | min | max | minu | maxu | rotl | sel =>
    simp only [Instr.wf, Bool.and_eq_true, Dest.ok32_iff, Src.ok32_iff, Hdr.ok_iff] at wf
    simp only [encode, Option.some.injEq, Dest.field_eq, Nat.add_assoc] at enc
    have F := operandForm enc (by omega) (by decide) (by decide) (by omega) (by omega) (by omega)
    simp only [decodeWord_scalar, F.major, decodeMaj1, decodeMaj2, decodeMaj3, decodeMaj16, F.fn]
    simp [judge_eq_ok, F.hdr, F.dest, F.a6, F.b6, wf, F.w1, F.d5]
    omega
  | clz | popc | ctz | bswap =>
    simp only [Instr.wf, Bool.and_eq_true, Dest.ok32_iff, Src.ok32_iff, Hdr.ok_iff] at wf
    simp only [encode, Option.some.injEq, Dest.field_eq, Nat.add_assoc] at enc
    have F := operandForm_DA enc (by omega) (by decide) (by decide) (by omega) (by omega)
    simp only [decodeWord_scalar, F.major, decodeMaj2, decodeMaj3, F.fn]
    simp [judge_eq_ok, F.hdr, F.dest, F.a6, F.b6, wf, F.w1, F.d5]
    omega
  | movp =>
    simp only [Instr.wf, Bool.and_eq_true, decide_eq_true_eq, Dest.ok32_iff, Hdr.ok_iff] at wf
    simp only [encode, Option.some.injEq, Dest.field_eq, Nat.add_assoc] at enc
    have F := operandForm_DA enc (by omega) (by decide) (by decide) (by omega) (by omega)
    simp only [decodeWord_scalar, F.major, decodeMaj16, F.fn]
    simp [judge_eq_ok, F.hdr, F.dest, F.a6, F.b6, wf, F.w1, F.d5]
    omega
  | movtp =>
    simp only [Instr.wf, Bool.and_eq_true, decide_eq_true_eq, Src.ok32_iff, Hdr.ok_iff] at wf
    simp only [encode, Option.some.injEq, Nat.add_assoc] at enc
    have F := operandForm_DA enc (by omega) (by decide) (by decide) (by omega) (by omega)
    simp only [decodeWord_scalar, F.major, decodeMaj16, F.fn]
    simp [judge_eq_ok, F.hdr, F.a6, F.b6, wf, F.w1, F.d5]
    omega
  | pand | por | pxor | pandn =>
    simp only [Instr.wf, Bool.and_eq_true, decide_eq_true_eq, Hdr.ok_iff] at wf
    simp only [encode, Option.some.injEq, Nat.add_assoc] at enc
    have F := operandForm enc (by omega) (by decide) (by decide) (by omega) (by omega) (by omega)
    simp only [decodeWord_scalar, F.major, decodeMaj14, F.fn]
    simp [judge_eq_ok, F.hdr, F.a6, F.b6, wf, F.w1, F.d5]
    omega
  | cmpeq | cmpne | cmplt | cmpltu | cmple | cmpleu | cmptst =>
    simp only [Instr.wf, Bool.and_eq_true, decide_eq_true_eq, Src.ok32_iff, Hdr.ok_iff] at wf
    simp only [encode, Option.some.injEq, Nat.add_assoc] at enc
    have F := operandForm enc (by omega) (by decide) (by decide) (by omega) (by omega) (by omega)
    simp only [decodeWord_scalar, F.major, decodeMaj13, F.fn]
    simp [judge_eq_ok, F.hdr, F.a6, F.b6, wf, F.w1, F.d5]
    omega
  | pnot | pmov =>
    simp only [Instr.wf, Bool.and_eq_true, decide_eq_true_eq, Hdr.ok_iff] at wf
    simp only [encode, Option.some.injEq, Nat.add_assoc] at enc
    have F := operandForm_DA enc (by omega) (by decide) (by decide) (by omega) (by omega)
    simp only [decodeWord_scalar, F.major, decodeMaj14, F.fn]
    simp [judge_eq_ok, F.hdr, F.a6, F.b6, wf, F.w1, F.d5]
    omega
  | pset | pclr =>
    simp only [Instr.wf, Bool.and_eq_true, decide_eq_true_eq, Hdr.ok_iff] at wf
    simp only [encode, Option.some.injEq, Nat.add_assoc] at enc
    have F := operandForm_D enc (by omega) (by decide) (by decide) (by omega)
    simp only [decodeWord_scalar, F.major, decodeMaj14, F.fn]
    simp [judge_eq_ok, F.hdr, F.a6, F.b6, F.w1, F.d5]
    omega
  | addi h d a imm | andi h d a imm | ori h d a imm | xori h d a imm =>
    simp only [Instr.wf, Bool.and_eq_true, Hdr.ok_iff, Dest.ok32_iff, Src.ok32_iff] at wf
    simp only [encode, Option.some.injEq, Dest.field_eq, Nat.add_assoc] at enc
    have lt := enc2_lt 9 imm
    have F := immForm enc (by omega) (by decide) (by omega) (by omega) (by omega)
    have n9 : fld w 0 9 = enc2 9 imm := by rw [F.low (by decide)]; omega
    simp only [decodeWord_scalar, F.major, decodeMaj4, decodeMaj5, decodeMaj6, decodeMaj7]
    simp [judge_eq_ok, F.hdr, F.dest, F.a6, sfld_of_enc2 (by decide) n9 wf.2, wf, F.w1, F.d5]
    omega
  | shli | shri | srai | rotli =>
    simp only [Instr.wf, Bool.and_eq_true, decide_eq_true_eq, Hdr.ok_iff, Dest.ok32_iff, Src.ok32_iff] at wf
    simp only [encode, Option.some.injEq, Dest.field_eq, Nat.add_assoc] at enc
    have F := immForm enc (by omega) (by decide) (by omega) (by omega) (by omega)
    obtain ⟨fn, z6, n6⟩ := F.shift wf.2 (by decide)
    simp [decodeWord_scalar, F.major, decodeMaj8, z6, fn, judge_eq_ok, F.hdr, F.dest, F.a6, n6, wf, F.w1, F.d5]
    omega
  | lis | ins1 | ins2 | ins3 =>
    simp only [Instr.wf, Bool.and_eq_true, decide_eq_true_eq, Hdr.ok_iff] at wf
    simp only [encode, Option.some.injEq, Nat.add_assoc] at enc
    have F := wideForm enc (by omega) (by decide) (by omega) (by omega)
    simp [decodeWord_scalar, F.major, decodeMaj9, decodeMaj10, decodeMaj11, decodeMaj12, judge_eq_ok, F.hdr, F.d5, F.low]
    omega
  | csrr h d r | csrw h d r | csrs h d r | csrc h d r =>
    simp only [Instr.wf, Bool.and_eq_true, decide_eq_true_eq, Hdr.ok_iff] at wf
    simp only [encode, Option.some.injEq, Nat.add_assoc] at enc
    have lt := Csr.number_lt wf.2
    have F := wideForm enc (by omega) (by decide) (by omega) (by omega)
    obtain ⟨fn, n12⟩ := F.csr lt (by decide)
    simp [decodeWord_scalar, F.major, decodeMaj15, fn, judge_eq_ok, F.hdr, F.d5, n12, csrOf_number wf.2, csrOfNumber_number wf.2]
  | snop e =>
    obtain ⟨hm, he, z25⟩ := nopForm (Option.some.inj enc) (by decide)
    simp [decodeWord_scalar, hm, decodeMaj0, judge_eq_ok, he, z25]
  | _ => cases hi

theorem vector_decodes {i : Instr} {w : Nat} (hi : isVector i = true) (wf : i.wf = true) (enc : encode i = some w) :
    decodeWord w = .ok i := by
  cases i with
  | vadd | vsub | vmul | vmin | vmax | vcps | vscale | vminnum | viadd | visub | vimul | vimulh | vimin | vimax | viminu | vimaxu |
    viadds | viaddsu | visubs | visubsu | viavg | viavgu | vand | vor | vxor | vandn | vshl | vshr | vsra | vperm | vzip | vunzip | vrot
    | vsel | vsplat =>
    simp only [Instr.wf, Bool.and_eq_true, Dest.ok32_iff, Src.ok32_iff, Hdr.ok_iff] at wf
    simp only [encode, Option.some.injEq, Dest.field_eq, Nat.add_assoc] at enc
    have F := operandForm enc (by omega) (by decide) (by decide) (by omega) (by omega) (by omega)
    simp only [decodeWord_vector, F.major, decodeMaj23, decodeMaj25, decodeMaj27, decodeMaj28, decodeMaj29, decodeMaj32, decodeMaj35, F.fn]
    simp [judge_eq_ok, F.hdr, F.dest, F.a6, F.b6, wf, F.w1, F.d5]
    omega
  | vcmprs | vexpnd | vrsum | vrmax | vrmin | vrisum | vscan | vrand | vror | vrxor =>
    simp only [Instr.wf, Bool.and_eq_true, decide_eq_true_eq, Dest.ok32_iff, Src.ok32_iff, Hdr.ok_iff] at wf
    simp only [encode, Option.some.injEq, Dest.field_eq, Nat.add_assoc] at enc
    have F := operandForm enc (by omega) (by decide) (by decide) (by omega) (by omega) (by omega)
    simp only [decodeWord_vector, F.major, decodeMaj32, decodeMaj33, F.fn]
    simp [judge_eq_ok, F.hdr, F.dest, F.a6, F.b6, wf, F.w1, F.d5]
    omega
  | vfma | vfms | vfnma | vfnms | vdiv | vdot4s | vdot4u | vdot2bf | vdot2h =>
    simp only [Instr.wf, Bool.and_eq_true, decide_eq_true_eq, Src.ok32_iff, Hdr.ok_iff] at wf
    simp only [encode, Option.some.injEq, Nat.add_assoc] at enc
    have F := operandForm enc (by omega) (by decide) (by decide) (by omega) (by omega) (by omega)
    simp only [decodeWord_vector, F.major, decodeMaj24, decodeMaj38, F.fn]
    simp [judge_eq_ok, F.hdr, F.a6, F.b6, wf, F.w1, F.d5]
  | vfceq | vfcne | vfclt | vfcle | vfcgt | vfcge | vfcunord | vfcord | viceq | vicne | viclt | vicltu | vicle | vicleu | victst =>
    simp only [Instr.wf, Bool.and_eq_true, decide_eq_true_eq, Src.ok32_iff, Hdr.ok_iff] at wf
    simp only [encode, Option.some.injEq, Nat.add_assoc] at enc
    have F := operandForm enc (by omega) (by decide) (by decide) (by omega) (by omega) (by omega)
    simp only [decodeWord_vector, F.major, decodeMaj26, decodeMaj30, F.fn]
    simp [judge_eq_ok, F.hdr, F.a6, F.b6, wf, F.w1, F.d5]
    omega
  | vabs | vneg | vexp2 | vlog2 | vrint | vrintz | vclass | vgetexp | viabs | vineg | vnot | vrev | vrng =>
    simp only [Instr.wf, Bool.and_eq_true, Dest.ok32_iff, Src.ok32_iff, Hdr.ok_iff] at wf
    simp only [encode, Option.some.injEq, Dest.field_eq, Nat.add_assoc] at enc
    have F := operandForm_DA enc (by omega) (by decide) (by decide) (by omega) (by omega)
    simp only [decodeWord_vector, F.major, decodeMaj23, decodeMaj25, decodeMaj28, decodeMaj29, decodeMaj32, decodeMaj35, F.fn]
    simp [judge_eq_ok, F.hdr, F.dest, F.a6, F.b6, wf, F.w1, F.d5]
    omega
  | vsqrt | vrcp | vrsq =>
    simp only [Instr.wf, Bool.and_eq_true, decide_eq_true_eq, Src.ok32_iff, Hdr.ok_iff] at wf
    simp only [encode, Option.some.injEq, Nat.add_assoc] at enc
    have F := operandForm_DA enc (by omega) (by decide) (by decide) (by omega) (by omega)
    simp only [decodeWord_vector, F.major, decodeMaj24, F.fn]
    simp [judge_eq_ok, F.hdr, F.a6, F.b6, wf, F.w1, F.d5]
  | vmovp | vpopc =>
    simp only [Instr.wf, Bool.and_eq_true, decide_eq_true_eq, Dest.ok32_iff, Hdr.ok_iff] at wf
    simp only [encode, Option.some.injEq, Dest.field_eq, Nat.add_assoc] at enc
    have F := operandForm_DA enc (by omega) (by decide) (by decide) (by omega) (by omega)
    simp only [decodeWord_vector, F.major, decodeMaj35, F.fn]
    simp [judge_eq_ok, F.hdr, F.dest, F.a6, F.b6, wf, F.w1, F.d5]
    omega
  | viota =>
    simp only [Instr.wf, Bool.and_eq_true, Dest.ok32_iff, Hdr.ok_iff] at wf
    simp only [encode, Option.some.injEq, Dest.field_eq, Nat.add_assoc] at enc
    have F := operandForm_D enc (by omega) (by decide) (by decide) (by omega)
    simp only [decodeWord_vector, F.major, decodeMaj35, F.fn]
    simp [judge_eq_ok, F.hdr, F.dest, F.a6, F.b6, wf, F.w1, F.d5]
    omega
  | vfmts =>
    simp only [Instr.wf, Bool.and_eq_true, Src.ok32_iff, Hdr.ok_iff] at wf
    simp only [encode, Option.some.injEq, Nat.add_assoc] at enc
    have F := operandForm_A enc (by omega) (by decide) (by decide) (by omega)
    simp only [decodeWord_vector, F.major, decodeMaj35, F.fn]
    simp [judge_eq_ok, F.hdr, F.a6, F.b6, wf, F.w1, F.d5]
  | vcvt h d a t r sat =>
    simp only [Instr.wf, Bool.and_eq_true, Hdr.ok_iff, Dest.ok32_iff, Src.ok32_iff] at wf
    simp only [encode, Option.some.injEq, Dest.field_eq, Nat.add_assoc] at enc
    have ht := t.code_lt
    have hr := r.code_lt
    have hs := sat.toNat_lt
    have F := immForm enc (by omega) (by decide) (by omega) (by omega) (by omega)
    have t5 : fld w 4 5 = t.code := by rw [F.low (by decide)]; omega
    have r3 : fld w 1 3 = r.code := by rw [F.low (by decide)]; omega
    have s1 : fld w 0 1 = sat.toNat := by rw [F.low (by decide)]; omega
    simp [decodeWord_vector, F.major, decodeMaj31, judge_eq_ok, F.hdr, F.dest, F.a6, t5, r3, s1, ht, hr, wf, F.w1, F.d5]
    omega
  | vspli =>
    simp only [Instr.wf, Bool.and_eq_true, decide_eq_true_eq, Hdr.ok_iff] at wf
    simp only [encode, Option.some.injEq, Nat.add_assoc] at enc
    have F := wideForm enc (by omega) (by decide) (by omega) (by omega)
    simp [decodeWord_vector, F.major, decodeMaj34, judge_eq_ok, F.hdr, F.d5, F.low]
    omega
  | vfmt h bind f =>
    simp only [Instr.wf, Hdr.ok_iff] at wf
    simp only [encode, Option.some.injEq, Nat.add_assoc] at enc
    have hb := bind.toNat_lt
    have hf := f.code_lt
    have F := headerForm enc (by omega) (by decide) (by omega)
    have z5 : fld w 16 5 = 0 := by rw [fld_of_low F.low (by decide)]; omega
    have z10 : fld w 6 10 = 0 := by rw [fld_of_low F.low (by decide)]; omega
    have b1 : fld w 5 1 = bind.toNat := by rw [fld_of_low F.low (by decide)]; omega
    have f5 : fld w 0 5 = f.code := by rw [fld_of_low F.low (by decide)]; omega
    simp [decodeWord_vector, F.major, decodeMaj36, judge_eq_ok, F.hdr, z5, z10, b1, f5, hf]
  | vnop e =>
    obtain ⟨hm, he, z25⟩ := nopForm (Option.some.inj enc) (by decide)
    simp [decodeWord_vector, hm, decodeMaj37, judge_eq_ok, he, z25]
  | _ => cases hi

theorem local_decodes {i : Instr} {w : Nat} (hi : isLocal i = true) (wf : i.wf = true) (enc : encode i = some w) :
    decodeWord w = .ok i := by
  cases i with
  | sld h d a size sx o =>
    simp only [Instr.wf, Bool.and_eq_true, Hdr.ok_iff, Dest.ok32_iff, Src.ok32_iff, MemSize.sx_iff] at wf
    simp only [encode, Option.some.injEq, Dest.field_eq, Nat.add_assoc] at enc
    have lt := enc2_lt 6 o
    have hz := size.code_lt
    have hs := sx.toNat_lt
    have F := immForm enc (by omega) (by decide) (by omega) (by omega) (by omega)
    have z2 : fld w 7 2 = size.code := by rw [F.low (by decide)]; omega
    have s1 : fld w 6 1 = sx.toNat := by rw [F.low (by decide)]; omega
    have o6 : fld w 0 6 = enc2 6 o := by rw [F.low (by decide)]; omega
    simp only [decodeWord_scalar, F.major, decodeMaj21, judge_eq_ok, F.hdr, F.dest, F.a6, z2, s1]
    simp [sfld_of_enc2 (by decide) o6 wf.1.2, wf.1.1, F.w1, F.d5]
    exact ⟨by omega, wf.2⟩
  | sst h d a size o =>
    simp only [Instr.wf, Bool.and_eq_true, decide_eq_true_eq, Hdr.ok_iff, Src.ok32_iff] at wf
    simp only [encode, Option.some.injEq, Nat.add_assoc] at enc
    have lt := enc2_lt 6 o
    have hz := size.code_lt
    have F := immForm enc (by omega) (by decide) (by omega) (by omega) (by omega)
    have z2 : fld w 7 2 = size.code := by rw [F.low (by decide)]; omega
    have z1 : fld w 6 1 = 0 := by rw [F.low (by decide)]; omega
    have o6 : fld w 0 6 = enc2 6 o := by rw [F.low (by decide)]; omega
    simp only [decodeWord_scalar, F.major, decodeMaj22, judge_eq_ok, F.hdr, F.a6, z2, z1]
    simp [sfld_of_enc2 (by decide) o6 wf.2, wf, F.w1, F.d5]
  | cld h f d a imm | cst h f d a imm =>
    simp only [Instr.wf, Bool.and_eq_true, decide_eq_true_eq, Hdr.ok_iff, Src.ok16_iff] at wf
    simp only [encode, Option.some.injEq, Nat.add_assoc] at enc
    have lt := enc2_lt 9 imm
    have hf := f.code_lt
    have F := fileForm enc (by omega) (by decide) (by omega) (by omega) (by omega) (by omega)
    obtain ⟨f1, d5⟩ := F.file (by omega)
    have n9 : fld w 0 9 = enc2 9 imm := by rw [F.low (by decide)]; omega
    simp only [decodeWord_copy, F.major, decodeMaj39, decodeMaj40, judge_eq_ok, F.hdr, F.a6]
    simp [sfld_of_enc2 (by decide) n9 wf.2, wf, f1, d5]
  | cgath h f d a wide x | cscat h f d a wide x =>
    simp only [Instr.wf, Bool.and_eq_true, decide_eq_true_eq, Hdr.ok_iff, Src.ok16_iff] at wf
    simp only [encode, Option.some.injEq, Nat.add_assoc] at enc
    have hf := f.code_lt
    have hw := wide.toNat_lt
    have F := fileForm enc (by omega) (by decide) (by omega) (by omega) (by omega) (by omega)
    obtain ⟨f1, d5⟩ := F.file (by omega)
    have w1 : fld w 8 1 = wide.toNat := by rw [F.low (by decide)]; omega
    have z3 : fld w 5 3 = 0 := by rw [F.low (by decide)]; omega
    have x5 : fld w 0 5 = x := by rw [F.low (by decide)]; omega
    simp only [decodeWord_copy, F.major, decodeMaj41, decodeMaj42, judge_eq_ok, F.hdr, F.a6, w1, z3, x5]
    simp [wf, f1, d5]
  | cnop e =>
    obtain ⟨hm, he, z25⟩ := nopForm (Option.some.inj enc) (by decide)
    have fn : fld w 0 3 = 0 := fld_of_low z25 (by decide)
    have z22 : fld w 3 22 = 0 := fld_of_low z25 (by decide)
    simp [decodeWord_copy, hm, decodeMaj55, fn, judge_eq_ok, he, z22]
  | seedr h d k =>
    simp only [Instr.wf, Bool.and_eq_true, decide_eq_true_eq, Dest.ok16_iff, Hdr.ok_iff] at wf
    simp only [encode, Option.some.injEq, Dest.field_eq, Nat.add_assoc] at enc
    have F := operandForm_DB enc (by omega) (by decide) (by decide) (by omega) (by omega)
    have z4 : fld w 5 4 = 0 := by rw [F.low (by decide)]; omega
    have k2 : fld w 3 2 = k := by rw [F.low (by decide)]; omega
    simp only [decodeWord_copy, F.major, decodeMaj55, F.fn]
    simp [judge_eq_ok, F.hdr, F.dest, F.a6, z4, k2, wf, F.w1, F.d5]
    omega
  | xcpvax h d a lane | xcpvbx h d a lane =>
    simp only [Instr.wf, Bool.and_eq_true, decide_eq_true_eq, Dest.ok16_iff, Hdr.ok_iff] at wf
    simp only [encode, Option.some.injEq, Dest.field_eq, Nat.add_assoc] at enc
    have F := operandForm enc (by omega) (by decide) (by decide) (by omega) (by omega) (by omega)
    have z1 : fld w 8 1 = 0 := by rw [F.low (by decide)]; omega
    have l5 : fld w 3 5 = lane := by rw [F.low (by decide)]; omega
    simp only [decodeWord_copy, F.major, decodeMaj43, F.fn]
    simp [judge_eq_ok, F.hdr, F.dest, F.a6, z1, l5, wf, F.w1, F.d5]
    omega
  | xcpxva h d a lane | xcpxvb h d a lane =>
    simp only [Instr.wf, Bool.and_eq_true, decide_eq_true_eq, Dest.ok32_iff, Src.ok16_iff, Hdr.ok_iff] at wf
    simp only [encode, Option.some.injEq, Dest.field_eq, Nat.add_assoc] at enc
    have F := operandForm enc (by omega) (by decide) (by decide) (by omega) (by omega) (by omega)
    have z1 : fld w 8 1 = 0 := by rw [F.low (by decide)]; omega
    have l5 : fld w 3 5 = lane := by rw [F.low (by decide)]; omega
    simp only [decodeWord_copy, F.major, decodeMaj43, F.fn]
    simp [judge_eq_ok, F.hdr, F.dest, F.a6, z1, l5, wf, F.w1, F.d5]
    omega
  | xcpsx | xcpxs | xcpxm =>
    simp only [Instr.wf, Bool.and_eq_true, Dest.ok32_iff, Dest.ok16_iff, Src.ok32_iff, Src.ok16_iff, Hdr.ok_iff] at wf
    simp only [encode, Option.some.injEq, Dest.field_eq, Nat.add_assoc] at enc
    have F := operandForm_DA enc (by omega) (by decide) (by decide) (by omega) (by omega)
    simp only [decodeWord_copy, F.major, decodeMaj43, F.fn]
    simp [judge_eq_ok, F.hdr, F.dest, F.a6, F.b6, wf, F.w1, F.d5]
    omega
  | xcpmx =>
    simp only [Instr.wf, Bool.and_eq_true, decide_eq_true_eq, Dest.ok16_iff, Hdr.ok_iff] at wf
    simp only [encode, Option.some.injEq, Dest.field_eq, Nat.add_assoc] at enc
    have F := operandForm_DA enc (by omega) (by decide) (by decide) (by omega) (by omega)
    simp only [decodeWord_copy, F.major, decodeMaj43, F.fn]
    simp [judge_eq_ok, F.hdr, F.dest, F.a6, F.b6, wf, F.w1, F.d5]
    omega
  | ltime =>
    simp only [Instr.wf, Bool.and_eq_true, Dest.ok16_iff, Hdr.ok_iff] at wf
    simp only [encode, Option.some.injEq, Dest.field_eq, Nat.add_assoc] at enc
    have F := operandForm_D enc (by omega) (by decide) (by decide) (by omega)
    simp only [decodeWord_copy, F.major, decodeMaj55, F.fn]
    simp [judge_eq_ok, F.hdr, F.dest, F.a6, F.b6, wf, F.w1, F.d5]
    omega
  | _ => cases hi

theorem control_decodes {i : Instr} {w : Nat} (hi : isControl i = true) (wf : i.wf = true) (enc : encode i = some w) :
    decodeWord w = .ok i := by
  cases i with
  | br h o | call h o =>
    simp only [Instr.wf, Bool.and_eq_true, Hdr.ok_iff] at wf
    simp only [encode, Option.some.injEq, Nat.add_assoc] at enc
    have lt := enc2_lt 21 o
    have F := headerForm enc (by omega) (by decide) (by omega)
    have n21 : fld w 0 21 = enc2 21 o := by rw [F.low]; omega
    simp [decodeWord_scalar, F.major, decodeMaj17, decodeMaj18, judge_eq_ok, F.hdr, sfld_of_enc2 (by decide) n21 wf.2]
  | loop h l a len =>
    simp only [Instr.wf, Bool.and_eq_true, decide_eq_true_eq, Hdr.ok_iff, Src.ok32_iff] at wf
    simp only [encode, Option.some.injEq, Nat.add_assoc] at enc
    have F := immForm enc (by omega) (by decide) (by omega) (by omega) (by omega)
    have n9 : fld w 0 9 = len := by rw [F.low (by decide)]; omega
    simp only [decodeWord_scalar, F.major, decodeMaj20, judge_eq_ok, F.hdr, F.a6, F.l3, n9]
    simp [wf, F.w1, F.d5]
    omega
  | tret h =>
    have F := operandForm (c := 637534211) (d := 1) (a := 0) (b := 0) (Option.some.inj enc) (Hdr.ok_iff.1 wf) (by decide) (by decide)
      (by decide) (by decide) (by decide)
    simp only [decodeWord_scalar, F.major, decodeMaj19, F.fn, F.d5]
    simp [judge_eq_ok, F.hdr, F.a6, F.b6, F.w1]
  | loopr =>
    simp only [Instr.wf, Bool.and_eq_true, decide_eq_true_eq, Src.ok32_iff, Hdr.ok_iff] at wf
    simp only [encode, Option.some.injEq, Nat.add_assoc] at enc
    have F := operandForm enc (by omega) (by decide) (by decide) (by omega) (by omega) (by omega)
    simp only [decodeWord_scalar, F.major, decodeMaj19, F.fn]
    simp [judge_eq_ok, F.hdr, F.a6, F.b6, wf, F.w1, F.d5, F.l3]
    omega
  | jmpr | callr | trap | waitt =>
    simp only [Instr.wf, Bool.and_eq_true, Src.ok32_iff, Hdr.ok_iff] at wf
    simp only [encode, Option.some.injEq, Nat.add_assoc] at enc
    have F := operandForm_A enc (by omega) (by decide) (by decide) (by omega)
    simp only [decodeWord_scalar, F.major, decodeMaj19, F.fn]
    simp [judge_eq_ok, F.hdr, F.a6, F.b6, wf, F.w1, F.d5]
  | tfence | exit =>
    simp only [Instr.wf, Hdr.ok_iff] at wf
    simp only [encode, Option.some.injEq] at enc
    have F := operandForm_none enc (by omega) (by decide) (by decide)
    simp only [decodeWord_scalar, F.major, decodeMaj19, F.fn]
    simp [judge_eq_ok, F.hdr, F.a6, F.b6, F.w1, F.d5]
  | _ => cases hi

theorem traffic_decodes {i : Instr} {w : Nat} (hi : isTraffic i = true) (wf : i.wf = true) (enc : encode i = some w) :
    decodeWord w = .ok i := by
  cases i with
  | fld h d a n =>
    simp only [Instr.wf, Bool.and_eq_true, decide_eq_true_eq, Hdr.ok_iff, Src.ok16_iff] at wf
    simp only [encode, Option.some.injEq, Nat.add_assoc] at enc
    have F := immForm enc (by omega) (by decide) (by omega) (by omega) (by omega)
    have n9 : Sys2Proof.fld w 0 9 = n := by rw [F.low (by decide)]; omega
    simp only [decodeWord_copy, F.major, decodeMaj44, judge_eq_ok, F.hdr, F.a6, n9]
    simp [wf, F.w1, F.d5]
    omega
  | fldv h f d a n =>
    simp only [Instr.wf, Bool.and_eq_true, decide_eq_true_eq, Hdr.ok_iff, Src.ok16_iff] at wf
    simp only [encode, Option.some.injEq, Nat.add_assoc] at enc
    have hf := f.code_lt
    have F := fileForm enc (by omega) (by decide) (by omega) (by omega) (by omega) (by omega)
    obtain ⟨f1, d5⟩ := F.file (by omega)
    have n9 : fld w 0 9 = n := by rw [F.low (by decide)]; omega
    simp only [decodeWord_copy, F.major, decodeMaj45, judge_eq_ok, F.hdr, F.a6, n9]
    simp [wf, f1, d5]
  | fst h d a =>
    simp only [Instr.wf, Bool.and_eq_true, decide_eq_true_eq, Hdr.ok_iff, Src.ok16_iff] at wf
    simp only [encode, Option.some.injEq, Nat.add_assoc] at enc
    have F := operandForm_DA enc (by omega) (by decide) (by decide) (by omega) (by omega)
    have n9 : fld w 0 9 = 0 := F.low (by decide)
    simp only [decodeWord_copy, F.major, decodeMaj46, judge_eq_ok, F.hdr, F.a6, n9]
    simp [wf, F.w1, F.d5]
    omega
  | fstv h f d a =>
    simp only [Instr.wf, Bool.and_eq_true, decide_eq_true_eq, Hdr.ok_iff, Src.ok16_iff] at wf
    simp only [encode, Option.some.injEq, Nat.add_assoc] at enc
    have hf := f.code_lt
    have F := immForm (w := w) (c := 1577058304) (a := a.code) (d := f.code * 32 + d) (n := 0) (by rw [← enc]; ring) wf.1.1
      (by decide) (by decide) (by omega) (by omega)
    obtain ⟨f1, d5⟩ := F.file (by omega)
    have n9 : fld w 0 9 = 0 := F.low (by decide)
    simp only [decodeWord_copy, F.major, decodeMaj47, judge_eq_ok, F.hdr, F.a6, n9]
    simp [wf, f1, d5]
  | recv h f v x n =>
    simp only [Instr.wf, Bool.and_eq_true, decide_eq_true_eq, Hdr.ok_iff] at wf
    simp only [encode, Option.some.injEq, Nat.add_assoc] at enc
    have hf := f.code_lt
    have F := headerForm enc (by omega) (by decide) (by omega)
    have f1 : fld w 20 1 = f.code := by rw [fld_of_low F.low (by decide)]; omega
    have v5 : fld w 15 5 = v := by rw [fld_of_low F.low (by decide)]; omega
    have x4 : fld w 11 4 = x := by rw [fld_of_low F.low (by decide)]; omega
    have n11 : fld w 0 11 = n := by rw [fld_of_low F.low (by decide)]; omega
    simp [decodeWord_copy, F.major, decodeMaj49, judge_eq_ok, F.hdr, f1, v5, x4, n11, wf]
  | push h q u p =>
    simp only [Instr.wf, Bool.and_eq_true, decide_eq_true_eq, Hdr.ok_iff] at wf
    simp only [encode, Option.some.injEq, Nat.add_assoc] at enc
    have hu := u.toNat_lt
    have F := headerForm enc (by omega) (by decide) (by omega)
    have z1 : fld w 20 1 = 0 := by rw [fld_of_low F.low (by decide)]; omega
    have q5 : fld w 15 5 = q := by rw [fld_of_low F.low (by decide)]; omega
    have u1 : fld w 14 1 = u.toNat := by rw [fld_of_low F.low (by decide)]; omega
    have z3 : fld w 11 3 = 0 := by rw [fld_of_low F.low (by decide)]; omega
    have p4 : fld w 7 4 = p := by rw [fld_of_low F.low (by decide)]; omega
    have z7 : fld w 0 7 = 0 := by rw [fld_of_low F.low (by decide)]; omega
    simp [decodeWord_copy, F.major, decodeMaj50, judge_eq_ok, F.hdr, z1, q5, u1, z3, p4, z7, wf]
  | pop h q d p =>
    simp only [Instr.wf, Bool.and_eq_true, decide_eq_true_eq, Hdr.ok_iff] at wf
    simp only [encode, Option.some.injEq, Nat.add_assoc] at enc
    have F := headerForm enc (by omega) (by decide) (by omega)
    have z1 : fld w 20 1 = 0 := by rw [fld_of_low F.low (by decide)]; omega
    have q5 : fld w 15 5 = q := by rw [fld_of_low F.low (by decide)]; omega
    have d4 : fld w 11 4 = d := by rw [fld_of_low F.low (by decide)]; omega
    have p4 : fld w 7 4 = p := by rw [fld_of_low F.low (by decide)]; omega
    have z7 : fld w 0 7 = 0 := by rw [fld_of_low F.low (by decide)]; omega
    simp [decodeWord_copy, F.major, decodeMaj51, judge_eq_ok, F.hdr, z1, q5, d4, p4, z7, wf]
  | popStall h q d n =>
    simp only [Instr.wf, Bool.and_eq_true, decide_eq_true_eq, Hdr.ok_iff] at wf
    simp only [encode, Option.some.injEq, Nat.add_assoc] at enc
    have F := headerForm enc (by omega) (by decide) (by omega)
    have o1 : fld w 20 1 = 1 := by rw [fld_of_low F.low (by decide)]; omega
    have q5 : fld w 15 5 = q := by rw [fld_of_low F.low (by decide)]; omega
    have d4 : fld w 11 4 = d := by rw [fld_of_low F.low (by decide)]; omega
    have z4 : fld w 7 4 = 0 := by rw [fld_of_low F.low (by decide)]; omega
    have n7 : fld w 0 7 = n := by rw [fld_of_low F.low (by decide)]; omega
    simp [decodeWord_copy, F.major, decodeMaj51, judge_eq_ok, F.hdr, o1, q5, d4, z4, n7, wf]
  | rcap h d a =>
    simp only [Instr.wf, Bool.and_eq_true, Hdr.ok_iff, Src.ok16_iff] at wf
    simp only [encode, Option.some.injEq, Nat.add_assoc] at enc
    have hd := d.toNat_lt
    have F := operandForm_DA (w := w) (c := 1744830464) (a := a.code) (d := d.toNat * 8) (by rw [← enc]; ring) wf.1 (by decide) (by decide)
      (by omega) (by omega)
    simp only [decodeWord_copy, F.major, decodeMaj52, F.fn, judge_eq_ok, F.hdr, F.a6, F.b6, F.w1, F.d5]
    cases d <;> simp [wf]
  | rput h a b =>
    simp only [Instr.wf, Bool.and_eq_true, Hdr.ok_iff, Src.ok16_iff] at wf
    simp only [encode, Option.some.injEq, Nat.add_assoc] at enc
    have hb := b.toNat_lt
    have F := operandForm_AB (w := w) (c := 1744830465) (a := a.code) (b := b.toNat * 8) (by rw [← enc]; ring) wf.1 (by decide) (by decide)
      (by omega) (by omega)
    simp only [decodeWord_copy, F.major, decodeMaj52, F.fn, judge_eq_ok, F.hdr, F.a6, F.b6, F.w1, F.d5]
    cases b <;> simp [wf]
  | aadd | aincw | axchg | amins | amaxu | aorb | radd | rmaxu | ror =>
    simp only [Instr.wf, Bool.and_eq_true, Dest.ok16_iff, Src.ok16_iff, Hdr.ok_iff] at wf
    simp only [encode, Option.some.injEq, Dest.field_eq, Nat.add_assoc] at enc
    have F := operandForm enc (by omega) (by decide) (by decide) (by omega) (by omega) (by omega)
    simp only [decodeWord_copy, F.major, decodeMaj52, decodeMaj53, F.fn]
    simp [judge_eq_ok, F.hdr, F.dest, F.a6, F.b6, wf, F.w1, F.d5]
    omega
  | acas | rcas =>
    simp only [Instr.wf, Bool.and_eq_true, decide_eq_true_eq, beq_iff_eq, Dest.ok16_iff, Src.ok16_iff, Hdr.ok_iff] at wf
    simp only [encode, Option.some.injEq, Dest.field_eq, Nat.add_assoc] at enc
    have F := operandForm enc (by omega) (by decide) (by decide) (by omega) (by omega) (by omega)
    simp only [decodeWord_copy, F.major, decodeMaj52, decodeMaj53, F.fn]
    simp [judge_eq_ok, F.hdr, F.dest, F.a6, F.b6, wf, F.w1, F.d5]
    omega
  | afaab =>
    simp only [Instr.wf, Bool.and_eq_true, decide_eq_true_eq, beq_iff_eq, Src.ok16_iff, Hdr.ok_iff] at wf
    simp only [encode, Option.some.injEq, Nat.add_assoc] at enc
    have F := operandForm enc (by omega) (by decide) (by decide) (by omega) (by omega) (by omega)
    simp only [decodeWord_copy, F.major, decodeMaj53, F.fn]
    simp [judge_eq_ok, F.hdr, F.a6, F.b6, wf, F.w1, F.d5]
    omega
  | _ => cases hi

theorem sync_decodes {i : Instr} {w : Nat} (hi : isSync i = true) (wf : i.wf = true) (enc : encode i = some w) :
    decodeWord w = .ok i := by
  cases i with
  | send h f v x =>
    simp only [Instr.wf, Bool.and_eq_true, decide_eq_true_eq, Hdr.ok_iff] at wf
    simp only [encode, Option.some.injEq, Nat.add_assoc] at enc
    have hf := f.code_lt
    have F := headerForm enc (by omega) (by decide) (by omega)
    have f1 : fld w 20 1 = f.code := by rw [fld_of_low F.low (by decide)]; omega
    have v5 : fld w 15 5 = v := by rw [fld_of_low F.low (by decide)]; omega
    have x4 : fld w 11 4 = x := by rw [fld_of_low F.low (by decide)]; omega
    have z11 : fld w 0 11 = 0 := by rw [fld_of_low F.low (by decide)]; omega
    simp [decodeWord_copy, F.major, decodeMaj48, judge_eq_ok, F.hdr, f1, v5, x4, z11]
  | fence h k s =>
    simp only [Instr.wf, Bool.and_eq_true, decide_eq_true_eq, Hdr.ok_iff] at wf
    simp only [encode, Option.some.injEq, Nat.add_assoc] at enc
    have hs := s.code_lt
    have F := operandForm_DB enc (by omega) (by decide) (by decide) (by omega) (by omega)
    have z3 : fld w 6 3 = 0 := by rw [F.low (by decide)]; omega
    have s3 : fld w 3 3 = s.code := by rw [F.low (by decide)]; omega
    simp only [decodeWord_copy, F.major, decodeMaj54, F.fn]
    simp [judge_eq_ok, F.hdr, F.a6, z3, s3, hs, wf, F.w1, F.d5]
  | gang =>
    simp only [Instr.wf, Bool.and_eq_true, Src.ok16_iff, Hdr.ok_iff] at wf
    simp only [encode, Option.some.injEq, Nat.add_assoc] at enc
    have F := operandForm_AB enc (by omega) (by decide) (by decide) (by omega) (by omega)
    simp only [decodeWord_copy, F.major, decodeMaj55, F.fn]
    simp [judge_eq_ok, F.hdr, F.a6, F.b6, wf, F.w1, F.d5]
  | acq =>
    simp only [Instr.wf, Bool.and_eq_true, decide_eq_true_eq, Src.ok16_iff, Hdr.ok_iff] at wf
    simp only [encode, Option.some.injEq, Nat.add_assoc] at enc
    have F := operandForm enc (by omega) (by decide) (by decide) (by omega) (by omega) (by omega)
    simp only [decodeWord_copy, F.major, decodeMaj54, F.fn]
    simp [judge_eq_ok, F.hdr, F.a6, F.b6, wf, F.w1, F.d5]
  | bar =>
    simp only [Instr.wf, Bool.and_eq_true, decide_eq_true_eq, Src.ok16_iff, Hdr.ok_iff] at wf
    simp only [encode, Option.some.injEq, Nat.add_assoc] at enc
    have F := operandForm enc (by omega) (by decide) (by decide) (by omega) (by omega) (by omega)
    simp only [decodeWord_copy, F.major, decodeMaj54, F.fn]
    simp [judge_eq_ok, F.hdr, F.a6, F.b6, wf, F.w1, F.d5]
  | rel =>
    simp only [Instr.wf, Bool.and_eq_true, decide_eq_true_eq, Hdr.ok_iff] at wf
    simp only [encode, Option.some.injEq, Nat.add_assoc] at enc
    have F := operandForm_B enc (by omega) (by decide) (by decide) (by omega)
    simp only [decodeWord_copy, F.major, decodeMaj54, F.fn]
    simp [judge_eq_ok, F.hdr, F.a6, F.b6, F.w1, F.d5]
  | step =>
    simp only [Instr.wf, Bool.and_eq_true, decide_eq_true_eq, Hdr.ok_iff] at wf
    simp only [encode, Option.some.injEq, Nat.add_assoc] at enc
    have F := operandForm_D enc (by omega) (by decide) (by decide) (by omega)
    simp only [decodeWord_copy, F.major, decodeMaj54, F.fn]
    simp [judge_eq_ok, F.hdr, F.a6, F.b6, wf, F.w1, F.d5]
  | crgo =>
    simp only [Instr.wf, Bool.and_eq_true, Src.ok16_iff, Hdr.ok_iff] at wf
    simp only [encode, Option.some.injEq, Nat.add_assoc] at enc
    have F := operandForm_A enc (by omega) (by decide) (by decide) (by omega)
    simp only [decodeWord_copy, F.major, decodeMaj54, F.fn]
    simp [judge_eq_ok, F.hdr, F.a6, F.b6, wf, F.w1, F.d5]
  | trig | crgc =>
    simp only [Instr.wf, Hdr.ok_iff] at wf
    simp only [encode, Option.some.injEq] at enc
    have F := operandForm_none enc (by omega) (by decide) (by decide)
    simp only [decodeWord_copy, F.major, decodeMaj54, F.fn]
    simp [judge_eq_ok, F.hdr, F.a6, F.b6, F.w1, F.d5]
  | _ => cases hi

theorem matrix_decodes {i : Instr} {w : Nat} (hi : isMatrixSlot i = true) (wf : i.wf = true) (enc : encode i = some w) :
    decodeWord w = .ok i := by
  cases i with
  | mgo | mgog =>
    simp only [Instr.wf, Hdr.ok_iff] at wf
    simp only [encode, Option.some.injEq] at enc
    have F := matrixForm_none enc wf (by decide) (by decide)
    simp only [decodeWord_matrix, F.major, decodeMaj57, F.fn]
    simp [judge_eq_ok, F.hdr, F.a5, F.b5, F.n8]
  | mdrn h c =>
    simp only [Instr.wf, Bool.and_eq_true, decide_eq_true_eq, Hdr.ok_iff] at wf
    simp only [encode, Option.some.injEq, Nat.add_assoc] at enc
    have F := matrixForm_N enc (by omega) (by decide) (by decide) (by omega)
    have z6 : fld w 2 6 = 0 := by rw [F.low (by decide)]; omega
    have c2 : fld w 0 2 = c := by rw [F.low (by decide)]; omega
    simp only [decodeWord_matrix, F.major, decodeMaj57, F.fn]
    simp [judge_eq_ok, F.hdr, F.a5, F.b5, z6, c2]
  | mclr h mask =>
    simp only [Instr.wf, Bool.and_eq_true, decide_eq_true_eq, Hdr.ok_iff] at wf
    simp only [encode, Option.some.injEq, Nat.add_assoc] at enc
    have F := matrixForm_N enc (by omega) (by decide) (by decide) (by omega)
    have z4 : fld w 4 4 = 0 := by rw [F.low (by decide)]; omega
    have m4 : fld w 0 4 = mask := by rw [F.low (by decide)]; omega
    simp only [decodeWord_matrix, F.major, decodeMaj57, F.fn]
    simp [judge_eq_ok, F.hdr, F.a5, F.b5, z4, m4, wf]
  | mmirr h on =>
    simp only [Instr.wf, Hdr.ok_iff] at wf
    simp only [encode, Option.some.injEq, Nat.add_assoc] at enc
    have ho := on.toNat_lt
    have F := matrixForm_N enc (by omega) (by decide) (by decide) (by omega)
    have z7 : fld w 1 7 = 0 := by rw [F.low (by decide)]; omega
    have o1 : fld w 0 1 = on.toNat := by rw [F.low (by decide)]; omega
    simp only [decodeWord_matrix, F.major, decodeMaj57, F.fn]
    simp [judge_eq_ok, F.hdr, F.a5, F.b5, z7, o1]
  | mstat h d i =>
    simp only [Instr.wf, Bool.and_eq_true, decide_eq_true_eq, Hdr.ok_iff] at wf
    simp only [encode, Option.some.injEq, Nat.add_assoc] at enc
    have hi8 := mstatItem_lt wf.2
    have F := matrixForm_AN enc (by omega) (by decide) (by decide) (by omega) (by omega)
    simp only [decodeWord_matrix, F.major, decodeMaj57, F.fn]
    simp [judge_eq_ok, F.hdr, F.a5, F.b5, F.n8, wf]
  | mldw h a u c =>
    simp only [Instr.wf, Bool.and_eq_true, decide_eq_true_eq, MSrc.ok_iff, Hdr.ok_iff] at wf
    simp only [encode, Option.some.injEq, Nat.add_assoc] at enc
    have F := matrixForm_AN enc (by omega) (by decide) (by decide) (by omega) (by omega)
    have z3 : fld w 5 3 = 0 := by rw [F.low (by decide)]; omega
    have u3 : fld w 2 3 = u := by rw [F.low (by decide)]; omega
    have c2 : fld w 0 2 = c := by rw [F.low (by decide)]; omega
    simp only [decodeWord_matrix, F.major, decodeMaj57, F.fn]
    simp [judge_eq_ok, F.hdr, F.a5, F.b5, z3, u3, c2, wf]
  | spup | spdn | spclr =>
    simp only [Instr.wf, Bool.and_eq_true, MSrc.ok_iff, Hdr.ok_iff] at wf
    simp only [encode, Option.some.injEq, Nat.add_assoc] at enc
    have F := matrixForm_A enc (by omega) (by decide) (by decide) (by omega)
    simp only [decodeWord_matrix, F.major, decodeMaj59, F.fn]
    simp [judge_eq_ok, F.hdr, F.a5, F.b5, F.n8, wf]
  | spld | spst =>
    simp only [Instr.wf, Bool.and_eq_true, MSrc.ok_iff, Hdr.ok_iff] at wf
    simp only [encode, Option.some.injEq, Nat.add_assoc] at enc
    have F := matrixForm_AB enc (by omega) (by decide) (by decide) (by omega) (by omega)
    simp only [decodeWord_matrix, F.major, decodeMaj59, F.fn]
    simp [judge_eq_ok, F.hdr, F.a5, F.b5, F.n8, wf]
  | spscl h a n =>
    simp only [Instr.wf, Bool.and_eq_true, MSrc.ok_iff, Hdr.ok_iff] at wf
    simp only [encode, Option.some.injEq, Nat.add_assoc] at enc
    have lt := enc2_lt 8 n
    have F := matrixForm_AN enc (by omega) (by decide) (by decide) (by omega) (by omega)
    simp only [decodeWord_matrix, F.major, decodeMaj59, F.fn]
    simp [judge_eq_ok, F.hdr, F.a5, F.b5, sfld_of_enc2 (by decide) F.n8 wf.2, wf.1]
  | spmode h dx f =>
    simp only [Instr.wf, Bool.and_eq_true, decide_eq_true_eq, Hdr.ok_iff] at wf
    simp only [encode, Option.some.injEq, Nat.add_assoc] at enc
    have hf := f.code_lt
    have F := matrixForm_N enc (by omega) (by decide) (by decide) (by omega)
    have z1 : fld w 7 1 = 0 := by rw [F.low (by decide)]; omega
    have x5 : fld w 2 5 = dx := by rw [F.low (by decide)]; omega
    have f2 : fld w 0 2 = f.code := by rw [F.low (by decide)]; omega
    simp only [decodeWord_matrix, F.major, decodeMaj59, F.fn]
    simp [judge_eq_ok, F.hdr, F.a5, F.b5, z1, x5, f2, hf]
  | spstat h d i =>
    simp only [Instr.wf, Bool.and_eq_true, decide_eq_true_eq, Hdr.ok_iff] at wf
    simp only [encode, Option.some.injEq, Nat.add_assoc] at enc
    have F := matrixForm_AN enc (by omega) (by decide) (by decide) (by omega) (by omega)
    simp only [decodeWord_matrix, F.major, decodeMaj59, F.fn]
    simp [judge_eq_ok, F.hdr, F.a5, F.b5, F.n8, wf]
  | mcfg h a b i =>
    simp only [Instr.wf, Bool.and_eq_true, MSrc.ok_iff, Hdr.ok_iff] at wf
    simp only [encode, Option.some.injEq, Nat.add_assoc] at enc
    have hi := MField.index_lt wf.2
    have F := headerForm enc (by omega) (by decide) (by omega)
    have a5 : fld w 16 5 = a.code := by rw [fld_of_low F.low (by decide)]; omega
    have b5 : fld w 11 5 = b.code := by rw [fld_of_low F.low (by decide)]; omega
    have i11 : fld w 0 11 = i.index := by rw [fld_of_low F.low (by decide)]; omega
    simp [decodeWord_matrix, F.major, decodeMaj56, judge_eq_ok, F.hdr, a5, b5, i11, wf.1, mfieldOf_index wf.2, mfieldOfIndex_index wf.2]
  | mfmt h bind fb fa =>
    simp only [Instr.wf, Hdr.ok_iff] at wf
    simp only [encode, Option.some.injEq, Nat.add_assoc] at enc
    have h1 := bind.toNat_lt
    have hb := fb.code_lt
    have ha := fa.code_lt
    have F := headerForm enc (by omega) (by decide) (by omega)
    have z16 : fld w 16 5 = 0 := by rw [fld_of_low F.low (by decide)]; omega
    have z11 : fld w 11 5 = 0 := by rw [fld_of_low F.low (by decide)]; omega
    have b1 : fld w 10 1 = bind.toNat := by rw [fld_of_low F.low (by decide)]; omega
    have b5 : fld w 5 5 = fb.code := by rw [fld_of_low F.low (by decide)]; omega
    have a5 : fld w 0 5 = fa.code := by rw [fld_of_low F.low (by decide)]; omega
    simp [decodeWord_matrix, F.major, decodeMaj58, judge_eq_ok, F.hdr, z16, z11, b1, b5, a5, ha, hb]
  | mli =>
    simp only [Instr.wf, Bool.and_eq_true, decide_eq_true_eq, Hdr.ok_iff] at wf
    simp only [encode, Option.some.injEq, Nat.add_assoc] at enc
    have F := wideForm enc (by omega) (by decide) (by omega) (by omega)
    have n16 := F.low (lo := 0) (k := 16) (by decide)
    simp [decodeWord_matrix, F.major, decodeMaj60, judge_eq_ok, F.hdr, F.d5, n16]
    omega
  | mnop e =>
    obtain ⟨hm, he, z25⟩ := nopForm (Option.some.inj enc) (by decide)
    simp [decodeWord_matrix, hm, decodeMaj61, judge_eq_ok, he, z25]
  | _ => cases hi

/-! The berth syllables and MSTOP, which no class of the statements holds (R199, R238). -/

theorem board_decodes {h : Hdr} {w : Nat} (hh : h.g < 16) (enc : encode (.board h) = some w) : decodeWord w = .ok (.board h) := by
  have F := operandForm_none (Option.some.inj enc) hh (by decide) (by decide)
  simp only [decodeWord_copy, F.major, decodeMaj52, F.fn]
  simp [judge_eq_ok, F.hdr, F.a6, F.b6, F.w1, F.d5]

theorem alight_decodes {h : Hdr} {w : Nat} (hh : h.g < 16) (enc : encode (.alight h) = some w) : decodeWord w = .ok (.alight h) := by
  have F := operandForm_none (Option.some.inj enc) hh (by decide) (by decide)
  simp only [decodeWord_copy, F.major, decodeMaj52, F.fn, F.d5]
  simp [judge_eq_ok, F.hdr, F.a6, F.b6, F.w1]

theorem alightFree_decodes {h : Hdr} {w : Nat} (hh : h.g < 16) (enc : encode (.alightFree h) = some w) :
    decodeWord w = .ok (.alightFree h) := by
  have F := operandForm (c := 1744830471) (d := 1) (a := 0) (b := 0) (Option.some.inj enc) hh (by decide) (by decide) (by decide)
    (by decide) (by decide)
  simp only [decodeWord_copy, F.major, decodeMaj52, F.fn, F.d5]
  simp [judge_eq_ok, F.hdr, F.a6, F.b6, F.w1]

theorem mstop_decodes {h : Hdr} {w : Nat} (hh : h.g < 16) (enc : encode (.mstop h) = some w) : decodeWord w = .ok (.mstop h) := by
  have F := matrixForm_none (Option.some.inj enc) hh (by decide) (by decide)
  simp only [decodeWord_matrix, F.major, decodeMaj57, F.fn]
  simp [judge_eq_ok, F.hdr, F.a5, F.b5, F.n8]

end Sys2Proof

namespace Sys2Proof.Machine

/-- Settles O1, by the class of the syllable: the fields of its word are its operands, which pass every check of its branch. -/
theorem encodeThenDecode : Obligations.EncodeThenDecode := by
  intro i w wf enc
  cases i with
  | snop | add | sub | and | or | xor | shl | shr | sra | mul | mulh | mulhu | div | divu | rem | remu | clz | min |
    max | minu | maxu | rotl | popc | ctz | bswap | addi | andi | ori | xori | shli | shri | srai | rotli | lis | ins1
    | ins2 | ins3 | cmpeq | cmpne | cmplt | cmpltu | cmple | cmpleu | cmptst | pand | por | pxor | pandn | pnot | pmov
    | pset | pclr | csrr | csrw | csrs | csrc | sel | movp | movtp =>
    exact scalar_decodes rfl wf enc
  | vadd | vsub | vmul | vmin | vmax | vabs | vneg | vcps | vfma | vfms | vfnma | vfnms | vdiv | vsqrt | vrcp | vrsq |
    vexp2 | vlog2 | vrint | vrintz | vclass | vscale | vgetexp | vminnum | vfceq | vfcne | vfclt | vfcle | vfcgt |
    vfcge | vfcunord | vfcord | viadd | visub | vimul | vimulh | vimin | vimax | viminu | vimaxu | viadds | viaddsu |
    visubs | visubsu | viabs | vineg | viavg | viavgu | vand | vor | vxor | vandn | vshl | vshr | vsra | vnot | viceq
    | vicne | viclt | vicltu | vicle | vicleu | victst | vcvt | vperm | vzip | vunzip | vrev | vrot | vsel | vcmprs |
    vexpnd | vrsum | vrmax | vrmin | vrisum | vscan | vrand | vror | vrxor | vspli | viota | vsplat | vmovp | vpopc |
    vrng | vfmts | vfmt | vnop | vdot4s | vdot4u | vdot2bf | vdot2h =>
    exact vector_decodes rfl wf enc
  | sld | sst | cld | cst | cgath | cscat | xcpsx | xcpxs | xcpmx | xcpxm | xcpvax | xcpvbx | xcpxva | xcpxvb | cnop |
    ltime | seedr =>
    exact local_decodes rfl wf enc
  | br | call | jmpr | callr | loop | loopr | trap | tret | tfence | exit | waitt =>
    exact control_decodes rfl wf enc
  | fld | fldv | fst | fstv | recv | aadd | aincw | afaab | acas | axchg | amins | amaxu | aorb | rcap | rput | radd |
    rcas | rmaxu | ror | push | pop | popStall =>
    exact traffic_decodes rfl wf enc
  | send | gang | acq | rel | bar | fence | trig | step | crgo | crgc =>
    exact sync_decodes rfl wf enc
  | mcfg | mgo | mgog | mdrn | mclr | mstat | mldw | mmirr | mfmt | spup | spdn | spld | spst | spscl | spmode | spclr
    | spstat | mli | mnop =>
    exact matrix_decodes rfl wf enc
  | board => exact board_decodes (Hdr.ok_iff.1 wf) enc
  | alight => exact alight_decodes (Hdr.ok_iff.1 wf) enc
  | alightFree => exact alightFree_decodes (Hdr.ok_iff.1 wf) enc
  | mstop => exact mstop_decodes (Hdr.ok_iff.1 wf) enc
  | _ => cases enc

end Sys2Proof.Machine
end

section
/-! PROOFS. A word that decodes is the word of the syllable it decodes to (R61, R64, R65, R73, R75): the fields that the decoder reads
or requires to be zero make up the whole word, and what its checks let pass is well formed. -/

namespace Sys2Proof

/-! The layout of a word (R64): a field and the one below it make up the wider field. -/

theorem fld_join (w lo k n : Nat) : fld w lo (k + n) = fld w (lo + k) n * 2 ^ k + fld w lo k := by
  rw [fld, fld, fld, pow_add, pow_add, ← Nat.div_div_eq_div_mul, Nat.mod_mul, Nat.mul_comm (2 ^ k), Nat.add_comm]

theorem word_layout {w : Nat} (hw : w < 2 ^ 32) :
    w = fld w 31 1 * 2147483648 + fld w 25 6 * 33554432 + fld w 21 4 * 2097152 + fld w 0 21 := by
  simp only [fld]; omega

theorem nop_layout {w : Nat} (hw : w < 2 ^ 32) : w = fld w 31 1 * 2147483648 + fld w 25 6 * 33554432 + fld w 0 25 := by
  simp only [fld]; omega

theorem low_D (w : Nat) : fld w 0 21 = fld w 20 1 * 1048576 + fld w 15 5 * 32768 + fld w 0 15 := by
  simp only [fld]; omega

theorem low_AB (w : Nat) : fld w 0 15 = fld w 9 6 * 512 + fld w 3 6 * 8 + fld w 0 3 := by
  simp only [fld]; omega

theorem low_A (w : Nat) : fld w 0 15 = fld w 9 6 * 512 + fld w 0 9 := fld_join w 0 9 6

/-! The shape of every proof below: `legal` is what the checks of the branch let pass, the syllable is then well formed, and its word is
the sum of the fields, by the layout of the branch's operands. -/

/-- A word is the word of a well-formed syllable. -/
def Rebuilt (w : Nat) (i : Instr) : Prop := i.wf = true ∧ encode i = some w

theorem judge_rebuilds {rs : List (Option Illegal)} {i j : Instr} {w : Nat} (h : judge rs i = .ok j)
    (hi : (∀ r ∈ rs, r = none) → Rebuilt w i) : Rebuilt w j := by
  obtain ⟨rfl, legal⟩ := judge_eq_ok.1 h
  exact hi legal

theorem fld_three (w lo : Nat) : fld w lo 3 = 0 ∨ fld w lo 3 = 1 ∨ fld w lo 3 = 2 ∨ fld w lo 3 = 3 ∨ fld w lo 3 = 4 ∨ fld w lo 3 = 5 ∨
    fld w lo 3 = 6 ∨ fld w lo 3 = 7 := by
  have := fld_lt w lo 3
  omega

section
variable {w : Nat} {i : Instr} (hw : w < 2 ^ 32) (h : decodeWord w = .ok i)
include hw h

theorem scalarFunction_rebuilds (hm : fld w 25 6 = 1 ∨ fld w 25 6 = 2 ∨ fld w 25 6 = 3 ∨ fld w 25 6 = 13 ∨ fld w 25 6 = 14 ∨
    fld w 25 6 = 16) : Rebuilt w i := by
  have h1 := word_layout hw
  have h2 := low_D w
  have h3 := low_AB w
  rcases hm with hm | hm | hm | hm | hm | hm
  all_goals
    simp only [decodeWord_scalar, hm] at h
    rcases fld_three w 0 with hf | hf | hf | hf | hf | hf | hf | hf
  all_goals simp only [decodeMaj1, decodeMaj2, decodeMaj3, decodeMaj13, decodeMaj14, decodeMaj16, hf, reduceCtorEq] at h
  all_goals
    refine judge_rebuilds h fun legal => ?_
    simp at legal
    exact ⟨by simp [Instr.wf, legal], congrArg some (by simp [legal]; omega)⟩

theorem control_rebuilds (hm : fld w 25 6 = 19) : Rebuilt w i := by
  have h1 := word_layout hw
  have h2 := low_D w
  have h3 := low_AB w
  have h4 : fld w 15 5 = fld w 18 2 * 8 + fld w 15 3 := fld_join w 15 3 2
  simp only [decodeWord_scalar, hm] at h
  rcases fld_three w 0 with hf | hf | hf | hf | hf | hf | hf | hf
  all_goals simp only [decodeMaj19, hf, reduceCtorEq] at h
  case inr.inr.inl =>
    refine judge_rebuilds h fun legal => ?_
    simp at legal
    exact ⟨by simp [Instr.wf, legal]; omega, congrArg some (by simp; omega)⟩
  case inr.inr.inr.inl =>
    split at h
    case h_3 => cases h
    all_goals
      refine judge_rebuilds h fun legal => ?_
      simp at legal
      exact ⟨by simp [Instr.wf, legal], congrArg some (by simp; omega)⟩
  all_goals
    refine judge_rebuilds h fun legal => ?_
    simp at legal
    exact ⟨by simp [Instr.wf, legal], congrArg some (by simp; omega)⟩

theorem scalarImmediate_rebuilds (hm : fld w 25 6 = 4 ∨ fld w 25 6 = 5 ∨ fld w 25 6 = 6 ∨ fld w 25 6 = 7) : Rebuilt w i := by
  have h1 := word_layout hw
  have h2 := low_D w
  have h3 := low_A w
  rcases hm with hm | hm | hm | hm
  all_goals
    simp only [decodeWord_scalar, hm, decodeMaj4, decodeMaj5, decodeMaj6, decodeMaj7] at h
    refine judge_rebuilds h fun legal => ?_
    simp at legal
    exact ⟨by simp [Instr.wf, legal], congrArg some (by simp [legal]; omega)⟩

theorem shift_rebuilds (hm : fld w 25 6 = 8) : Rebuilt w i := by
  have h1 := word_layout hw
  have h2 := low_D w
  have h3 := low_A w
  have h4 : fld w 0 9 = fld w 6 3 * 64 + fld w 0 6 := fld_join w 0 6 3
  have h5 : fld w 6 3 = fld w 7 2 * 2 + fld w 6 1 := fld_join w 6 1 2
  have n6 := fld_lt w 0 6
  have z1 := fld_one_lt w 6
  simp only [decodeWord_scalar, hm, decodeMaj8] at h
  split at h
  · cases h
  have f2 := fld_lt w 7 2
  have hf : fld w 7 2 = 0 ∨ fld w 7 2 = 1 ∨ fld w 7 2 = 2 ∨ fld w 7 2 = 3 := by omega
  rcases hf with hf | hf | hf | hf
  all_goals
    simp only [hf] at h
    refine judge_rebuilds h fun legal => ?_
    simp at legal
    exact ⟨by simp [Instr.wf, legal]; omega, congrArg some (by simp [legal]; omega)⟩

theorem wide_rebuilds (hm : fld w 25 6 = 9 ∨ fld w 25 6 = 10 ∨ fld w 25 6 = 11 ∨ fld w 25 6 = 12) : Rebuilt w i := by
  have h1 := word_layout hw
  have h2 : fld w 0 21 = fld w 16 5 * 65536 + fld w 0 16 := fld_join w 0 16 5
  have d5 := fld_lt w 16 5
  have n16 := fld_lt w 0 16
  rcases hm with hm | hm | hm | hm
  all_goals
    simp only [decodeWord_scalar, hm, decodeMaj9, decodeMaj10, decodeMaj11, decodeMaj12] at h
    refine judge_rebuilds h fun _ => ?_
    exact ⟨by simp [Instr.wf]; omega, congrArg some (by simp; omega)⟩

theorem csr_rebuilds (hm : fld w 25 6 = 15) : Rebuilt w i := by
  have h1 := word_layout hw
  have h2 : fld w 0 21 = fld w 16 5 * 65536 + fld w 0 16 := fld_join w 0 16 5
  have h3 : fld w 0 16 = fld w 12 4 * 4096 + fld w 0 12 := fld_join w 0 12 4
  have d5 := fld_lt w 16 5
  simp only [decodeWord_scalar, hm, decodeMaj15] at h
  split at h
  case h_5 => cases h
  all_goals
    refine judge_rebuilds h fun legal => ?_
    simp at legal
    obtain ⟨ok, number⟩ := Csr.csrOf_of_isSome legal
    exact ⟨by simp [Instr.wf, ok]; omega, congrArg some (by simp [number]; omega)⟩

theorem branch_rebuilds (hm : fld w 25 6 = 17 ∨ fld w 25 6 = 18) : Rebuilt w i := by
  have h1 := word_layout hw
  rcases hm with hm | hm
  all_goals
    simp only [decodeWord_scalar, hm, decodeMaj17, decodeMaj18] at h
    refine judge_rebuilds h fun _ => ?_
    exact ⟨by simp [Instr.wf], congrArg some (by simp; omega)⟩

theorem loop_rebuilds (hm : fld w 25 6 = 20) : Rebuilt w i := by
  have h1 := word_layout hw
  have h2 := low_D w
  have h3 := low_A w
  have h4 : fld w 15 5 = fld w 18 2 * 8 + fld w 15 3 := fld_join w 15 3 2
  have n9 := fld_lt w 0 9
  simp only [decodeWord_scalar, hm, decodeMaj20] at h
  refine judge_rebuilds h fun legal => ?_
  simp at legal
  exact ⟨by simp [Instr.wf, legal]; omega, congrArg some (by simp; omega)⟩

theorem scalarLoad_rebuilds (hm : fld w 25 6 = 21) : Rebuilt w i := by
  have h1 := word_layout hw
  have h2 := low_D w
  have h3 := low_A w
  have h4 : fld w 0 9 = fld w 6 3 * 64 + fld w 0 6 := fld_join w 0 6 3
  have h5 : fld w 6 3 = fld w 7 2 * 2 + fld w 6 1 := fld_join w 6 1 2
  have z2 : fld w 7 2 < 4 := fld_lt w 7 2
  simp only [decodeWord_scalar, hm, decodeMaj21] at h
  refine judge_rebuilds h fun legal => ?_
  simp at legal
  exact ⟨by simp only [Instr.wf, MemSize.sx_iff, Bool.and_eq_true]; simpa [legal.1, legal.2.1, z2] using legal.2.2,
    congrArg some (by simp [legal, z2]; omega)⟩

theorem scalarStore_rebuilds (hm : fld w 25 6 = 22) : Rebuilt w i := by
  have h1 := word_layout hw
  have h2 := low_D w
  have h3 := low_A w
  have h4 : fld w 0 9 = fld w 6 3 * 64 + fld w 0 6 := fld_join w 0 6 3
  have h5 : fld w 6 3 = fld w 7 2 * 2 + fld w 6 1 := fld_join w 6 1 2
  have z2 : fld w 7 2 < 4 := fld_lt w 7 2
  have d5 : fld w 15 5 < 32 := fld_lt w 15 5
  simp only [decodeWord_scalar, hm, decodeMaj22] at h
  refine judge_rebuilds h fun legal => ?_
  simp at legal
  exact ⟨by simp [Instr.wf, legal, d5], congrArg some (by simp [z2]; omega)⟩

theorem nop_rebuilds (hm : fld w 25 6 = 0 ∨ fld w 25 6 = 37 ∨ fld w 25 6 = 61) : Rebuilt w i := by
  have h1 := nop_layout hw
  rcases hm with hm | hm | hm
  all_goals
    simp only [decodeWord_scalar, decodeWord_vector, decodeWord_matrix, hm, decodeMaj0, decodeMaj37, decodeMaj61] at h
    refine judge_rebuilds h fun legal => ?_
    simp at legal
    exact ⟨rfl, congrArg some (by simp; omega)⟩

theorem vectorFloat_rebuilds (hm : fld w 25 6 = 23 ∨ fld w 25 6 = 24 ∨ fld w 25 6 = 25 ∨ fld w 25 6 = 26) : Rebuilt w i := by
  have h1 := word_layout hw
  have h2 := low_D w
  have h3 := low_AB w
  have d5 : fld w 15 5 < 32 := fld_lt w 15 5
  rcases hm with hm | hm | hm | hm
  all_goals
    simp only [decodeWord_vector, hm] at h
    rcases fld_three w 0 with hf | hf | hf | hf | hf | hf | hf | hf
  all_goals simp only [decodeMaj23, decodeMaj24, decodeMaj25, decodeMaj26, hf] at h
  all_goals
    refine judge_rebuilds h fun legal => ?_
    simp at legal
    exact ⟨by simp [Instr.wf, legal, d5], congrArg some (by simp [legal]; omega)⟩

theorem vectorInt_rebuilds (hm : fld w 25 6 = 27 ∨ fld w 25 6 = 28 ∨ fld w 25 6 = 29 ∨ fld w 25 6 = 30) : Rebuilt w i := by
  have h1 := word_layout hw
  have h2 := low_D w
  have h3 := low_AB w
  rcases hm with hm | hm | hm | hm
  all_goals
    simp only [decodeWord_vector, hm] at h
    rcases fld_three w 0 with hf | hf | hf | hf | hf | hf | hf | hf
  all_goals simp only [decodeMaj27, decodeMaj28, decodeMaj29, decodeMaj30, hf, reduceCtorEq] at h
  all_goals
    refine judge_rebuilds h fun legal => ?_
    simp at legal
    exact ⟨by simp [Instr.wf, legal], congrArg some (by simp [legal]; omega)⟩

theorem vectorMove_rebuilds (hm : fld w 25 6 = 32 ∨ fld w 25 6 = 33 ∨ fld w 25 6 = 35 ∨ fld w 25 6 = 38) : Rebuilt w i := by
  have h1 := word_layout hw
  have h2 := low_D w
  have h3 := low_AB w
  have d5 : fld w 15 5 < 32 := fld_lt w 15 5
  rcases hm with hm | hm | hm | hm
  all_goals
    simp only [decodeWord_vector, hm] at h
    rcases fld_three w 0 with hf | hf | hf | hf | hf | hf | hf | hf
  all_goals simp only [decodeMaj32, decodeMaj33, decodeMaj35, decodeMaj38, hf, reduceCtorEq] at h
  all_goals
    refine judge_rebuilds h fun legal => ?_
    simp at legal
    exact ⟨by simp [Instr.wf, legal, d5], congrArg some (by simp [legal]; omega)⟩

theorem vcvt_rebuilds (hm : fld w 25 6 = 31) : Rebuilt w i := by
  have h1 := word_layout hw
  have h2 := low_D w
  have h3 := low_A w
  have h4 : fld w 0 9 = fld w 4 5 * 16 + fld w 0 4 := fld_join w 0 4 5
  have h5 : fld w 0 4 = fld w 1 3 * 2 + fld w 0 1 := fld_join w 0 1 3
  simp only [decodeWord_vector, hm, decodeMaj31] at h
  refine judge_rebuilds h fun legal => ?_
  simp at legal
  exact ⟨by simp [Instr.wf, legal], congrArg some (by simp [legal]; omega)⟩

theorem vspli_rebuilds (hm : fld w 25 6 = 34) : Rebuilt w i := by
  have h1 := word_layout hw
  have h2 : fld w 0 21 = fld w 16 5 * 65536 + fld w 0 16 := fld_join w 0 16 5
  have d5 := fld_lt w 16 5
  have n16 := fld_lt w 0 16
  simp only [decodeWord_vector, hm, decodeMaj34] at h
  refine judge_rebuilds h fun _ => ?_
  exact ⟨by simp [Instr.wf]; omega, congrArg some (by simp; omega)⟩

theorem vfmt_rebuilds (hm : fld w 25 6 = 36) : Rebuilt w i := by
  have h1 := word_layout hw
  have h2 : fld w 0 21 = fld w 16 5 * 65536 + fld w 0 16 := fld_join w 0 16 5
  have h3 : fld w 0 16 = fld w 6 10 * 64 + fld w 0 6 := fld_join w 0 6 10
  have h4 : fld w 0 6 = fld w 5 1 * 32 + fld w 0 5 := fld_join w 0 5 1
  simp only [decodeWord_vector, hm, decodeMaj36] at h
  refine judge_rebuilds h fun legal => ?_
  simp at legal
  exact ⟨by simp [Instr.wf], congrArg some (by simp [legal]; omega)⟩

theorem vectorLocal_rebuilds (hm : fld w 25 6 = 39 ∨ fld w 25 6 = 40) : Rebuilt w i := by
  have h1 := word_layout hw
  have h2 := low_D w
  have h3 := low_A w
  have f1 := fld_one_lt w 20
  have d5 : fld w 15 5 < 32 := fld_lt w 15 5
  rcases hm with hm | hm
  all_goals
    simp only [decodeWord_copy, hm, decodeMaj39, decodeMaj40] at h
    refine judge_rebuilds h fun legal => ?_
    simp at legal
    exact ⟨by simp [Instr.wf, legal, d5], congrArg some (by simp [f1]; omega)⟩

theorem gather_rebuilds (hm : fld w 25 6 = 41 ∨ fld w 25 6 = 42) : Rebuilt w i := by
  have h1 := word_layout hw
  have h2 := low_D w
  have h3 := low_A w
  have f1 := fld_one_lt w 20
  have d5 : fld w 15 5 < 32 := fld_lt w 15 5
  have h4 : fld w 0 9 = fld w 8 1 * 256 + fld w 0 8 := fld_join w 0 8 1
  have h5 : fld w 0 8 = fld w 5 3 * 32 + fld w 0 5 := fld_join w 0 5 3
  have x5 : fld w 0 5 < 32 := fld_lt w 0 5
  rcases hm with hm | hm
  all_goals
    simp only [decodeWord_copy, hm, decodeMaj41, decodeMaj42] at h
    refine judge_rebuilds h fun legal => ?_
    simp at legal
    exact ⟨by simp [Instr.wf, legal, d5, x5], congrArg some (by simp [f1]; omega)⟩

theorem far_rebuilds (hm : fld w 25 6 = 44 ∨ fld w 25 6 = 45 ∨ fld w 25 6 = 46 ∨ fld w 25 6 = 47) : Rebuilt w i := by
  have h1 := word_layout hw
  have h2 := low_D w
  have h3 := low_A w
  have f1 := fld_one_lt w 20
  have d5 : fld w 15 5 < 32 := fld_lt w 15 5
  have n9 : fld w 0 9 < 512 := fld_lt w 0 9
  rcases hm with hm | hm | hm | hm
  all_goals
    simp only [decodeWord_copy, hm, decodeMaj44, decodeMaj45, decodeMaj46, decodeMaj47] at h
    refine judge_rebuilds h fun legal => ?_
    simp at legal
    exact ⟨by simp [Instr.wf, legal, d5, n9], congrArg some (by simp [f1]; omega)⟩

theorem message_rebuilds (hm : fld w 25 6 = 48 ∨ fld w 25 6 = 49) : Rebuilt w i := by
  have h1 := word_layout hw
  have h2 := low_D w
  have h3 : fld w 0 15 = fld w 11 4 * 2048 + fld w 0 11 := fld_join w 0 11 4
  have f1 := fld_one_lt w 20
  have d5 : fld w 15 5 < 32 := fld_lt w 15 5
  have x4 : fld w 11 4 < 16 := fld_lt w 11 4
  have n11 : fld w 0 11 < 2048 := fld_lt w 0 11
  rcases hm with hm | hm
  all_goals
    simp only [decodeWord_copy, hm, decodeMaj48, decodeMaj49] at h
    refine judge_rebuilds h fun legal => ?_
    simp at legal
    exact ⟨by simp [Instr.wf, legal, d5, x4, n11], congrArg some (by simp [f1]; omega)⟩

theorem push_rebuilds (hm : fld w 25 6 = 50) : Rebuilt w i := by
  have h1 := word_layout hw
  have h2 := low_D w
  have h3 : fld w 0 15 = fld w 14 1 * 16384 + fld w 0 14 := fld_join w 0 14 1
  have h5 : fld w 0 14 = fld w 11 3 * 2048 + fld w 0 11 := fld_join w 0 11 3
  have h4 : fld w 0 11 = fld w 7 4 * 128 + fld w 0 7 := fld_join w 0 7 4
  have d5 : fld w 15 5 < 32 := fld_lt w 15 5
  have p4 : fld w 7 4 < 16 := fld_lt w 7 4
  simp only [decodeWord_copy, hm, decodeMaj50] at h
  refine judge_rebuilds h fun legal => ?_
  simp at legal
  exact ⟨by simp [Instr.wf, legal, d5, p4], congrArg some (by simp; omega)⟩

theorem pop_rebuilds (hm : fld w 25 6 = 51) : Rebuilt w i := by
  have h1 := word_layout hw
  have h2 := low_D w
  have h3 : fld w 0 15 = fld w 11 4 * 2048 + fld w 0 11 := fld_join w 0 11 4
  have h4 : fld w 0 11 = fld w 7 4 * 128 + fld w 0 7 := fld_join w 0 7 4
  have d5 : fld w 15 5 < 32 := fld_lt w 15 5
  have x4 : fld w 11 4 < 16 := fld_lt w 11 4
  have p4 : fld w 7 4 < 16 := fld_lt w 7 4
  have n7 : fld w 0 7 < 128 := fld_lt w 0 7
  have hs : fld w 20 1 = 0 ∨ fld w 20 1 = 1 := by have := fld_one_lt w 20; omega
  rcases hs with hs | hs
  all_goals
    simp only [decodeWord_copy, hm, decodeMaj51, hs] at h
    refine judge_rebuilds h fun legal => ?_
    simp at legal
    exact ⟨by simp [Instr.wf, legal, d5, x4, p4, n7], congrArg some (by simp; omega)⟩

theorem move_rebuilds (hm : fld w 25 6 = 43) : Rebuilt w i := by
  have h1 := word_layout hw
  have h2 := low_D w
  have h3 := low_AB w
  have h4 : fld w 3 6 = fld w 8 1 * 32 + fld w 3 5 := fld_join w 3 5 1
  have l5 : fld w 3 5 < 32 := fld_lt w 3 5
  simp only [decodeWord_copy, hm] at h
  rcases fld_three w 0 with hf | hf | hf | hf | hf | hf | hf | hf
  all_goals
    simp only [decodeMaj43, hf] at h
    refine judge_rebuilds h fun legal => ?_
    simp at legal
    exact ⟨by simp [Instr.wf, legal, l5], congrArg some (by simp [legal]; omega)⟩

theorem ring_rebuilds (hm : fld w 25 6 = 52) : Rebuilt w i := by
  have h1 := word_layout hw
  have h2 := low_D w
  have h3 := low_AB w
  simp only [decodeWord_copy, hm] at h
  rcases fld_three w 0 with hf | hf | hf | hf | hf | hf | hf | hf
  all_goals simp only [decodeMaj52, hf] at h
  case inl =>
    refine judge_rebuilds h fun legal => ?_
    simp at legal
    obtain ⟨w1, b6, octet, ha⟩ := legal
    have := octet_toNat octet
    exact ⟨by simp [Instr.wf, ha], congrArg some (by simp; omega)⟩
  case inr.inl =>
    refine judge_rebuilds h fun legal => ?_
    simp at legal
    obtain ⟨w1, d5, ha, octet⟩ := legal
    have := octet_toNat octet
    exact ⟨by simp [Instr.wf, ha], congrArg some (by simp; omega)⟩
  case inr.inr.inr.inr.inr.inr.inr =>
    split at h
    case h_3 => cases h
    all_goals
      refine judge_rebuilds h fun legal => ?_
      simp at legal
      exact ⟨by simp [Instr.wf], congrArg some (by simp; omega)⟩
  all_goals
    refine judge_rebuilds h fun legal => ?_
    simp at legal
    exact ⟨by simp [Instr.wf, legal], congrArg some (by simp [legal]; omega)⟩

theorem atomic_rebuilds (hm : fld w 25 6 = 53) : Rebuilt w i := by
  have h1 := word_layout hw
  have h2 := low_D w
  have h3 := low_AB w
  simp only [decodeWord_copy, hm] at h
  rcases fld_three w 0 with hf | hf | hf | hf | hf | hf | hf | hf
  all_goals
    simp only [decodeMaj53, hf] at h
    refine judge_rebuilds h fun legal => ?_
    simp at legal
    exact ⟨by simp [Instr.wf, legal], congrArg some (by simp [legal]; omega)⟩

theorem sync_rebuilds (hm : fld w 25 6 = 54) : Rebuilt w i := by
  have h1 := word_layout hw
  have h2 := low_D w
  have h3 := low_AB w
  have h4 : fld w 3 6 = fld w 6 3 * 8 + fld w 3 3 := fld_join w 3 3 3
  have d5 : fld w 15 5 < 32 := fld_lt w 15 5
  have b6 : fld w 3 6 < 64 := fld_lt w 3 6
  simp only [decodeWord_copy, hm] at h
  rcases fld_three w 0 with hf | hf | hf | hf | hf | hf | hf | hf
  all_goals
    simp only [decodeMaj54, hf] at h
    refine judge_rebuilds h fun legal => ?_
    simp at legal
    exact ⟨by simp [Instr.wf, legal, d5, b6], congrArg some (by simp [legal]; omega)⟩

theorem copyMisc_rebuilds (hm : fld w 25 6 = 55) : Rebuilt w i := by
  have h1 := word_layout hw
  have h2 := low_D w
  have h3 := low_AB w
  have h4 : fld w 3 6 = fld w 5 4 * 4 + fld w 3 2 := fld_join w 3 2 4
  have k2 : fld w 3 2 < 4 := fld_lt w 3 2
  simp only [decodeWord_copy, hm] at h
  rcases fld_three w 0 with hf | hf | hf | hf | hf | hf | hf | hf
  all_goals simp only [decodeMaj55, hf, reduceCtorEq] at h
  case inl =>
    have h5 : fld w 0 25 = fld w 3 22 * 8 + fld w 0 3 := fld_join w 0 3 22
    have h6 := nop_layout hw
    refine judge_rebuilds h fun legal => ?_
    simp at legal
    exact ⟨rfl, congrArg some (by simp; omega)⟩
  all_goals
    refine judge_rebuilds h fun legal => ?_
    simp at legal
    exact ⟨by simp [Instr.wf, legal, k2], congrArg some (by simp [legal]; omega)⟩

theorem mcfg_rebuilds (hm : fld w 25 6 = 56) : Rebuilt w i := by
  have h1 := word_layout hw
  have h2 : fld w 0 21 = fld w 16 5 * 65536 + fld w 0 16 := fld_join w 0 16 5
  have h3 : fld w 0 16 = fld w 11 5 * 2048 + fld w 0 11 := fld_join w 0 11 5
  simp only [decodeWord_matrix, hm, decodeMaj56] at h
  refine judge_rebuilds h fun legal => ?_
  simp at legal
  obtain ⟨ok, index⟩ := MField.mfieldOf_of_isSome legal.2.2
  exact ⟨by simp [Instr.wf, legal, ok], congrArg some (by simp [index]; omega)⟩

theorem matrix_rebuilds (hm : fld w 25 6 = 57 ∨ fld w 25 6 = 59) : Rebuilt w i := by
  have h1 := word_layout hw
  have h2 : fld w 0 21 = fld w 16 5 * 65536 + fld w 0 16 := fld_join w 0 16 5
  have h3 : fld w 0 16 = fld w 11 5 * 2048 + fld w 0 11 := fld_join w 0 11 5
  have h4 : fld w 0 11 = fld w 8 3 * 256 + fld w 0 8 := fld_join w 0 8 3
  have h5 : fld w 0 8 = fld w 2 6 * 4 + fld w 0 2 := fld_join w 0 2 6
  have h6 : fld w 2 6 = fld w 5 3 * 8 + fld w 2 3 := fld_join w 2 3 3
  have h7 : fld w 0 8 = fld w 4 4 * 16 + fld w 0 4 := fld_join w 0 4 4
  have h8 : fld w 0 8 = fld w 1 7 * 2 + fld w 0 1 := fld_join w 0 1 7
  have h9 : fld w 2 6 = fld w 7 1 * 32 + fld w 2 5 := fld_join w 2 5 1
  have c2 : fld w 0 2 < 4 := fld_lt w 0 2
  have m4 : fld w 0 4 < 16 := fld_lt w 0 4
  have u3 : fld w 2 3 < 8 := fld_lt w 2 3
  have x5 : fld w 2 5 < 32 := fld_lt w 2 5
  rcases hm with hm | hm
  all_goals
    simp only [decodeWord_matrix, hm] at h
    rcases fld_three w 8 with hf | hf | hf | hf | hf | hf | hf | hf
  all_goals
    simp only [decodeMaj57, decodeMaj59, hf] at h
    refine judge_rebuilds h fun legal => ?_
    simp at legal
    exact ⟨by simp [Instr.wf, legal, c2, m4, u3, x5], congrArg some (by simp [legal]; omega)⟩

theorem mfmt_rebuilds (hm : fld w 25 6 = 58) : Rebuilt w i := by
  have h1 := word_layout hw
  have h2 : fld w 0 21 = fld w 16 5 * 65536 + fld w 0 16 := fld_join w 0 16 5
  have h3 : fld w 0 16 = fld w 11 5 * 2048 + fld w 0 11 := fld_join w 0 11 5
  have h4 : fld w 0 11 = fld w 10 1 * 1024 + fld w 0 10 := fld_join w 0 10 1
  have h5 : fld w 0 10 = fld w 5 5 * 32 + fld w 0 5 := fld_join w 0 5 5
  simp only [decodeWord_matrix, hm, decodeMaj58] at h
  refine judge_rebuilds h fun legal => ?_
  simp at legal
  exact ⟨by simp [Instr.wf], congrArg some (by simp [legal]; omega)⟩

theorem mli_rebuilds (hm : fld w 25 6 = 60) : Rebuilt w i := by
  have h1 := word_layout hw
  have h2 : fld w 0 21 = fld w 16 5 * 65536 + fld w 0 16 := fld_join w 0 16 5
  have n16 : fld w 0 16 < 65536 := fld_lt w 0 16
  simp only [decodeWord_matrix, hm, decodeMaj60] at h
  refine judge_rebuilds h fun legal => ?_
  simp at legal
  exact ⟨by simp [Instr.wf, legal, n16], congrArg some (by simp; omega)⟩

theorem scalarMajor_rebuilds (hm : fld w 25 6 < 23) : Rebuilt w i := by
  have cases : fld w 25 6 = 0 ∨ (fld w 25 6 = 1 ∨ fld w 25 6 = 2 ∨ fld w 25 6 = 3 ∨ fld w 25 6 = 13 ∨ fld w 25 6 = 14 ∨
      fld w 25 6 = 16) ∨ (fld w 25 6 = 4 ∨ fld w 25 6 = 5 ∨ fld w 25 6 = 6 ∨ fld w 25 6 = 7) ∨ fld w 25 6 = 8 ∨ (fld w 25 6
      = 9 ∨ fld w 25 6 = 10 ∨ fld w 25 6 = 11 ∨ fld w 25 6 = 12) ∨ fld w 25 6 = 15 ∨ (fld w 25 6 = 17 ∨ fld w 25 6 = 18) ∨
      fld w 25 6 = 19 ∨ fld w 25 6 = 20 ∨ fld w 25 6 = 21 ∨ fld w 25 6 = 22 := by omega
  rcases cases with hm | hm | hm | hm | hm | hm | hm | hm | hm | hm | hm
  · exact nop_rebuilds hw h (by omega)
  · exact scalarFunction_rebuilds hw h hm
  · exact scalarImmediate_rebuilds hw h hm
  · exact shift_rebuilds hw h hm
  · exact wide_rebuilds hw h hm
  · exact csr_rebuilds hw h hm
  · exact branch_rebuilds hw h hm
  · exact control_rebuilds hw h hm
  · exact loop_rebuilds hw h hm
  · exact scalarLoad_rebuilds hw h hm
  · exact scalarStore_rebuilds hw h hm

theorem vectorMajor_rebuilds (h0 : 23 ≤ fld w 25 6) (hm : fld w 25 6 < 39) : Rebuilt w i := by
  have cases : fld w 25 6 = 37 ∨ (fld w 25 6 = 23 ∨ fld w 25 6 = 24 ∨ fld w 25 6 = 25 ∨ fld w 25 6 = 26) ∨ (fld w 25 6 =
      27 ∨ fld w 25 6 = 28 ∨ fld w 25 6 = 29 ∨ fld w 25 6 = 30) ∨ fld w 25 6 = 31 ∨ (fld w 25 6 = 32 ∨ fld w 25 6 = 33 ∨ fld
      w 25 6 = 35 ∨ fld w 25 6 = 38) ∨ fld w 25 6 = 34 ∨ fld w 25 6 = 36 := by omega
  rcases cases with hm | hm | hm | hm | hm | hm | hm
  · exact nop_rebuilds hw h (by omega)
  · exact vectorFloat_rebuilds hw h hm
  · exact vectorInt_rebuilds hw h hm
  · exact vcvt_rebuilds hw h hm
  · exact vectorMove_rebuilds hw h hm
  · exact vspli_rebuilds hw h hm
  · exact vfmt_rebuilds hw h hm

theorem copyMajor_rebuilds (h0 : 39 ≤ fld w 25 6) (hm : fld w 25 6 < 56) : Rebuilt w i := by
  have cases : (fld w 25 6 = 39 ∨ fld w 25 6 = 40) ∨ (fld w 25 6 = 41 ∨ fld w 25 6 = 42) ∨ fld w 25 6 = 43 ∨ (fld w 25 6 =
      44 ∨ fld w 25 6 = 45 ∨ fld w 25 6 = 46 ∨ fld w 25 6 = 47) ∨ (fld w 25 6 = 48 ∨ fld w 25 6 = 49) ∨ fld w 25 6 = 50 ∨
      fld w 25 6 = 51 ∨ fld w 25 6 = 52 ∨ fld w 25 6 = 53 ∨ fld w 25 6 = 54 ∨ fld w 25 6 = 55 := by omega
  rcases cases with hm | hm | hm | hm | hm | hm | hm | hm | hm | hm | hm
  · exact vectorLocal_rebuilds hw h hm
  · exact gather_rebuilds hw h hm
  · exact move_rebuilds hw h hm
  · exact far_rebuilds hw h hm
  · exact message_rebuilds hw h hm
  · exact push_rebuilds hw h hm
  · exact pop_rebuilds hw h hm
  · exact ring_rebuilds hw h hm
  · exact atomic_rebuilds hw h hm
  · exact sync_rebuilds hw h hm
  · exact copyMisc_rebuilds hw h hm

theorem matrixMajor_rebuilds (h0 : 56 ≤ fld w 25 6) (hm : fld w 25 6 < 62) : Rebuilt w i := by
  have cases : fld w 25 6 = 61 ∨ fld w 25 6 = 56 ∨ (fld w 25 6 = 57 ∨ fld w 25 6 = 59) ∨ fld w 25 6 = 58 ∨ fld w 25 6 = 60
      := by omega
  rcases cases with hm | hm | hm | hm | hm
  · exact nop_rebuilds hw h (by omega)
  · exact mcfg_rebuilds hw h hm
  · exact matrix_rebuilds hw h hm
  · exact mfmt_rebuilds hw h hm
  · exact mli_rebuilds hw h hm

end

theorem decodeWord_reserved {w : Nat} (h : 62 ≤ fld w 25 6) : decodeWord w = .illegal .badMajor := by
  have := fld_lt w 25 6
  have hm : fld w 25 6 = 62 ∨ fld w 25 6 = 63 := by omega
  rcases hm with hm | hm
  all_goals
    rw [decodeWord, hm]
    rfl

end Sys2Proof

namespace Sys2Proof.Machine

/-- Settles O2, by the major of the word: the fields that a branch of the decoder reads, with those that its checks hold to zero, are
the whole of the word. -/
theorem decodeThenEncode : Obligations.DecodeThenEncode := by
  intro i w hw h
  by_cases h23 : fld w 25 6 < 23
  · exact scalarMajor_rebuilds hw h h23
  by_cases h39 : fld w 25 6 < 39
  · exact vectorMajor_rebuilds hw h (by omega) h39
  by_cases h56 : fld w 25 6 < 56
  · exact copyMajor_rebuilds hw h (by omega) h56
  by_cases h62 : fld w 25 6 < 62
  · exact matrixMajor_rebuilds hw h (by omega) h62
  · rw [decodeWord_reserved (by omega)] at h
    cases h

end Sys2Proof.Machine
end

section
/-! PROOFS. Words of the spec and words it refuses (R64, R65, R66, R73, R75). -/

namespace Sys2Proof

section
variable {w : Nat} {i : Instr} (h : decodeWord w = .ok i)
include h

/-- What the checks of an ALU word let pass (R65, R66). -/
theorem alu_legal (hm : fld w 25 6 = 1) : (fld w 20 1 = 0 ∨ fld w 15 5 = 0) ∧ fld w 9 6 < 40 ∧ fld w 3 6 < 40 := by
  simp only [decodeWord_scalar, hm] at h
  rcases fld_three w 0 with hf | hf | hf | hf | hf | hf | hf | hf
  all_goals
    simp only [decodeMaj1, hf] at h
    simpa using (judge_eq_ok.1 h).2

/-- A scalar compare has a destination other than p0 (R65). -/
theorem compare_dest_pos (hm : fld w 25 6 = 13) : 0 < fld w 15 5 := by
  simp only [decodeWord_scalar, hm] at h
  rcases fld_three w 0 with hf | hf | hf | hf | hf | hf | hf | hf
  all_goals simp only [decodeMaj13, hf, reduceCtorEq] at h
  all_goals
    have legal := (judge_eq_ok.1 h).2
    simp at legal
    exact legal.2.1.1

end

end Sys2Proof

namespace Sys2Proof.Machine

/-- Settles O3: each word is the word of its syllable, and every well-formed syllable decodes from its own word (O1). -/
theorem wordsOfTheSpec : Obligations.WordsOfTheSpec := by
  unfold Obligations.WordsOfTheSpec
  constructorm* _ ∧ _
  all_goals exact encodeThenDecode _ _ rfl rfl

/-- Settles O4, from the checks that a word of the major has passed when it decodes. -/
theorem illegalEncodings : Obligations.IllegalEncodings := by
  refine ⟨fun w _ => decodeWord_reserved, fun w hm ha i h => ?_, fun w hm hb i h => ?_, fun w hm hd i h => ?_,
    fun w hm hs hd i h => ?_⟩
  · have := (alu_legal h hm).2.1
    omega
  · have := (alu_legal h hm).2.2
    omega
  · have := compare_dest_pos h hm
    omega
  · have := (alu_legal h hm).1
    omega

end Sys2Proof.Machine
end
